-- ==== Sys2Proof/Word.lean ====
section
/-! DEFINITION. The word and byte types of the block and the plainest bit arithmetic on natural numbers. -/

namespace Sys2Proof

/-- A 32-bit register word (R3). -/
abbrev Word := BitVec 32

/-- A byte of a card, SPI or link string, or of memory. -/
abbrev Byte := BitVec 8

/-- Slot channel S00–S63 (R2). -/
abbrev SlotId := Fin 64
/-- Bank BK00–BK15 (R2). -/
abbrev BankId := Fin 16
/-- Ring pair 0–511 (R2). -/
abbrev RingId := Fin 512
/-- Ember job context JC0–JC7 (R2). -/
abbrev CtxId := Fin 8
/-- Host port: 0 is port A, 1 is port B (R2). -/
abbrev PortId := Fin 2
/-- Supply rail 0–23 (R327). -/
abbrev RailId := Fin 24
/-- Group device 0–3 (R2). -/
abbrev DevId := Fin 4
/-- Kuzagan port KZ0–KZ2 (R2). -/
abbrev KzId := Fin 3
/-- Fabric lane FL00–FL19 (R2). -/
abbrev LaneId := Fin 20

end Sys2Proof
end

