-- ==== Sys2Proof/Syntax.lean ====
section
/-! DEFINITION. The commands of the block: one constructor for each row of the opcode table, in its order, with the
row's operands, and the small types those operands use. -/

namespace Sys2Proof

/-- The three paths into the register space (R8): the two host ports and the management SPI. -/
inductive Path where
  | portA | portB | spi
  deriving DecidableEq, Repr

/-- A register window (R241): the Ember result window of a context, or the mailbox result window. -/
inductive Window where
  | ember (c : CtxId)
  | mailbox
  deriving DecidableEq, Repr

/-- A window monitor (R186). -/
inductive MonId where
  | vmon (n : SlotId)
  | imon (n : SlotId)
  | iomon (n : SlotId)
  | pmon (n : Fin 4)
  | bmon (b : BankId)
  | rmon (r : Fin 5)
  deriving DecidableEq, Repr

/-- A read or write request: its size in bytes, and its direction (R6, R462). -/
structure Request where
  size : Nat
  isWrite : Bool
  deriving DecidableEq, Repr

/-- A part of a data word of a window: `size` bytes from byte `off` on (R6, R241). -/
structure WordPart where
  w : Window
  off : Nat
  size : Nat
  deriving DecidableEq, Repr

/-- A sample of a window monitor's input (R186–R189): a voltage in µV, for IMON a current in µA; for IOMON also VCC as measured
at the ball, in µV. -/
structure Sample where
  v : Int
  vcc : Int
  deriving DecidableEq, Repr

/-- A slot and samples of one of its monitors, the first taken first. -/
structure SlotSamples where
  n : SlotId
  samples : List Sample
  deriving DecidableEq, Repr

/-- A monitor and samples of it, the first taken first. -/
structure MonSamples where
  m : MonId
  samples : List Sample
  deriving DecidableEq, Repr

/-- A monitor and an input that its comparators see between two samples (R204). -/
structure MonInput where
  m : MonId
  input : Sample
  deriving DecidableEq, Repr

/-- A slot and the character of a sent run, counted from 0, whose error the card signals (R143). -/
structure CharSignal where
  n : SlotId
  index : Nat
  deriving DecidableEq, Repr

/-- A slot and the bits that arrive on its lane, the first sent first (R169). -/
structure SlotBits where
  n : SlotId
  bits : List Bool
  deriving DecidableEq, Repr

/-- A side of a rick cell measured (R75–R77): low side, and the raw on-resistances in 1/16 Ω. -/
structure CellSide where
  lowSide : Bool
  raws : List Nat
  deriving DecidableEq, Repr

/-- A side of a leg measured at RAMP or on request (R75–R77): leg index, low side, the temperature in °C of the nearest die sensor,
up to three raw on-resistances in 1/16 Ω, the second and third taken where the first fell outside its window, and the sides of the
candidate rick cell measured before a claim. -/
structure LegReading where
  leg : Fin 12
  lowSide : Bool
  tj : Int
  raws : List Nat
  cell : List CellSide
  deriving DecidableEq, Repr

/-- A side of a free rick cell measured at a bank power-up (R76): cell kind (0 supply, 1 signal, 2 lane), temperature, and values. -/
structure CellReading where
  kind : Fin 3
  tj : Int
  side : CellSide
  deriving DecidableEq, Repr

/-- Stoker's policy decision on an ATR (R95). -/
inductive Policy where
  | accept
  | reject
  deriving DecidableEq, Repr

/-- What a failed DMA transfer of a ring served (R237). -/
inductive DmaTarget where
  | sqRead
  | cqWrite
  | buffer (index : Nat)
  deriving DecidableEq, Repr

/-- How a PMBus transaction ended on the bus (R347, R348): acknowledged, with the bytes the regulator sent, its PEC last, or not
acknowledged. -/
inductive PmbResult where
  | ack (bytes : List Byte)
  | nack
  deriving DecidableEq, Repr

/-- Kind of an SRAM ECC error (R373). -/
inductive EccKind where
  | corrected (row : Nat)
  | uncorrectable
  deriving DecidableEq, Repr

/-- A unit that Ash can fence (R381). -/
inductive FUnit where
  | slot (n : SlotId)
  | bank (b : BankId)
  | ctx (c : CtxId)
  | lane (l : LaneId)
  | group (g : Fin 256)
  | port (x : PortId)
  | peer (d : DevId)
  deriving DecidableEq, Repr

/-- Kind of a PCIe error (R464). -/
inductive PcieErr where
  | correctable
  | uncorrectable
  | fatal
  deriving DecidableEq, Repr

/-- Kind of an unsupported inbound request (R462). -/
inductive InboundKind where
  | ioRequest
  | type1Config
  | messageWithData
  deriving DecidableEq, Repr

/-- Priority class of a Kuzagan frame (R47). -/
inductive KzClass where
  | seq
  | fault
  | traffic
  deriving DecidableEq, Repr

/-- The commands (events, accesses and operations) the block takes, one constructor for each row of the opcode table. -/
inductive Instr where
  /-- REGISTER_WRITE (R9). A host port or SPI write to a register that has no row of its own updates its writable fields according to their access codes. -/
  | registerWrite (p : Path) (addr size value : Nat)
  /-- UNMAPPED_ACCESS (R6). An access to an address that holds no register, or to a block whose domain is off, reads zero or is discarded. A read request at any address runs as what it meets (R6, R7, R462). -/
  | unmappedAccess (p : Path) (addr : Nat) (req : Request)
  /-- RESULT_LAST_WORD_READ (R243). A read of the last data word of a one-shot result window consumes the result, and the window then reads CONSUMED. -/
  | resultLastWordRead (p : Path) (part : WordPart)
  /-- COLD_RESET (R11). VAON rises through its power-on threshold and all registers, volatile memory and AON logic return to their reset values. -/
  | coldReset
  /-- WARM (R390). WARM in ASH_CMD with the correct KEY starts a warm device reset, which is refused while TAMPER_N is asserted. -/
  | warm (p : Path) (key : Nat)
  /-- WARM_RESET_PROCEED (R112). Once every slot is inactive, the warm device reset proceeds: it zeroises the key store, resets rings and contexts, and re-applies the base image. -/
  | warmResetProceed
  /-- LIFT_PORT (R381). LIFT_PORT in ASH_CMD lifts a host port fence raised by source 0x44. -/
  | liftPort (p : Path) (key : Nat) (ports : Nat)
  /-- ACTIVATE (R89). The ACTIVATE command sets ACT_PEND and requests inrush budget, or is refused outside OFF. -/
  | activate (p : Path) (n : SlotId)
  /-- WARM_RESET (R100). The WARM_RESET command retires the session keys and lowers RST to start a warm reset of the card, or waits in EXCH_WAIT while the slot is BUSY. -/
  | warmReset (p : Path) (n : SlotId) (force : Bool)
  /-- DEACTIVATE (R101). The DEACTIVATE command starts the commanded deactivation, withdraws a pending activation, or waits in EXCH_WAIT while the slot is BUSY. -/
  | deactivate (p : Path) (n : SlotId) (force : Bool)
  /-- SLOT_RESET (R111). The SLOT_RESET command resets the slot's registers, first deactivating the slot with FORCE if it is active. -/
  | slotReset (p : Path) (n : SlotId)
  /-- FORCE (R110). FORCE written alone makes a command that waits in EXCH_WAIT run at once. -/
  | force (p : Path) (n : SlotId)
  /-- LEG_MEAS_REQ (R82). MEAS_REQ in HTH_LEG_CMD requests a leg measurement, which is refused outside OFF or ABSENT. -/
  | legMeasReq (p : Path) (n : SlotId)
  /-- PRES_RISE (R88). The filtered presence rises: the slot leaves ABSENT for OFF and starts the insertion timer. -/
  | presRise (x : SlotSamples)
  /-- REMOVAL (R103). The filtered presence falls and the removal sequence takes the slot inactive. -/
  | removal (x : SlotSamples)
  /-- IMON_HIGH (R105). IMON moves to current high while armed, and the simultaneous sequence runs with cause SHORT. -/
  | imonHigh (x : SlotSamples)
  /-- VMON_FAULT (R200). VMON moves to fault while armed, and the slot runs the simultaneous sequence with cause VCC_FAULT. -/
  | vmonFault (n : SlotId) (samples : List Sample)
  /-- IOMON_FAULT (R200). IOMON moves to fault while armed, and the slot runs the simultaneous sequence with cause IO_FAULT. -/
  | iomonFault (n : SlotId) (samples : List Sample)
  /-- BMON_FAULT (R200). The bank monitor moves to the alarm side, which is handled as a rail failure of the bank. -/
  | bmonFault (b : BankId) (samples : List Sample)
  /-- RMON_ALARM (R200). A rail monitor moves to the alarm side, and an event is sent to Ash. -/
  | rmonAlarm (r : Fin 5) (samples : List Sample)
  /-- MONITOR_GOOD (R192). A monitor's majority filter moves to the good side and sets DECIDED. -/
  | monitorGood (x : MonSamples)
  /-- RAW_SEEN (R204). A comparator excursion beyond a trip threshold sets RAW_SEEN, and on an RMON with GLITCH_EV sends a glitch event. -/
  | rawSeen (x : MonInput)
  /-- MON_SETTLE_EXPIRY (R198). DRG_MON_SETTLE expires with a monitor undecided: UNDECIDED is set, and an undecided bank monitor fails its bank. -/
  | monSettleExpiry (dom : Fin 20)
  /-- MONITOR_MODE_WRITE (R196). A write to MODE, or a change of regime, changes the response mode and holds the filter for a blanking time. -/
  | monitorModeWrite (p : Path) (m : MonId) (mode : Nat)
  /-- MONITOR_BLANK_END (R196). The blanking time after a mode change ends, and sampling resumes with the kept history. -/
  | monitorBlankEnd (m : MonId)
  /-- LATCHED_CLEAR (R203). A W1C write to LATCHED clears it, unless the filtered state is on the alarm side. -/
  | latchedClear (p : Path) (m : MonId)
  /-- INSERTION_TIMER_EXPIRY (R88). INS_DELAY expires, and INS_PEND clears, allowing or triggering activation. -/
  | insertionTimerExpiry (n : SlotId)
  /-- INRUSH_BUDGET_GRANT (R91). The damper grants inrush budget and the slot enters RAMP and starts leg measurement. -/
  | inrushBudgetGrant (n : SlotId)
  /-- LEG_MEASUREMENT_END (R77). A leg measurement ends: legs are judged, and the VCC switch closes or the slot becomes a clinker. -/
  | legMeasurementEnd (n : SlotId) (readings : List LegReading)
  /-- VCC_GOOD (R201). VMON decides good and the ramp ends: CLK starts at ACT_CLK and the slot enters CLOCKED. -/
  | vccGood (x : SlotSamples)
  /-- VCC_TMO (R92). VCC is not good by VCC_TMO, and the simultaneous sequence runs with cause VCC_FAULT. -/
  | vccTmo (n : SlotId)
  /-- RST_RISE (R88). RST_LOW_CYC cycles elapse: RST rises, the ATR window opens and the slot enters ATR_WAIT. -/
  | rstRise (n : SlotId)
  /-- ATR_CHAR_RECEIVED (R128). An ATR character is received and stored, and the ATR is judged as complete or invalid. -/
  | atrCharReceived (n : SlotId) (byte : Byte) (parityOk : Bool) (inWindow : Bool)
  /-- ATR_WINDOW_CLOSE (R93). No start bit arrives within 40,000 cycles, and the slot deactivates with cause NO_ATR or CLASS_NEXT. -/
  | atrWindowClose (n : SlotId)
  /-- INITIAL_WT_EXPIRY (R137). The initial waiting time of 9600 ETU expires during the ATR or the PPS response. -/
  | initialWtExpiry (n : SlotId)
  /-- POLICY_DECISION (R95). Stoker's decision on the ATR arrives: the class decision is taken and PPS starts, or the slot deactivates. -/
  | policyDecision (n : SlotId) (decision : Policy)
  /-- POLICY_TIMEOUT (R95). No Stoker decision arrives within 5 ms, and the slot deactivates with cause POLICY_TIMEOUT. -/
  | policyTimeout (n : SlotId)
  /-- NEG_TMO (R96). NEG_TMO expires before READY, and the slot deactivates with cause NEG_TIMEOUT. -/
  | negTmo (n : SlotId)
  /-- INACTIVE_RISE (R108). INACTIVE rises at the end of DEACTIVATING: the cause is recorded, REACT_MIN starts and the next state is taken. -/
  | inactiveRise (n : SlotId)
  /-- REACT_MIN_EXPIRY (R89). REACT_MIN elapses, which allows a pending or scheduled activation or the next class attempt. -/
  | reactMinExpiry (n : SlotId)
  /-- CLOCK_CHANGE (R127). At the first CLK falling edge 12 ETU after the reference point, the new F, D and f take effect. -/
  | clockChange (n : SlotId)
  /-- PPS_RESPONSE_RECEIVED (R134). The PPS response is judged: PPS succeeds, or the slot deactivates with NEG_FAIL. -/
  | ppsResponseReceived (n : SlotId) (bytes : List Byte) (parityOk : Bool)
  /-- T0_CHAR_RECEIVED (R141). A character under T=0 is received and acted on as a procedure byte, status word or data. -/
  | t0CharReceived (n : SlotId) (byte : Byte) (parityOk : Bool)
  /-- T0_ERROR_SIGNAL (R143). The card signals a parity error on a transmitted character, and the character is repeated or the exchange ends. -/
  | t0ErrorSignal (x : CharSignal)
  /-- WT_EXPIRY (R137). The T=0 waiting time expires, and the exchange ends with TIMEOUT_CARD. -/
  | wtExpiry (n : SlotId)
  /-- T1_BLOCK_RECEIVED (R149). A card block is received and judged valid or invalid, which advances the protocol or starts recovery. -/
  | t1BlockReceived (n : SlotId) (bytes : List Byte) (parityOk : Bool)
  /-- CWT_EXPIRY (R145). CWT expires within a card block, and the block is invalid. -/
  | cwtExpiry (n : SlotId)
  /-- BWT_EXPIRY (R149). BWT expires with no card block, and the device sends a recovery block or resynchronises. -/
  | bwtExpiry (n : SlotId)
  /-- PHASE_A_START (R162). The device drives Phase A of a training attempt at the chosen rate. -/
  | phaseAStart (n : SlotId)
  /-- PHASE_B_RECEIVED (R163). Phase B from the module ends and is compared with PRBS-15, and LINK_UP is sent or the attempt fails. -/
  | phaseBReceived (n : SlotId) (bits : List Bool)
  /-- PHASE_B_TIMEOUT (R164). The Phase B SFD does not arrive in time, and the attempt fails with FAIL_PHASE 1. -/
  | phaseBTimeout (n : SlotId)
  /-- LINK_UP_ACK_RX (R162). LINK_UP_ACK is received, and the lane reads UP. -/
  | linkUpAckRx (x : SlotBits)
  /-- LINK_UP_ACK_TIMEOUT (R164). LINK_UP_ACK is missing at step 6, so the attempt fails and falls back or the lane goes DOWN. -/
  | linkUpAckTimeout (n : SlotId)
  /-- TURF_DATA_RX (R176). A valid DATA frame is received: with the current SEQ it ends the exchange, otherwise it is discarded. -/
  | turfDataRx (n : SlotId) (lead frame : List Bool)
  /-- TURF_NAK_RX (R176). A NAK is received, and the command frame is sent again. -/
  | turfNakRx (n : SlotId) (bits : List Bool)
  /-- TURF_WAIT_RX (R175). A WAIT frame restarts the frame timeout, up to WAIT_LIM times. -/
  | turfWaitRx (n : SlotId) (bits : List Bool)
  /-- TURF_LINK_DOWN_RX (R179). A valid LINK_DOWN is received, and the lane is lost. -/
  | turfLinkDownRx (x : SlotBits)
  /-- TURF_INVALID_FRAME (R173). An invalid frame is counted, and the command is sent again. -/
  | turfInvalidFrame (n : SlotId) (bits : List Bool)
  /-- FRAME_TIMEOUT (R175). TFTO expires, FTO is set, and the command is sent again or the lane is lost. -/
  | frameTimeout (n : SlotId)
  /-- TURF_RETX (R176). A retransmission of the command frame starts after the module's TRN. -/
  | turfRetx (n : SlotId)
  /-- RETRAIN (R180). 100 ms after a loss, with the slot idle in READY, the device sends RESUME and retrains. -/
  | retrain (n : SlotId)
  /-- DOZE_IDLE_EXPIRY (R181). The lane has been idle for DOZE_IDLE ms: LINK_DOWN is sent and the lane enters DOZE. -/
  | dozeIdleExpiry (n : SlotId)
  /-- SQ_DOORBELL (R215). A write of the SQ doorbell sets the new tail, or is discarded with DB_ERR. -/
  | sqDoorbell (p : Path) (r : RingId) (value : Nat)
  /-- CQ_DOORBELL (R215). A write of the CQ doorbell releases completions and lets waiting completions be written. -/
  | cqDoorbell (p : Path) (r : RingId) (value : Nat)
  /-- ENTRY_RECEIVED (R217). The DMA read of submission entries completes, and the entries are held in the device. -/
  | entryReceived (r : RingId) (entries : List (List Byte))
  /-- ADMISSION_ROUND (R225). The scheduler visits rings with candidates and requests tokens for admissible entries. -/
  | admissionRound
  /-- DAMPER_GRANT (R363). The damper grants a waiting request once its tokens suffice under the tier order. -/
  | damperGrant
  /-- COMMAND_PAYLOAD_RECEIVED (R25). The command payload arrives in staging, is wrapped by Cord, and the leg is queued. -/
  | commandPayloadReceived (r : RingId) (index : Nat) (payload : List Byte)
  /-- MCMD_BUDGET_GRANT (R30). Module-command budget is granted and the slot sends the command, entering BUSY. -/
  | mcmdBudgetGrant (n : SlotId)
  /-- DEADLINE_EXPIRY (R231). An entry's deadline expires: unsent entries end with TIMEOUT_RING, and sent ones later get DL_MISSED. -/
  | deadlineExpiry (r : RingId) (index : Nat)
  /-- BUDGET_CANCEL (R228). A candidate whose deferral exceeds DEFER_MAX ends with BUDGET. -/
  | budgetCancel (r : RingId)
  /-- COAL_TIME_EXPIRY (R221). COAL_TIME elapses since the first unsignalled completion, and the ring's MSI-X vector is raised. -/
  | coalTimeExpiry (r : RingId)
  /-- PORT_LOSS (R232). LOSS_TMO expires on a down link, and the port's rings are moved or orphaned. -/
  | portLoss (x : PortId)
  /-- PORT_SERVING_AGAIN (R235). A lost port serves again: source 0x45 lifts its fence and orphaned rings run again. -/
  | portServingAgain (x : PortId)
  /-- RING_EN (R210). Setting EN on a DISABLED defined ring moves it to RUNNING with CQ_PHASE 1. -/
  | ringEn (p : Path) (r : RingId) (ctl : Nat)
  /-- PAUSE (R237). The PAUSE command stops fetching and admission of a RUNNING ring. -/
  | pause (p : Path) (r : RingId)
  /-- RESUME (R237). The RESUME command restarts a PAUSED ring. -/
  | resume (p : Path) (r : RingId)
  /-- RESET (R238). A ring reset ends unsent entries without completion and enters RESETTING. -/
  | reset (p : Path) (r : RingId)
  /-- HANDBACK (R235). HANDBACK returns a moved ring to its image owner, and is refused if that owner's link is down. -/
  | handback (p : Path) (r : RingId)
  /-- RING_RESET_DONE (R238). The last sent entry of a resetting ring ends, and its registers reset to DISABLED. -/
  | ringResetDone (r : RingId)
  /-- DMA_ERROR (R237). A DMA error on the SQ or CQ moves the ring to ERROR, and one on a buffer ends the entry with PROTOCOL. -/
  | dmaError (r : RingId) (target : DmaTarget)
  /-- CLEAR_STALE (R259). The CLEAR_STALE command checks its conditions and clears a STALE bit or reports why not. -/
  | clearStale (p : Path) (handle : Nat) (leg : Bool) (gen : Nat)
  /-- REBUILD (R261). The REBUILD command triggers a rebuild of the preferred-leg plan. -/
  | rebuild (p : Path)
  /-- REBUILD_COMMIT (R261). Stoker commits a finished rebuild of the shadow bank, so a swap becomes pending. -/
  | rebuildCommit
  /-- EPOCH_SWAP (R263). At a ring-batch boundary the banks swap and the epoch rises, and MOVING entries redirect their legs. -/
  | epochSwap
  /-- COPYBACK_END (R263). The copy of the new active bank into the shadow bank ends. -/
  | copybackEnd
  /-- MOVE_END (R264). The move of a re-pointed route ends: MOVING clears and stalled rings go on. -/
  | moveEnd (elapsedUs : Nat)
  /-- LIVE_NOTICE_RX (R250). A LIVE_NOTICE from a peer updates the live bits of its slots. -/
  | liveNoticeRx (d : DevId) (mask : Nat)
  /-- REKEY_AGE_EXPIRY (R285). The session age reaches REKEY_HOURS, and REKEY_DUE is set. -/
  | rekeyAgeExpiry (n : SlotId)
  /-- REKEY_START (R285). A due session's REKEY exchanges are queued when the slot is idle in READY. -/
  | rekeyStart (n : SlotId)
  /-- REKEY_RETRY_EXPIRY (R287). REKEY_RETRY seconds after a failed REKEY, it is tried again. -/
  | rekeyRetryExpiry (n : SlotId)
  /-- ES_HEALTH_FAIL (R293). An entropy health test fails: ES_FAIL is set and the DRBG stops. -/
  | esHealthFail
  /-- ES_STARTUP_RETEST (R293). Every 100 ms the source repeats its start-up test, and on a pass the DRBG is reseeded. -/
  | esStartupRetest (pass : Bool)
  /-- DRBG_RESEED (R292). After 2^16 requests or 10 s, the DRBG is reseeded with 384 bits. -/
  | drbgReseed
  /-- TAMPER_N (R291). TAMPER_N is asserted: key store, DRBG and operand memory are zeroised, and the fatal event goes to Ash. -/
  | tamperN
  /-- GO (R316). GO on an IDLE or DONE context starts a job, which is checked or refused. -/
  | go (p : Path) (c : CtxId)
  /-- ABORT (R322). ABORT withdraws or wipes a job that has not started, or marks ABORT_PEND on a running one. -/
  | abort (p : Path) (c : CtxId)
  /-- LIST_CHECK_DONE (R309). The raw list check ends: B is known and tokens are requested, or the job ends with PROTOCOL. -/
  | listCheckDone (c : CtxId)
  /-- ARRAY_DISPATCH (R313). The free array takes the next queued or suspended job by age, remaining beats and GO order. -/
  | arrayDispatch
  /-- YIELD (R313). A running job reaches a YIELD and gives up the array, goes to WIPING on a pending abort, or runs on. -/
  | yield
  /-- END (R308). A job reaches END: the END pass and scratch wipe run, and its status is set. -/
  | jobEnd
  /-- WIPE_DONE (R322). The wipe of an aborted job ends, and the context reads DONE with ABORTED. -/
  | wipeDone (c : CtxId)
  /-- AGED (R313). A job waits AGE_MAX ms in QUEUED or SUSPENDED, and becomes AGED. -/
  | aged (c : CtxId)
  /-- COLUMN_FAULT (R323). A residue-check mismatch retires the column and restarts the job, or makes the array a clinker. -/
  | columnFault (col : Fin 17)
  /-- ECC_UE (R323). An uncorrectable operand memory error ends the job with FENCED and fences the context. -/
  | eccUe (c : CtxId)
  /-- EMBER_WATCHDOG (R323). A job holds the array beyond 1.25 × T + 10 µs, and its context is fenced. -/
  | emberWatchdog (c : CtxId)
  /-- DOWN (R337). The DOWN command starts a shutdown and clears UP_PEND. -/
  | down (p : Path)
  /-- UP (R339). The UP command sets UP_PEND, and in REDUCED it runs a shutdown and then a power-up. -/
  | up (p : Path)
  /-- COLD (R337). COLD over the management SPI starts a shutdown followed by a cold reset, and is refused from a host port. -/
  | cold (p : Path)
  /-- RETRY (R343). The RETRY command powers up a named failed rail at once. -/
  | retry (p : Path) (i : Fin 32)
  /-- PG_MAIN_LOST (R329). PG_MAIN stays low for MAIN_DGL, and a shutdown starts. -/
  | pgMainLost
  /-- PG_MAIN_GOOD (R339). PG_MAIN becomes good, which allows a pending power-up or sets MAIN_RETURN during a shutdown. -/
  | pgMainGood
  /-- CORE_COMMON_START (R331). A standalone or orphaned device sets the common start of its core stage. -/
  | coreCommonStart
  /-- EN_RISE (R336). A rail's ON_DLY elapses after the common start, and its enable rises. -/
  | enRise (i : RailId)
  /-- RAIL_GOOD (R328). A rail's PG stays high for the deglitch time and the rail is judged good, which may end a stage. -/
  | railGood (i : RailId)
  /-- PG_TMO (R336). A rail is not good by PG_TMO: its enable drops and it is handled as a failure to come up. -/
  | pgTmo (i : RailId)
  /-- RAIL_LOST (R341). A good rail's PG stays low for the deglitch time, and the action of the rail failure table runs. -/
  | railLost (i : RailId)
  /-- DOMAIN_UP (R334). A domain's switches close and its isolation is released once its conditions hold. -/
  | domainUp (k : Fin 20) (calOk : Bool) (cells : List CellReading)
  /-- PLL_LOCK (R36). The CK_CARD PLL reaches lock after PD16 powers up, and slots and Ember may run. -/
  | pllLock
  /-- OFF_START (R338). All slots are inactive, or 100 µs pass: plan domains are isolated and the plan enables begin to drop. -/
  | offStart
  /-- EN_DROP (R338). A rail's OFF_DLY elapses after its off start, and its enable drops. -/
  | enDrop (i : RailId)
  /-- CORE_OFF_START (R338). The core off start arrives, and PD16 to PD19 are isolated. -/
  | coreOffStart
  /-- STUCK_ON (R338). A rail's PG stays high PG_TMO after its enable dropped, and STUCK_ON is flagged. -/
  | stuckOn (i : RailId)
  /-- TOFF_EXPIRY (R339). TOFF elapses after the last enable dropped: a cold reset, a power-up, OFF or REDUCED follows. -/
  | toffExpiry
  /-- RAIL_RETRY_START (R343). RAIL_RETRY × 10 ms after a failure, the rail is powered up alone. -/
  | railRetryStart (i : RailId)
  /-- PG_UNEXP (R344). A PG is high while its enable is low, and PG_UNEXP is reported. -/
  | pgUnexp (i : RailId)
  /-- PMBUS_POLL (R347). Every POLL ms Draught reads STATUS_WORD of each mapped regulator. -/
  | pmbusPoll
  /-- PMBUS_TRANSACTION_END (R348). A PMBus transaction ends: it is retried, marked UNREACH, or raises WARN. -/
  | pmbusTransactionEnd (j : RailId) (result : PmbResult)
  /-- BELLOWS_GO (R349). GO in DRG_BEL_CMD starts a margin or is refused with a REASON. -/
  | bellowsGo (p : Path) (dir entry dwell : Nat)
  /-- BELLOWS_STOP (R351). STOP in DRG_BEL_CMD ends an active margin with ABORTED. -/
  | bellowsStop (p : Path)
  /-- MARGIN_SET (R350). The margin target and OPERATION writes complete, and the dwell starts. -/
  | marginSet
  /-- DWELL_END (R350). The dwell ends: READ_VOUT is read and OPERATION 0x80 is written. -/
  | dwellEnd (vout : Nat)
  /-- MARGIN_RESTORED (R350). The restoring write completes: AVS resumes and DONE is set. -/
  | marginRestored
  /-- SEQ_SYNC_DRIVE (R352). The supervisor drives SEQ_SYNC low for 10 µs after a START frame. -/
  | seqSyncDrive
  /-- SEQ_SYNC_EDGE (R352). A falling edge of SEQ_SYNC after a START that names the device becomes its common start. -/
  | seqSyncEdge (elapsedUs : Nat)
  /-- HELLO_TX (R353). A group device in OFF or WAIT_START sends HELLO every 1 ms. -/
  | helloTx
  /-- JOIN_REQ_TX (R353). A device that missed a strobe sends JOIN_REQ every 10 ms. -/
  | joinReqTx
  /-- HELLO_RX (R354). The supervisor receives HELLO from a device. -/
  | helloRx (d : DevId)
  /-- START_RX (R352). A device receives a START naming it and arms for the strobe. -/
  | startRx (stage : Nat) (mask : Nat)
  /-- STAGE_DONE_RX (R354). The supervisor receives STAGE_DONE and may start stage 2. -/
  | stageDoneRx (d : DevId) (stage : Nat) (image : Bool)
  /-- DOWN_NOTICE_RX (R399). A DOWN_NOTICE from a peer declares that peer lost. -/
  | downNoticeRx (d : DevId) (trigger : Nat)
  /-- JOIN_REQ_RX (R354). The supervisor names a joining device in a START within 10 ms and strobes for it. -/
  | joinReqRx (d : DevId) (stage : Nat)
  /-- SUPERVISE_RX (R356). A SUPERVISE frame names the new supervisor. -/
  | superviseRx (d : DevId)
  /-- GRP_WAIT_EXPIRY (R354). GRP_WAIT elapses, and device 0 starts stage 1 for the devices heard. -/
  | grpWaitExpiry
  /-- STAGE2_WAIT_EXPIRY (R354). STAGE2_WAIT elapses, and the supervisor starts stage 2 for the devices ready. -/
  | stage2WaitExpiry
  /-- ORPHAN_TIMER (R355). A slave hears no master within 500 ms, becomes an orphan and sequences itself. -/
  | orphanTimer
  /-- DAMPER_REFILL (R360). Every 1 µs the damper adds P_WORK tokens to the floor and main buckets. -/
  | damperRefill
  /-- DAMPER_RECOMPUTE (R361). Every 1 ms Draught recomputes P_EFF, P_STAT and P_STAND from the die temperature and the cap. -/
  | damperRecompute (sensors : List Int)
  /-- HOT_RELEASE (R367). TJ_MAX has been below TJ_HOT − 5 °C for 100 ms, and full service returns. -/
  | hotRelease
  /-- LONG_STARVE_EXPIRY (R366). A long Ember job waits LONG_STARVE in TOKEN_WAIT, and is promoted to T1. -/
  | longStarveExpiry (c : CtxId)
  /-- AVS_STEP (R368). The AVS loop compares the smallest delay margin with TGT and moves the VCORE setpoint. -/
  | avsStep (m16 m17 : Int)
  /-- DERATE_FALL (R370). A domain's margin stays at or above TGT for 10 ms, and its derate level falls by one. -/
  | derateFall (dom : Bool)
  /-- AGE_PERIOD_EXPIRY (R371). AGE_PERIOD hours pass, and an ageing measurement starts. -/
  | agePeriodExpiry
  /-- AGE_MEAS_REQ (R371). MEAS_REQ in DRG_AGE_STAT requests an ageing measurement. -/
  | ageMeasReq (p : Path)
  /-- AGE_MEAS_END (R372). An ageing measurement ends, and the planner re-plans TGT, TMO and the leg factors. -/
  | ageMeasEnd (drift16 drift17 : Int) (worst : Fin 24)
  /-- PATROL_PASS (R373). Patrol scrubbing reads every SRAM word once per PATROL period. -/
  | patrolPass
  /-- SRAM_ECC_ERROR (R373). An SRAM ECC error is corrected and counted, or repaired to a spare row, or fences the row group. -/
  | sramEccError (row : Fin 256) (kind : EccKind)
  /-- WEAR_RECORD_WRITE (R374). The wear record is written to the older NVS copy at each change and every hour. -/
  | wearRecordWrite
  /-- EQ_HOURS_UPDATE (R375). Every minute EQ_HOURS grows by the temperature-weighted equivalent time. -/
  | eqHoursUpdate
  /-- LANE_HANDSHAKE_TIMEOUT (R39). A fabric lane handshake times out, and a spare lane replaces it or the lane is fenced. -/
  | laneHandshakeTimeout (l : LaneId)
  /-- ASH_EVENT (R379). An event arrives at Ash, which classifies it, banks or reacts, journals it and drives ALERT_N. -/
  | ashEvent
  /-- ALERT_PULSE_END (R391). The 24-period ALERT_N pulse ends, and the pin follows HOLD. -/
  | alertPulseEnd
  /-- CONSEQUENCE_WINDOW_END (R383). A consequence window ends, and its detectors are no longer banked. -/
  | consequenceWindowEnd (u : FUnit)
  /-- NVS_JOURNAL_COPY (R394). UC and FA records are copied to the persistent journal in the NVS. -/
  | nvsJournalCopy
  /-- ASH_SELF_CHECK (R387). Every CK_AON period Ash compares its duplicated state, and a mismatch raises source 0x00. -/
  | ashSelfCheck (mismatch : Bool)
  /-- STOKER_WATCHDOG (R379). Stoker gives no service for 10 ms, and source 0x02 is raised. -/
  | stokerWatchdog
  /-- LOCKSTEP_MISMATCH (R24). The two Stoker cores disagree, and the device enters the safe state. -/
  | lockstepMismatch
  /-- THERMAL_TRIP (R379). A die sensor reaches 130 °C, which is a fatal event. -/
  | thermalTrip (sensor : Fin 8)
  /-- CK_CARD_LOCK_LOST (R36). CK_CARD loses lock: all slots are fenced and Ember jobs end with FENCED. -/
  | ckCardLockLost
  /-- CK_CARD_RELOCK (R379). CK_CARD relocks, and the fences raised for the lock loss are lifted. -/
  | ckCardRelock
  /-- CK_LINK_LOCK_LOST (R379). CK_LINK loses lock, and all peers are fenced. -/
  | ckLinkLockLost
  /-- FORCE_SLOT_SHORT (R398). ASH_FORCE KIND 0x1 runs the simultaneous sequence on a slot with cause SHORT. -/
  | forceSlotShort (p : Path) (u : Nat)
  /-- FORCE_SLOT_REMOVAL (R104). ASH_FORCE KIND 0x2 runs the removal sequence on the named slot. -/
  | forceSlotRemoval (p : Path) (u : Nat)
  /-- FORCE_BANK_RAIL_FAULT (R398). ASH_FORCE KIND 0x3 acts as a loss of the bank rail while running. -/
  | forceBankRailFault (p : Path) (u : Nat)
  /-- FORCE_PEER_LOSS (R398). ASH_FORCE KIND 0x4 declares a peer lost and holds its fence. -/
  | forcePeerLoss (p : Path) (u : Nat)
  /-- FORCE_PORT_LOSS (R398). ASH_FORCE KIND 0x5 declares a host port lost, moving or orphaning its rings. -/
  | forcePortLoss (p : Path) (u : Nat)
  /-- FORCE_EMBER_JOB_FAILURE (R398). ASH_FORCE KIND 0x6 acts as a watchdog expiry on the named context. -/
  | forceEmberJobFailure (p : Path) (u : Nat)
  /-- FORCE_LIFT (R398). LIFT in ASH_FORCE lifts a forced peer or port fence within 1 ms. -/
  | forceLift (p : Path) (kind u : Nat)
  /-- INJECT (R397). GO in ASH_INJ injects one event of a source, or is refused with source 0x71. -/
  | inject (p : Path) (src u : Nat)
  /-- HEARTBEAT_TX (R399). Every 1 ms the device sends a heartbeat on each connected Kuzagan port. -/
  | heartbeatTx
  /-- HEARTBEAT_RX (R399). A valid frame counts as a heartbeat, and after three periods a peer is present again. -/
  | heartbeatRx (d : DevId)
  /-- HEARTBEAT_MISS (R399). HB_MISS periods pass with no valid frame, and the peer is declared lost. -/
  | heartbeatMiss (d : DevId)
  /-- APPLY_BASE (R413). APPLY_BASE checks, stores and applies a base image from the SRAM. -/
  | applyBase (p : Path)
  /-- STORE_BASE (R413). STORE_BASE checks an image and writes it to the store slot that is not applied. -/
  | storeBase (p : Path)
  /-- APPLY_OVL (R418). APPLY_OVL checks an overlay and stages it for commit. -/
  | applyOvl (p : Path)
  /-- REMOVE_OVL (R419). REMOVE_OVL writes back the recorded values of an applied overlay at a commit. -/
  | removeOvl (p : Path) (i : Nat)
  /-- IMAGE_CHECK_END (R409). The checks of an image end, with its signature verified on Ember, and it proceeds or fails with a RESULT. -/
  | imageCheckEnd
  /-- OVERLAY_COMMIT (R418). With affected slots out of BUSY, the overlay lands at a ring-batch boundary and the epoch rises. -/
  | overlayCommit
  /-- QUIET_TIMEOUT (R418). The commit is not reached within 50 ms, so the overlay ends with QUIET_TIMEOUT. -/
  | quietTimeout
  /-- LIFETIME_EXPIRY (R416). An overlay's LIFETIME elapses, and it is removed. -/
  | lifetimeExpiry (i : Fin 8)
  /-- KEY_XFER (R425). The KEY_XFER mailbox operation releases a key component from an officer card and loads it into a vault pair. -/
  | keyXfer (p : Path)
  /-- CHALLENGE (R439). CHALLENGE draws a 32-byte nonce and returns it as a one-shot result. -/
  | challenge (p : Path)
  /-- NONCE_EXPIRY (R439). The live nonce ends 60 s after it was issued. -/
  | nonceExpiry
  /-- ATTEST (R454). ATTEST returns a statement signed with the identity key over the verifier nonce. -/
  | attest (p : Path)
  /-- GRANT (R452). GRANT writes the token's grant mask and BOOTS as voted values. -/
  | grant (p : Path)
  /-- REVOKE_GRANTS (R452). REVOKE_GRANTS clears all debug grants. -/
  | revokeGrants (p : Path)
  /-- TRANSITION (R443). TRANSITION stages, quiesces and burns the intent mark of a life-cycle change. -/
  | transition (p : Path)
  /-- TRANSITION_STEP_END (R444). A wipe or write step of a transition completes, and the next step, done mark, state burn or cold reset follows. -/
  | transitionStepEnd
  /-- TENANT_LOCK (R453). TENANT_LOCK writes the 64-bit tenant lock mask. -/
  | tenantLock (p : Path)
  /-- ROOT_LOAD (R436). ROOT_LOAD enters an owner root key matching a live hash slot into the owner key table. -/
  | rootLoad (p : Path)
  /-- ROOT_REVOKE (R437). ROOT_REVOKE burns the REVOKE bits of an owner root slot. -/
  | rootRevoke (p : Path)
  /-- VOTE_REPAIR (R449). VOTE_REPAIR sets the version floor or ceremony counter to a value no lower than any valid copy. -/
  | voteRepair (p : Path)
  /-- PERST_N (R459). PERST_N of a port changes, which starts training or counts as link down. -/
  | perstN (x : PortId) (level : Bool)
  /-- LINK_TRAINED (R459). A PCIe port completes training and its data link layer comes up. -/
  | linkTrained (x : PortId) (speed width : Nat)
  /-- PCIE_CONFIG_CHANGE (R459). A configuration write changes D-state, Bus Master Enable or Memory Space Enable, and the port starts or stops serving. -/
  | pcieConfigChange (x : PortId) (d3hot bme mse : Bool)
  /-- PCIE_LINK_DOWN (R464). A PCIe link goes down, source 0x40 is raised and LOSS_TMO runs. -/
  | pcieLinkDown (x : PortId)
  /-- PCIE_ERROR (R464). A PCIe error raises source 0x42, 0x43 or 0x44 with its effect. -/
  | pcieError (x : PortId) (kind : PcieErr)
  /-- INBOUND_UNSUPPORTED (R462). An I/O, Type 1 configuration or data message request receives Unsupported Request. -/
  | inboundUnsupported (x : PortId) (kind : InboundKind)
  /-- MSIX_TABLE_WRITE (R461). A write to the port's MSI-X table unmasks a vector, which sends a pending message. -/
  | msixTableWrite (x : PortId) (offset value : Nat)
  /-- SPI_READ (R466). An SPI read frame returns MARK, the words read and a CRC. -/
  | spiRead (bytes : List Byte)
  /-- SPI_WRITE (R466). An SPI write frame is checked and carried out word by word, with MARK returned. -/
  | spiWrite (bytes : List Byte)
  /-- SPI_STATUS (R469). An SPI status request returns the status byte. -/
  | spiStatus
  /-- SPI_FRAME_CUT (R467). MSPI_CS_N rises before the CRC byte is complete, and the frame is discarded. -/
  | spiFrameCut
  /-- SYMBOL_LOCK (R471). A Kuzagan receiver sees 64 valid idles, gains symbol lock and sends INIT. -/
  | symbolLock (k : KzId)
  /-- SYMBOL_LOCK_LOSS (R471). A Kuzagan port loses symbol lock: INIT_OK and KEYED end. -/
  | symbolLockLoss (k : KzId)
  /-- INIT_RX (R471). An INIT frame sets INIT_OK, or sets KZ_ERR on a mismatch. -/
  | initRx (k : KzId) (dev size : Nat)
  /-- KEY1_RX (R476). A KEY1 frame is received, the peer certificate is checked, and the link keys are derived. -/
  | key1Rx (k : KzId) (payload : List Byte)
  /-- KEY2_RX (R476). KEY2 is checked, and the link becomes KEYED or keying restarts. -/
  | key2Rx (k : KzId) (payload : List Byte)
  /-- KEY1_RESEND (R476). KEY1 is resent every 10 ms until KEY2 arrives. -/
  | key1Resend (k : KzId)
  /-- KEYING_RESTART (R476). 100 ms after a wrong KEY2, keying runs again. -/
  | keyingRestart (k : KzId)
  /-- FWD_CMD_RX (R475). A forwarded command segment arrives, and after the LAST one the leg is queued on the slot. -/
  | fwdCmdRx (k : KzId) (seq tag : Nat) (payload : List Byte)
  /-- FWD_RSP_RX (R475). A forwarded response segment arrives, and after the LAST one the remote leg ends. -/
  | fwdRspRx (k : KzId) (seq tag : Nat) (payload : List Byte)
  /-- KZ_ACK_RX (R477). An ACK releases acknowledged frames of its class. -/
  | kzAckRx (k : KzId) (cls : KzClass) (seq : Nat)
  /-- KZ_NAK_RX (R477). A NAK makes the sender resend from the oldest unacknowledged frame. -/
  | kzNakRx (k : KzId) (cls : KzClass) (seq : Nat)
  /-- KZ_ACK_TIMEOUT (R477). 20 µs pass without an ACK, and frames of the class are resent. -/
  | kzAckTimeout (k : KzId) (cls : KzClass)
  /-- KZ_INVALID_FRAME (R472). A Kuzagan frame with a bad CRC, code or length is discarded, counted and answered with NAK. -/
  | kzInvalidFrame (k : KzId)
  /-- LIVE_NOTICE_TX (R473). A device sends LIVE_NOTICE at each change of its live bits and every 100 ms. -/
  | liveNoticeTx
  /-- TAMPER_N_RELEASE (R390). TAMPER_N is released: TAMPER in ASH_STAT clears, the safe state is held, and a warm reset is accepted again. -/
  | tamperNRelease
  /-- LIMITING (R56). The analogue current limit engages on an overcurrent or an inrush that reaches it, so LIMITING rises and LIMIT_SEEN is set. -/
  | limiting (n : SlotId)
  /-- ECC_CE (R300). A single-bit error in Ember operand memory is corrected in the read path, counted, and source 0x52 is sent to Ash. -/
  | eccCe (c : CtxId)
  /-- SEALED_WIPE_END (R303). The wipe of a sealed context's input, destination and scratch regions ends after END, an abort or a fence, and the context is released. -/
  | sealedWipeEnd (c : CtxId)
  /-- ES_STARTUP_TEST_END (R292). The entropy source's start-up test of 1,024 samples after PD16 power-up ends, the DRBG is seeded, and DRBG_READY and ES_OK are set. -/
  | esStartupTestEnd (pass : Bool)
  /-- CK_LINK_RELOCK (R379). The CK_LINK PLL regains lock after a loss that fenced every peer, so the Kuzagan ports, PMBus master and SPI sampling run again. -/
  | ckLinkRelock
  deriving DecidableEq, Repr

end Sys2Proof
end

