-- ==== Sys2Proof/Decode.lean ====
section
/-! DEFINITION. The command that a word of the opcode table spells. -/

namespace Sys2Proof

/-- The opcode table gives no row of this block any bits: its rows are events, register accesses and operations named in
the chapters, which reach the block as commands and not as encoded words. So no word spells a command. -/
def decodeTableWord (_nbits _w : Nat) : Option Instr := none

end Sys2Proof
end

