-- ==== Sys2Proof/Config.lean ====
section
/-! DEFINITION. What an implementation of the block fixes and what its spec leaves open: uninterpreted constants with no
body, so that no proof can rest on a value of one, and the reset values of straps and stores that the log names. -/

namespace Sys2Proof.Config

/-- A free value: what a point of the spec leaves open, one fresh value for each count drawn (log entry 1). -/
opaque freeNat : Nat → Nat

/-- Free bytes: random output of the Cord DRBG and of Ember's RAND, one fresh string for each count drawn and length
(log entry 2). -/
opaque freeBytes : Nat → Nat → List Byte

/-- The vendor root public key in Kiln's ROM (R269). -/
opaque vendorRoot : List Byte
/-- Where the point operations of a curve operation of Ember end: R315 bounds the spacing of its yield points and gives no more
(`curveYield`). -/
opaque romYieldBeats : Nat → Nat → Nat

/-- Baselines of legs and rick cells, in 1/16 Ω, that the Test state stores in OTP (R74): slot, leg index, low side; and
bank, cell kind (0 supply, 1 signal, 2 lane), low side (log entry 21). -/
opaque legBaseline : Nat → Nat → Bool → Nat
opaque cellBaseline : Nat → Nat → Bool → Nat

/-- The device number and group size minus 1 that the GROUP_ROLE straps give after a reset (log entry 5). -/
def strapDev : Nat := 0
def strapSize : Nat := 0
/-- The static-power trims of this device in OTP (R361): unburned, read as zero (log entry 5). -/
def staticW : Nat := 0
def staticSlope : Nat := 0

end Sys2Proof.Config
end

