-- ==== Sys2Proof/Machine/RegTable.lean ====
section
/-! DEFINITION. The register table of the block: every register of the index (R494–R497), its address pattern,
and every field of the chapters' register tables with its place, access code, reset value and stored range. -/

namespace Sys2Proof.Machine

/-- Access codes of a field (R9). -/
inductive Acc where
  | RO | RW | WO | W1C | W1S | RC | RWL | ROS
  deriving DecidableEq, Repr

/-- The registers of the index (R497), in address order. -/
inductive RegName where
  | KLN_LC_STAT | KLN_LC_WORD | KLN_LC_MARK | KLN_ID_STAT | KLN_ROOT_STAT | KLN_DBG_STAT | KLN_NV_STAT
  | KLN_TLOCK | KLN_ID_PUB | KLN_IMG_CMD | KLN_IMG_ADDR | KLN_IMG_RES | KLN_CFG_STAT | KLN_BASE_VER
  | KLN_OVL_EPOCH | KLN_VER_FLOOR | KLN_OVL_STAT | KLN_CER_STAT | KLN_CER_SEQ | KLN_PIN | DRG_SEQ_CFG
  | DRG_SEQ_CMD | DRG_SEQ_STAT | DRG_SEQ_EVT | DRG_RAIL_EN | DRG_RAIL_PG | DRG_RAIL_FAIL | DRG_RAIL_LOCKOUT
  | DRG_DOM_STAT | DRG_SEQ_SLOT | DRG_PMB_MAP | DRG_PMB_CFG | DRG_PMB_STAT | DRG_PMB_WARN | DRG_BEL_CMD
  | DRG_BEL_STAT | DRG_BEL_RES | DRG_GRP_CFG | DRG_GRP_STAT | DRG_GRP_EVT | DRG_KZ_STAT | DRG_DMP_CFG
  | DRG_DMP_STAT | DRG_DMP_EVT | DRG_DMP_STATIC | DRG_DMP_CFG2 | DRG_DMP_COST | DRG_AVS_CFG | DRG_AVS_STAT
  | DRG_AGE_STAT | DRG_AGE_CFG | DRG_PLAN_STAT | DRG_WEAR_HRS | DRG_WEAR_STAT | DRG_SRAM_STAT
  | DRG_MON_SETTLE | DRG_RMON_CFG | DRG_RMON_THR | DRG_RMON_STAT | ASH_STAT | ASH_CMD | ASH_PIN_CTL | ASH_CNT
  | ASH_CNT2 | ASH_FENCE_SLOT | ASH_FENCE_UNIT | ASH_FENCE_LANE | ASH_HB_CFG | ASH_IRQ_CFG | ASH_FORCE
  | ASH_FORCE_STAT | ASH_INJ | ASH_INJ_DETAIL | ASH_JRN_HEAD | ASH_JRN_SEL | ASH_JRN_REC | ASH_JRN_PEND
  | ASH_SRC_CFG | ASH_SRC_CNT | STK_MBX_DATA | STK_MBX_CMD | STK_MBX_STAT | STK_MBX_RES | FLU_RING_CFG
  | FLU_RING_CTL | FLU_SQ_BASE_LO | FLU_SQ_BASE_HI | FLU_CQ_BASE_LO | FLU_CQ_BASE_HI | FLU_SQ_DB | FLU_CQ_DB
  | FLU_RING_PTR | FLU_RING_STAT | FLU_RING_EVT | FLU_RING_CMD | FLU_RING_CNT | FLU_RING_DCNT | FLU_STACK_ACT
  | FLU_STACK_SHD | FLU_STACK_MARK | FLU_LIVE | FLU_STACK_STAT | FLU_STACK_EPOCH | FLU_STACK_CMD
  | FLU_STACK_RES | FLU_STACK_EVT | FLU_STACK_CNT | FLU_STACK_SCNT | FLU_STACK_SMAX | FLU_SCHED_CFG
  | FLU_CLASS_CFG | FLU_SCHED_STAT | FLU_SCHED_EVT | FLU_PORT_CFG | FLU_PORT_STAT | FLU_LANE_STAT
  | FLU_LANE_TMO | FLU_HP_CFG | FLU_HP_ID | FLU_HP_STAT | FLU_HP_ERR | HTH_SLOT_CMD | HTH_SLOT_CTL
  | HTH_SLOT_STAT | HTH_SLOT_EVT | HTH_SLOT_CAUSE | HTH_SLOT_RCV | HTH_SLOT_RCNT | HTH_SLOT_ATRLEN
  | HTH_SLOT_ATR | HTH_PROT_CFG | HTH_PROT_LIM | HTH_PROT_STAT | HTH_PROT_WT | HTH_PROT_CLKDIV | HTH_PROT_EVT
  | HTH_PROT_CNT | HTH_PROT_LAST | HTH_TURF_CFG | HTH_TURF_STAT | HTH_TURF_EVT | HTH_TURF_CNT | HTH_TURF_LAST
  | HTH_SLOT_ELEC | HTH_SLOT_ESTAT | HTH_LEG_STAT | HTH_LEG_CMD | HTH_LEG_RON | HTH_BANK_CFG | HTH_BANK_RICK
  | HTH_BANK_LEGLIM | HTH_BANK_ESTAT | HTH_BANK_LCNT | HTH_MON_CFG | HTH_MON_THR | HTH_MON_STAT
  | HTH_BMON_CFG | HTH_BMON_THR | HTH_BMON_STAT | HTH_MON_GSTAT | CRD_CFG | CRD_STAT | CRD_EVT | CRD_ZSTAT
  | CRD_GEN_FLOOR | CRD_DRBG_CNT | CRD_SESS_STAT | CRD_SESS_CNT | CRD_SESS_AGE | CRD_SESS_CERT | EMB_CFG
  | EMB_STAT | EMB_EVT | EMB_COLMAP | EMB_CNT | EMB_JOBCNT | EMB_JOB | EMB_DST | EMB_SCR | EMB_CMD
  | EMB_CSTAT | EMB_BEATS | EMB_WAIT | EMB_LERR | EMB_RES
  deriving DecidableEq, Repr

/-- Where a register's instances lie: a first address, an outer stride and count, an inner stride and count (R496).
Instance number = outer index × inner count + inner index. -/
structure RegRange where
  base : Nat
  outerStride : Nat
  outerCount : Nat
  innerStride : Nat
  innerCount : Nat
  deriving DecidableEq, Repr

/-- The index of registers: every register with the place of its instances (R494, R496, R497). -/
def regRangesOf (part : Nat) : List (RegName × RegRange) :=
  match part with
  | 0 => [
      (.KLN_LC_STAT, ⟨0x00000000, 0x0, 1, 0, 1⟩),
      (.KLN_LC_WORD, ⟨0x00000004, 0x0, 1, 0, 1⟩),
      (.KLN_LC_MARK, ⟨0x00000008, 0x0, 1, 0, 1⟩),
      (.KLN_ID_STAT, ⟨0x0000000C, 0x0, 1, 0, 1⟩),
      (.KLN_ROOT_STAT, ⟨0x00000010, 0x0, 1, 0, 1⟩),
      (.KLN_DBG_STAT, ⟨0x00000014, 0x0, 1, 0, 1⟩),
      (.KLN_NV_STAT, ⟨0x00000018, 0x0, 1, 0, 1⟩),
      (.KLN_TLOCK, ⟨0x00000020, 0x4, 2, 0, 1⟩),
      (.KLN_ID_PUB, ⟨0x00000100, 0x4, 24, 0, 1⟩),
      (.KLN_IMG_CMD, ⟨0x00000200, 0x0, 1, 0, 1⟩),
      (.KLN_IMG_ADDR, ⟨0x00000204, 0x0, 1, 0, 1⟩),
      (.KLN_IMG_RES, ⟨0x00000208, 0x0, 1, 0, 1⟩),
      (.KLN_CFG_STAT, ⟨0x0000020C, 0x0, 1, 0, 1⟩),
      (.KLN_BASE_VER, ⟨0x00000210, 0x0, 1, 0, 1⟩),
      (.KLN_OVL_EPOCH, ⟨0x00000214, 0x0, 1, 0, 1⟩),
      (.KLN_VER_FLOOR, ⟨0x00000218, 0x0, 1, 0, 1⟩),
      (.KLN_OVL_STAT, ⟨0x00000220, 0x4, 8, 0, 1⟩),
      (.KLN_CER_STAT, ⟨0x00000240, 0x0, 1, 0, 1⟩),
      (.KLN_CER_SEQ, ⟨0x00000244, 0x0, 1, 0, 1⟩),
      (.KLN_PIN, ⟨0x00001000, 0x10, 64, 4, 4⟩),
      (.DRG_SEQ_CFG, ⟨0x00100000, 0x0, 1, 0, 1⟩),
      (.DRG_SEQ_CMD, ⟨0x00100004, 0x0, 1, 0, 1⟩),
      (.DRG_SEQ_STAT, ⟨0x00100008, 0x0, 1, 0, 1⟩),
      (.DRG_SEQ_EVT, ⟨0x0010000C, 0x0, 1, 0, 1⟩)]
  | 1 => [
      (.DRG_RAIL_EN, ⟨0x00100010, 0x0, 1, 0, 1⟩),
      (.DRG_RAIL_PG, ⟨0x00100014, 0x0, 1, 0, 1⟩),
      (.DRG_RAIL_FAIL, ⟨0x00100018, 0x0, 1, 0, 1⟩),
      (.DRG_RAIL_LOCKOUT, ⟨0x0010001C, 0x0, 1, 0, 1⟩),
      (.DRG_DOM_STAT, ⟨0x00100020, 0x0, 1, 0, 1⟩),
      (.DRG_SEQ_SLOT, ⟨0x00100100, 0x4, 24, 0, 1⟩),
      (.DRG_PMB_MAP, ⟨0x00100200, 0x4, 24, 0, 1⟩),
      (.DRG_PMB_CFG, ⟨0x00100280, 0x0, 1, 0, 1⟩),
      (.DRG_PMB_STAT, ⟨0x00100284, 0x0, 1, 0, 1⟩),
      (.DRG_PMB_WARN, ⟨0x00100288, 0x0, 1, 0, 1⟩),
      (.DRG_BEL_CMD, ⟨0x00100300, 0x0, 1, 0, 1⟩),
      (.DRG_BEL_STAT, ⟨0x00100304, 0x0, 1, 0, 1⟩),
      (.DRG_BEL_RES, ⟨0x00100308, 0x0, 1, 0, 1⟩),
      (.DRG_GRP_CFG, ⟨0x00100380, 0x0, 1, 0, 1⟩),
      (.DRG_GRP_STAT, ⟨0x00100384, 0x0, 1, 0, 1⟩),
      (.DRG_GRP_EVT, ⟨0x00100388, 0x0, 1, 0, 1⟩),
      (.DRG_KZ_STAT, ⟨0x00100390, 0x4, 3, 0, 1⟩),
      (.DRG_DMP_CFG, ⟨0x00100400, 0x0, 1, 0, 1⟩),
      (.DRG_DMP_STAT, ⟨0x00100404, 0x0, 1, 0, 1⟩),
      (.DRG_DMP_EVT, ⟨0x00100408, 0x0, 1, 0, 1⟩),
      (.DRG_DMP_STATIC, ⟨0x0010040C, 0x0, 1, 0, 1⟩),
      (.DRG_DMP_CFG2, ⟨0x00100410, 0x0, 1, 0, 1⟩),
      (.DRG_DMP_COST, ⟨0x00100440, 0x4, 13, 0, 1⟩),
      (.DRG_AVS_CFG, ⟨0x00100500, 0x0, 1, 0, 1⟩)]
  | 2 => [
      (.DRG_AVS_STAT, ⟨0x00100504, 0x0, 1, 0, 1⟩),
      (.DRG_AGE_STAT, ⟨0x00100508, 0x0, 1, 0, 1⟩),
      (.DRG_AGE_CFG, ⟨0x0010050C, 0x0, 1, 0, 1⟩),
      (.DRG_PLAN_STAT, ⟨0x00100510, 0x0, 1, 0, 1⟩),
      (.DRG_WEAR_HRS, ⟨0x00100600, 0x0, 1, 0, 1⟩),
      (.DRG_WEAR_STAT, ⟨0x00100604, 0x0, 1, 0, 1⟩),
      (.DRG_SRAM_STAT, ⟨0x00100608, 0x0, 1, 0, 1⟩),
      (.DRG_MON_SETTLE, ⟨0x00100800, 0x0, 1, 0, 1⟩),
      (.DRG_RMON_CFG, ⟨0x00100810, 0x10, 5, 0, 1⟩),
      (.DRG_RMON_THR, ⟨0x00100814, 0x10, 5, 0, 1⟩),
      (.DRG_RMON_STAT, ⟨0x00100818, 0x10, 5, 0, 1⟩),
      (.ASH_STAT, ⟨0x00200000, 0x0, 1, 0, 1⟩),
      (.ASH_CMD, ⟨0x00200004, 0x0, 1, 0, 1⟩),
      (.ASH_PIN_CTL, ⟨0x00200008, 0x0, 1, 0, 1⟩),
      (.ASH_CNT, ⟨0x0020000C, 0x0, 1, 0, 1⟩),
      (.ASH_CNT2, ⟨0x00200010, 0x0, 1, 0, 1⟩),
      (.ASH_FENCE_SLOT, ⟨0x00200020, 0x4, 2, 0, 1⟩),
      (.ASH_FENCE_UNIT, ⟨0x00200028, 0x0, 1, 0, 1⟩),
      (.ASH_FENCE_LANE, ⟨0x0020002C, 0x0, 1, 0, 1⟩),
      (.ASH_HB_CFG, ⟨0x00200040, 0x0, 1, 0, 1⟩),
      (.ASH_IRQ_CFG, ⟨0x00200050, 0x4, 2, 0, 1⟩),
      (.ASH_FORCE, ⟨0x00200060, 0x0, 1, 0, 1⟩),
      (.ASH_FORCE_STAT, ⟨0x00200064, 0x0, 1, 0, 1⟩),
      (.ASH_INJ, ⟨0x00200068, 0x0, 1, 0, 1⟩)]
  | 3 => [
      (.ASH_INJ_DETAIL, ⟨0x0020006C, 0x0, 1, 0, 1⟩),
      (.ASH_JRN_HEAD, ⟨0x00200080, 0x0, 1, 0, 1⟩),
      (.ASH_JRN_SEL, ⟨0x00200084, 0x0, 1, 0, 1⟩),
      (.ASH_JRN_REC, ⟨0x00200088, 0x4, 4, 0, 1⟩),
      (.ASH_JRN_PEND, ⟨0x00200098, 0x0, 1, 0, 1⟩),
      (.ASH_SRC_CFG, ⟨0x00201000, 0x4, 256, 0, 1⟩),
      (.ASH_SRC_CNT, ⟨0x00201400, 0x4, 256, 0, 1⟩),
      (.STK_MBX_DATA, ⟨0x00300000, 0x4, 128, 0, 1⟩),
      (.STK_MBX_CMD, ⟨0x00300200, 0x0, 1, 0, 1⟩),
      (.STK_MBX_STAT, ⟨0x00300204, 0x0, 1, 0, 1⟩),
      (.STK_MBX_RES, ⟨0x00301000, 0x0, 1, 4, 512⟩),
      (.FLU_RING_CFG, ⟨0x00400000, 0x100, 512, 0, 1⟩),
      (.FLU_RING_CTL, ⟨0x00400004, 0x100, 512, 0, 1⟩),
      (.FLU_SQ_BASE_LO, ⟨0x00400008, 0x100, 512, 0, 1⟩),
      (.FLU_SQ_BASE_HI, ⟨0x0040000C, 0x100, 512, 0, 1⟩),
      (.FLU_CQ_BASE_LO, ⟨0x00400010, 0x100, 512, 0, 1⟩),
      (.FLU_CQ_BASE_HI, ⟨0x00400014, 0x100, 512, 0, 1⟩),
      (.FLU_SQ_DB, ⟨0x00400018, 0x100, 512, 0, 1⟩),
      (.FLU_CQ_DB, ⟨0x0040001C, 0x100, 512, 0, 1⟩),
      (.FLU_RING_PTR, ⟨0x00400020, 0x100, 512, 0, 1⟩),
      (.FLU_RING_STAT, ⟨0x00400024, 0x100, 512, 0, 1⟩),
      (.FLU_RING_EVT, ⟨0x00400028, 0x100, 512, 0, 1⟩),
      (.FLU_RING_CMD, ⟨0x0040002C, 0x100, 512, 0, 1⟩),
      (.FLU_RING_CNT, ⟨0x00400030, 0x100, 512, 0, 1⟩)]
  | 4 => [
      (.FLU_RING_DCNT, ⟨0x00400034, 0x100, 512, 0, 1⟩),
      (.FLU_STACK_ACT, ⟨0x00600000, 0x4, 4096, 0, 1⟩),
      (.FLU_STACK_SHD, ⟨0x00604000, 0x4, 4096, 0, 1⟩),
      (.FLU_STACK_MARK, ⟨0x00608000, 0x4, 4096, 0, 1⟩),
      (.FLU_LIVE, ⟨0x0060C000, 0x4, 8, 0, 1⟩),
      (.FLU_STACK_STAT, ⟨0x00610000, 0x0, 1, 0, 1⟩),
      (.FLU_STACK_EPOCH, ⟨0x00610004, 0x0, 1, 0, 1⟩),
      (.FLU_STACK_CMD, ⟨0x00610008, 0x0, 1, 0, 1⟩),
      (.FLU_STACK_RES, ⟨0x0061000C, 0x0, 1, 0, 1⟩),
      (.FLU_STACK_EVT, ⟨0x00610010, 0x0, 1, 0, 1⟩),
      (.FLU_STACK_CNT, ⟨0x00610014, 0x0, 1, 0, 1⟩),
      (.FLU_STACK_SCNT, ⟨0x00610018, 0x0, 1, 0, 1⟩),
      (.FLU_STACK_SMAX, ⟨0x0061001C, 0x0, 1, 0, 1⟩),
      (.FLU_SCHED_CFG, ⟨0x00700000, 0x0, 1, 0, 1⟩),
      (.FLU_CLASS_CFG, ⟨0x00700010, 0x4, 4, 0, 1⟩),
      (.FLU_SCHED_STAT, ⟨0x00700020, 0x0, 1, 0, 1⟩),
      (.FLU_SCHED_EVT, ⟨0x00700024, 0x0, 1, 0, 1⟩),
      (.FLU_PORT_CFG, ⟨0x00700040, 0x4, 2, 0, 1⟩),
      (.FLU_PORT_STAT, ⟨0x00700048, 0x4, 2, 0, 1⟩),
      (.FLU_LANE_STAT, ⟨0x00700080, 0x0, 1, 0, 1⟩),
      (.FLU_LANE_TMO, ⟨0x00700084, 0x0, 1, 0, 1⟩),
      (.FLU_HP_CFG, ⟨0x007000C0, 0x4, 2, 0, 1⟩),
      (.FLU_HP_ID, ⟨0x007000C8, 0x4, 2, 0, 1⟩),
      (.FLU_HP_STAT, ⟨0x007000D0, 0x4, 2, 0, 1⟩)]
  | 5 => [
      (.FLU_HP_ERR, ⟨0x007000D8, 0x4, 2, 0, 1⟩),
      (.HTH_SLOT_CMD, ⟨0x00800000, 0x1000, 64, 0, 1⟩),
      (.HTH_SLOT_CTL, ⟨0x00800004, 0x1000, 64, 0, 1⟩),
      (.HTH_SLOT_STAT, ⟨0x00800008, 0x1000, 64, 0, 1⟩),
      (.HTH_SLOT_EVT, ⟨0x0080000C, 0x1000, 64, 0, 1⟩),
      (.HTH_SLOT_CAUSE, ⟨0x00800010, 0x1000, 64, 0, 1⟩),
      (.HTH_SLOT_RCV, ⟨0x00800014, 0x1000, 64, 0, 1⟩),
      (.HTH_SLOT_RCNT, ⟨0x00800018, 0x1000, 64, 0, 1⟩),
      (.HTH_SLOT_ATRLEN, ⟨0x0080001C, 0x1000, 64, 0, 1⟩),
      (.HTH_SLOT_ATR, ⟨0x00800040, 0x1000, 64, 4, 9⟩),
      (.HTH_PROT_CFG, ⟨0x00800080, 0x1000, 64, 0, 1⟩),
      (.HTH_PROT_LIM, ⟨0x00800084, 0x1000, 64, 0, 1⟩),
      (.HTH_PROT_STAT, ⟨0x00800088, 0x1000, 64, 0, 1⟩),
      (.HTH_PROT_WT, ⟨0x0080008C, 0x1000, 64, 0, 1⟩),
      (.HTH_PROT_CLKDIV, ⟨0x00800090, 0x1000, 64, 0, 1⟩),
      (.HTH_PROT_EVT, ⟨0x00800094, 0x1000, 64, 0, 1⟩),
      (.HTH_PROT_CNT, ⟨0x00800098, 0x1000, 64, 0, 1⟩),
      (.HTH_PROT_LAST, ⟨0x0080009C, 0x1000, 64, 0, 1⟩),
      (.HTH_TURF_CFG, ⟨0x008000A0, 0x1000, 64, 0, 1⟩),
      (.HTH_TURF_STAT, ⟨0x008000A4, 0x1000, 64, 0, 1⟩),
      (.HTH_TURF_EVT, ⟨0x008000A8, 0x1000, 64, 0, 1⟩),
      (.HTH_TURF_CNT, ⟨0x008000AC, 0x1000, 64, 0, 1⟩),
      (.HTH_TURF_LAST, ⟨0x008000B0, 0x1000, 64, 0, 1⟩),
      (.HTH_SLOT_ELEC, ⟨0x00800100, 0x1000, 64, 0, 1⟩)]
  | 6 => [
      (.HTH_SLOT_ESTAT, ⟨0x00800104, 0x1000, 64, 0, 1⟩),
      (.HTH_LEG_STAT, ⟨0x00800108, 0x1000, 64, 0, 1⟩),
      (.HTH_LEG_CMD, ⟨0x0080010C, 0x1000, 64, 0, 1⟩),
      (.HTH_LEG_RON, ⟨0x00800110, 0x1000, 64, 4, 12⟩),
      (.HTH_BANK_CFG, ⟨0x00A00000, 0x1000, 16, 0, 1⟩),
      (.HTH_BANK_RICK, ⟨0x00A00004, 0x1000, 16, 0, 1⟩),
      (.HTH_BANK_LEGLIM, ⟨0x00A00008, 0x1000, 16, 0, 1⟩),
      (.HTH_BANK_ESTAT, ⟨0x00A0000C, 0x1000, 16, 0, 1⟩),
      (.HTH_BANK_LCNT, ⟨0x00A00010, 0x1000, 16, 0, 1⟩),
      (.HTH_MON_CFG, ⟨0x00B00000, 0x10, 256, 0, 1⟩),
      (.HTH_MON_THR, ⟨0x00B00004, 0x10, 256, 0, 1⟩),
      (.HTH_MON_STAT, ⟨0x00B00008, 0x10, 256, 0, 1⟩),
      (.HTH_BMON_CFG, ⟨0x00B01000, 0x10, 16, 0, 1⟩),
      (.HTH_BMON_THR, ⟨0x00B01004, 0x10, 16, 0, 1⟩),
      (.HTH_BMON_STAT, ⟨0x00B01008, 0x10, 16, 0, 1⟩),
      (.HTH_MON_GSTAT, ⟨0x00B01100, 0x0, 1, 0, 1⟩),
      (.CRD_CFG, ⟨0x00C00000, 0x0, 1, 0, 1⟩),
      (.CRD_STAT, ⟨0x00C00004, 0x0, 1, 0, 1⟩),
      (.CRD_EVT, ⟨0x00C00008, 0x0, 1, 0, 1⟩),
      (.CRD_ZSTAT, ⟨0x00C0000C, 0x0, 1, 0, 1⟩),
      (.CRD_GEN_FLOOR, ⟨0x00C00010, 0x4, 2, 0, 1⟩),
      (.CRD_DRBG_CNT, ⟨0x00C00018, 0x0, 1, 0, 1⟩),
      (.CRD_SESS_STAT, ⟨0x00C01000, 0x10, 64, 0, 1⟩),
      (.CRD_SESS_CNT, ⟨0x00C01004, 0x10, 64, 0, 1⟩)]
  | _ => [
      (.CRD_SESS_AGE, ⟨0x00C01008, 0x10, 64, 0, 1⟩),
      (.CRD_SESS_CERT, ⟨0x00C0100C, 0x10, 64, 0, 1⟩),
      (.EMB_CFG, ⟨0x00D00000, 0x0, 1, 0, 1⟩),
      (.EMB_STAT, ⟨0x00D00004, 0x0, 1, 0, 1⟩),
      (.EMB_EVT, ⟨0x00D00008, 0x0, 1, 0, 1⟩),
      (.EMB_COLMAP, ⟨0x00D0000C, 0x0, 1, 0, 1⟩),
      (.EMB_CNT, ⟨0x00D00010, 0x0, 1, 0, 1⟩),
      (.EMB_JOBCNT, ⟨0x00D00014, 0x0, 1, 0, 1⟩),
      (.EMB_JOB, ⟨0x00D00100, 0x20, 8, 0, 1⟩),
      (.EMB_DST, ⟨0x00D00104, 0x20, 8, 0, 1⟩),
      (.EMB_SCR, ⟨0x00D00108, 0x20, 8, 0, 1⟩),
      (.EMB_CMD, ⟨0x00D0010C, 0x20, 8, 0, 1⟩),
      (.EMB_CSTAT, ⟨0x00D00110, 0x20, 8, 0, 1⟩),
      (.EMB_BEATS, ⟨0x00D00114, 0x20, 8, 0, 1⟩),
      (.EMB_WAIT, ⟨0x00D00118, 0x20, 8, 0, 1⟩),
      (.EMB_LERR, ⟨0x00D0011C, 0x20, 8, 0, 1⟩),
      (.EMB_RES, ⟨0x00D04000, 0x800, 8, 4, 512⟩)]

/-- The whole index, its parts joined. -/
def regRanges : List (RegName × RegRange) :=
  (List.range 8).flatMap regRangesOf

/-- A field of a register as its chapter's table gives it: place, width, access code, reset value, and the
range a written value is stored within (a write outside is stored at the nearer limit). -/
structure FieldSpec where
  lo : Nat
  width : Nat
  acc : Acc
  reset : Nat
  min : Nat
  max : Nat
  deriving DecidableEq, Repr

/-- A field of a register, named by the register and the place of its lowest bit. -/
structure Fld where
  reg : RegName
  lo : Nat
  deriving DecidableEq, Repr

/-- The fields of each register, as the chapters' tables give them. Bits not listed are reserved (R5). A reset value
that depends on the instance, on straps, on the OTP or on the NVS stands as 0 here; `Fld.reset` and a cold reset give it. -/
def regFields : RegName → List FieldSpec
  | .KLN_LC_STAT => [⟨28, 4, .RO, 0, 0, 15⟩, ⟨24, 4, .RO, 0, 0, 15⟩, ⟨23, 1, .RO, 0, 0, 1⟩, ⟨22, 1, .RO, 0, 0, 1⟩, ⟨20, 2, .RO, 0, 0, 3⟩, ⟨16, 4, .RO, 0, 0, 15⟩, ⟨8, 8, .RO, 0, 0, 255⟩]
  | .KLN_LC_WORD => [⟨0, 32, .RO, 0, 0, 4294967295⟩]
  | .KLN_LC_MARK => [⟨0, 32, .RO, 0, 0, 4294967295⟩]
  | .KLN_ID_STAT => [⟨30, 2, .RO, 0, 0, 3⟩, ⟨4, 2, .RO, 0, 0, 3⟩, ⟨2, 2, .RO, 0, 0, 3⟩, ⟨0, 2, .RO, 0, 0, 3⟩]
  | .KLN_ROOT_STAT => [⟨8, 4, .RO, 0, 0, 15⟩, ⟨0, 8, .RO, 0, 0, 255⟩]
  | .KLN_DBG_STAT => [⟨24, 8, .RO, 0, 0, 255⟩, ⟨16, 8, .RO, 0, 0, 255⟩, ⟨12, 4, .RO, 0, 0, 15⟩, ⟨11, 1, .RO, 0, 0, 1⟩]
  | .KLN_NV_STAT => [⟨6, 2, .RO, 0, 0, 3⟩, ⟨4, 2, .RO, 0, 0, 3⟩, ⟨2, 2, .RO, 0, 0, 3⟩, ⟨0, 2, .RO, 0, 0, 3⟩]
  | .KLN_TLOCK => [⟨0, 32, .RO, 0, 0, 4294967295⟩]
  | .KLN_ID_PUB => [⟨0, 32, .RO, 0, 0, 4294967295⟩]
  | .KLN_IMG_CMD => [⟨28, 4, .WO, 0, 0, 15⟩, ⟨0, 4, .WO, 0, 0, 15⟩]
  | .KLN_IMG_ADDR => [⟨6, 18, .RW, 0, 0, 262143⟩]
  | .KLN_IMG_RES => [⟨28, 4, .RO, 0, 0, 15⟩, ⟨24, 4, .RO, 0, 0, 15⟩, ⟨23, 1, .RO, 0, 0, 1⟩, ⟨8, 8, .RO, 0, 0, 255⟩, ⟨0, 4, .RO, 0, 0, 15⟩]
  | .KLN_CFG_STAT => [⟨31, 1, .RO, 0, 0, 1⟩, ⟨30, 1, .RO, 0, 0, 1⟩, ⟨29, 1, .RO, 0, 0, 1⟩, ⟨28, 1, .RO, 0, 0, 1⟩, ⟨27, 1, .RO, 0, 0, 1⟩, ⟨0, 5, .RO, 0, 0, 31⟩]
  | .KLN_BASE_VER => [⟨0, 32, .RO, 0, 0, 4294967295⟩]
  | .KLN_OVL_EPOCH => [⟨0, 32, .RO, 0, 0, 4294967295⟩]
  | .KLN_VER_FLOOR => [⟨0, 32, .RO, 0, 0, 4294967295⟩]
  | .KLN_OVL_STAT => [⟨28, 4, .RO, 0, 0, 15⟩, ⟨24, 4, .RO, 0, 0, 15⟩, ⟨16, 8, .RO, 255, 0, 255⟩, ⟨0, 16, .RO, 0, 0, 65535⟩]
  | .KLN_CER_STAT => [⟨31, 1, .RO, 0, 0, 1⟩, ⟨30, 1, .RO, 0, 0, 1⟩, ⟨29, 1, .W1C, 0, 0, 1⟩, ⟨18, 2, .RO, 0, 0, 3⟩, ⟨16, 2, .RO, 0, 0, 3⟩, ⟨8, 8, .RO, 0, 0, 255⟩, ⟨0, 8, .RO, 0, 0, 255⟩]
  | .KLN_CER_SEQ => [⟨0, 32, .RO, 0, 0, 4294967295⟩]
  | .KLN_PIN => [⟨0, 32, .RWL, 0, 0, 4294967295⟩]
  | .DRG_SEQ_CFG => [⟨22, 10, .RWL, 50, 10, 1000⟩, ⟨20, 2, .RWL, 1, 0, 3⟩, ⟨16, 4, .RWL, 2, 0, 15⟩, ⟨8, 8, .RWL, 100, 1, 255⟩, ⟨4, 4, .RWL, 2, 1, 15⟩, ⟨3, 1, .RWL, 1, 0, 1⟩, ⟨2, 1, .RWL, 1, 0, 1⟩]
  | .DRG_SEQ_CMD => [⟨24, 5, .WO, 0, 0, 31⟩, ⟨3, 1, .WO, 0, 0, 1⟩, ⟨2, 1, .WO, 0, 0, 1⟩, ⟨1, 1, .WO, 0, 0, 1⟩, ⟨0, 1, .WO, 0, 0, 1⟩]
  | .DRG_SEQ_STAT => [⟨28, 4, .RO, 0, 0, 15⟩, ⟨27, 1, .RO, 1, 0, 1⟩, ⟨26, 1, .RO, 0, 0, 1⟩, ⟨24, 2, .RO, 0, 0, 3⟩, ⟨0, 16, .RO, 0, 0, 65535⟩]
  | .DRG_SEQ_EVT => [⟨10, 1, .W1C, 0, 0, 1⟩, ⟨9, 1, .W1C, 0, 0, 1⟩, ⟨8, 1, .W1C, 0, 0, 1⟩, ⟨7, 1, .W1C, 0, 0, 1⟩, ⟨6, 1, .W1C, 0, 0, 1⟩, ⟨5, 1, .W1C, 0, 0, 1⟩, ⟨4, 1, .W1C, 0, 0, 1⟩, ⟨3, 1, .W1C, 0, 0, 1⟩, ⟨2, 1, .W1C, 0, 0, 1⟩, ⟨1, 1, .W1C, 0, 0, 1⟩, ⟨0, 1, .W1C, 0, 0, 1⟩]
  | .DRG_RAIL_EN => [⟨31, 1, .RO, 0, 0, 1⟩, ⟨0, 24, .RO, 0, 0, 16777215⟩]
  | .DRG_RAIL_PG => [⟨31, 1, .RO, 0, 0, 1⟩, ⟨0, 24, .RO, 0, 0, 16777215⟩]
  | .DRG_RAIL_FAIL => [⟨31, 1, .RO, 0, 0, 1⟩, ⟨0, 24, .RO, 0, 0, 16777215⟩]
  | .DRG_RAIL_LOCKOUT => [⟨31, 1, .RO, 0, 0, 1⟩, ⟨0, 24, .RO, 0, 0, 16777215⟩]
  | .DRG_DOM_STAT => [⟨0, 20, .RO, 0, 0, 1048575⟩]
  | .DRG_SEQ_SLOT => [⟨31, 1, .RO, 1, 0, 1⟩, ⟨16, 12, .RWL, 0, 0, 4095⟩, ⟨8, 8, .RWL, 0, 0, 255⟩, ⟨4, 4, .RWL, 10, 1, 15⟩, ⟨0, 4, .RWL, 4, 1, 15⟩]
  | .DRG_PMB_MAP => [⟨31, 1, .RWL, 0, 0, 1⟩, ⟨30, 1, .RWL, 0, 0, 1⟩, ⟨29, 1, .RWL, 0, 0, 1⟩, ⟨24, 4, .RWL, 0, 0, 15⟩, ⟨16, 5, .RWL, 0, 0, 31⟩, ⟨8, 8, .RWL, 255, 0, 255⟩, ⟨0, 7, .RWL, 0, 0, 127⟩]
  | .DRG_PMB_CFG => [⟨16, 2, .RWL, 0, 0, 2⟩, ⟨8, 8, .RWL, 10, 1, 255⟩]
  | .DRG_PMB_STAT => [⟨0, 24, .RO, 0, 0, 16777215⟩]
  | .DRG_PMB_WARN => [⟨0, 24, .W1C, 0, 0, 16777215⟩]
  | .DRG_BEL_CMD => [⟨31, 1, .WO, 0, 0, 1⟩, ⟨30, 1, .WO, 0, 0, 1⟩, ⟨24, 2, .WO, 0, 0, 3⟩, ⟨16, 5, .WO, 0, 0, 31⟩, ⟨0, 16, .WO, 0, 0, 65535⟩]
  | .DRG_BEL_STAT => [⟨28, 4, .RO, 0, 0, 15⟩, ⟨24, 4, .RO, 0, 0, 15⟩, ⟨16, 5, .RO, 0, 0, 31⟩, ⟨0, 16, .RO, 0, 0, 65535⟩]
  | .DRG_BEL_RES => [⟨16, 16, .RO, 0, 0, 65535⟩, ⟨8, 8, .RO, 0, 0, 255⟩]
  | .DRG_GRP_CFG => [⟨24, 8, .RWL, 30, 1, 255⟩, ⟨16, 8, .RWL, 50, 1, 255⟩]
  | .DRG_GRP_STAT => [⟨30, 2, .RO, 0, 0, 3⟩, ⟨28, 2, .RO, 0, 0, 3⟩, ⟨27, 1, .RO, 0, 0, 1⟩, ⟨26, 1, .RO, 0, 0, 1⟩, ⟨24, 2, .RO, 0, 0, 3⟩, ⟨16, 4, .RO, 0, 0, 15⟩, ⟨12, 4, .RO, 0, 0, 15⟩]
  | .DRG_GRP_EVT => [⟨4, 1, .W1C, 0, 0, 1⟩, ⟨3, 1, .W1C, 0, 0, 1⟩, ⟨2, 1, .W1C, 0, 0, 1⟩, ⟨1, 1, .W1C, 0, 0, 1⟩, ⟨0, 1, .W1C, 0, 0, 1⟩]
  | .DRG_KZ_STAT => [⟨24, 8, .RO, 0, 0, 255⟩, ⟨16, 8, .RO, 0, 0, 255⟩, ⟨8, 4, .RO, 0, 0, 15⟩, ⟨6, 2, .RO, 0, 0, 3⟩, ⟨4, 1, .RO, 0, 0, 1⟩, ⟨3, 1, .RO, 0, 0, 1⟩, ⟨2, 1, .RO, 0, 0, 1⟩, ⟨1, 1, .RO, 0, 0, 1⟩]
  | .DRG_DMP_CFG => [⟨24, 7, .RW, 70, 20, 80⟩, ⟨16, 8, .RWL, 20, 2, 255⟩, ⟨8, 8, .RWL, 90, 60, 120⟩, ⟨4, 4, .RWL, 2, 0, 15⟩]
  | .DRG_DMP_STAT => [⟨24, 8, .RO, 0, 0, 255⟩, ⟨16, 8, .RO, 0, 0, 255⟩, ⟨8, 8, .RO, 0, 0, 255⟩, ⟨0, 8, .RO, 0, 0, 255⟩]
  | .DRG_DMP_EVT => [⟨8, 6, .RO, 0, 0, 63⟩, ⟨4, 1, .W1C, 0, 0, 1⟩, ⟨3, 1, .W1C, 0, 0, 1⟩, ⟨2, 1, .W1C, 0, 0, 1⟩, ⟨1, 1, .W1C, 0, 0, 1⟩, ⟨0, 1, .W1C, 0, 0, 1⟩]
  | .DRG_DMP_STATIC => [⟨16, 16, .RO, 0, 0, 65535⟩, ⟨0, 16, .RO, 0, 0, 65535⟩]
  | .DRG_DMP_CFG2 => [⟨24, 8, .RWL, 110, 80, 125⟩, ⟨16, 8, .RWL, 10, 1, 255⟩]
  | .DRG_DMP_COST => [⟨0, 16, .RWL, 0, 0, 65535⟩]
  | .DRG_AVS_CFG => [⟨31, 1, .RWL, 1, 0, 1⟩, ⟨16, 8, .RWL, 180, 130, 180⟩, ⟨8, 8, .RWL, 80, 0, 255⟩, ⟨4, 4, .RWL, 4, 0, 15⟩, ⟨0, 4, .RWL, 8, 0, 15⟩]
  | .DRG_AVS_STAT => [⟨24, 8, .RO, 0, 0, 255⟩, ⟨16, 8, .RO, 0, 0, 255⟩, ⟨8, 8, .RO, 0, 0, 255⟩, ⟨6, 2, .RO, 0, 0, 3⟩, ⟨4, 2, .RO, 0, 0, 3⟩, ⟨3, 1, .RO, 0, 0, 1⟩, ⟨2, 1, .RO, 0, 0, 1⟩]
  | .DRG_AGE_STAT => [⟨31, 1, .W1S, 0, 0, 1⟩, ⟨30, 1, .RO, 0, 0, 1⟩, ⟨16, 8, .RO, 0, 0, 255⟩, ⟨8, 8, .RO, 0, 0, 255⟩, ⟨0, 5, .RO, 0, 0, 31⟩]
  | .DRG_AGE_CFG => [⟨24, 8, .RWL, 24, 1, 255⟩, ⟨16, 8, .RWL, 150, 0, 255⟩, ⟨8, 8, .RWL, 32, 8, 63⟩, ⟨4, 4, .RWL, 3, 1, 15⟩, ⟨0, 4, .RWL, 2, 1, 15⟩]
  | .DRG_PLAN_STAT => [⟨24, 8, .RO, 80, 0, 255⟩, ⟨16, 8, .RO, 0, 0, 255⟩, ⟨8, 8, .RO, 0, 0, 255⟩]
  | .DRG_WEAR_HRS => [⟨0, 32, .RO, 0, 0, 4294967295⟩]
  | .DRG_WEAR_STAT => [⟨24, 8, .RO, 0, 0, 255⟩, ⟨2, 1, .ROS, 0, 0, 1⟩, ⟨1, 1, .RO, 0, 0, 1⟩, ⟨0, 1, .RO, 0, 0, 1⟩]
  | .DRG_SRAM_STAT => [⟨16, 11, .RO, 0, 0, 2047⟩, ⟨8, 8, .RO, 0, 0, 255⟩, ⟨0, 8, .RO, 0, 0, 255⟩]
  | .DRG_MON_SETTLE => [⟨0, 8, .RW, 10, 1, 255⟩]
  | .DRG_RMON_CFG => [⟨14, 2, .RW, 1, 0, 3⟩, ⟨13, 1, .RW, 1, 0, 1⟩, ⟨12, 1, .RWL, 0, 0, 1⟩, ⟨8, 4, .RW, 15, 0, 15⟩, ⟨4, 4, .RW, 8, 0, 15⟩, ⟨2, 2, .RW, 1, 0, 3⟩, ⟨1, 1, .RW, 0, 0, 1⟩]
  | .DRG_RMON_THR => [⟨16, 8, .RW, 0, 0, 255⟩, ⟨8, 8, .RW, 0, 0, 255⟩, ⟨0, 4, .RW, 0, 0, 15⟩]
  | .DRG_RMON_STAT => [⟨24, 8, .ROS, 0, 0, 255⟩, ⟨18, 2, .RO, 1, 0, 3⟩, ⟨7, 1, .RO, 0, 0, 1⟩, ⟨6, 1, .RO, 0, 0, 1⟩, ⟨5, 1, .W1C, 0, 0, 1⟩, ⟨4, 1, .W1C, 0, 0, 1⟩, ⟨1, 2, .RO, 1, 0, 3⟩, ⟨0, 1, .RO, 1, 0, 1⟩]
  | .ASH_STAT => [⟨31, 1, .RO, 0, 0, 1⟩, ⟨30, 1, .RO, 0, 0, 1⟩, ⟨29, 1, .RO, 0, 0, 1⟩, ⟨28, 1, .RO, 0, 0, 1⟩, ⟨16, 8, .RO, 0, 0, 255⟩, ⟨8, 8, .RO, 0, 0, 255⟩, ⟨0, 8, .ROS, 0, 0, 255⟩]
  | .ASH_CMD => [⟨24, 8, .WO, 0, 0, 255⟩, ⟨8, 2, .WO, 0, 0, 3⟩, ⟨0, 1, .WO, 0, 0, 1⟩]
  | .ASH_PIN_CTL => [⟨2, 1, .RW, 0, 0, 1⟩, ⟨1, 1, .RW, 0, 0, 1⟩, ⟨0, 1, .RW, 0, 0, 1⟩]
  | .ASH_CNT => [⟨16, 16, .ROS, 0, 0, 65535⟩, ⟨8, 8, .ROS, 0, 0, 255⟩, ⟨0, 8, .ROS, 0, 0, 255⟩]
  | .ASH_CNT2 => [⟨16, 16, .ROS, 0, 0, 65535⟩, ⟨0, 16, .ROS, 0, 0, 65535⟩]
  | .ASH_FENCE_SLOT => [⟨0, 32, .RO, 0, 0, 4294967295⟩]
  | .ASH_FENCE_UNIT => [⟨16, 16, .RO, 0, 0, 65535⟩, ⟨8, 8, .RO, 0, 0, 255⟩, ⟨4, 4, .RO, 0, 0, 15⟩, ⟨0, 2, .RO, 0, 0, 3⟩]
  | .ASH_FENCE_LANE => [⟨0, 20, .RO, 0, 0, 1048575⟩]
  | .ASH_HB_CFG => [⟨0, 4, .RWL, 3, 2, 5⟩]
  | .ASH_IRQ_CFG => [⟨31, 1, .RW, 0, 0, 1⟩, ⟨0, 9, .RW, 0, 0, 511⟩]
  | .ASH_FORCE => [⟨31, 1, .WO, 0, 0, 1⟩, ⟨30, 1, .WO, 0, 0, 1⟩, ⟨24, 4, .WO, 0, 0, 15⟩, ⟨0, 8, .WO, 0, 0, 255⟩]
  | .ASH_FORCE_STAT => [⟨28, 4, .RO, 0, 0, 15⟩, ⟨24, 4, .RO, 0, 0, 15⟩, ⟨8, 4, .RO, 0, 0, 15⟩, ⟨0, 8, .RO, 0, 0, 255⟩]
  | .ASH_INJ => [⟨31, 1, .WO, 0, 0, 1⟩, ⟨16, 8, .WO, 0, 0, 255⟩, ⟨0, 8, .WO, 0, 0, 255⟩]
  | .ASH_INJ_DETAIL => [⟨0, 32, .RW, 0, 0, 4294967295⟩]
  | .ASH_JRN_HEAD => [⟨16, 12, .RO, 0, 0, 4095⟩, ⟨0, 16, .RO, 0, 0, 65535⟩]
  | .ASH_JRN_SEL => [⟨31, 1, .RW, 0, 0, 1⟩, ⟨0, 12, .RW, 0, 0, 4095⟩]
  | .ASH_JRN_REC => [⟨0, 32, .RO, 0, 0, 4294967295⟩]
  | .ASH_JRN_PEND => [⟨16, 16, .ROS, 0, 0, 65535⟩, ⟨0, 7, .RO, 0, 0, 127⟩]
  | .ASH_SRC_CFG => [⟨9, 1, .RO, 0, 0, 1⟩, ⟨8, 1, .RO, 0, 0, 1⟩, ⟨7, 1, .RW, 0, 0, 1⟩, ⟨4, 2, .RO, 0, 0, 3⟩, ⟨0, 4, .RO, 0, 0, 15⟩]
  | .ASH_SRC_CNT => [⟨0, 32, .ROS, 0, 0, 4294967295⟩]
  | .STK_MBX_DATA => [⟨0, 32, .RW, 0, 0, 4294967295⟩]
  | .STK_MBX_CMD => [⟨31, 1, .WO, 0, 0, 1⟩, ⟨0, 8, .WO, 0, 0, 255⟩]
  | .STK_MBX_STAT => [⟨9, 1, .W1C, 0, 0, 1⟩, ⟨8, 1, .RO, 0, 0, 1⟩, ⟨0, 8, .RO, 0, 0, 255⟩]
  | .STK_MBX_RES => []
  | .FLU_RING_CFG => [⟨16, 8, .RWL, 16, 1, 64⟩, ⟨14, 1, .RWL, 0, 0, 1⟩, ⟨13, 1, .RWL, 0, 0, 1⟩, ⟨12, 1, .RWL, 0, 0, 1⟩, ⟨11, 1, .RWL, 0, 0, 1⟩, ⟨10, 1, .RWL, 0, 0, 1⟩, ⟨8, 2, .RWL, 3, 0, 3⟩, ⟨2, 3, .RWL, 7, 0, 7⟩, ⟨0, 1, .RWL, 0, 0, 1⟩]
  | .FLU_RING_CTL => [⟨31, 1, .RW, 0, 0, 1⟩, ⟨24, 4, .RW, 4, 4, 12⟩, ⟨20, 4, .RW, 4, 4, 12⟩, ⟨17, 1, .RW, 0, 0, 1⟩, ⟨8, 9, .RW, 0, 0, 511⟩, ⟨4, 4, .RW, 1, 1, 15⟩, ⟨0, 4, .RW, 0, 0, 15⟩]
  | .FLU_SQ_BASE_LO => [⟨5, 27, .RW, 0, 0, 134217727⟩]
  | .FLU_SQ_BASE_HI => [⟨0, 32, .RW, 0, 0, 4294967295⟩]
  | .FLU_CQ_BASE_LO => [⟨5, 27, .RW, 0, 0, 134217727⟩]
  | .FLU_CQ_BASE_HI => [⟨0, 32, .RW, 0, 0, 4294967295⟩]
  | .FLU_SQ_DB => [⟨0, 12, .WO, 0, 0, 4095⟩]
  | .FLU_CQ_DB => [⟨0, 12, .WO, 0, 0, 4095⟩]
  | .FLU_RING_PTR => [⟨31, 1, .RO, 1, 0, 1⟩, ⟨16, 12, .RO, 0, 0, 4095⟩, ⟨0, 12, .RO, 0, 0, 4095⟩]
  | .FLU_RING_STAT => [⟨28, 4, .RO, 0, 0, 15⟩, ⟨27, 1, .RO, 0, 0, 1⟩, ⟨26, 1, .RO, 0, 0, 1⟩, ⟨25, 1, .RO, 0, 0, 1⟩, ⟨24, 1, .RO, 0, 0, 1⟩, ⟨16, 8, .RO, 0, 0, 255⟩, ⟨0, 12, .RO, 0, 0, 4095⟩]
  | .FLU_RING_EVT => [⟨9, 1, .W1C, 0, 0, 1⟩, ⟨8, 1, .W1C, 0, 0, 1⟩, ⟨7, 1, .W1C, 0, 0, 1⟩, ⟨6, 1, .W1C, 0, 0, 1⟩, ⟨5, 1, .W1C, 0, 0, 1⟩, ⟨4, 1, .W1C, 0, 0, 1⟩, ⟨3, 1, .W1C, 0, 0, 1⟩, ⟨2, 1, .W1C, 0, 0, 1⟩, ⟨1, 1, .W1C, 0, 0, 1⟩, ⟨0, 1, .W1C, 0, 0, 1⟩]
  | .FLU_RING_CMD => [⟨3, 1, .WO, 0, 0, 1⟩, ⟨2, 1, .WO, 0, 0, 1⟩, ⟨1, 1, .WO, 0, 0, 1⟩, ⟨0, 1, .WO, 0, 0, 1⟩]
  | .FLU_RING_CNT => [⟨0, 32, .RO, 0, 0, 4294967295⟩]
  | .FLU_RING_DCNT => [⟨16, 16, .RO, 0, 0, 65535⟩, ⟨0, 16, .RO, 0, 0, 65535⟩]
  | .FLU_STACK_ACT => [⟨31, 1, .RO, 0, 0, 1⟩, ⟨30, 1, .RO, 0, 0, 1⟩, ⟨29, 1, .RO, 0, 0, 1⟩, ⟨28, 1, .RO, 0, 0, 1⟩, ⟨27, 1, .RO, 0, 0, 1⟩, ⟨8, 8, .RO, 0, 0, 255⟩, ⟨0, 8, .RO, 0, 0, 255⟩]
  | .FLU_STACK_SHD => [⟨31, 1, .RO, 0, 0, 1⟩, ⟨30, 1, .RO, 0, 0, 1⟩, ⟨29, 1, .RO, 0, 0, 1⟩, ⟨28, 1, .RO, 0, 0, 1⟩, ⟨27, 1, .RO, 0, 0, 1⟩, ⟨8, 8, .RO, 0, 0, 255⟩, ⟨0, 8, .RO, 0, 0, 255⟩]
  | .FLU_STACK_MARK => [⟨24, 8, .RO, 0, 0, 255⟩, ⟨8, 9, .RO, 0, 0, 511⟩, ⟨1, 1, .RO, 0, 0, 1⟩, ⟨0, 1, .RO, 0, 0, 1⟩]
  | .FLU_LIVE => [⟨0, 32, .RO, 0, 0, 4294967295⟩]
  | .FLU_STACK_STAT => [⟨30, 2, .RO, 0, 0, 3⟩, ⟨16, 13, .RO, 0, 0, 8191⟩, ⟨0, 13, .RO, 0, 0, 8191⟩]
  | .FLU_STACK_EPOCH => [⟨0, 32, .RO, 0, 0, 4294967295⟩]
  | .FLU_STACK_CMD => [⟨28, 4, .WO, 0, 0, 15⟩, ⟨20, 8, .WO, 0, 0, 255⟩, ⟨12, 1, .WO, 0, 0, 1⟩, ⟨0, 12, .WO, 0, 0, 4095⟩]
  | .FLU_STACK_RES => [⟨28, 4, .RO, 0, 0, 15⟩, ⟨24, 4, .RO, 0, 0, 15⟩, ⟨0, 12, .RO, 0, 0, 4095⟩]
  | .FLU_STACK_EVT => [⟨6, 1, .W1C, 0, 0, 1⟩, ⟨5, 1, .W1C, 0, 0, 1⟩, ⟨4, 1, .W1C, 0, 0, 1⟩, ⟨3, 1, .W1C, 0, 0, 1⟩, ⟨2, 1, .W1C, 0, 0, 1⟩, ⟨1, 1, .W1C, 0, 0, 1⟩, ⟨0, 1, .W1C, 0, 0, 1⟩]
  | .FLU_STACK_CNT => [⟨16, 16, .RO, 0, 0, 65535⟩, ⟨0, 16, .RO, 0, 0, 65535⟩]
  | .FLU_STACK_SCNT => [⟨16, 16, .RO, 0, 0, 65535⟩, ⟨0, 16, .RO, 0, 0, 65535⟩]
  | .FLU_STACK_SMAX => [⟨0, 6, .RO, 0, 0, 63⟩]
  | .FLU_SCHED_CFG => [⟨16, 8, .RWL, 20, 0, 50⟩, ⟨0, 8, .RWL, 8, 1, 64⟩]
  | .FLU_CLASS_CFG => [⟨0, 8, .RWL, 0, 0, 255⟩]
  | .FLU_SCHED_STAT => [⟨16, 9, .RO, 0, 0, 511⟩, ⟨0, 4, .RO, 0, 0, 15⟩]
  | .FLU_SCHED_EVT => [⟨2, 1, .W1C, 0, 0, 1⟩, ⟨1, 1, .W1C, 0, 0, 1⟩, ⟨0, 1, .W1C, 0, 0, 1⟩]
  | .FLU_PORT_CFG => [⟨0, 8, .RWL, 100, 1, 255⟩]
  | .FLU_PORT_STAT => [⟨16, 10, .RO, 0, 0, 1023⟩, ⟨8, 8, .ROS, 0, 0, 255⟩, ⟨1, 1, .RO, 0, 0, 1⟩, ⟨0, 1, .RO, 0, 0, 1⟩]
  | .FLU_LANE_STAT => [⟨26, 2, .RO, 0, 0, 3⟩, ⟨24, 2, .RO, 2, 0, 3⟩, ⟨0, 20, .RO, 0, 0, 1048575⟩]
  | .FLU_LANE_TMO => [⟨0, 8, .RO, 40, 0, 255⟩]
  | .FLU_HP_CFG => [⟨16, 9, .RWL, 63, 0, 511⟩, ⟨2, 2, .RWL, 3, 0, 3⟩]
  | .FLU_HP_ID => [⟨16, 16, .RWL, 0, 0, 65535⟩, ⟨0, 16, .RWL, 0, 0, 65535⟩]
  | .FLU_HP_STAT => [⟨16, 4, .RO, 0, 0, 15⟩, ⟨8, 6, .RO, 0, 0, 63⟩, ⟨4, 2, .RO, 0, 0, 3⟩, ⟨3, 1, .RO, 0, 0, 1⟩, ⟨2, 1, .RO, 0, 0, 1⟩, ⟨1, 1, .RO, 0, 0, 1⟩, ⟨0, 1, .RO, 0, 0, 1⟩]
  | .FLU_HP_ERR => [⟨16, 16, .RO, 0, 0, 65535⟩, ⟨0, 16, .RO, 0, 0, 65535⟩]
  | .HTH_SLOT_CMD => [⟨4, 1, .WO, 0, 0, 1⟩, ⟨0, 3, .WO, 0, 0, 7⟩]
  | .HTH_SLOT_CTL => [⟨31, 1, .RW, 0, 0, 1⟩, ⟨24, 4, .RW, 5, 0, 15⟩, ⟨20, 4, .RW, 1, 1, 15⟩, ⟨18, 2, .RW, 0, 0, 3⟩, ⟨0, 16, .RW, 1000, 400, 65535⟩]
  | .HTH_SLOT_STAT => [⟨18, 2, .RO, 3, 0, 3⟩, ⟨17, 1, .RO, 0, 0, 1⟩, ⟨16, 1, .RO, 0, 0, 1⟩, ⟨15, 1, .RO, 0, 0, 1⟩, ⟨14, 1, .RO, 0, 0, 1⟩, ⟨13, 1, .RO, 0, 0, 1⟩, ⟨12, 1, .RO, 0, 0, 1⟩, ⟨0, 4, .RO, 0, 0, 15⟩]
  | .HTH_SLOT_EVT => [⟨8, 1, .W1C, 0, 0, 1⟩, ⟨7, 1, .W1C, 0, 0, 1⟩, ⟨6, 1, .W1C, 0, 0, 1⟩, ⟨5, 1, .W1C, 0, 0, 1⟩, ⟨4, 1, .W1C, 0, 0, 1⟩, ⟨3, 1, .W1C, 0, 0, 1⟩, ⟨2, 1, .W1C, 0, 0, 1⟩, ⟨1, 1, .W1C, 0, 0, 1⟩, ⟨0, 1, .W1C, 0, 0, 1⟩]
  | .HTH_SLOT_CAUSE => [⟨20, 4, .RO, 0, 0, 15⟩, ⟨8, 8, .RO, 0, 0, 255⟩, ⟨0, 8, .RO, 0, 0, 255⟩]
  | .HTH_SLOT_RCV => [⟨20, 12, .RW, 1000, 100, 4095⟩, ⟨16, 4, .RW, 3, 1, 15⟩, ⟨12, 4, .RW, 4, 1, 15⟩, ⟨8, 4, .RW, 4, 1, 15⟩, ⟨0, 8, .RW, 16, 1, 255⟩]
  | .HTH_SLOT_RCNT => [⟨24, 2, .ROS, 0, 0, 3⟩, ⟨20, 4, .ROS, 0, 0, 15⟩, ⟨16, 4, .ROS, 0, 0, 15⟩, ⟨12, 4, .ROS, 0, 0, 15⟩, ⟨0, 8, .ROS, 0, 0, 255⟩]
  | .HTH_SLOT_ATRLEN => [⟨8, 1, .RO, 0, 0, 1⟩, ⟨0, 6, .RO, 0, 0, 63⟩]
  | .HTH_SLOT_ATR => [⟨24, 8, .RO, 0, 0, 255⟩, ⟨16, 8, .RO, 0, 0, 255⟩, ⟨8, 8, .RO, 0, 0, 255⟩, ⟨0, 8, .RO, 0, 0, 255⟩]
  | .HTH_PROT_CFG => [⟨31, 1, .RWL, 0, 0, 1⟩, ⟨30, 1, .RW, 1, 0, 1⟩, ⟨28, 2, .RW, 0, 0, 3⟩, ⟨27, 1, .RW, 1, 0, 1⟩, ⟨20, 7, .RW, 64, 1, 64⟩, ⟨9, 11, .RW, 2000, 100, 2000⟩, ⟨0, 8, .RW, 254, 1, 254⟩]
  | .HTH_PROT_LIM => [⟨12, 4, .RW, 3, 1, 15⟩, ⟨8, 4, .RW, 2, 0, 15⟩, ⟨4, 3, .RW, 4, 0, 7⟩]
  | .HTH_PROT_STAT => [⟨24, 8, .RO, 32, 0, 255⟩, ⟨16, 8, .RO, 0, 0, 255⟩, ⟨12, 4, .RO, 1, 0, 15⟩, ⟨8, 4, .RO, 1, 0, 15⟩, ⟨7, 1, .RO, 0, 0, 1⟩, ⟨6, 1, .RO, 0, 0, 1⟩, ⟨5, 1, .RO, 0, 0, 1⟩, ⟨4, 1, .RO, 0, 0, 1⟩, ⟨3, 1, .RO, 0, 0, 1⟩, ⟨0, 2, .RO, 0, 0, 3⟩]
  | .HTH_PROT_WT => [⟨24, 8, .RO, 10, 0, 255⟩, ⟨20, 4, .RO, 4, 0, 15⟩, ⟨16, 4, .RO, 13, 0, 15⟩, ⟨8, 8, .RO, 0, 0, 255⟩, ⟨0, 8, .RO, 32, 0, 255⟩]
  | .HTH_PROT_CLKDIV => [⟨20, 1, .RO, 0, 0, 1⟩, ⟨10, 10, .RO, 0, 0, 1023⟩, ⟨0, 10, .RO, 0, 0, 1023⟩]
  | .HTH_PROT_EVT => [⟨8, 1, .W1C, 0, 0, 1⟩, ⟨7, 1, .W1C, 0, 0, 1⟩, ⟨6, 1, .W1C, 0, 0, 1⟩, ⟨5, 1, .W1C, 0, 0, 1⟩, ⟨4, 1, .W1C, 0, 0, 1⟩, ⟨3, 1, .W1C, 0, 0, 1⟩, ⟨2, 1, .W1C, 0, 0, 1⟩, ⟨1, 1, .W1C, 0, 0, 1⟩, ⟨0, 1, .W1C, 0, 0, 1⟩]
  | .HTH_PROT_CNT => [⟨16, 16, .RO, 0, 0, 65535⟩, ⟨0, 16, .RO, 0, 0, 65535⟩]
  | .HTH_PROT_LAST => [⟨12, 4, .RO, 0, 0, 15⟩, ⟨0, 8, .RO, 0, 0, 255⟩]
  | .HTH_TURF_CFG => [⟨31, 1, .RWL, 0, 0, 1⟩, ⟨28, 3, .RW, 7, 0, 7⟩, ⟨20, 8, .RW, 120, 1, 255⟩, ⟨16, 4, .RW, 2, 0, 15⟩, ⟨12, 4, .RW, 8, 0, 15⟩, ⟨8, 4, .RW, 3, 0, 15⟩, ⟨0, 8, .RW, 0, 0, 255⟩]
  | .HTH_TURF_STAT => [⟨24, 4, .RO, 0, 0, 15⟩, ⟨16, 8, .RO, 0, 0, 255⟩, ⟨12, 3, .RO, 0, 0, 7⟩, ⟨11, 1, .RO, 0, 0, 1⟩, ⟨10, 1, .RO, 0, 0, 1⟩, ⟨4, 2, .RO, 0, 0, 3⟩, ⟨0, 4, .RO, 0, 0, 15⟩]
  | .HTH_TURF_EVT => [⟨13, 1, .W1C, 0, 0, 1⟩, ⟨12, 1, .W1C, 0, 0, 1⟩, ⟨11, 1, .W1C, 0, 0, 1⟩, ⟨10, 1, .W1C, 0, 0, 1⟩, ⟨9, 1, .W1C, 0, 0, 1⟩, ⟨8, 1, .W1C, 0, 0, 1⟩, ⟨7, 1, .W1C, 0, 0, 1⟩, ⟨6, 1, .W1C, 0, 0, 1⟩, ⟨5, 1, .W1C, 0, 0, 1⟩, ⟨4, 1, .W1C, 0, 0, 1⟩, ⟨3, 1, .W1C, 0, 0, 1⟩, ⟨2, 1, .W1C, 0, 0, 1⟩, ⟨1, 1, .W1C, 0, 0, 1⟩, ⟨0, 1, .W1C, 0, 0, 1⟩]
  | .HTH_TURF_CNT => [⟨16, 16, .RO, 0, 0, 65535⟩, ⟨0, 16, .RO, 0, 0, 65535⟩]
  | .HTH_TURF_LAST => [⟨20, 4, .RO, 0, 0, 15⟩, ⟨16, 4, .RO, 0, 0, 15⟩, ⟨8, 4, .RO, 0, 0, 15⟩, ⟨0, 8, .RO, 0, 0, 255⟩]
  | .HTH_SLOT_ELEC => [⟨10, 2, .RW, 0, 0, 3⟩, ⟨8, 2, .RW, 1, 0, 3⟩, ⟨7, 1, .RW, 0, 0, 1⟩, ⟨6, 1, .RW, 0, 0, 1⟩, ⟨5, 1, .RWL, 0, 0, 1⟩]
  | .HTH_SLOT_ESTAT => [⟨14, 2, .RO, 0, 0, 3⟩, ⟨13, 1, .RO, 0, 0, 1⟩, ⟨12, 1, .RO, 0, 0, 1⟩, ⟨11, 1, .W1C, 0, 0, 1⟩, ⟨10, 1, .RO, 1, 0, 1⟩, ⟨9, 1, .RO, 1, 0, 1⟩, ⟨8, 1, .RO, 0, 0, 1⟩, ⟨7, 1, .RO, 0, 0, 1⟩, ⟨6, 1, .RO, 0, 0, 1⟩]
  | .HTH_LEG_STAT => [⟨16, 12, .RO, 0, 0, 4095⟩, ⟨13, 1, .RO, 0, 0, 1⟩, ⟨12, 1, .RO, 0, 0, 1⟩, ⟨0, 12, .RO, 0, 0, 4095⟩]
  | .HTH_LEG_CMD => [⟨2, 1, .W1C, 0, 0, 1⟩, ⟨1, 1, .W1C, 0, 0, 1⟩, ⟨0, 1, .W1S, 0, 0, 1⟩]
  | .HTH_LEG_RON => [⟨16, 16, .RO, 65535, 0, 65535⟩, ⟨0, 16, .RO, 65535, 0, 65535⟩]
  | .HTH_BANK_CFG => [⟨4, 4, .RWL, 0, 0, 15⟩, ⟨2, 2, .RWL, 0, 0, 3⟩, ⟨0, 1, .RWL, 0, 0, 1⟩]
  | .HTH_BANK_RICK => [⟨16, 8, .RO, 0, 0, 255⟩, ⟨8, 8, .RO, 0, 0, 255⟩, ⟨0, 8, .RO, 0, 0, 255⟩]
  | .HTH_BANK_LEGLIM => [⟨8, 8, .RO, 24, 0, 255⟩, ⟨0, 8, .RO, 8, 0, 255⟩]
  | .HTH_BANK_ESTAT => [⟨2, 1, .RO, 0, 0, 1⟩, ⟨1, 1, .RO, 0, 0, 1⟩, ⟨0, 1, .RO, 0, 0, 1⟩]
  | .HTH_BANK_LCNT => [⟨16, 16, .RO, 0, 0, 65535⟩, ⟨0, 16, .RO, 0, 0, 65535⟩]
  | .HTH_MON_CFG => [⟨14, 2, .RW, 1, 0, 3⟩, ⟨13, 1, .RW, 1, 0, 1⟩, ⟨12, 1, .RWL, 0, 0, 1⟩, ⟨8, 4, .RW, 15, 0, 15⟩, ⟨4, 4, .RW, 8, 0, 15⟩, ⟨2, 2, .RW, 1, 0, 3⟩, ⟨1, 1, .RW, 0, 0, 1⟩]
  | .HTH_MON_THR => [⟨16, 8, .RW, 0, 0, 255⟩, ⟨8, 8, .RW, 0, 0, 255⟩, ⟨0, 4, .RW, 0, 0, 15⟩]
  | .HTH_MON_STAT => [⟨24, 8, .ROS, 0, 0, 255⟩, ⟨18, 2, .RO, 1, 0, 3⟩, ⟨7, 1, .RO, 0, 0, 1⟩, ⟨6, 1, .RO, 0, 0, 1⟩, ⟨5, 1, .W1C, 0, 0, 1⟩, ⟨4, 1, .W1C, 0, 0, 1⟩, ⟨1, 2, .RO, 1, 0, 3⟩, ⟨0, 1, .RO, 1, 0, 1⟩]
  | .HTH_BMON_CFG => [⟨14, 2, .RW, 1, 0, 3⟩, ⟨13, 1, .RW, 1, 0, 1⟩, ⟨12, 1, .RWL, 0, 0, 1⟩, ⟨8, 4, .RW, 15, 0, 15⟩, ⟨4, 4, .RW, 8, 0, 15⟩, ⟨2, 2, .RW, 1, 0, 3⟩, ⟨1, 1, .RW, 0, 0, 1⟩]
  | .HTH_BMON_THR => [⟨16, 8, .RO, 148, 0, 255⟩, ⟨8, 8, .RO, 132, 0, 255⟩, ⟨0, 4, .RW, 2, 0, 15⟩]
  | .HTH_BMON_STAT => [⟨24, 8, .ROS, 0, 0, 255⟩, ⟨18, 2, .RO, 1, 0, 3⟩, ⟨7, 1, .RO, 0, 0, 1⟩, ⟨6, 1, .RO, 0, 0, 1⟩, ⟨5, 1, .W1C, 0, 0, 1⟩, ⟨4, 1, .W1C, 0, 0, 1⟩, ⟨1, 2, .RO, 1, 0, 3⟩, ⟨0, 1, .RO, 1, 0, 1⟩]
  | .HTH_MON_GSTAT => [⟨16, 7, .RO, 0, 0, 127⟩, ⟨0, 1, .RO, 0, 0, 1⟩]
  | .CRD_CFG => [⟨20, 5, .RWL, 20, 12, 20⟩, ⟨15, 5, .RWL, 24, 1, 24⟩, ⟨12, 3, .RWL, 3, 1, 7⟩, ⟨8, 4, .RWL, 1, 1, 15⟩, ⟨0, 1, .RWL, 1, 0, 1⟩]
  | .CRD_STAT => [⟨8, 4, .RO, 0, 0, 15⟩, ⟨4, 4, .RO, 0, 0, 15⟩, ⟨2, 1, .RO, 0, 0, 1⟩, ⟨1, 1, .RO, 0, 0, 1⟩, ⟨0, 1, .RO, 0, 0, 1⟩]
  | .CRD_EVT => [⟨6, 1, .W1C, 0, 0, 1⟩, ⟨5, 1, .W1C, 0, 0, 1⟩, ⟨4, 1, .W1C, 0, 0, 1⟩, ⟨3, 1, .W1C, 0, 0, 1⟩, ⟨2, 1, .W1C, 0, 0, 1⟩, ⟨1, 1, .W1C, 0, 0, 1⟩, ⟨0, 1, .W1C, 0, 0, 1⟩]
  | .CRD_ZSTAT => [⟨16, 8, .ROS, 0, 0, 255⟩, ⟨0, 4, .ROS, 0, 0, 15⟩]
  | .CRD_GEN_FLOOR => [⟨0, 32, .RWL, 0, 0, 4294967295⟩]
  | .CRD_DRBG_CNT => [⟨0, 32, .RO, 0, 0, 4294967295⟩]
  | .CRD_SESS_STAT => [⟨24, 8, .RO, 0, 0, 255⟩, ⟨16, 8, .RO, 0, 0, 255⟩, ⟨12, 2, .RO, 0, 0, 3⟩, ⟨11, 1, .RO, 0, 0, 1⟩, ⟨10, 1, .RO, 0, 0, 1⟩, ⟨9, 1, .RO, 0, 0, 1⟩, ⟨8, 1, .RO, 0, 0, 1⟩, ⟨0, 4, .RO, 0, 0, 15⟩]
  | .CRD_SESS_CNT => [⟨0, 32, .RO, 0, 0, 4294967295⟩]
  | .CRD_SESS_AGE => [⟨24, 8, .RO, 0, 0, 255⟩, ⟨16, 8, .RO, 0, 0, 255⟩, ⟨0, 11, .RO, 0, 0, 2047⟩]
  | .CRD_SESS_CERT => [⟨0, 32, .RO, 0, 0, 4294967295⟩]
  | .EMB_CFG => [⟨24, 8, .RWL, 20, 1, 255⟩, ⟨16, 8, .RWL, 100, 1, 255⟩, ⟨0, 8, .RWL, 240, 0, 255⟩]
  | .EMB_STAT => [⟨24, 4, .RO, 0, 0, 15⟩, ⟨23, 1, .RO, 0, 0, 1⟩, ⟨22, 1, .RO, 0, 0, 1⟩, ⟨21, 1, .RO, 0, 0, 1⟩, ⟨19, 2, .RO, 0, 0, 3⟩, ⟨8, 5, .RO, 16, 0, 31⟩, ⟨0, 8, .RO, 0, 0, 255⟩]
  | .EMB_EVT => [⟨8, 1, .W1C, 0, 0, 1⟩, ⟨7, 1, .W1C, 0, 0, 1⟩, ⟨6, 1, .W1C, 0, 0, 1⟩, ⟨5, 1, .W1C, 0, 0, 1⟩, ⟨4, 1, .W1C, 0, 0, 1⟩, ⟨3, 1, .W1C, 0, 0, 1⟩, ⟨2, 1, .W1C, 0, 0, 1⟩, ⟨1, 1, .W1C, 0, 0, 1⟩, ⟨0, 1, .W1C, 0, 0, 1⟩]
  | .EMB_COLMAP => [⟨0, 17, .RO, 0, 0, 131071⟩]
  | .EMB_CNT => [⟨16, 16, .RO, 0, 0, 65535⟩, ⟨0, 16, .RO, 0, 0, 65535⟩]
  | .EMB_JOBCNT => [⟨0, 32, .RO, 0, 0, 4294967295⟩]
  | .EMB_JOB => [⟨31, 1, .RW, 0, 0, 1⟩, ⟨30, 1, .RW, 0, 0, 1⟩, ⟨12, 12, .RW, 0, 0, 4095⟩, ⟨0, 8, .RW, 0, 0, 255⟩]
  | .EMB_DST => [⟨16, 11, .RW, 0, 0, 2047⟩, ⟨0, 12, .RW, 0, 0, 4095⟩]
  | .EMB_SCR => [⟨16, 11, .RW, 0, 0, 2047⟩, ⟨0, 12, .RW, 0, 0, 4095⟩]
  | .EMB_CMD => [⟨1, 1, .WO, 0, 0, 1⟩, ⟨0, 1, .WO, 0, 0, 1⟩]
  | .EMB_CSTAT => [⟨28, 4, .RO, 0, 0, 15⟩, ⟨27, 1, .RO, 0, 0, 1⟩, ⟨26, 1, .RO, 0, 0, 1⟩, ⟨25, 1, .RO, 0, 0, 1⟩, ⟨24, 1, .RO, 0, 0, 1⟩, ⟨23, 1, .W1C, 0, 0, 1⟩, ⟨16, 4, .RO, 0, 0, 15⟩, ⟨0, 8, .RO, 13, 0, 255⟩]
  | .EMB_BEATS => [⟨0, 32, .RO, 0, 0, 4294967295⟩]
  | .EMB_WAIT => [⟨24, 8, .RO, 0, 0, 255⟩, ⟨0, 24, .RO, 0, 0, 16777215⟩]
  | .EMB_LERR => [⟨28, 4, .RO, 0, 0, 15⟩, ⟨0, 10, .RO, 0, 0, 1023⟩]
  | .EMB_RES => []

/-- KLN_LC_STAT, field STATE. -/
abbrev KLN_LC_STAT.STATE : Fld := ⟨.KLN_LC_STAT, 28⟩
/-- KLN_LC_STAT, field TARGET. -/
abbrev KLN_LC_STAT.TARGET : Fld := ⟨.KLN_LC_STAT, 24⟩
/-- KLN_LC_STAT, field BUSY. -/
abbrev KLN_LC_STAT.BUSY : Fld := ⟨.KLN_LC_STAT, 23⟩
/-- KLN_LC_STAT, field RESUMED. -/
abbrev KLN_LC_STAT.RESUMED : Fld := ⟨.KLN_LC_STAT, 22⟩
/-- KLN_LC_STAT, field PHASE. -/
abbrev KLN_LC_STAT.PHASE : Fld := ⟨.KLN_LC_STAT, 20⟩
/-- KLN_LC_STAT, field STEP. -/
abbrev KLN_LC_STAT.STEP : Fld := ⟨.KLN_LC_STAT, 16⟩
/-- KLN_LC_STAT, field LC_ERR. -/
abbrev KLN_LC_STAT.LC_ERR : Fld := ⟨.KLN_LC_STAT, 8⟩
/-- KLN_LC_WORD, field VALUE. -/
abbrev KLN_LC_WORD.VALUE : Fld := ⟨.KLN_LC_WORD, 0⟩
/-- KLN_LC_MARK, field VALUE. -/
abbrev KLN_LC_MARK.VALUE : Fld := ⟨.KLN_LC_MARK, 0⟩
/-- KLN_ID_STAT, field IN_USE. -/
abbrev KLN_ID_STAT.IN_USE : Fld := ⟨.KLN_ID_STAT, 30⟩
/-- KLN_ID_STAT, field SC. -/
abbrev KLN_ID_STAT.SC : Fld := ⟨.KLN_ID_STAT, 4⟩
/-- KLN_ID_STAT, field SB. -/
abbrev KLN_ID_STAT.SB : Fld := ⟨.KLN_ID_STAT, 2⟩
/-- KLN_ID_STAT, field SA. -/
abbrev KLN_ID_STAT.SA : Fld := ⟨.KLN_ID_STAT, 0⟩
/-- KLN_ROOT_STAT, field LOADED. -/
abbrev KLN_ROOT_STAT.LOADED : Fld := ⟨.KLN_ROOT_STAT, 8⟩
/-- KLN_ROOT_STAT, field SLOTS. -/
abbrev KLN_ROOT_STAT.SLOTS : Fld := ⟨.KLN_ROOT_STAT, 0⟩
/-- KLN_DBG_STAT, field ALLOWED. -/
abbrev KLN_DBG_STAT.ALLOWED : Fld := ⟨.KLN_DBG_STAT, 24⟩
/-- KLN_DBG_STAT, field HELD. -/
abbrev KLN_DBG_STAT.HELD : Fld := ⟨.KLN_DBG_STAT, 16⟩
/-- KLN_DBG_STAT, field BOOTS. -/
abbrev KLN_DBG_STAT.BOOTS : Fld := ⟨.KLN_DBG_STAT, 12⟩
/-- KLN_DBG_STAT, field CHAL_LIVE. -/
abbrev KLN_DBG_STAT.CHAL_LIVE : Fld := ⟨.KLN_DBG_STAT, 11⟩
/-- KLN_NV_STAT, field TLOCK. -/
abbrev KLN_NV_STAT.TLOCK : Fld := ⟨.KLN_NV_STAT, 6⟩
/-- KLN_NV_STAT, field GRANTS. -/
abbrev KLN_NV_STAT.GRANTS : Fld := ⟨.KLN_NV_STAT, 4⟩
/-- KLN_NV_STAT, field CER_SEQ. -/
abbrev KLN_NV_STAT.CER_SEQ : Fld := ⟨.KLN_NV_STAT, 2⟩
/-- KLN_NV_STAT, field VER_FLOOR. -/
abbrev KLN_NV_STAT.VER_FLOOR : Fld := ⟨.KLN_NV_STAT, 0⟩
/-- KLN_TLOCK, field LOCK. -/
abbrev KLN_TLOCK.LOCK : Fld := ⟨.KLN_TLOCK, 0⟩
/-- KLN_ID_PUB, field KEY. -/
abbrev KLN_ID_PUB.KEY : Fld := ⟨.KLN_ID_PUB, 0⟩
/-- KLN_IMG_CMD, field OP. -/
abbrev KLN_IMG_CMD.OP : Fld := ⟨.KLN_IMG_CMD, 28⟩
/-- KLN_IMG_CMD, field OVL. -/
abbrev KLN_IMG_CMD.OVL : Fld := ⟨.KLN_IMG_CMD, 0⟩
/-- KLN_IMG_ADDR, field OFFSET. -/
abbrev KLN_IMG_ADDR.OFFSET : Fld := ⟨.KLN_IMG_ADDR, 6⟩
/-- KLN_IMG_RES, field OP. -/
abbrev KLN_IMG_RES.OP : Fld := ⟨.KLN_IMG_RES, 28⟩
/-- KLN_IMG_RES, field RESULT. -/
abbrev KLN_IMG_RES.RESULT : Fld := ⟨.KLN_IMG_RES, 24⟩
/-- KLN_IMG_RES, field BUSY. -/
abbrev KLN_IMG_RES.BUSY : Fld := ⟨.KLN_IMG_RES, 23⟩
/-- KLN_IMG_RES, field REC. -/
abbrev KLN_IMG_RES.REC : Fld := ⟨.KLN_IMG_RES, 8⟩
/-- KLN_IMG_RES, field OVL. -/
abbrev KLN_IMG_RES.OVL : Fld := ⟨.KLN_IMG_RES, 0⟩
/-- KLN_CFG_STAT, field LOCK. -/
abbrev KLN_CFG_STAT.LOCK : Fld := ⟨.KLN_CFG_STAT, 31⟩
/-- KLN_CFG_STAT, field NO_BASE. -/
abbrev KLN_CFG_STAT.NO_BASE : Fld := ⟨.KLN_CFG_STAT, 30⟩
/-- KLN_CFG_STAT, field BASE_SLOT. -/
abbrev KLN_CFG_STAT.BASE_SLOT : Fld := ⟨.KLN_CFG_STAT, 29⟩
/-- KLN_CFG_STAT, field SLOT1_OK. -/
abbrev KLN_CFG_STAT.SLOT1_OK : Fld := ⟨.KLN_CFG_STAT, 28⟩
/-- KLN_CFG_STAT, field SLOT0_OK. -/
abbrev KLN_CFG_STAT.SLOT0_OK : Fld := ⟨.KLN_CFG_STAT, 27⟩
/-- KLN_CFG_STAT, field STORED. -/
abbrev KLN_CFG_STAT.STORED : Fld := ⟨.KLN_CFG_STAT, 0⟩
/-- KLN_BASE_VER, field VALUE. -/
abbrev KLN_BASE_VER.VALUE : Fld := ⟨.KLN_BASE_VER, 0⟩
/-- KLN_OVL_EPOCH, field EPOCH. -/
abbrev KLN_OVL_EPOCH.EPOCH : Fld := ⟨.KLN_OVL_EPOCH, 0⟩
/-- KLN_VER_FLOOR, field VALUE. -/
abbrev KLN_VER_FLOOR.VALUE : Fld := ⟨.KLN_VER_FLOOR, 0⟩
/-- KLN_OVL_STAT, field STATE. -/
abbrev KLN_OVL_STAT.STATE : Fld := ⟨.KLN_OVL_STAT, 28⟩
/-- KLN_OVL_STAT, field MODE. -/
abbrev KLN_OVL_STAT.MODE : Fld := ⟨.KLN_OVL_STAT, 24⟩
/-- KLN_OVL_STAT, field STORE. -/
abbrev KLN_OVL_STAT.STORE : Fld := ⟨.KLN_OVL_STAT, 16⟩
/-- KLN_OVL_STAT, field REMAIN. -/
abbrev KLN_OVL_STAT.REMAIN : Fld := ⟨.KLN_OVL_STAT, 0⟩
/-- KLN_CER_STAT, field QUORUM. -/
abbrev KLN_CER_STAT.QUORUM : Fld := ⟨.KLN_CER_STAT, 31⟩
/-- KLN_CER_STAT, field CER_ON. -/
abbrev KLN_CER_STAT.CER_ON : Fld := ⟨.KLN_CER_STAT, 30⟩
/-- KLN_CER_STAT, field REVOKED. -/
abbrev KLN_CER_STAT.REVOKED : Fld := ⟨.KLN_CER_STAT, 29⟩
/-- KLN_CER_STAT, field SLOT_X. -/
abbrev KLN_CER_STAT.SLOT_X : Fld := ⟨.KLN_CER_STAT, 18⟩
/-- KLN_CER_STAT, field SLOT_Y. -/
abbrev KLN_CER_STAT.SLOT_Y : Fld := ⟨.KLN_CER_STAT, 16⟩
/-- KLN_CER_STAT, field ROLE_Y. -/
abbrev KLN_CER_STAT.ROLE_Y : Fld := ⟨.KLN_CER_STAT, 8⟩
/-- KLN_CER_STAT, field ROLE_X. -/
abbrev KLN_CER_STAT.ROLE_X : Fld := ⟨.KLN_CER_STAT, 0⟩
/-- KLN_CER_SEQ, field COUNTER. -/
abbrev KLN_CER_SEQ.COUNTER : Fld := ⟨.KLN_CER_SEQ, 0⟩
/-- KLN_PIN, field SUBJECT. -/
abbrev KLN_PIN.SUBJECT : Fld := ⟨.KLN_PIN, 0⟩
/-- DRG_SEQ_CFG, field TOFF. -/
abbrev DRG_SEQ_CFG.TOFF : Fld := ⟨.DRG_SEQ_CFG, 22⟩
/-- DRG_SEQ_CFG, field RESTART_LIM. -/
abbrev DRG_SEQ_CFG.RESTART_LIM : Fld := ⟨.DRG_SEQ_CFG, 20⟩
/-- DRG_SEQ_CFG, field RAIL_RETRY_LIM. -/
abbrev DRG_SEQ_CFG.RAIL_RETRY_LIM : Fld := ⟨.DRG_SEQ_CFG, 16⟩
/-- DRG_SEQ_CFG, field RAIL_RETRY. -/
abbrev DRG_SEQ_CFG.RAIL_RETRY : Fld := ⟨.DRG_SEQ_CFG, 8⟩
/-- DRG_SEQ_CFG, field MAIN_DGL. -/
abbrev DRG_SEQ_CFG.MAIN_DGL : Fld := ⟨.DRG_SEQ_CFG, 4⟩
/-- DRG_SEQ_CFG, field PG_MAIN_EN. -/
abbrev DRG_SEQ_CFG.PG_MAIN_EN : Fld := ⟨.DRG_SEQ_CFG, 3⟩
/-- DRG_SEQ_CFG, field AUTO_UP. -/
abbrev DRG_SEQ_CFG.AUTO_UP : Fld := ⟨.DRG_SEQ_CFG, 2⟩
/-- DRG_SEQ_CMD, field RAIL. -/
abbrev DRG_SEQ_CMD.RAIL : Fld := ⟨.DRG_SEQ_CMD, 24⟩
/-- DRG_SEQ_CMD, field COLD. -/
abbrev DRG_SEQ_CMD.COLD : Fld := ⟨.DRG_SEQ_CMD, 3⟩
/-- DRG_SEQ_CMD, field RETRY. -/
abbrev DRG_SEQ_CMD.RETRY : Fld := ⟨.DRG_SEQ_CMD, 2⟩
/-- DRG_SEQ_CMD, field UP. -/
abbrev DRG_SEQ_CMD.UP : Fld := ⟨.DRG_SEQ_CMD, 1⟩
/-- DRG_SEQ_CMD, field DOWN. -/
abbrev DRG_SEQ_CMD.DOWN : Fld := ⟨.DRG_SEQ_CMD, 0⟩
/-- DRG_SEQ_STAT, field STATE. -/
abbrev DRG_SEQ_STAT.STATE : Fld := ⟨.DRG_SEQ_STAT, 28⟩
/-- DRG_SEQ_STAT, field UP_PEND. -/
abbrev DRG_SEQ_STAT.UP_PEND : Fld := ⟨.DRG_SEQ_STAT, 27⟩
/-- DRG_SEQ_STAT, field COLD_PEND. -/
abbrev DRG_SEQ_STAT.COLD_PEND : Fld := ⟨.DRG_SEQ_STAT, 26⟩
/-- DRG_SEQ_STAT, field RESTARTS. -/
abbrev DRG_SEQ_STAT.RESTARTS : Fld := ⟨.DRG_SEQ_STAT, 24⟩
/-- DRG_SEQ_STAT, field STATE_MS. -/
abbrev DRG_SEQ_STAT.STATE_MS : Fld := ⟨.DRG_SEQ_STAT, 0⟩
/-- DRG_SEQ_EVT, field CMD_REFUSED. -/
abbrev DRG_SEQ_EVT.CMD_REFUSED : Fld := ⟨.DRG_SEQ_EVT, 10⟩
/-- DRG_SEQ_EVT, field MAIN_RETURN. -/
abbrev DRG_SEQ_EVT.MAIN_RETURN : Fld := ⟨.DRG_SEQ_EVT, 9⟩
/-- DRG_SEQ_EVT, field FAIL_IN_DOWN. -/
abbrev DRG_SEQ_EVT.FAIL_IN_DOWN : Fld := ⟨.DRG_SEQ_EVT, 8⟩
/-- DRG_SEQ_EVT, field STUCK_ON. -/
abbrev DRG_SEQ_EVT.STUCK_ON : Fld := ⟨.DRG_SEQ_EVT, 7⟩
/-- DRG_SEQ_EVT, field PG_UNEXP. -/
abbrev DRG_SEQ_EVT.PG_UNEXP : Fld := ⟨.DRG_SEQ_EVT, 6⟩
/-- DRG_SEQ_EVT, field RAIL_LOST. -/
abbrev DRG_SEQ_EVT.RAIL_LOST : Fld := ⟨.DRG_SEQ_EVT, 5⟩
/-- DRG_SEQ_EVT, field NO_PG. -/
abbrev DRG_SEQ_EVT.NO_PG : Fld := ⟨.DRG_SEQ_EVT, 4⟩
/-- DRG_SEQ_EVT, field REDUCED_IN. -/
abbrev DRG_SEQ_EVT.REDUCED_IN : Fld := ⟨.DRG_SEQ_EVT, 3⟩
/-- DRG_SEQ_EVT, field RESTART. -/
abbrev DRG_SEQ_EVT.RESTART : Fld := ⟨.DRG_SEQ_EVT, 2⟩
/-- DRG_SEQ_EVT, field DOWN_DONE. -/
abbrev DRG_SEQ_EVT.DOWN_DONE : Fld := ⟨.DRG_SEQ_EVT, 1⟩
/-- DRG_SEQ_EVT, field UP_DONE. -/
abbrev DRG_SEQ_EVT.UP_DONE : Fld := ⟨.DRG_SEQ_EVT, 0⟩
/-- DRG_RAIL_EN, field MAIN. -/
abbrev DRG_RAIL_EN.MAIN : Fld := ⟨.DRG_RAIL_EN, 31⟩
/-- DRG_RAIL_EN, field RAIL. -/
abbrev DRG_RAIL_EN.RAIL : Fld := ⟨.DRG_RAIL_EN, 0⟩
/-- DRG_RAIL_PG, field MAIN. -/
abbrev DRG_RAIL_PG.MAIN : Fld := ⟨.DRG_RAIL_PG, 31⟩
/-- DRG_RAIL_PG, field RAIL. -/
abbrev DRG_RAIL_PG.RAIL : Fld := ⟨.DRG_RAIL_PG, 0⟩
/-- DRG_RAIL_FAIL, field MAIN. -/
abbrev DRG_RAIL_FAIL.MAIN : Fld := ⟨.DRG_RAIL_FAIL, 31⟩
/-- DRG_RAIL_FAIL, field RAIL. -/
abbrev DRG_RAIL_FAIL.RAIL : Fld := ⟨.DRG_RAIL_FAIL, 0⟩
/-- DRG_RAIL_LOCKOUT, field MAIN. -/
abbrev DRG_RAIL_LOCKOUT.MAIN : Fld := ⟨.DRG_RAIL_LOCKOUT, 31⟩
/-- DRG_RAIL_LOCKOUT, field RAIL. -/
abbrev DRG_RAIL_LOCKOUT.RAIL : Fld := ⟨.DRG_RAIL_LOCKOUT, 0⟩
/-- DRG_DOM_STAT, field UP. -/
abbrev DRG_DOM_STAT.UP : Fld := ⟨.DRG_DOM_STAT, 0⟩
/-- DRG_SEQ_SLOT, field IN_PLAN. -/
abbrev DRG_SEQ_SLOT.IN_PLAN : Fld := ⟨.DRG_SEQ_SLOT, 31⟩
/-- DRG_SEQ_SLOT, field ON_DLY. -/
abbrev DRG_SEQ_SLOT.ON_DLY : Fld := ⟨.DRG_SEQ_SLOT, 16⟩
/-- DRG_SEQ_SLOT, field OFF_DLY. -/
abbrev DRG_SEQ_SLOT.OFF_DLY : Fld := ⟨.DRG_SEQ_SLOT, 8⟩
/-- DRG_SEQ_SLOT, field PG_TMO. -/
abbrev DRG_SEQ_SLOT.PG_TMO : Fld := ⟨.DRG_SEQ_SLOT, 4⟩
/-- DRG_SEQ_SLOT, field PG_DGL. -/
abbrev DRG_SEQ_SLOT.PG_DGL : Fld := ⟨.DRG_SEQ_SLOT, 0⟩
/-- DRG_PMB_MAP, field VALID. -/
abbrev DRG_PMB_MAP.VALID : Fld := ⟨.DRG_PMB_MAP, 31⟩
/-- DRG_PMB_MAP, field AVS. -/
abbrev DRG_PMB_MAP.AVS : Fld := ⟨.DRG_PMB_MAP, 30⟩
/-- DRG_PMB_MAP, field MARGIN_OK. -/
abbrev DRG_PMB_MAP.MARGIN_OK : Fld := ⟨.DRG_PMB_MAP, 29⟩
/-- DRG_PMB_MAP, field MARGIN. -/
abbrev DRG_PMB_MAP.MARGIN : Fld := ⟨.DRG_PMB_MAP, 24⟩
/-- DRG_PMB_MAP, field RAIL. -/
abbrev DRG_PMB_MAP.RAIL : Fld := ⟨.DRG_PMB_MAP, 16⟩
/-- DRG_PMB_MAP, field PAGE. -/
abbrev DRG_PMB_MAP.PAGE : Fld := ⟨.DRG_PMB_MAP, 8⟩
/-- DRG_PMB_MAP, field ADDR. -/
abbrev DRG_PMB_MAP.ADDR : Fld := ⟨.DRG_PMB_MAP, 0⟩
/-- DRG_PMB_CFG, field SPEED. -/
abbrev DRG_PMB_CFG.SPEED : Fld := ⟨.DRG_PMB_CFG, 16⟩
/-- DRG_PMB_CFG, field POLL. -/
abbrev DRG_PMB_CFG.POLL : Fld := ⟨.DRG_PMB_CFG, 8⟩
/-- DRG_PMB_STAT, field ENTRY. -/
abbrev DRG_PMB_STAT.ENTRY : Fld := ⟨.DRG_PMB_STAT, 0⟩
/-- DRG_PMB_WARN, field ENTRY. -/
abbrev DRG_PMB_WARN.ENTRY : Fld := ⟨.DRG_PMB_WARN, 0⟩
/-- DRG_BEL_CMD, field GO. -/
abbrev DRG_BEL_CMD.GO : Fld := ⟨.DRG_BEL_CMD, 31⟩
/-- DRG_BEL_CMD, field STOP. -/
abbrev DRG_BEL_CMD.STOP : Fld := ⟨.DRG_BEL_CMD, 30⟩
/-- DRG_BEL_CMD, field DIR. -/
abbrev DRG_BEL_CMD.DIR : Fld := ⟨.DRG_BEL_CMD, 24⟩
/-- DRG_BEL_CMD, field ENTRY. -/
abbrev DRG_BEL_CMD.ENTRY : Fld := ⟨.DRG_BEL_CMD, 16⟩
/-- DRG_BEL_CMD, field DWELL. -/
abbrev DRG_BEL_CMD.DWELL : Fld := ⟨.DRG_BEL_CMD, 0⟩
/-- DRG_BEL_STAT, field STATE. -/
abbrev DRG_BEL_STAT.STATE : Fld := ⟨.DRG_BEL_STAT, 28⟩
/-- DRG_BEL_STAT, field REASON. -/
abbrev DRG_BEL_STAT.REASON : Fld := ⟨.DRG_BEL_STAT, 24⟩
/-- DRG_BEL_STAT, field ENTRY. -/
abbrev DRG_BEL_STAT.ENTRY : Fld := ⟨.DRG_BEL_STAT, 16⟩
/-- DRG_BEL_STAT, field REMAIN. -/
abbrev DRG_BEL_STAT.REMAIN : Fld := ⟨.DRG_BEL_STAT, 0⟩
/-- DRG_BEL_RES, field VOUT_RAW. -/
abbrev DRG_BEL_RES.VOUT_RAW : Fld := ⟨.DRG_BEL_RES, 16⟩
/-- DRG_BEL_RES, field MON_EVT. -/
abbrev DRG_BEL_RES.MON_EVT : Fld := ⟨.DRG_BEL_RES, 8⟩
/-- DRG_GRP_CFG, field GRP_WAIT. -/
abbrev DRG_GRP_CFG.GRP_WAIT : Fld := ⟨.DRG_GRP_CFG, 24⟩
/-- DRG_GRP_CFG, field STAGE2_WAIT. -/
abbrev DRG_GRP_CFG.STAGE2_WAIT : Fld := ⟨.DRG_GRP_CFG, 16⟩
/-- DRG_GRP_STAT, field DEV. -/
abbrev DRG_GRP_STAT.DEV : Fld := ⟨.DRG_GRP_STAT, 30⟩
/-- DRG_GRP_STAT, field SIZE. -/
abbrev DRG_GRP_STAT.SIZE : Fld := ⟨.DRG_GRP_STAT, 28⟩
/-- DRG_GRP_STAT, field ORPHAN. -/
abbrev DRG_GRP_STAT.ORPHAN : Fld := ⟨.DRG_GRP_STAT, 27⟩
/-- DRG_GRP_STAT, field SUPERVISOR. -/
abbrev DRG_GRP_STAT.SUPERVISOR : Fld := ⟨.DRG_GRP_STAT, 26⟩
/-- DRG_GRP_STAT, field SUP_DEV. -/
abbrev DRG_GRP_STAT.SUP_DEV : Fld := ⟨.DRG_GRP_STAT, 24⟩
/-- DRG_GRP_STAT, field PRESENT. -/
abbrev DRG_GRP_STAT.PRESENT : Fld := ⟨.DRG_GRP_STAT, 16⟩
/-- DRG_GRP_STAT, field JOINED. -/
abbrev DRG_GRP_STAT.JOINED : Fld := ⟨.DRG_GRP_STAT, 12⟩
/-- DRG_GRP_EVT, field SUP_TAKEN. -/
abbrev DRG_GRP_EVT.SUP_TAKEN : Fld := ⟨.DRG_GRP_EVT, 4⟩
/-- DRG_GRP_EVT, field LATE_JOIN. -/
abbrev DRG_GRP_EVT.LATE_JOIN : Fld := ⟨.DRG_GRP_EVT, 3⟩
/-- DRG_GRP_EVT, field ORPHAN_IN. -/
abbrev DRG_GRP_EVT.ORPHAN_IN : Fld := ⟨.DRG_GRP_EVT, 2⟩
/-- DRG_GRP_EVT, field STROBE_TX. -/
abbrev DRG_GRP_EVT.STROBE_TX : Fld := ⟨.DRG_GRP_EVT, 1⟩
/-- DRG_GRP_EVT, field STROBE_RX. -/
abbrev DRG_GRP_EVT.STROBE_RX : Fld := ⟨.DRG_GRP_EVT, 0⟩
/-- DRG_KZ_STAT, field RETRY_CNT. -/
abbrev DRG_KZ_STAT.RETRY_CNT : Fld := ⟨.DRG_KZ_STAT, 24⟩
/-- DRG_KZ_STAT, field CRC_CNT. -/
abbrev DRG_KZ_STAT.CRC_CNT : Fld := ⟨.DRG_KZ_STAT, 16⟩
/-- DRG_KZ_STAT, field KZ_ERR. -/
abbrev DRG_KZ_STAT.KZ_ERR : Fld := ⟨.DRG_KZ_STAT, 8⟩
/-- DRG_KZ_STAT, field PEER. -/
abbrev DRG_KZ_STAT.PEER : Fld := ⟨.DRG_KZ_STAT, 6⟩
/-- DRG_KZ_STAT, field KEYED. -/
abbrev DRG_KZ_STAT.KEYED : Fld := ⟨.DRG_KZ_STAT, 4⟩
/-- DRG_KZ_STAT, field INIT_OK. -/
abbrev DRG_KZ_STAT.INIT_OK : Fld := ⟨.DRG_KZ_STAT, 3⟩
/-- DRG_KZ_STAT, field SYM_LOCK. -/
abbrev DRG_KZ_STAT.SYM_LOCK : Fld := ⟨.DRG_KZ_STAT, 2⟩
/-- DRG_KZ_STAT, field UNUSED. -/
abbrev DRG_KZ_STAT.UNUSED : Fld := ⟨.DRG_KZ_STAT, 1⟩
/-- DRG_DMP_CFG, field CAP. -/
abbrev DRG_DMP_CFG.CAP : Fld := ⟨.DRG_DMP_CFG, 24⟩
/-- DRG_DMP_CFG, field DEPTH. -/
abbrev DRG_DMP_CFG.DEPTH : Fld := ⟨.DRG_DMP_CFG, 16⟩
/-- DRG_DMP_CFG, field KNEE. -/
abbrev DRG_DMP_CFG.KNEE : Fld := ⟨.DRG_DMP_CFG, 8⟩
/-- DRG_DMP_CFG, field SLOPE. -/
abbrev DRG_DMP_CFG.SLOPE : Fld := ⟨.DRG_DMP_CFG, 4⟩
/-- DRG_DMP_STAT, field LEVEL. -/
abbrev DRG_DMP_STAT.LEVEL : Fld := ⟨.DRG_DMP_STAT, 24⟩
/-- DRG_DMP_STAT, field P_WORK. -/
abbrev DRG_DMP_STAT.P_WORK : Fld := ⟨.DRG_DMP_STAT, 16⟩
/-- DRG_DMP_STAT, field P_EFF. -/
abbrev DRG_DMP_STAT.P_EFF : Fld := ⟨.DRG_DMP_STAT, 8⟩
/-- DRG_DMP_STAT, field TJ_MAX. -/
abbrev DRG_DMP_STAT.TJ_MAX : Fld := ⟨.DRG_DMP_STAT, 0⟩
/-- DRG_DMP_EVT, field TIER_WAIT. -/
abbrev DRG_DMP_EVT.TIER_WAIT : Fld := ⟨.DRG_DMP_EVT, 8⟩
/-- DRG_DMP_EVT, field HOT_IN. -/
abbrev DRG_DMP_EVT.HOT_IN : Fld := ⟨.DRG_DMP_EVT, 4⟩
/-- DRG_DMP_EVT, field PROMOTED. -/
abbrev DRG_DMP_EVT.PROMOTED : Fld := ⟨.DRG_DMP_EVT, 3⟩
/-- DRG_DMP_EVT, field THIN. -/
abbrev DRG_DMP_EVT.THIN : Fld := ⟨.DRG_DMP_EVT, 2⟩
/-- DRG_DMP_EVT, field THERMAL. -/
abbrev DRG_DMP_EVT.THERMAL : Fld := ⟨.DRG_DMP_EVT, 1⟩
/-- DRG_DMP_EVT, field CAP_STORED. -/
abbrev DRG_DMP_EVT.CAP_STORED : Fld := ⟨.DRG_DMP_EVT, 0⟩
/-- DRG_DMP_STATIC, field STATIC_W. -/
abbrev DRG_DMP_STATIC.STATIC_W : Fld := ⟨.DRG_DMP_STATIC, 16⟩
/-- DRG_DMP_STATIC, field STATIC_SLOPE. -/
abbrev DRG_DMP_STATIC.STATIC_SLOPE : Fld := ⟨.DRG_DMP_STATIC, 0⟩
/-- DRG_DMP_CFG2, field TJ_HOT. -/
abbrev DRG_DMP_CFG2.TJ_HOT : Fld := ⟨.DRG_DMP_CFG2, 24⟩
/-- DRG_DMP_CFG2, field LONG_STARVE. -/
abbrev DRG_DMP_CFG2.LONG_STARVE : Fld := ⟨.DRG_DMP_CFG2, 16⟩
/-- DRG_DMP_COST, field COST. -/
abbrev DRG_DMP_COST.COST : Fld := ⟨.DRG_DMP_COST, 0⟩
/-- DRG_AVS_CFG, field AVS_EN. -/
abbrev DRG_AVS_CFG.AVS_EN : Fld := ⟨.DRG_AVS_CFG, 31⟩
/-- DRG_AVS_CFG, field VMAX. -/
abbrev DRG_AVS_CFG.VMAX : Fld := ⟨.DRG_AVS_CFG, 16⟩
/-- DRG_AVS_CFG, field TGT_BASE. -/
abbrev DRG_AVS_CFG.TGT_BASE : Fld := ⟨.DRG_AVS_CFG, 8⟩
/-- DRG_AVS_CFG, field LOW_OFS. -/
abbrev DRG_AVS_CFG.LOW_OFS : Fld := ⟨.DRG_AVS_CFG, 4⟩
/-- DRG_AVS_CFG, field CRIT_OFS. -/
abbrev DRG_AVS_CFG.CRIT_OFS : Fld := ⟨.DRG_AVS_CFG, 0⟩
/-- DRG_AVS_STAT, field VSET. -/
abbrev DRG_AVS_STAT.VSET : Fld := ⟨.DRG_AVS_STAT, 24⟩
/-- DRG_AVS_STAT, field MARGIN16. -/
abbrev DRG_AVS_STAT.MARGIN16 : Fld := ⟨.DRG_AVS_STAT, 16⟩
/-- DRG_AVS_STAT, field MARGIN17. -/
abbrev DRG_AVS_STAT.MARGIN17 : Fld := ⟨.DRG_AVS_STAT, 8⟩
/-- DRG_AVS_STAT, field DER16. -/
abbrev DRG_AVS_STAT.DER16 : Fld := ⟨.DRG_AVS_STAT, 6⟩
/-- DRG_AVS_STAT, field DER17. -/
abbrev DRG_AVS_STAT.DER17 : Fld := ⟨.DRG_AVS_STAT, 4⟩
/-- DRG_AVS_STAT, field SUSPENDED. -/
abbrev DRG_AVS_STAT.SUSPENDED : Fld := ⟨.DRG_AVS_STAT, 3⟩
/-- DRG_AVS_STAT, field AT_VMAX. -/
abbrev DRG_AVS_STAT.AT_VMAX : Fld := ⟨.DRG_AVS_STAT, 2⟩
/-- DRG_AGE_STAT, field MEAS_REQ. -/
abbrev DRG_AGE_STAT.MEAS_REQ : Fld := ⟨.DRG_AGE_STAT, 31⟩
/-- DRG_AGE_STAT, field MEAS_BUSY. -/
abbrev DRG_AGE_STAT.MEAS_BUSY : Fld := ⟨.DRG_AGE_STAT, 30⟩
/-- DRG_AGE_STAT, field DRIFT16. -/
abbrev DRG_AGE_STAT.DRIFT16 : Fld := ⟨.DRG_AGE_STAT, 16⟩
/-- DRG_AGE_STAT, field DRIFT17. -/
abbrev DRG_AGE_STAT.DRIFT17 : Fld := ⟨.DRG_AGE_STAT, 8⟩
/-- DRG_AGE_STAT, field WORST_DM. -/
abbrev DRG_AGE_STAT.WORST_DM : Fld := ⟨.DRG_AGE_STAT, 0⟩
/-- DRG_AGE_CFG, field AGE_PERIOD. -/
abbrev DRG_AGE_CFG.AGE_PERIOD : Fld := ⟨.DRG_AGE_CFG, 24⟩
/-- DRG_AGE_CFG, field DRIFT_MAX. -/
abbrev DRG_AGE_CFG.DRIFT_MAX : Fld := ⟨.DRG_AGE_CFG, 16⟩
/-- DRG_AGE_CFG, field TMO_BASE. -/
abbrev DRG_AGE_CFG.TMO_BASE : Fld := ⟨.DRG_AGE_CFG, 8⟩
/-- DRG_AGE_CFG, field ROW_CE_LIM. -/
abbrev DRG_AGE_CFG.ROW_CE_LIM : Fld := ⟨.DRG_AGE_CFG, 4⟩
/-- DRG_AGE_CFG, field PATROL. -/
abbrev DRG_AGE_CFG.PATROL : Fld := ⟨.DRG_AGE_CFG, 0⟩
/-- DRG_PLAN_STAT, field TGT. -/
abbrev DRG_PLAN_STAT.TGT : Fld := ⟨.DRG_PLAN_STAT, 24⟩
/-- DRG_PLAN_STAT, field REPLANS. -/
abbrev DRG_PLAN_STAT.REPLANS : Fld := ⟨.DRG_PLAN_STAT, 16⟩
/-- DRG_PLAN_STAT, field PLAN_FAIL. -/
abbrev DRG_PLAN_STAT.PLAN_FAIL : Fld := ⟨.DRG_PLAN_STAT, 8⟩
/-- DRG_WEAR_HRS, field EQ_HOURS. -/
abbrev DRG_WEAR_HRS.EQ_HOURS : Fld := ⟨.DRG_WEAR_HRS, 0⟩
/-- DRG_WEAR_STAT, field LIFE_PCT. -/
abbrev DRG_WEAR_STAT.LIFE_PCT : Fld := ⟨.DRG_WEAR_STAT, 24⟩
/-- DRG_WEAR_STAT, field WEAR_LOST. -/
abbrev DRG_WEAR_STAT.WEAR_LOST : Fld := ⟨.DRG_WEAR_STAT, 2⟩
/-- DRG_WEAR_STAT, field NVS_PEND. -/
abbrev DRG_WEAR_STAT.NVS_PEND : Fld := ⟨.DRG_WEAR_STAT, 1⟩
/-- DRG_WEAR_STAT, field WEAR_WARN. -/
abbrev DRG_WEAR_STAT.WEAR_WARN : Fld := ⟨.DRG_WEAR_STAT, 0⟩
/-- DRG_SRAM_STAT, field ROWS_USED. -/
abbrev DRG_SRAM_STAT.ROWS_USED : Fld := ⟨.DRG_SRAM_STAT, 16⟩
/-- DRG_SRAM_STAT, field GROUPS_OUT. -/
abbrev DRG_SRAM_STAT.GROUPS_OUT : Fld := ⟨.DRG_SRAM_STAT, 8⟩
/-- DRG_SRAM_STAT, field PATROL_CNT. -/
abbrev DRG_SRAM_STAT.PATROL_CNT : Fld := ⟨.DRG_SRAM_STAT, 0⟩
/-- DRG_MON_SETTLE, field SETTLE. -/
abbrev DRG_MON_SETTLE.SETTLE : Fld := ⟨.DRG_MON_SETTLE, 0⟩
/-- DRG_RMON_CFG, field MODE. -/
abbrev DRG_RMON_CFG.MODE : Fld := ⟨.DRG_RMON_CFG, 14⟩
/-- DRG_RMON_CFG, field TICK. -/
abbrev DRG_RMON_CFG.TICK : Fld := ⟨.DRG_RMON_CFG, 13⟩
/-- DRG_RMON_CFG, field ASSUME. -/
abbrev DRG_RMON_CFG.ASSUME : Fld := ⟨.DRG_RMON_CFG, 12⟩
/-- DRG_RMON_CFG, field M. -/
abbrev DRG_RMON_CFG.M : Fld := ⟨.DRG_RMON_CFG, 8⟩
/-- DRG_RMON_CFG, field N. -/
abbrev DRG_RMON_CFG.N : Fld := ⟨.DRG_RMON_CFG, 4⟩
/-- DRG_RMON_CFG, field LATCH. -/
abbrev DRG_RMON_CFG.LATCH : Fld := ⟨.DRG_RMON_CFG, 2⟩
/-- DRG_RMON_CFG, field GLITCH_EV. -/
abbrev DRG_RMON_CFG.GLITCH_EV : Fld := ⟨.DRG_RMON_CFG, 1⟩
/-- DRG_RMON_THR, field HI. -/
abbrev DRG_RMON_THR.HI : Fld := ⟨.DRG_RMON_THR, 16⟩
/-- DRG_RMON_THR, field LO. -/
abbrev DRG_RMON_THR.LO : Fld := ⟨.DRG_RMON_THR, 8⟩
/-- DRG_RMON_THR, field HYST. -/
abbrev DRG_RMON_THR.HYST : Fld := ⟨.DRG_RMON_THR, 0⟩
/-- DRG_RMON_STAT, field TRIP_CNT. -/
abbrev DRG_RMON_STAT.TRIP_CNT : Fld := ⟨.DRG_RMON_STAT, 24⟩
/-- DRG_RMON_STAT, field MODE_EFF. -/
abbrev DRG_RMON_STAT.MODE_EFF : Fld := ⟨.DRG_RMON_STAT, 18⟩
/-- DRG_RMON_STAT, field DECIDED. -/
abbrev DRG_RMON_STAT.DECIDED : Fld := ⟨.DRG_RMON_STAT, 7⟩
/-- DRG_RMON_STAT, field UNDECIDED. -/
abbrev DRG_RMON_STAT.UNDECIDED : Fld := ⟨.DRG_RMON_STAT, 6⟩
/-- DRG_RMON_STAT, field RAW_SEEN. -/
abbrev DRG_RMON_STAT.RAW_SEEN : Fld := ⟨.DRG_RMON_STAT, 5⟩
/-- DRG_RMON_STAT, field LATCHED. -/
abbrev DRG_RMON_STAT.LATCHED : Fld := ⟨.DRG_RMON_STAT, 4⟩
/-- DRG_RMON_STAT, field RAW. -/
abbrev DRG_RMON_STAT.RAW : Fld := ⟨.DRG_RMON_STAT, 1⟩
/-- DRG_RMON_STAT, field STATE. -/
abbrev DRG_RMON_STAT.STATE : Fld := ⟨.DRG_RMON_STAT, 0⟩
/-- ASH_STAT, field SAFE. -/
abbrev ASH_STAT.SAFE : Fld := ⟨.ASH_STAT, 31⟩
/-- ASH_STAT, field TAMPER. -/
abbrev ASH_STAT.TAMPER : Fld := ⟨.ASH_STAT, 30⟩
/-- ASH_STAT, field ALERT. -/
abbrev ASH_STAT.ALERT : Fld := ⟨.ASH_STAT, 29⟩
/-- ASH_STAT, field REDUCED. -/
abbrev ASH_STAT.REDUCED : Fld := ⟨.ASH_STAT, 28⟩
/-- ASH_STAT, field WIN_OPEN. -/
abbrev ASH_STAT.WIN_OPEN : Fld := ⟨.ASH_STAT, 16⟩
/-- ASH_STAT, field LAST_UC. -/
abbrev ASH_STAT.LAST_UC : Fld := ⟨.ASH_STAT, 8⟩
/-- ASH_STAT, field FIRST_FA. -/
abbrev ASH_STAT.FIRST_FA : Fld := ⟨.ASH_STAT, 0⟩
/-- ASH_CMD, field KEY. -/
abbrev ASH_CMD.KEY : Fld := ⟨.ASH_CMD, 24⟩
/-- ASH_CMD, field LIFT_PORT. -/
abbrev ASH_CMD.LIFT_PORT : Fld := ⟨.ASH_CMD, 8⟩
/-- ASH_CMD, field WARM. -/
abbrev ASH_CMD.WARM : Fld := ⟨.ASH_CMD, 0⟩
/-- ASH_PIN_CTL, field DRILL_MUTE. -/
abbrev ASH_PIN_CTL.DRILL_MUTE : Fld := ⟨.ASH_PIN_CTL, 2⟩
/-- ASH_PIN_CTL, field AUTO_HOLD. -/
abbrev ASH_PIN_CTL.AUTO_HOLD : Fld := ⟨.ASH_PIN_CTL, 1⟩
/-- ASH_PIN_CTL, field HOLD. -/
abbrev ASH_PIN_CTL.HOLD : Fld := ⟨.ASH_PIN_CTL, 0⟩
/-- ASH_CNT, field CE_CNT. -/
abbrev ASH_CNT.CE_CNT : Fld := ⟨.ASH_CNT, 16⟩
/-- ASH_CNT, field UC_CNT. -/
abbrev ASH_CNT.UC_CNT : Fld := ⟨.ASH_CNT, 8⟩
/-- ASH_CNT, field FA_CNT. -/
abbrev ASH_CNT.FA_CNT : Fld := ⟨.ASH_CNT, 0⟩
/-- ASH_CNT2, field CONSEQ_CNT. -/
abbrev ASH_CNT2.CONSEQ_CNT : Fld := ⟨.ASH_CNT2, 16⟩
/-- ASH_CNT2, field OVERRUN_CNT. -/
abbrev ASH_CNT2.OVERRUN_CNT : Fld := ⟨.ASH_CNT2, 0⟩
/-- ASH_FENCE_SLOT, field FENCE. -/
abbrev ASH_FENCE_SLOT.FENCE : Fld := ⟨.ASH_FENCE_SLOT, 0⟩
/-- ASH_FENCE_UNIT, field BANK. -/
abbrev ASH_FENCE_UNIT.BANK : Fld := ⟨.ASH_FENCE_UNIT, 16⟩
/-- ASH_FENCE_UNIT, field CTX. -/
abbrev ASH_FENCE_UNIT.CTX : Fld := ⟨.ASH_FENCE_UNIT, 8⟩
/-- ASH_FENCE_UNIT, field PEER. -/
abbrev ASH_FENCE_UNIT.PEER : Fld := ⟨.ASH_FENCE_UNIT, 4⟩
/-- ASH_FENCE_UNIT, field PORT. -/
abbrev ASH_FENCE_UNIT.PORT : Fld := ⟨.ASH_FENCE_UNIT, 0⟩
/-- ASH_FENCE_LANE, field LANE. -/
abbrev ASH_FENCE_LANE.LANE : Fld := ⟨.ASH_FENCE_LANE, 0⟩
/-- ASH_HB_CFG, field HB_MISS. -/
abbrev ASH_HB_CFG.HB_MISS : Fld := ⟨.ASH_HB_CFG, 0⟩
/-- ASH_IRQ_CFG, field EN. -/
abbrev ASH_IRQ_CFG.EN : Fld := ⟨.ASH_IRQ_CFG, 31⟩
/-- ASH_IRQ_CFG, field VEC. -/
abbrev ASH_IRQ_CFG.VEC : Fld := ⟨.ASH_IRQ_CFG, 0⟩
/-- ASH_FORCE, field GO. -/
abbrev ASH_FORCE.GO : Fld := ⟨.ASH_FORCE, 31⟩
/-- ASH_FORCE, field LIFT. -/
abbrev ASH_FORCE.LIFT : Fld := ⟨.ASH_FORCE, 30⟩
/-- ASH_FORCE, field KIND. -/
abbrev ASH_FORCE.KIND : Fld := ⟨.ASH_FORCE, 24⟩
/-- ASH_FORCE, field UNIT. -/
abbrev ASH_FORCE.UNIT : Fld := ⟨.ASH_FORCE, 0⟩
/-- ASH_FORCE_STAT, field RESULT. -/
abbrev ASH_FORCE_STAT.RESULT : Fld := ⟨.ASH_FORCE_STAT, 28⟩
/-- ASH_FORCE_STAT, field KIND. -/
abbrev ASH_FORCE_STAT.KIND : Fld := ⟨.ASH_FORCE_STAT, 24⟩
/-- ASH_FORCE_STAT, field HELD. -/
abbrev ASH_FORCE_STAT.HELD : Fld := ⟨.ASH_FORCE_STAT, 8⟩
/-- ASH_FORCE_STAT, field UNIT. -/
abbrev ASH_FORCE_STAT.UNIT : Fld := ⟨.ASH_FORCE_STAT, 0⟩
/-- ASH_INJ, field GO. -/
abbrev ASH_INJ.GO : Fld := ⟨.ASH_INJ, 31⟩
/-- ASH_INJ, field SRC. -/
abbrev ASH_INJ.SRC : Fld := ⟨.ASH_INJ, 16⟩
/-- ASH_INJ, field UNIT. -/
abbrev ASH_INJ.UNIT : Fld := ⟨.ASH_INJ, 0⟩
/-- ASH_INJ_DETAIL, field DETAIL. -/
abbrev ASH_INJ_DETAIL.DETAIL : Fld := ⟨.ASH_INJ_DETAIL, 0⟩
/-- ASH_JRN_HEAD, field NVS_NEXT. -/
abbrev ASH_JRN_HEAD.NVS_NEXT : Fld := ⟨.ASH_JRN_HEAD, 16⟩
/-- ASH_JRN_HEAD, field SEQ_NEXT. -/
abbrev ASH_JRN_HEAD.SEQ_NEXT : Fld := ⟨.ASH_JRN_HEAD, 0⟩
/-- ASH_JRN_SEL, field NVS. -/
abbrev ASH_JRN_SEL.NVS : Fld := ⟨.ASH_JRN_SEL, 31⟩
/-- ASH_JRN_SEL, field INDEX. -/
abbrev ASH_JRN_SEL.INDEX : Fld := ⟨.ASH_JRN_SEL, 0⟩
/-- ASH_JRN_REC, field WORD. -/
abbrev ASH_JRN_REC.WORD : Fld := ⟨.ASH_JRN_REC, 0⟩
/-- ASH_JRN_PEND, field NVS_LOST. -/
abbrev ASH_JRN_PEND.NVS_LOST : Fld := ⟨.ASH_JRN_PEND, 16⟩
/-- ASH_JRN_PEND, field PEND. -/
abbrev ASH_JRN_PEND.PEND : Fld := ⟨.ASH_JRN_PEND, 0⟩
/-- ASH_SRC_CFG, field FORCE_OK. -/
abbrev ASH_SRC_CFG.FORCE_OK : Fld := ⟨.ASH_SRC_CFG, 9⟩
/-- ASH_SRC_CFG, field BANKABLE. -/
abbrev ASH_SRC_CFG.BANKABLE : Fld := ⟨.ASH_SRC_CFG, 8⟩
/-- ASH_SRC_CFG, field IRQ_EN. -/
abbrev ASH_SRC_CFG.IRQ_EN : Fld := ⟨.ASH_SRC_CFG, 7⟩
/-- ASH_SRC_CFG, field CLASS. -/
abbrev ASH_SRC_CFG.CLASS : Fld := ⟨.ASH_SRC_CFG, 4⟩
/-- ASH_SRC_CFG, field REACT. -/
abbrev ASH_SRC_CFG.REACT : Fld := ⟨.ASH_SRC_CFG, 0⟩
/-- ASH_SRC_CNT, field CNT. -/
abbrev ASH_SRC_CNT.CNT : Fld := ⟨.ASH_SRC_CNT, 0⟩
/-- STK_MBX_DATA, field DATA. -/
abbrev STK_MBX_DATA.DATA : Fld := ⟨.STK_MBX_DATA, 0⟩
/-- STK_MBX_CMD, field GO. -/
abbrev STK_MBX_CMD.GO : Fld := ⟨.STK_MBX_CMD, 31⟩
/-- STK_MBX_CMD, field OP. -/
abbrev STK_MBX_CMD.OP : Fld := ⟨.STK_MBX_CMD, 0⟩
/-- STK_MBX_STAT, field CMD_REFUSED. -/
abbrev STK_MBX_STAT.CMD_REFUSED : Fld := ⟨.STK_MBX_STAT, 9⟩
/-- STK_MBX_STAT, field BUSY. -/
abbrev STK_MBX_STAT.BUSY : Fld := ⟨.STK_MBX_STAT, 8⟩
/-- STK_MBX_STAT, field OP. -/
abbrev STK_MBX_STAT.OP : Fld := ⟨.STK_MBX_STAT, 0⟩
/-- FLU_RING_CFG, field INFL_MAX. -/
abbrev FLU_RING_CFG.INFL_MAX : Fld := ⟨.FLU_RING_CFG, 16⟩
/-- FLU_RING_CFG, field RESYNC_OK. -/
abbrev FLU_RING_CFG.RESYNC_OK : Fld := ⟨.FLU_RING_CFG, 14⟩
/-- FLU_RING_CFG, field CEREMONY. -/
abbrev FLU_RING_CFG.CEREMONY : Fld := ⟨.FLU_RING_CFG, 13⟩
/-- FLU_RING_CFG, field IDEMP. -/
abbrev FLU_RING_CFG.IDEMP : Fld := ⟨.FLU_RING_CFG, 12⟩
/-- FLU_RING_CFG, field ALT_OK. -/
abbrev FLU_RING_CFG.ALT_OK : Fld := ⟨.FLU_RING_CFG, 11⟩
/-- FLU_RING_CFG, field OWNER. -/
abbrev FLU_RING_CFG.OWNER : Fld := ⟨.FLU_RING_CFG, 10⟩
/-- FLU_RING_CFG, field CLASS. -/
abbrev FLU_RING_CFG.CLASS : Fld := ⟨.FLU_RING_CFG, 8⟩
/-- FLU_RING_CFG, field PRIO. -/
abbrev FLU_RING_CFG.PRIO : Fld := ⟨.FLU_RING_CFG, 2⟩
/-- FLU_RING_CFG, field DEFINED. -/
abbrev FLU_RING_CFG.DEFINED : Fld := ⟨.FLU_RING_CFG, 0⟩
/-- FLU_RING_CTL, field EN. -/
abbrev FLU_RING_CTL.EN : Fld := ⟨.FLU_RING_CTL, 31⟩
/-- FLU_RING_CTL, field CQ_SIZE. -/
abbrev FLU_RING_CTL.CQ_SIZE : Fld := ⟨.FLU_RING_CTL, 24⟩
/-- FLU_RING_CTL, field SQ_SIZE. -/
abbrev FLU_RING_CTL.SQ_SIZE : Fld := ⟨.FLU_RING_CTL, 20⟩
/-- FLU_RING_CTL, field INT_EN. -/
abbrev FLU_RING_CTL.INT_EN : Fld := ⟨.FLU_RING_CTL, 17⟩
/-- FLU_RING_CTL, field INT_VEC. -/
abbrev FLU_RING_CTL.INT_VEC : Fld := ⟨.FLU_RING_CTL, 8⟩
/-- FLU_RING_CTL, field COAL_CNT. -/
abbrev FLU_RING_CTL.COAL_CNT : Fld := ⟨.FLU_RING_CTL, 4⟩
/-- FLU_RING_CTL, field COAL_TIME. -/
abbrev FLU_RING_CTL.COAL_TIME : Fld := ⟨.FLU_RING_CTL, 0⟩
/-- FLU_SQ_BASE_LO, field ADDR_LO. -/
abbrev FLU_SQ_BASE_LO.ADDR_LO : Fld := ⟨.FLU_SQ_BASE_LO, 5⟩
/-- FLU_SQ_BASE_HI, field ADDR_HI. -/
abbrev FLU_SQ_BASE_HI.ADDR_HI : Fld := ⟨.FLU_SQ_BASE_HI, 0⟩
/-- FLU_CQ_BASE_LO, field ADDR_LO. -/
abbrev FLU_CQ_BASE_LO.ADDR_LO : Fld := ⟨.FLU_CQ_BASE_LO, 5⟩
/-- FLU_CQ_BASE_HI, field ADDR_HI. -/
abbrev FLU_CQ_BASE_HI.ADDR_HI : Fld := ⟨.FLU_CQ_BASE_HI, 0⟩
/-- FLU_SQ_DB, field VALUE. -/
abbrev FLU_SQ_DB.VALUE : Fld := ⟨.FLU_SQ_DB, 0⟩
/-- FLU_CQ_DB, field VALUE. -/
abbrev FLU_CQ_DB.VALUE : Fld := ⟨.FLU_CQ_DB, 0⟩
/-- FLU_RING_PTR, field CQ_PHASE. -/
abbrev FLU_RING_PTR.CQ_PHASE : Fld := ⟨.FLU_RING_PTR, 31⟩
/-- FLU_RING_PTR, field CQ_TAIL. -/
abbrev FLU_RING_PTR.CQ_TAIL : Fld := ⟨.FLU_RING_PTR, 16⟩
/-- FLU_RING_PTR, field SQ_HEAD. -/
abbrev FLU_RING_PTR.SQ_HEAD : Fld := ⟨.FLU_RING_PTR, 0⟩
/-- FLU_RING_STAT, field STATE. -/
abbrev FLU_RING_STAT.STATE : Fld := ⟨.FLU_RING_STAT, 28⟩
/-- FLU_RING_STAT, field OWNER_NOW. -/
abbrev FLU_RING_STAT.OWNER_NOW : Fld := ⟨.FLU_RING_STAT, 27⟩
/-- FLU_RING_STAT, field AWAIT_DB. -/
abbrev FLU_RING_STAT.AWAIT_DB : Fld := ⟨.FLU_RING_STAT, 26⟩
/-- FLU_RING_STAT, field DEFERRED. -/
abbrev FLU_RING_STAT.DEFERRED : Fld := ⟨.FLU_RING_STAT, 25⟩
/-- FLU_RING_STAT, field CQ_FULL. -/
abbrev FLU_RING_STAT.CQ_FULL : Fld := ⟨.FLU_RING_STAT, 24⟩
/-- FLU_RING_STAT, field INFLIGHT. -/
abbrev FLU_RING_STAT.INFLIGHT : Fld := ⟨.FLU_RING_STAT, 16⟩
/-- FLU_RING_STAT, field PENDING. -/
abbrev FLU_RING_STAT.PENDING : Fld := ⟨.FLU_RING_STAT, 0⟩
/-- FLU_RING_EVT, field MOVED. -/
abbrev FLU_RING_EVT.MOVED : Fld := ⟨.FLU_RING_EVT, 9⟩
/-- FLU_RING_EVT, field ORPHAN. -/
abbrev FLU_RING_EVT.ORPHAN : Fld := ⟨.FLU_RING_EVT, 8⟩
/-- FLU_RING_EVT, field DMA_ERR. -/
abbrev FLU_RING_EVT.DMA_ERR : Fld := ⟨.FLU_RING_EVT, 7⟩
/-- FLU_RING_EVT, field DB_ERR. -/
abbrev FLU_RING_EVT.DB_ERR : Fld := ⟨.FLU_RING_EVT, 6⟩
/-- FLU_RING_EVT, field NOT_OWNER. -/
abbrev FLU_RING_EVT.NOT_OWNER : Fld := ⟨.FLU_RING_EVT, 5⟩
/-- FLU_RING_EVT, field CTL_REFUSED. -/
abbrev FLU_RING_EVT.CTL_REFUSED : Fld := ⟨.FLU_RING_EVT, 4⟩
/-- FLU_RING_EVT, field CQ_FULL_SEEN. -/
abbrev FLU_RING_EVT.CQ_FULL_SEEN : Fld := ⟨.FLU_RING_EVT, 3⟩
/-- FLU_RING_EVT, field BUDGET_SEEN. -/
abbrev FLU_RING_EVT.BUDGET_SEEN : Fld := ⟨.FLU_RING_EVT, 2⟩
/-- FLU_RING_EVT, field TMO_SEEN. -/
abbrev FLU_RING_EVT.TMO_SEEN : Fld := ⟨.FLU_RING_EVT, 1⟩
/-- FLU_RING_EVT, field MALFORMED. -/
abbrev FLU_RING_EVT.MALFORMED : Fld := ⟨.FLU_RING_EVT, 0⟩
/-- FLU_RING_CMD, field HANDBACK. -/
abbrev FLU_RING_CMD.HANDBACK : Fld := ⟨.FLU_RING_CMD, 3⟩
/-- FLU_RING_CMD, field RESUME. -/
abbrev FLU_RING_CMD.RESUME : Fld := ⟨.FLU_RING_CMD, 2⟩
/-- FLU_RING_CMD, field PAUSE. -/
abbrev FLU_RING_CMD.PAUSE : Fld := ⟨.FLU_RING_CMD, 1⟩
/-- FLU_RING_CMD, field RESET. -/
abbrev FLU_RING_CMD.RESET : Fld := ⟨.FLU_RING_CMD, 0⟩
/-- FLU_RING_CNT, field CPL_CNT. -/
abbrev FLU_RING_CNT.CPL_CNT : Fld := ⟨.FLU_RING_CNT, 0⟩
/-- FLU_RING_DCNT, field BUDGET_CNT. -/
abbrev FLU_RING_DCNT.BUDGET_CNT : Fld := ⟨.FLU_RING_DCNT, 16⟩
/-- FLU_RING_DCNT, field TMO_CNT. -/
abbrev FLU_RING_DCNT.TMO_CNT : Fld := ⟨.FLU_RING_DCNT, 0⟩
/-- FLU_STACK_ACT, field VALID. -/
abbrev FLU_STACK_ACT.VALID : Fld := ⟨.FLU_STACK_ACT, 31⟩
/-- FLU_STACK_ACT, field MIRROR. -/
abbrev FLU_STACK_ACT.MIRROR : Fld := ⟨.FLU_STACK_ACT, 30⟩
/-- FLU_STACK_ACT, field PREF. -/
abbrev FLU_STACK_ACT.PREF : Fld := ⟨.FLU_STACK_ACT, 29⟩
/-- FLU_STACK_ACT, field SEED_PREF. -/
abbrev FLU_STACK_ACT.SEED_PREF : Fld := ⟨.FLU_STACK_ACT, 28⟩
/-- FLU_STACK_ACT, field MOVING. -/
abbrev FLU_STACK_ACT.MOVING : Fld := ⟨.FLU_STACK_ACT, 27⟩
/-- FLU_STACK_ACT, field LEG1_SLOT. -/
abbrev FLU_STACK_ACT.LEG1_SLOT : Fld := ⟨.FLU_STACK_ACT, 8⟩
/-- FLU_STACK_ACT, field LEG0_SLOT. -/
abbrev FLU_STACK_ACT.LEG0_SLOT : Fld := ⟨.FLU_STACK_ACT, 0⟩
/-- FLU_STACK_SHD, field VALID. -/
abbrev FLU_STACK_SHD.VALID : Fld := ⟨.FLU_STACK_SHD, 31⟩
/-- FLU_STACK_SHD, field MIRROR. -/
abbrev FLU_STACK_SHD.MIRROR : Fld := ⟨.FLU_STACK_SHD, 30⟩
/-- FLU_STACK_SHD, field PREF. -/
abbrev FLU_STACK_SHD.PREF : Fld := ⟨.FLU_STACK_SHD, 29⟩
/-- FLU_STACK_SHD, field SEED_PREF. -/
abbrev FLU_STACK_SHD.SEED_PREF : Fld := ⟨.FLU_STACK_SHD, 28⟩
/-- FLU_STACK_SHD, field MOVING. -/
abbrev FLU_STACK_SHD.MOVING : Fld := ⟨.FLU_STACK_SHD, 27⟩
/-- FLU_STACK_SHD, field LEG1_SLOT. -/
abbrev FLU_STACK_SHD.LEG1_SLOT : Fld := ⟨.FLU_STACK_SHD, 8⟩
/-- FLU_STACK_SHD, field LEG0_SLOT. -/
abbrev FLU_STACK_SHD.LEG0_SLOT : Fld := ⟨.FLU_STACK_SHD, 0⟩
/-- FLU_STACK_MARK, field GEN. -/
abbrev FLU_STACK_MARK.GEN : Fld := ⟨.FLU_STACK_MARK, 24⟩
/-- FLU_STACK_MARK, field WR_INFL. -/
abbrev FLU_STACK_MARK.WR_INFL : Fld := ⟨.FLU_STACK_MARK, 8⟩
/-- FLU_STACK_MARK, field STALE1. -/
abbrev FLU_STACK_MARK.STALE1 : Fld := ⟨.FLU_STACK_MARK, 1⟩
/-- FLU_STACK_MARK, field STALE0. -/
abbrev FLU_STACK_MARK.STALE0 : Fld := ⟨.FLU_STACK_MARK, 0⟩
/-- FLU_LIVE, field LIVE. -/
abbrev FLU_LIVE.LIVE : Fld := ⟨.FLU_LIVE, 0⟩
/-- FLU_STACK_STAT, field RB_STATE. -/
abbrev FLU_STACK_STAT.RB_STATE : Fld := ⟨.FLU_STACK_STAT, 30⟩
/-- FLU_STACK_STAT, field STALE_ROUTES. -/
abbrev FLU_STACK_STAT.STALE_ROUTES : Fld := ⟨.FLU_STACK_STAT, 16⟩
/-- FLU_STACK_STAT, field MOVING_ROUTES. -/
abbrev FLU_STACK_STAT.MOVING_ROUTES : Fld := ⟨.FLU_STACK_STAT, 0⟩
/-- FLU_STACK_EPOCH, field EPOCH. -/
abbrev FLU_STACK_EPOCH.EPOCH : Fld := ⟨.FLU_STACK_EPOCH, 0⟩
/-- FLU_STACK_CMD, field OP. -/
abbrev FLU_STACK_CMD.OP : Fld := ⟨.FLU_STACK_CMD, 28⟩
/-- FLU_STACK_CMD, field GEN. -/
abbrev FLU_STACK_CMD.GEN : Fld := ⟨.FLU_STACK_CMD, 20⟩
/-- FLU_STACK_CMD, field LEG. -/
abbrev FLU_STACK_CMD.LEG : Fld := ⟨.FLU_STACK_CMD, 12⟩
/-- FLU_STACK_CMD, field HANDLE. -/
abbrev FLU_STACK_CMD.HANDLE : Fld := ⟨.FLU_STACK_CMD, 0⟩
/-- FLU_STACK_RES, field OP. -/
abbrev FLU_STACK_RES.OP : Fld := ⟨.FLU_STACK_RES, 28⟩
/-- FLU_STACK_RES, field RESULT. -/
abbrev FLU_STACK_RES.RESULT : Fld := ⟨.FLU_STACK_RES, 24⟩
/-- FLU_STACK_RES, field HANDLE. -/
abbrev FLU_STACK_RES.HANDLE : Fld := ⟨.FLU_STACK_RES, 0⟩
/-- FLU_STACK_EVT, field RETRY. -/
abbrev FLU_STACK_EVT.RETRY : Fld := ⟨.FLU_STACK_EVT, 6⟩
/-- FLU_STACK_EVT, field PEER_DROP. -/
abbrev FLU_STACK_EVT.PEER_DROP : Fld := ⟨.FLU_STACK_EVT, 5⟩
/-- FLU_STACK_EVT, field STALL. -/
abbrev FLU_STACK_EVT.STALL : Fld := ⟨.FLU_STACK_EVT, 4⟩
/-- FLU_STACK_EVT, field SWAP. -/
abbrev FLU_STACK_EVT.SWAP : Fld := ⟨.FLU_STACK_EVT, 3⟩
/-- FLU_STACK_EVT, field STALE_CLR. -/
abbrev FLU_STACK_EVT.STALE_CLR : Fld := ⟨.FLU_STACK_EVT, 2⟩
/-- FLU_STACK_EVT, field STALE_SET. -/
abbrev FLU_STACK_EVT.STALE_SET : Fld := ⟨.FLU_STACK_EVT, 1⟩
/-- FLU_STACK_EVT, field REDIRECT. -/
abbrev FLU_STACK_EVT.REDIRECT : Fld := ⟨.FLU_STACK_EVT, 0⟩
/-- FLU_STACK_CNT, field RETRY_CNT. -/
abbrev FLU_STACK_CNT.RETRY_CNT : Fld := ⟨.FLU_STACK_CNT, 16⟩
/-- FLU_STACK_CNT, field REDIR_CNT. -/
abbrev FLU_STACK_CNT.REDIR_CNT : Fld := ⟨.FLU_STACK_CNT, 0⟩
/-- FLU_STACK_SCNT, field STALL_CNT. -/
abbrev FLU_STACK_SCNT.STALL_CNT : Fld := ⟨.FLU_STACK_SCNT, 16⟩
/-- FLU_STACK_SCNT, field STALE_CNT. -/
abbrev FLU_STACK_SCNT.STALE_CNT : Fld := ⟨.FLU_STACK_SCNT, 0⟩
/-- FLU_STACK_SMAX, field STALL_MAX. -/
abbrev FLU_STACK_SMAX.STALL_MAX : Fld := ⟨.FLU_STACK_SMAX, 0⟩
/-- FLU_SCHED_CFG, field CL0_FLOOR. -/
abbrev FLU_SCHED_CFG.CL0_FLOOR : Fld := ⟨.FLU_SCHED_CFG, 16⟩
/-- FLU_SCHED_CFG, field BATCH_MAX. -/
abbrev FLU_SCHED_CFG.BATCH_MAX : Fld := ⟨.FLU_SCHED_CFG, 0⟩
/-- FLU_CLASS_CFG, field DEFER_MAX. -/
abbrev FLU_CLASS_CFG.DEFER_MAX : Fld := ⟨.FLU_CLASS_CFG, 0⟩
/-- FLU_SCHED_STAT, field POOL_USED. -/
abbrev FLU_SCHED_STAT.POOL_USED : Fld := ⟨.FLU_SCHED_STAT, 16⟩
/-- FLU_SCHED_STAT, field DEFER_MASK. -/
abbrev FLU_SCHED_STAT.DEFER_MASK : Fld := ⟨.FLU_SCHED_STAT, 0⟩
/-- FLU_SCHED_EVT, field POOL_FULL. -/
abbrev FLU_SCHED_EVT.POOL_FULL : Fld := ⟨.FLU_SCHED_EVT, 2⟩
/-- FLU_SCHED_EVT, field FLOOR_HIT. -/
abbrev FLU_SCHED_EVT.FLOOR_HIT : Fld := ⟨.FLU_SCHED_EVT, 1⟩
/-- FLU_SCHED_EVT, field DEFER_ON. -/
abbrev FLU_SCHED_EVT.DEFER_ON : Fld := ⟨.FLU_SCHED_EVT, 0⟩
/-- FLU_PORT_CFG, field LOSS_TMO. -/
abbrev FLU_PORT_CFG.LOSS_TMO : Fld := ⟨.FLU_PORT_CFG, 0⟩
/-- FLU_PORT_STAT, field RINGS_OWNED. -/
abbrev FLU_PORT_STAT.RINGS_OWNED : Fld := ⟨.FLU_PORT_STAT, 16⟩
/-- FLU_PORT_STAT, field MOVE_CNT. -/
abbrev FLU_PORT_STAT.MOVE_CNT : Fld := ⟨.FLU_PORT_STAT, 8⟩
/-- FLU_PORT_STAT, field LOST. -/
abbrev FLU_PORT_STAT.LOST : Fld := ⟨.FLU_PORT_STAT, 1⟩
/-- FLU_PORT_STAT, field LINK_UP. -/
abbrev FLU_PORT_STAT.LINK_UP : Fld := ⟨.FLU_PORT_STAT, 0⟩
/-- FLU_LANE_STAT, field DERATE. -/
abbrev FLU_LANE_STAT.DERATE : Fld := ⟨.FLU_LANE_STAT, 26⟩
/-- FLU_LANE_STAT, field SPARES. -/
abbrev FLU_LANE_STAT.SPARES : Fld := ⟨.FLU_LANE_STAT, 24⟩
/-- FLU_LANE_STAT, field RETIRED. -/
abbrev FLU_LANE_STAT.RETIRED : Fld := ⟨.FLU_LANE_STAT, 0⟩
/-- FLU_LANE_TMO, field TMO. -/
abbrev FLU_LANE_TMO.TMO : Fld := ⟨.FLU_LANE_TMO, 0⟩
/-- FLU_HP_CFG, field MSIX_LAST. -/
abbrev FLU_HP_CFG.MSIX_LAST : Fld := ⟨.FLU_HP_CFG, 16⟩
/-- FLU_HP_CFG, field MAX_SPEED. -/
abbrev FLU_HP_CFG.MAX_SPEED : Fld := ⟨.FLU_HP_CFG, 2⟩
/-- FLU_HP_ID, field SSID. -/
abbrev FLU_HP_ID.SSID : Fld := ⟨.FLU_HP_ID, 16⟩
/-- FLU_HP_ID, field SSVID. -/
abbrev FLU_HP_ID.SSVID : Fld := ⟨.FLU_HP_ID, 0⟩
/-- FLU_HP_STAT, field SPEED. -/
abbrev FLU_HP_STAT.SPEED : Fld := ⟨.FLU_HP_STAT, 16⟩
/-- FLU_HP_STAT, field WIDTH. -/
abbrev FLU_HP_STAT.WIDTH : Fld := ⟨.FLU_HP_STAT, 8⟩
/-- FLU_HP_STAT, field DSTATE. -/
abbrev FLU_HP_STAT.DSTATE : Fld := ⟨.FLU_HP_STAT, 4⟩
/-- FLU_HP_STAT, field MSE. -/
abbrev FLU_HP_STAT.MSE : Fld := ⟨.FLU_HP_STAT, 3⟩
/-- FLU_HP_STAT, field BME. -/
abbrev FLU_HP_STAT.BME : Fld := ⟨.FLU_HP_STAT, 2⟩
/-- FLU_HP_STAT, field SERVING. -/
abbrev FLU_HP_STAT.SERVING : Fld := ⟨.FLU_HP_STAT, 1⟩
/-- FLU_HP_STAT, field DL_UP. -/
abbrev FLU_HP_STAT.DL_UP : Fld := ⟨.FLU_HP_STAT, 0⟩
/-- FLU_HP_ERR, field CE_CNT. -/
abbrev FLU_HP_ERR.CE_CNT : Fld := ⟨.FLU_HP_ERR, 16⟩
/-- FLU_HP_ERR, field UE_CNT. -/
abbrev FLU_HP_ERR.UE_CNT : Fld := ⟨.FLU_HP_ERR, 0⟩
/-- HTH_SLOT_CMD, field FORCE. -/
abbrev HTH_SLOT_CMD.FORCE : Fld := ⟨.HTH_SLOT_CMD, 4⟩
/-- HTH_SLOT_CMD, field CMD. -/
abbrev HTH_SLOT_CMD.CMD : Fld := ⟨.HTH_SLOT_CMD, 0⟩
/-- HTH_SLOT_CTL, field AUTO_ACT. -/
abbrev HTH_SLOT_CTL.AUTO_ACT : Fld := ⟨.HTH_SLOT_CTL, 31⟩
/-- HTH_SLOT_CTL, field INS_DELAY. -/
abbrev HTH_SLOT_CTL.INS_DELAY : Fld := ⟨.HTH_SLOT_CTL, 24⟩
/-- HTH_SLOT_CTL, field REACT_MIN. -/
abbrev HTH_SLOT_CTL.REACT_MIN : Fld := ⟨.HTH_SLOT_CTL, 20⟩
/-- HTH_SLOT_CTL, field ACT_CLK. -/
abbrev HTH_SLOT_CTL.ACT_CLK : Fld := ⟨.HTH_SLOT_CTL, 18⟩
/-- HTH_SLOT_CTL, field RST_LOW_CYC. -/
abbrev HTH_SLOT_CTL.RST_LOW_CYC : Fld := ⟨.HTH_SLOT_CTL, 0⟩
/-- HTH_SLOT_STAT, field TRIAL_CLASS. -/
abbrev HTH_SLOT_STAT.TRIAL_CLASS : Fld := ⟨.HTH_SLOT_STAT, 18⟩
/-- HTH_SLOT_STAT, field FENCED. -/
abbrev HTH_SLOT_STAT.FENCED : Fld := ⟨.HTH_SLOT_STAT, 17⟩
/-- HTH_SLOT_STAT, field ACT_PEND. -/
abbrev HTH_SLOT_STAT.ACT_PEND : Fld := ⟨.HTH_SLOT_STAT, 16⟩
/-- HTH_SLOT_STAT, field BUDGET_WAIT. -/
abbrev HTH_SLOT_STAT.BUDGET_WAIT : Fld := ⟨.HTH_SLOT_STAT, 15⟩
/-- HTH_SLOT_STAT, field EXCH_WAIT. -/
abbrev HTH_SLOT_STAT.EXCH_WAIT : Fld := ⟨.HTH_SLOT_STAT, 14⟩
/-- HTH_SLOT_STAT, field INS_PEND. -/
abbrev HTH_SLOT_STAT.INS_PEND : Fld := ⟨.HTH_SLOT_STAT, 13⟩
/-- HTH_SLOT_STAT, field REACT_WAIT. -/
abbrev HTH_SLOT_STAT.REACT_WAIT : Fld := ⟨.HTH_SLOT_STAT, 12⟩
/-- HTH_SLOT_STAT, field STATE. -/
abbrev HTH_SLOT_STAT.STATE : Fld := ⟨.HTH_SLOT_STAT, 0⟩
/-- HTH_SLOT_EVT, field REMOVED. -/
abbrev HTH_SLOT_EVT.REMOVED : Fld := ⟨.HTH_SLOT_EVT, 8⟩
/-- HTH_SLOT_EVT, field CMD_REFUSED. -/
abbrev HTH_SLOT_EVT.CMD_REFUSED : Fld := ⟨.HTH_SLOT_EVT, 7⟩
/-- HTH_SLOT_EVT, field CLINKER_IN. -/
abbrev HTH_SLOT_EVT.CLINKER_IN : Fld := ⟨.HTH_SLOT_EVT, 6⟩
/-- HTH_SLOT_EVT, field ESCALATED. -/
abbrev HTH_SLOT_EVT.ESCALATED : Fld := ⟨.HTH_SLOT_EVT, 5⟩
/-- HTH_SLOT_EVT, field EMERG. -/
abbrev HTH_SLOT_EVT.EMERG : Fld := ⟨.HTH_SLOT_EVT, 4⟩
/-- HTH_SLOT_EVT, field DEACT_DONE. -/
abbrev HTH_SLOT_EVT.DEACT_DONE : Fld := ⟨.HTH_SLOT_EVT, 3⟩
/-- HTH_SLOT_EVT, field READY_IN. -/
abbrev HTH_SLOT_EVT.READY_IN : Fld := ⟨.HTH_SLOT_EVT, 2⟩
/-- HTH_SLOT_EVT, field ATR_DONE. -/
abbrev HTH_SLOT_EVT.ATR_DONE : Fld := ⟨.HTH_SLOT_EVT, 1⟩
/-- HTH_SLOT_EVT, field INSERTED. -/
abbrev HTH_SLOT_EVT.INSERTED : Fld := ⟨.HTH_SLOT_EVT, 0⟩
/-- HTH_SLOT_CAUSE, field STATE_AT. -/
abbrev HTH_SLOT_CAUSE.STATE_AT : Fld := ⟨.HTH_SLOT_CAUSE, 20⟩
/-- HTH_SLOT_CAUSE, field SECOND. -/
abbrev HTH_SLOT_CAUSE.SECOND : Fld := ⟨.HTH_SLOT_CAUSE, 8⟩
/-- HTH_SLOT_CAUSE, field CAUSE. -/
abbrev HTH_SLOT_CAUSE.CAUSE : Fld := ⟨.HTH_SLOT_CAUSE, 0⟩
/-- HTH_SLOT_RCV, field NEG_TMO. -/
abbrev HTH_SLOT_RCV.NEG_TMO : Fld := ⟨.HTH_SLOT_RCV, 20⟩
/-- HTH_SLOT_RCV, field ELEC_LIMIT. -/
abbrev HTH_SLOT_RCV.ELEC_LIMIT : Fld := ⟨.HTH_SLOT_RCV, 16⟩
/-- HTH_SLOT_RCV, field ACT_LIMIT. -/
abbrev HTH_SLOT_RCV.ACT_LIMIT : Fld := ⟨.HTH_SLOT_RCV, 12⟩
/-- HTH_SLOT_RCV, field FAIL_LIMIT. -/
abbrev HTH_SLOT_RCV.FAIL_LIMIT : Fld := ⟨.HTH_SLOT_RCV, 8⟩
/-- HTH_SLOT_RCV, field RCV_CLEAR. -/
abbrev HTH_SLOT_RCV.RCV_CLEAR : Fld := ⟨.HTH_SLOT_RCV, 0⟩
/-- HTH_SLOT_RCNT, field ESC_LEVEL. -/
abbrev HTH_SLOT_RCNT.ESC_LEVEL : Fld := ⟨.HTH_SLOT_RCNT, 24⟩
/-- HTH_SLOT_RCNT, field ELEC_CNT. -/
abbrev HTH_SLOT_RCNT.ELEC_CNT : Fld := ⟨.HTH_SLOT_RCNT, 20⟩
/-- HTH_SLOT_RCNT, field ACT_FAIL_CNT. -/
abbrev HTH_SLOT_RCNT.ACT_FAIL_CNT : Fld := ⟨.HTH_SLOT_RCNT, 16⟩
/-- HTH_SLOT_RCNT, field FAIL_CNT. -/
abbrev HTH_SLOT_RCNT.FAIL_CNT : Fld := ⟨.HTH_SLOT_RCNT, 12⟩
/-- HTH_SLOT_RCNT, field OK_RUN. -/
abbrev HTH_SLOT_RCNT.OK_RUN : Fld := ⟨.HTH_SLOT_RCNT, 0⟩
/-- HTH_SLOT_ATRLEN, field ATR_VALID. -/
abbrev HTH_SLOT_ATRLEN.ATR_VALID : Fld := ⟨.HTH_SLOT_ATRLEN, 8⟩
/-- HTH_SLOT_ATRLEN, field ATR_LEN. -/
abbrev HTH_SLOT_ATRLEN.ATR_LEN : Fld := ⟨.HTH_SLOT_ATRLEN, 0⟩
/-- HTH_SLOT_ATR, field BYTE3. -/
abbrev HTH_SLOT_ATR.BYTE3 : Fld := ⟨.HTH_SLOT_ATR, 24⟩
/-- HTH_SLOT_ATR, field BYTE2. -/
abbrev HTH_SLOT_ATR.BYTE2 : Fld := ⟨.HTH_SLOT_ATR, 16⟩
/-- HTH_SLOT_ATR, field BYTE1. -/
abbrev HTH_SLOT_ATR.BYTE1 : Fld := ⟨.HTH_SLOT_ATR, 8⟩
/-- HTH_SLOT_ATR, field BYTE0. -/
abbrev HTH_SLOT_ATR.BYTE0 : Fld := ⟨.HTH_SLOT_ATR, 0⟩
/-- HTH_PROT_CFG, field FMAX_IGN. -/
abbrev HTH_PROT_CFG.FMAX_IGN : Fld := ⟨.HTH_PROT_CFG, 31⟩
/-- HTH_PROT_CFG, field PPS_EN. -/
abbrev HTH_PROT_CFG.PPS_EN : Fld := ⟨.HTH_PROT_CFG, 30⟩
/-- HTH_PROT_CFG, field PROT_SEL. -/
abbrev HTH_PROT_CFG.PROT_SEL : Fld := ⟨.HTH_PROT_CFG, 28⟩
/-- HTH_PROT_CFG, field T0_AUTO. -/
abbrev HTH_PROT_CFG.T0_AUTO : Fld := ⟨.HTH_PROT_CFG, 27⟩
/-- HTH_PROT_CFG, field DI_MAX. -/
abbrev HTH_PROT_CFG.DI_MAX : Fld := ⟨.HTH_PROT_CFG, 20⟩
/-- HTH_PROT_CFG, field OP_CLK. -/
abbrev HTH_PROT_CFG.OP_CLK : Fld := ⟨.HTH_PROT_CFG, 9⟩
/-- HTH_PROT_CFG, field IFSD. -/
abbrev HTH_PROT_CFG.IFSD : Fld := ⟨.HTH_PROT_CFG, 0⟩
/-- HTH_PROT_LIM, field RESYNCH_LIM. -/
abbrev HTH_PROT_LIM.RESYNCH_LIM : Fld := ⟨.HTH_PROT_LIM, 12⟩
/-- HTH_PROT_LIM, field T1_RETRY. -/
abbrev HTH_PROT_LIM.T1_RETRY : Fld := ⟨.HTH_PROT_LIM, 8⟩
/-- HTH_PROT_LIM, field PAR_RETRY. -/
abbrev HTH_PROT_LIM.PAR_RETRY : Fld := ⟨.HTH_PROT_LIM, 4⟩
/-- HTH_PROT_STAT, field IFSC. -/
abbrev HTH_PROT_STAT.IFSC : Fld := ⟨.HTH_PROT_STAT, 24⟩
/-- HTH_PROT_STAT, field N_EGT. -/
abbrev HTH_PROT_STAT.N_EGT : Fld := ⟨.HTH_PROT_STAT, 16⟩
/-- HTH_PROT_STAT, field FI. -/
abbrev HTH_PROT_STAT.FI : Fld := ⟨.HTH_PROT_STAT, 12⟩
/-- HTH_PROT_STAT, field DI. -/
abbrev HTH_PROT_STAT.DI : Fld := ⟨.HTH_PROT_STAT, 8⟩
/-- HTH_PROT_STAT, field EDC. -/
abbrev HTH_PROT_STAT.EDC : Fld := ⟨.HTH_PROT_STAT, 7⟩
/-- HTH_PROT_STAT, field SPEC_MODE. -/
abbrev HTH_PROT_STAT.SPEC_MODE : Fld := ⟨.HTH_PROT_STAT, 6⟩
/-- HTH_PROT_STAT, field PPS_DONE. -/
abbrev HTH_PROT_STAT.PPS_DONE : Fld := ⟨.HTH_PROT_STAT, 5⟩
/-- HTH_PROT_STAT, field NS_TX. -/
abbrev HTH_PROT_STAT.NS_TX : Fld := ⟨.HTH_PROT_STAT, 4⟩
/-- HTH_PROT_STAT, field NS_RX. -/
abbrev HTH_PROT_STAT.NS_RX : Fld := ⟨.HTH_PROT_STAT, 3⟩
/-- HTH_PROT_STAT, field PROT. -/
abbrev HTH_PROT_STAT.PROT : Fld := ⟨.HTH_PROT_STAT, 0⟩
/-- HTH_PROT_WT, field WI. -/
abbrev HTH_PROT_WT.WI : Fld := ⟨.HTH_PROT_WT, 24⟩
/-- HTH_PROT_WT, field BWI. -/
abbrev HTH_PROT_WT.BWI : Fld := ⟨.HTH_PROT_WT, 20⟩
/-- HTH_PROT_WT, field CWI. -/
abbrev HTH_PROT_WT.CWI : Fld := ⟨.HTH_PROT_WT, 16⟩
/-- HTH_PROT_WT, field WTX. -/
abbrev HTH_PROT_WT.WTX : Fld := ⟨.HTH_PROT_WT, 8⟩
/-- HTH_PROT_WT, field IFSD_ACT. -/
abbrev HTH_PROT_WT.IFSD_ACT : Fld := ⟨.HTH_PROT_WT, 0⟩
/-- HTH_PROT_CLKDIV, field RUN. -/
abbrev HTH_PROT_CLKDIV.RUN : Fld := ⟨.HTH_PROT_CLKDIV, 20⟩
/-- HTH_PROT_CLKDIV, field DIV_INT. -/
abbrev HTH_PROT_CLKDIV.DIV_INT : Fld := ⟨.HTH_PROT_CLKDIV, 10⟩
/-- HTH_PROT_CLKDIV, field DIV_FRAC. -/
abbrev HTH_PROT_CLKDIV.DIV_FRAC : Fld := ⟨.HTH_PROT_CLKDIV, 0⟩
/-- HTH_PROT_EVT, field STRAY. -/
abbrev HTH_PROT_EVT.STRAY : Fld := ⟨.HTH_PROT_EVT, 8⟩
/-- HTH_PROT_EVT, field RESYNCH_FAIL. -/
abbrev HTH_PROT_EVT.RESYNCH_FAIL : Fld := ⟨.HTH_PROT_EVT, 7⟩
/-- HTH_PROT_EVT, field RESYNCH_OK. -/
abbrev HTH_PROT_EVT.RESYNCH_OK : Fld := ⟨.HTH_PROT_EVT, 6⟩
/-- HTH_PROT_EVT, field ABORT_RX. -/
abbrev HTH_PROT_EVT.ABORT_RX : Fld := ⟨.HTH_PROT_EVT, 5⟩
/-- HTH_PROT_EVT, field WTX_RX. -/
abbrev HTH_PROT_EVT.WTX_RX : Fld := ⟨.HTH_PROT_EVT, 4⟩
/-- HTH_PROT_EVT, field IFS_RX. -/
abbrev HTH_PROT_EVT.IFS_RX : Fld := ⟨.HTH_PROT_EVT, 3⟩
/-- HTH_PROT_EVT, field RETRANS. -/
abbrev HTH_PROT_EVT.RETRANS : Fld := ⟨.HTH_PROT_EVT, 2⟩
/-- HTH_PROT_EVT, field PAR_ERR. -/
abbrev HTH_PROT_EVT.PAR_ERR : Fld := ⟨.HTH_PROT_EVT, 1⟩
/-- HTH_PROT_EVT, field CARD_TMO. -/
abbrev HTH_PROT_EVT.CARD_TMO : Fld := ⟨.HTH_PROT_EVT, 0⟩
/-- HTH_PROT_CNT, field RETRANS_CNT. -/
abbrev HTH_PROT_CNT.RETRANS_CNT : Fld := ⟨.HTH_PROT_CNT, 16⟩
/-- HTH_PROT_CNT, field PAR_CNT. -/
abbrev HTH_PROT_CNT.PAR_CNT : Fld := ⟨.HTH_PROT_CNT, 0⟩
/-- HTH_PROT_LAST, field PHASE. -/
abbrev HTH_PROT_LAST.PHASE : Fld := ⟨.HTH_PROT_LAST, 12⟩
/-- HTH_PROT_LAST, field KIND. -/
abbrev HTH_PROT_LAST.KIND : Fld := ⟨.HTH_PROT_LAST, 0⟩
/-- HTH_TURF_CFG, field TURF_EN. -/
abbrev HTH_TURF_CFG.TURF_EN : Fld := ⟨.HTH_TURF_CFG, 31⟩
/-- HTH_TURF_CFG, field RATES. -/
abbrev HTH_TURF_CFG.RATES : Fld := ⟨.HTH_TURF_CFG, 28⟩
/-- HTH_TURF_CFG, field TFTO. -/
abbrev HTH_TURF_CFG.TFTO : Fld := ⟨.HTH_TURF_CFG, 20⟩
/-- HTH_TURF_CFG, field TURF_RETRY. -/
abbrev HTH_TURF_CFG.TURF_RETRY : Fld := ⟨.HTH_TURF_CFG, 16⟩
/-- HTH_TURF_CFG, field WAIT_LIM. -/
abbrev HTH_TURF_CFG.WAIT_LIM : Fld := ⟨.HTH_TURF_CFG, 12⟩
/-- HTH_TURF_CFG, field RETRAIN_LIM. -/
abbrev HTH_TURF_CFG.RETRAIN_LIM : Fld := ⟨.HTH_TURF_CFG, 8⟩
/-- HTH_TURF_CFG, field DOZE_IDLE. -/
abbrev HTH_TURF_CFG.DOZE_IDLE : Fld := ⟨.HTH_TURF_CFG, 0⟩
/-- HTH_TURF_STAT, field MOD_TRN. -/
abbrev HTH_TURF_STAT.MOD_TRN : Fld := ⟨.HTH_TURF_STAT, 24⟩
/-- HTH_TURF_STAT, field MOD_MAXF. -/
abbrev HTH_TURF_STAT.MOD_MAXF : Fld := ⟨.HTH_TURF_STAT, 16⟩
/-- HTH_TURF_STAT, field MOD_RATES. -/
abbrev HTH_TURF_STAT.MOD_RATES : Fld := ⟨.HTH_TURF_STAT, 12⟩
/-- HTH_TURF_STAT, field MARK_OK. -/
abbrev HTH_TURF_STAT.MARK_OK : Fld := ⟨.HTH_TURF_STAT, 11⟩
/-- HTH_TURF_STAT, field SEQ. -/
abbrev HTH_TURF_STAT.SEQ : Fld := ⟨.HTH_TURF_STAT, 10⟩
/-- HTH_TURF_STAT, field RATE. -/
abbrev HTH_TURF_STAT.RATE : Fld := ⟨.HTH_TURF_STAT, 4⟩
/-- HTH_TURF_STAT, field LANE. -/
abbrev HTH_TURF_STAT.LANE : Fld := ⟨.HTH_TURF_STAT, 0⟩
/-- HTH_TURF_EVT, field RESUMED. -/
abbrev HTH_TURF_EVT.RESUMED : Fld := ⟨.HTH_TURF_EVT, 13⟩
/-- HTH_TURF_EVT, field DOZE_IN. -/
abbrev HTH_TURF_EVT.DOZE_IN : Fld := ⟨.HTH_TURF_EVT, 12⟩
/-- HTH_TURF_EVT, field LINK_DOWN_RX. -/
abbrev HTH_TURF_EVT.LINK_DOWN_RX : Fld := ⟨.HTH_TURF_EVT, 11⟩
/-- HTH_TURF_EVT, field OVERSIZE. -/
abbrev HTH_TURF_EVT.OVERSIZE : Fld := ⟨.HTH_TURF_EVT, 10⟩
/-- HTH_TURF_EVT, field WAIT_RX. -/
abbrev HTH_TURF_EVT.WAIT_RX : Fld := ⟨.HTH_TURF_EVT, 9⟩
/-- HTH_TURF_EVT, field FTO. -/
abbrev HTH_TURF_EVT.FTO : Fld := ⟨.HTH_TURF_EVT, 8⟩
/-- HTH_TURF_EVT, field CRC_ERR. -/
abbrev HTH_TURF_EVT.CRC_ERR : Fld := ⟨.HTH_TURF_EVT, 7⟩
/-- HTH_TURF_EVT, field NAK_RX. -/
abbrev HTH_TURF_EVT.NAK_RX : Fld := ⟨.HTH_TURF_EVT, 6⟩
/-- HTH_TURF_EVT, field RETX. -/
abbrev HTH_TURF_EVT.RETX : Fld := ⟨.HTH_TURF_EVT, 5⟩
/-- HTH_TURF_EVT, field LOSS. -/
abbrev HTH_TURF_EVT.LOSS : Fld := ⟨.HTH_TURF_EVT, 4⟩
/-- HTH_TURF_EVT, field TRAIN_OK. -/
abbrev HTH_TURF_EVT.TRAIN_OK : Fld := ⟨.HTH_TURF_EVT, 3⟩
/-- HTH_TURF_EVT, field TRAIN_FAIL. -/
abbrev HTH_TURF_EVT.TRAIN_FAIL : Fld := ⟨.HTH_TURF_EVT, 2⟩
/-- HTH_TURF_EVT, field DECLINED. -/
abbrev HTH_TURF_EVT.DECLINED : Fld := ⟨.HTH_TURF_EVT, 1⟩
/-- HTH_TURF_EVT, field MARK_BAD. -/
abbrev HTH_TURF_EVT.MARK_BAD : Fld := ⟨.HTH_TURF_EVT, 0⟩
/-- HTH_TURF_CNT, field RETX_CNT. -/
abbrev HTH_TURF_CNT.RETX_CNT : Fld := ⟨.HTH_TURF_CNT, 16⟩
/-- HTH_TURF_CNT, field INV_CNT. -/
abbrev HTH_TURF_CNT.INV_CNT : Fld := ⟨.HTH_TURF_CNT, 0⟩
/-- HTH_TURF_LAST, field RETRAINS. -/
abbrev HTH_TURF_LAST.RETRAINS : Fld := ⟨.HTH_TURF_LAST, 20⟩
/-- HTH_TURF_LAST, field ATTEMPTS. -/
abbrev HTH_TURF_LAST.ATTEMPTS : Fld := ⟨.HTH_TURF_LAST, 16⟩
/-- HTH_TURF_LAST, field FAIL_PHASE. -/
abbrev HTH_TURF_LAST.FAIL_PHASE : Fld := ⟨.HTH_TURF_LAST, 8⟩
/-- HTH_TURF_LAST, field CAUSE. -/
abbrev HTH_TURF_LAST.CAUSE : Fld := ⟨.HTH_TURF_LAST, 0⟩
/-- HTH_SLOT_ELEC, field CLASS_MODE. -/
abbrev HTH_SLOT_ELEC.CLASS_MODE : Fld := ⟨.HTH_SLOT_ELEC, 10⟩
/-- HTH_SLOT_ELEC, field VCC_SLEW. -/
abbrev HTH_SLOT_ELEC.VCC_SLEW : Fld := ⟨.HTH_SLOT_ELEC, 8⟩
/-- HTH_SLOT_ELEC, field CLK_EDGE. -/
abbrev HTH_SLOT_ELEC.CLK_EDGE : Fld := ⟨.HTH_SLOT_ELEC, 7⟩
/-- HTH_SLOT_ELEC, field IO_PU. -/
abbrev HTH_SLOT_ELEC.IO_PU : Fld := ⟨.HTH_SLOT_ELEC, 6⟩
/-- HTH_SLOT_ELEC, field PRES_POL. -/
abbrev HTH_SLOT_ELEC.PRES_POL : Fld := ⟨.HTH_SLOT_ELEC, 5⟩
/-- HTH_SLOT_ESTAT, field CLASS_APPLIED. -/
abbrev HTH_SLOT_ESTAT.CLASS_APPLIED : Fld := ⟨.HTH_SLOT_ESTAT, 14⟩
/-- HTH_SLOT_ESTAT, field SW_CLOSED. -/
abbrev HTH_SLOT_ESTAT.SW_CLOSED : Fld := ⟨.HTH_SLOT_ESTAT, 13⟩
/-- HTH_SLOT_ESTAT, field LIMITING. -/
abbrev HTH_SLOT_ESTAT.LIMITING : Fld := ⟨.HTH_SLOT_ESTAT, 12⟩
/-- HTH_SLOT_ESTAT, field LIMIT_SEEN. -/
abbrev HTH_SLOT_ESTAT.LIMIT_SEEN : Fld := ⟨.HTH_SLOT_ESTAT, 11⟩
/-- HTH_SLOT_ESTAT, field DISCHARGE. -/
abbrev HTH_SLOT_ESTAT.DISCHARGE : Fld := ⟨.HTH_SLOT_ESTAT, 10⟩
/-- HTH_SLOT_ESTAT, field INACTIVE. -/
abbrev HTH_SLOT_ESTAT.INACTIVE : Fld := ⟨.HTH_SLOT_ESTAT, 9⟩
/-- HTH_SLOT_ESTAT, field PRES_RAW. -/
abbrev HTH_SLOT_ESTAT.PRES_RAW : Fld := ⟨.HTH_SLOT_ESTAT, 8⟩
/-- HTH_SLOT_ESTAT, field PRES. -/
abbrev HTH_SLOT_ESTAT.PRES : Fld := ⟨.HTH_SLOT_ESTAT, 7⟩
/-- HTH_SLOT_ESTAT, field KILL. -/
abbrev HTH_SLOT_ESTAT.KILL : Fld := ⟨.HTH_SLOT_ESTAT, 6⟩
/-- HTH_LEG_STAT, field RICK_SUB. -/
abbrev HTH_LEG_STAT.RICK_SUB : Fld := ⟨.HTH_LEG_STAT, 16⟩
/-- HTH_LEG_STAT, field MEAS_VALID. -/
abbrev HTH_LEG_STAT.MEAS_VALID : Fld := ⟨.HTH_LEG_STAT, 13⟩
/-- HTH_LEG_STAT, field CLINKER_LEG. -/
abbrev HTH_LEG_STAT.CLINKER_LEG : Fld := ⟨.HTH_LEG_STAT, 12⟩
/-- HTH_LEG_STAT, field LEG_RET. -/
abbrev HTH_LEG_STAT.LEG_RET : Fld := ⟨.HTH_LEG_STAT, 0⟩
/-- HTH_LEG_CMD, field MEAS_REFUSED. -/
abbrev HTH_LEG_CMD.MEAS_REFUSED : Fld := ⟨.HTH_LEG_CMD, 2⟩
/-- HTH_LEG_CMD, field MEAS_DONE. -/
abbrev HTH_LEG_CMD.MEAS_DONE : Fld := ⟨.HTH_LEG_CMD, 1⟩
/-- HTH_LEG_CMD, field MEAS_REQ. -/
abbrev HTH_LEG_CMD.MEAS_REQ : Fld := ⟨.HTH_LEG_CMD, 0⟩
/-- HTH_LEG_RON, field LO_RON. -/
abbrev HTH_LEG_RON.LO_RON : Fld := ⟨.HTH_LEG_RON, 16⟩
/-- HTH_LEG_RON, field HI_RON. -/
abbrev HTH_LEG_RON.HI_RON : Fld := ⟨.HTH_LEG_RON, 0⟩
/-- HTH_BANK_CFG, field SLOT_EN. -/
abbrev HTH_BANK_CFG.SLOT_EN : Fld := ⟨.HTH_BANK_CFG, 4⟩
/-- HTH_BANK_CFG, field CLASS. -/
abbrev HTH_BANK_CFG.CLASS : Fld := ⟨.HTH_BANK_CFG, 2⟩
/-- HTH_BANK_CFG, field BANK_EN. -/
abbrev HTH_BANK_CFG.BANK_EN : Fld := ⟨.HTH_BANK_CFG, 0⟩
/-- HTH_BANK_RICK, field LANE_CELL. -/
abbrev HTH_BANK_RICK.LANE_CELL : Fld := ⟨.HTH_BANK_RICK, 16⟩
/-- HTH_BANK_RICK, field SIGNAL_CELL. -/
abbrev HTH_BANK_RICK.SIGNAL_CELL : Fld := ⟨.HTH_BANK_RICK, 8⟩
/-- HTH_BANK_RICK, field SUPPLY_CELL. -/
abbrev HTH_BANK_RICK.SUPPLY_CELL : Fld := ⟨.HTH_BANK_RICK, 0⟩
/-- HTH_BANK_LEGLIM, field HI_FACTOR. -/
abbrev HTH_BANK_LEGLIM.HI_FACTOR : Fld := ⟨.HTH_BANK_LEGLIM, 8⟩
/-- HTH_BANK_LEGLIM, field LO_FACTOR. -/
abbrev HTH_BANK_LEGLIM.LO_FACTOR : Fld := ⟨.HTH_BANK_LEGLIM, 0⟩
/-- HTH_BANK_ESTAT, field RICK_TESTED. -/
abbrev HTH_BANK_ESTAT.RICK_TESTED : Fld := ⟨.HTH_BANK_ESTAT, 2⟩
/-- HTH_BANK_ESTAT, field CAL_OK. -/
abbrev HTH_BANK_ESTAT.CAL_OK : Fld := ⟨.HTH_BANK_ESTAT, 1⟩
/-- HTH_BANK_ESTAT, field KILL. -/
abbrev HTH_BANK_ESTAT.KILL : Fld := ⟨.HTH_BANK_ESTAT, 0⟩
/-- HTH_BANK_LCNT, field RETIRE_CNT. -/
abbrev HTH_BANK_LCNT.RETIRE_CNT : Fld := ⟨.HTH_BANK_LCNT, 16⟩
/-- HTH_BANK_LCNT, field MEAS_CNT. -/
abbrev HTH_BANK_LCNT.MEAS_CNT : Fld := ⟨.HTH_BANK_LCNT, 0⟩
/-- HTH_MON_CFG, field MODE. -/
abbrev HTH_MON_CFG.MODE : Fld := ⟨.HTH_MON_CFG, 14⟩
/-- HTH_MON_CFG, field TICK. -/
abbrev HTH_MON_CFG.TICK : Fld := ⟨.HTH_MON_CFG, 13⟩
/-- HTH_MON_CFG, field ASSUME. -/
abbrev HTH_MON_CFG.ASSUME : Fld := ⟨.HTH_MON_CFG, 12⟩
/-- HTH_MON_CFG, field M. -/
abbrev HTH_MON_CFG.M : Fld := ⟨.HTH_MON_CFG, 8⟩
/-- HTH_MON_CFG, field N. -/
abbrev HTH_MON_CFG.N : Fld := ⟨.HTH_MON_CFG, 4⟩
/-- HTH_MON_CFG, field LATCH. -/
abbrev HTH_MON_CFG.LATCH : Fld := ⟨.HTH_MON_CFG, 2⟩
/-- HTH_MON_CFG, field GLITCH_EV. -/
abbrev HTH_MON_CFG.GLITCH_EV : Fld := ⟨.HTH_MON_CFG, 1⟩
/-- HTH_MON_THR, field HI. -/
abbrev HTH_MON_THR.HI : Fld := ⟨.HTH_MON_THR, 16⟩
/-- HTH_MON_THR, field LO. -/
abbrev HTH_MON_THR.LO : Fld := ⟨.HTH_MON_THR, 8⟩
/-- HTH_MON_THR, field HYST. -/
abbrev HTH_MON_THR.HYST : Fld := ⟨.HTH_MON_THR, 0⟩
/-- HTH_MON_STAT, field TRIP_CNT. -/
abbrev HTH_MON_STAT.TRIP_CNT : Fld := ⟨.HTH_MON_STAT, 24⟩
/-- HTH_MON_STAT, field MODE_EFF. -/
abbrev HTH_MON_STAT.MODE_EFF : Fld := ⟨.HTH_MON_STAT, 18⟩
/-- HTH_MON_STAT, field DECIDED. -/
abbrev HTH_MON_STAT.DECIDED : Fld := ⟨.HTH_MON_STAT, 7⟩
/-- HTH_MON_STAT, field UNDECIDED. -/
abbrev HTH_MON_STAT.UNDECIDED : Fld := ⟨.HTH_MON_STAT, 6⟩
/-- HTH_MON_STAT, field RAW_SEEN. -/
abbrev HTH_MON_STAT.RAW_SEEN : Fld := ⟨.HTH_MON_STAT, 5⟩
/-- HTH_MON_STAT, field LATCHED. -/
abbrev HTH_MON_STAT.LATCHED : Fld := ⟨.HTH_MON_STAT, 4⟩
/-- HTH_MON_STAT, field RAW. -/
abbrev HTH_MON_STAT.RAW : Fld := ⟨.HTH_MON_STAT, 1⟩
/-- HTH_MON_STAT, field STATE. -/
abbrev HTH_MON_STAT.STATE : Fld := ⟨.HTH_MON_STAT, 0⟩
/-- HTH_BMON_CFG, field MODE. -/
abbrev HTH_BMON_CFG.MODE : Fld := ⟨.HTH_BMON_CFG, 14⟩
/-- HTH_BMON_CFG, field TICK. -/
abbrev HTH_BMON_CFG.TICK : Fld := ⟨.HTH_BMON_CFG, 13⟩
/-- HTH_BMON_CFG, field ASSUME. -/
abbrev HTH_BMON_CFG.ASSUME : Fld := ⟨.HTH_BMON_CFG, 12⟩
/-- HTH_BMON_CFG, field M. -/
abbrev HTH_BMON_CFG.M : Fld := ⟨.HTH_BMON_CFG, 8⟩
/-- HTH_BMON_CFG, field N. -/
abbrev HTH_BMON_CFG.N : Fld := ⟨.HTH_BMON_CFG, 4⟩
/-- HTH_BMON_CFG, field LATCH. -/
abbrev HTH_BMON_CFG.LATCH : Fld := ⟨.HTH_BMON_CFG, 2⟩
/-- HTH_BMON_CFG, field GLITCH_EV. -/
abbrev HTH_BMON_CFG.GLITCH_EV : Fld := ⟨.HTH_BMON_CFG, 1⟩
/-- HTH_BMON_THR, field HI. -/
abbrev HTH_BMON_THR.HI : Fld := ⟨.HTH_BMON_THR, 16⟩
/-- HTH_BMON_THR, field LO. -/
abbrev HTH_BMON_THR.LO : Fld := ⟨.HTH_BMON_THR, 8⟩
/-- HTH_BMON_THR, field HYST. -/
abbrev HTH_BMON_THR.HYST : Fld := ⟨.HTH_BMON_THR, 0⟩
/-- HTH_BMON_STAT, field TRIP_CNT. -/
abbrev HTH_BMON_STAT.TRIP_CNT : Fld := ⟨.HTH_BMON_STAT, 24⟩
/-- HTH_BMON_STAT, field MODE_EFF. -/
abbrev HTH_BMON_STAT.MODE_EFF : Fld := ⟨.HTH_BMON_STAT, 18⟩
/-- HTH_BMON_STAT, field DECIDED. -/
abbrev HTH_BMON_STAT.DECIDED : Fld := ⟨.HTH_BMON_STAT, 7⟩
/-- HTH_BMON_STAT, field UNDECIDED. -/
abbrev HTH_BMON_STAT.UNDECIDED : Fld := ⟨.HTH_BMON_STAT, 6⟩
/-- HTH_BMON_STAT, field RAW_SEEN. -/
abbrev HTH_BMON_STAT.RAW_SEEN : Fld := ⟨.HTH_BMON_STAT, 5⟩
/-- HTH_BMON_STAT, field LATCHED. -/
abbrev HTH_BMON_STAT.LATCHED : Fld := ⟨.HTH_BMON_STAT, 4⟩
/-- HTH_BMON_STAT, field RAW. -/
abbrev HTH_BMON_STAT.RAW : Fld := ⟨.HTH_BMON_STAT, 1⟩
/-- HTH_BMON_STAT, field STATE. -/
abbrev HTH_BMON_STAT.STATE : Fld := ⟨.HTH_BMON_STAT, 0⟩
/-- HTH_MON_GSTAT, field ACTIVE. -/
abbrev HTH_MON_GSTAT.ACTIVE : Fld := ⟨.HTH_MON_GSTAT, 16⟩
/-- HTH_MON_GSTAT, field FIXED_M1. -/
abbrev HTH_MON_GSTAT.FIXED_M1 : Fld := ⟨.HTH_MON_GSTAT, 0⟩
/-- CRD_CFG, field REKEY_LOG2. -/
abbrev CRD_CFG.REKEY_LOG2 : Fld := ⟨.CRD_CFG, 20⟩
/-- CRD_CFG, field REKEY_HOURS. -/
abbrev CRD_CFG.REKEY_HOURS : Fld := ⟨.CRD_CFG, 15⟩
/-- CRD_CFG, field REKEY_TRIES. -/
abbrev CRD_CFG.REKEY_TRIES : Fld := ⟨.CRD_CFG, 12⟩
/-- CRD_CFG, field REKEY_RETRY. -/
abbrev CRD_CFG.REKEY_RETRY : Fld := ⟨.CRD_CFG, 8⟩
/-- CRD_CFG, field CACHE_EN. -/
abbrev CRD_CFG.CACHE_EN : Fld := ⟨.CRD_CFG, 0⟩
/-- CRD_STAT, field LANE_DERATE. -/
abbrev CRD_STAT.LANE_DERATE : Fld := ⟨.CRD_STAT, 8⟩
/-- CRD_STAT, field LANE_BUSY. -/
abbrev CRD_STAT.LANE_BUSY : Fld := ⟨.CRD_STAT, 4⟩
/-- CRD_STAT, field ZERO_BUSY. -/
abbrev CRD_STAT.ZERO_BUSY : Fld := ⟨.CRD_STAT, 2⟩
/-- CRD_STAT, field DRBG_READY. -/
abbrev CRD_STAT.DRBG_READY : Fld := ⟨.CRD_STAT, 1⟩
/-- CRD_STAT, field ES_OK. -/
abbrev CRD_STAT.ES_OK : Fld := ⟨.CRD_STAT, 0⟩
/-- CRD_EVT, field ZEROISED. -/
abbrev CRD_EVT.ZEROISED : Fld := ⟨.CRD_EVT, 6⟩
/-- CRD_EVT, field ES_FAIL. -/
abbrev CRD_EVT.ES_FAIL : Fld := ⟨.CRD_EVT, 5⟩
/-- CRD_EVT, field ES_RECOVERED. -/
abbrev CRD_EVT.ES_RECOVERED : Fld := ⟨.CRD_EVT, 4⟩
/-- CRD_EVT, field REKEY_FAIL. -/
abbrev CRD_EVT.REKEY_FAIL : Fld := ⟨.CRD_EVT, 3⟩
/-- CRD_EVT, field REESTAB. -/
abbrev CRD_EVT.REESTAB : Fld := ⟨.CRD_EVT, 2⟩
/-- CRD_EVT, field INTEGRITY_SEEN. -/
abbrev CRD_EVT.INTEGRITY_SEEN : Fld := ⟨.CRD_EVT, 1⟩
/-- CRD_EVT, field CINDER_FAIL. -/
abbrev CRD_EVT.CINDER_FAIL : Fld := ⟨.CRD_EVT, 0⟩
/-- CRD_ZSTAT, field ZERO_CNT. -/
abbrev CRD_ZSTAT.ZERO_CNT : Fld := ⟨.CRD_ZSTAT, 16⟩
/-- CRD_ZSTAT, field LAST_CAUSE. -/
abbrev CRD_ZSTAT.LAST_CAUSE : Fld := ⟨.CRD_ZSTAT, 0⟩
/-- CRD_GEN_FLOOR, field FLOOR. -/
abbrev CRD_GEN_FLOOR.FLOOR : Fld := ⟨.CRD_GEN_FLOOR, 0⟩
/-- CRD_DRBG_CNT, field RESEED_CNT. -/
abbrev CRD_DRBG_CNT.RESEED_CNT : Fld := ⟨.CRD_DRBG_CNT, 0⟩
/-- CRD_SESS_STAT, field CINDER_ERR. -/
abbrev CRD_SESS_STAT.CINDER_ERR : Fld := ⟨.CRD_SESS_STAT, 24⟩
/-- CRD_SESS_STAT, field ROLE. -/
abbrev CRD_SESS_STAT.ROLE : Fld := ⟨.CRD_SESS_STAT, 16⟩
/-- CRD_SESS_STAT, field KIND. -/
abbrev CRD_SESS_STAT.KIND : Fld := ⟨.CRD_SESS_STAT, 12⟩
/-- CRD_SESS_STAT, field CACHE_HIT. -/
abbrev CRD_SESS_STAT.CACHE_HIT : Fld := ⟨.CRD_SESS_STAT, 11⟩
/-- CRD_SESS_STAT, field OLD_HELD. -/
abbrev CRD_SESS_STAT.OLD_HELD : Fld := ⟨.CRD_SESS_STAT, 10⟩
/-- CRD_SESS_STAT, field REKEY_DUE. -/
abbrev CRD_SESS_STAT.REKEY_DUE : Fld := ⟨.CRD_SESS_STAT, 9⟩
/-- CRD_SESS_STAT, field SET. -/
abbrev CRD_SESS_STAT.SET : Fld := ⟨.CRD_SESS_STAT, 8⟩
/-- CRD_SESS_STAT, field SESS. -/
abbrev CRD_SESS_STAT.SESS : Fld := ⟨.CRD_SESS_STAT, 0⟩
/-- CRD_SESS_CNT, field EXCH. -/
abbrev CRD_SESS_CNT.EXCH : Fld := ⟨.CRD_SESS_CNT, 0⟩
/-- CRD_SESS_AGE, field INTEG_CNT. -/
abbrev CRD_SESS_AGE.INTEG_CNT : Fld := ⟨.CRD_SESS_AGE, 24⟩
/-- CRD_SESS_AGE, field REKEY_CNT. -/
abbrev CRD_SESS_AGE.REKEY_CNT : Fld := ⟨.CRD_SESS_AGE, 16⟩
/-- CRD_SESS_AGE, field AGE_MIN. -/
abbrev CRD_SESS_AGE.AGE_MIN : Fld := ⟨.CRD_SESS_AGE, 0⟩
/-- CRD_SESS_CERT, field SERIAL_LO. -/
abbrev CRD_SESS_CERT.SERIAL_LO : Fld := ⟨.CRD_SESS_CERT, 0⟩
/-- EMB_CFG, field AGE_MAX. -/
abbrev EMB_CFG.AGE_MAX : Fld := ⟨.EMB_CFG, 24⟩
/-- EMB_CFG, field LONG_THR. -/
abbrev EMB_CFG.LONG_THR : Fld := ⟨.EMB_CFG, 16⟩
/-- EMB_CFG, field CTX_HOST. -/
abbrev EMB_CFG.CTX_HOST : Fld := ⟨.EMB_CFG, 0⟩
/-- EMB_STAT, field RUN_CTX. -/
abbrev EMB_STAT.RUN_CTX : Fld := ⟨.EMB_STAT, 24⟩
/-- EMB_STAT, field BUSY. -/
abbrev EMB_STAT.BUSY : Fld := ⟨.EMB_STAT, 23⟩
/-- EMB_STAT, field CLINKER. -/
abbrev EMB_STAT.CLINKER : Fld := ⟨.EMB_STAT, 22⟩
/-- EMB_STAT, field FENCED. -/
abbrev EMB_STAT.FENCED : Fld := ⟨.EMB_STAT, 21⟩
/-- EMB_STAT, field PACE_DIV. -/
abbrev EMB_STAT.PACE_DIV : Fld := ⟨.EMB_STAT, 19⟩
/-- EMB_STAT, field SPARE_COL. -/
abbrev EMB_STAT.SPARE_COL : Fld := ⟨.EMB_STAT, 8⟩
/-- EMB_STAT, field WAITING. -/
abbrev EMB_STAT.WAITING : Fld := ⟨.EMB_STAT, 0⟩
/-- EMB_EVT, field WIPE_ALL. -/
abbrev EMB_EVT.WIPE_ALL : Fld := ⟨.EMB_EVT, 8⟩
/-- EMB_EVT, field ABORT_LATE. -/
abbrev EMB_EVT.ABORT_LATE : Fld := ⟨.EMB_EVT, 7⟩
/-- EMB_EVT, field LIST_ERR. -/
abbrev EMB_EVT.LIST_ERR : Fld := ⟨.EMB_EVT, 6⟩
/-- EMB_EVT, field ECC_UE. -/
abbrev EMB_EVT.ECC_UE : Fld := ⟨.EMB_EVT, 5⟩
/-- EMB_EVT, field ECC_CE. -/
abbrev EMB_EVT.ECC_CE : Fld := ⟨.EMB_EVT, 4⟩
/-- EMB_EVT, field WDOG. -/
abbrev EMB_EVT.WDOG : Fld := ⟨.EMB_EVT, 3⟩
/-- EMB_EVT, field CHECK_FAIL. -/
abbrev EMB_EVT.CHECK_FAIL : Fld := ⟨.EMB_EVT, 2⟩
/-- EMB_EVT, field RERUN. -/
abbrev EMB_EVT.RERUN : Fld := ⟨.EMB_EVT, 1⟩
/-- EMB_EVT, field COL_RETIRED. -/
abbrev EMB_EVT.COL_RETIRED : Fld := ⟨.EMB_EVT, 0⟩
/-- EMB_COLMAP, field RETIRED. -/
abbrev EMB_COLMAP.RETIRED : Fld := ⟨.EMB_COLMAP, 0⟩
/-- EMB_CNT, field SWITCH_CNT. -/
abbrev EMB_CNT.SWITCH_CNT : Fld := ⟨.EMB_CNT, 16⟩
/-- EMB_CNT, field ABORT_CNT. -/
abbrev EMB_CNT.ABORT_CNT : Fld := ⟨.EMB_CNT, 0⟩
/-- EMB_JOBCNT, field JOB_CNT. -/
abbrev EMB_JOBCNT.JOB_CNT : Fld := ⟨.EMB_JOBCNT, 0⟩
/-- EMB_JOB, field ONE_SHOT. -/
abbrev EMB_JOB.ONE_SHOT : Fld := ⟨.EMB_JOB, 31⟩
/-- EMB_JOB, field PAIR. -/
abbrev EMB_JOB.PAIR : Fld := ⟨.EMB_JOB, 30⟩
/-- EMB_JOB, field LIST_LEN. -/
abbrev EMB_JOB.LIST_LEN : Fld := ⟨.EMB_JOB, 12⟩
/-- EMB_JOB, field OP. -/
abbrev EMB_JOB.OP : Fld := ⟨.EMB_JOB, 0⟩
/-- EMB_DST, field BASE. -/
abbrev EMB_DST.BASE : Fld := ⟨.EMB_DST, 16⟩
/-- EMB_DST, field LEN. -/
abbrev EMB_DST.LEN : Fld := ⟨.EMB_DST, 0⟩
/-- EMB_SCR, field BASE. -/
abbrev EMB_SCR.BASE : Fld := ⟨.EMB_SCR, 16⟩
/-- EMB_SCR, field LEN. -/
abbrev EMB_SCR.LEN : Fld := ⟨.EMB_SCR, 0⟩
/-- EMB_CMD, field ABORT. -/
abbrev EMB_CMD.ABORT : Fld := ⟨.EMB_CMD, 1⟩
/-- EMB_CMD, field GO. -/
abbrev EMB_CMD.GO : Fld := ⟨.EMB_CMD, 0⟩
/-- EMB_CSTAT, field STATE. -/
abbrev EMB_CSTAT.STATE : Fld := ⟨.EMB_CSTAT, 28⟩
/-- EMB_CSTAT, field AGED. -/
abbrev EMB_CSTAT.AGED : Fld := ⟨.EMB_CSTAT, 27⟩
/-- EMB_CSTAT, field LONG. -/
abbrev EMB_CSTAT.LONG : Fld := ⟨.EMB_CSTAT, 26⟩
/-- EMB_CSTAT, field RERUN. -/
abbrev EMB_CSTAT.RERUN : Fld := ⟨.EMB_CSTAT, 25⟩
/-- EMB_CSTAT, field ABORT_PEND. -/
abbrev EMB_CSTAT.ABORT_PEND : Fld := ⟨.EMB_CSTAT, 24⟩
/-- EMB_CSTAT, field CMD_REFUSED. -/
abbrev EMB_CSTAT.CMD_REFUSED : Fld := ⟨.EMB_CSTAT, 23⟩
/-- EMB_CSTAT, field FAIL_CAUSE. -/
abbrev EMB_CSTAT.FAIL_CAUSE : Fld := ⟨.EMB_CSTAT, 16⟩
/-- EMB_CSTAT, field STATUS. -/
abbrev EMB_CSTAT.STATUS : Fld := ⟨.EMB_CSTAT, 0⟩
/-- EMB_BEATS, field BEATS. -/
abbrev EMB_BEATS.BEATS : Fld := ⟨.EMB_BEATS, 0⟩
/-- EMB_WAIT, field SWITCHES. -/
abbrev EMB_WAIT.SWITCHES : Fld := ⟨.EMB_WAIT, 24⟩
/-- EMB_WAIT, field WAIT_US. -/
abbrev EMB_WAIT.WAIT_US : Fld := ⟨.EMB_WAIT, 0⟩
/-- EMB_LERR, field RULE. -/
abbrev EMB_LERR.RULE : Fld := ⟨.EMB_LERR, 28⟩
/-- EMB_LERR, field WORD. -/
abbrev EMB_LERR.WORD : Fld := ⟨.EMB_LERR, 0⟩

/-- The table row of a field; bits that no row names are a reserved read-only 0 (R5). -/
def Fld.spec (f : Fld) : FieldSpec :=
  match (regFields f.reg).find? (fun r => r.lo = f.lo) with
  | some r => r
  | none => ⟨f.lo, 0, .RO, 0, 0, 0⟩

/-- Width in bits of a field. -/
def Fld.width (f : Fld) : Nat := f.spec.width

end Sys2Proof.Machine
end

