-- ==== Sys2Proof/Machine/Tab.lean ====
section
/-! DEFINITION. Sparse tables: lists of key and value pairs in one canonical form (strictly rising rank of the key,
nothing listed that an unlisted key reads as), used for registers and for the per-unit parts of State. -/

namespace Sys2Proof.Machine

/-- The value listed for a key. -/
def tabFind {κ α : Type} [DecidableEq κ] : List (κ × α) → κ → Option α
  | [], _ => none
  | e :: t, k => if e.1 = k then some e.2 else tabFind t k

/-- The table without a key. -/
def tabErase {κ α : Type} [DecidableEq κ] (t : List (κ × α)) (k : κ) : List (κ × α) :=
  t.filter (fun e => decide (e.1 ≠ k))

/-- Insert a pair before the first entry of higher rank. -/
def tabInsert {κ α : Type} (rank : κ → Nat) (k : κ) (v : α) : List (κ × α) → List (κ × α)
  | [] => [(k, v)]
  | e :: t => if rank k < rank e.1 then (k, v) :: e :: t else e :: tabInsert rank k v t

/-- List a value for a key, or drop the key when the value is the one an unlisted key reads as. -/
def tabPut {κ α : Type} [DecidableEq κ] [DecidableEq α] (rank : κ → Nat) (dflt : α) (t : List (κ × α)) (k : κ) (v : α) :
    List (κ × α) :=
  if v = dflt then tabErase t k else tabInsert rank k v (tabErase t k)

/-- The value a key reads as. -/
def tabGet {κ α : Type} [DecidableEq κ] (dflt : α) (t : List (κ × α)) (k : κ) : α :=
  (tabFind t k).getD dflt

/-- The ranks of a table rise strictly. -/
def tabRising {κ α : Type} (rank : κ → Nat) : List (κ × α) → Bool
  | [] => true
  | [_] => true
  | e :: f :: t => decide (rank e.1 < rank f.1) && tabRising rank (f :: t)

end Sys2Proof.Machine
end

