-- ==== Sys2Proof/Machine/Parts.lean ====
section
/-! DEFINITION. The parts of the state that no register holds: what each block must remember between commands
(sequences in progress, queues, buffers, keys, timers that run), one structure for each unit. -/

namespace Sys2Proof.Machine

/-! ## Hearth: slots -/

/-- The sequence a slot in DEACTIVATING runs, in the order of precedence of R109. -/
inductive SeqKind where
  | kill | fence | fault | removal | commanded
  deriving DecidableEq, Repr

/-- A command that waits in EXCH_WAIT for the exchange in BUSY (R88, R110). -/
inductive WaitCmd where
  | deactivate | warmReset
  deriving DecidableEq, Repr

/-- Which Cinder exchange runs (R274, R284, R286). -/
inductive CinKind where
  | establish | reestablish | rekey
  deriving DecidableEq, Repr

/-- Where a leg that a slot carries comes from: an entry of a local ring, or a frame a peer forwarded (R28). -/
inductive LegSrc where
  | entry (uid : Nat) (second : Bool)
  | peer (k : Nat) (tag : Nat)
  deriving DecidableEq, Repr

/-- What a card-side exchange carries. -/
inductive XUse where
  | leg (src : LegSrc)
  | turfOpen
  | retrain
  | dozeResume (src : LegSrc)
  | begin (k : CinKind)
  | key (k : CinKind)
  deriving DecidableEq, Repr

/-- The way a command goes to the card (R25 step 7). -/
inductive XPath where
  | t0 | t1 | turf
  deriving DecidableEq, Repr

/-- A leg in a slot's leg queue (R223): its ring, class and priority, its admission order, whether it was redirected
or is a retry (R254), whether its command is in staging (R25 step 5), and that plaintext command. -/
structure QLeg where
  src : LegSrc
  ring : Nat
  cls : Nat
  prio : Nat
  order : Nat
  front : Bool
  ready : Bool
  apdu : List Byte
  deriving DecidableEq, Repr

/-- A card-side exchange that waits for module-command budget or runs: its use, the bytes that go to the card
(after the wrap of R281 where it has one), the chaining value the wrap leaves (for a RESUME from DOZE, that value and
then the leg's own wrapped command), the path, the class of the request,
whether its leg was redirected or is a retry, whether the first command bit has gone out, the µs at which it did, and the queued
leg it was taken from. -/
structure Exch where
  use : XUse
  wire : List Byte
  mcv : List Byte
  path : XPath
  cls : Nat
  front : Bool
  sent : Bool
  startUs : Nat
  back : Option QLeg
  deriving DecidableEq, Repr

/-- What the T=0 engine waits for next (R141). -/
inductive T0Wait where
  | idle | proc | dataAll | dataOne | sw2 (sw1 : Byte)
  deriving DecidableEq, Repr

/-- The T=0 engine of a slot (R140–R143). `run` is how many characters the device sent last, `repAt` the character that the
repetitions counted in `repeats` are of: one of that run, or none for the one awaited. -/
structure T0X where
  wait : T0Wait
  hdr : List Byte
  toSend : List Byte
  toRecv : Nat
  sending : Bool
  rsp : List Byte
  getRsp : Nat
  resent : Bool
  run : Nat
  repAt : Option Nat
  repeats : Nat
  deriving DecidableEq, Repr

/-- The block the T=1 engine sent last (R149). -/
inductive T1Last where
  | none | iBlock | rBlock | sResp | sReq
  deriving DecidableEq, Repr

/-- The T=1 engine of a slot (R144–R151): command bytes not yet sent, the last I-block and whether more follow it, the
last block sent. `retries` counts recovery attempts, `resynchs` S(RESYNCH request) blocks, `silent` says that every
failed attempt so far was a BWT expiry with no character received; `ifsReq` is the IFSD that an S(IFS request) without its response
carried; `ended` is the status of an exchange that a
resynchronisation ended and that only waits for S(IFS). -/
structure T1X where
  pendingCmd : List Byte
  lastInf : List Byte
  lastMore : Bool
  last : T1Last
  lastBlock : List Byte
  retries : Nat
  resynchs : Nat
  silent : Bool
  rsp : List Byte
  overlong : Bool
  ifsReq : Option Nat
  resynch : Bool
  wtx : Nat
  ended : Option Nat
  deriving DecidableEq, Repr

/-- Where a training attempt stands (R162). -/
inductive TrainPh where
  | off | phaseA | phaseB | linkUp
  deriving DecidableEq, Repr

/-- The Turf engine of a slot: training (seed, offered and fallback rates, rate in trial), the exchange in progress
(attempts made, WAIT restarts, whether every attempt ended by timeout, a retransmission that is due), and a retraining
that waits for its 100 ms or for the slot; `parked` says that C4 and C8 are held low (R161). -/
structure TurfX where
  phase : TrainPh
  seed : Nat
  rates : Nat
  tryRate : Nat
  openRates : Nat
  lastRate : Nat
  isResume : Bool
  attempts : Nat
  waits : Nat
  silent : Bool
  retxDue : Bool
  retrainDue : Bool
  retrainNow : Bool
  parked : Bool
  deriving DecidableEq, Repr

/-- The step of NEGOTIATE in progress (R96). -/
inductive NegPh where
  | none | pps | clock | ifs | turf | train | cinder | done
  deriving DecidableEq, Repr

/-- A sample as a window monitor classes it (R187): inside both release thresholds, in the band, or beyond a trip threshold. -/
inductive SampleClass where
  | inside | band | below | above
  deriving DecidableEq, Repr

/-- The part of a slot channel that its registers do not hold. The settings of HTH_SLOT_ELEC are latched at a cold activation (R84):
`slew`, `clkEdge`, `ioPu`, `presPol`; `fastEdges` are the edges in use (R62). A measurement keeps the factors it started with
(R78), the sides it has completed, the legs it retired and whether one of them could not be replaced. `spoke` says that the device has sent a character since the ATR (R131); `opening` that the
switch of a sequence that runs is not yet known to be open (log entry 128); `rampDone` that the ramp controller has reached its
final value (R201); `leftReady` that the slot has left READY since the leg that waits for budget was taken (R110). `held` are settings of the engines that were written too late
for what runs, with the values that still hold for it (R153, R183). -/
structure SlotX where
  seq : Option SeqKind
  toClinker : Bool
  clinker : Bool
  forcedRemoval : Bool
  forcedAbsent : Bool
  coldAct : Bool
  trial : Bool
  noFollow : Bool
  schedReact : Bool
  reinserted : Bool
  measuring : Bool
  measAtRamp : Bool
  measLo : Nat
  measHi : Nat
  measSides : List (Nat × Bool)
  measGone : List Nat
  measDead : Bool
  opening : Bool
  rampDone : Bool
  clkEdge : Bool
  ioPu : Bool
  presPol : Bool
  fastEdges : Bool
  rstHigh : Bool
  armed : Bool
  slew : Nat
  exchWait : Option WaitCmd
  resetPend : Bool
  atr : List Byte
  atrDone : Bool
  spoke : Bool
  clockPend : Bool
  pps : List Byte
  neg : NegPh
  queue : List QLeg
  wait : Option Exch
  leftReady : Bool
  cur : Option Exch
  t0 : T0X
  t1 : T1X
  tf : TurfX
  held : List (Fld × Nat)
  deriving DecidableEq, Repr

def T0X.init : T0X := ⟨.idle, [], [], 0, false, [], 0, false, 0, none, 0⟩
def T1X.init : T1X := ⟨[], [], false, .none, [], 0, 0, true, [], false, none, false, 0, none⟩
def TurfX.init : TurfX := ⟨.off, 0, 0, 0, 0, 0, false, 0, 0, true, false, false, false, true⟩

/-- A slot channel after a cold reset. -/
def SlotX.init : SlotX :=
  { seq := none, toClinker := false, clinker := false, forcedRemoval := false, forcedAbsent := false,
    coldAct := false, trial := false, noFollow := false, schedReact := false, reinserted := false,
    measuring := false, measAtRamp := false, measLo := 8, measHi := 24, measSides := [], measGone := [], measDead := false,
    opening := false, rampDone := false, clkEdge := false, ioPu := false, presPol := false, fastEdges := false, rstHigh := false, armed := false, slew := 1, exchWait := none,
    resetPend := false, atr := [], atrDone := false, spoke := false, clockPend := false, pps := [], neg := .none,
    queue := [], wait := none, leftReady := false, cur := none, t0 := T0X.init, t1 := T1X.init, tf := TurfX.init, held := [] }

/-- A slot channel after a reset or power-up that is no cold reset: what it carried is gone; that it is a clinker, a forced removal,
and the settings latched at its last cold activation (R84) stay. -/
def SlotX.restarted (x : SlotX) : SlotX :=
  { SlotX.init with clinker := x.clinker, forcedAbsent := x.forcedAbsent, slew := x.slew, clkEdge := x.clkEdge, ioPu := x.ioPu,
                    presPol := x.presPol }

/-! ## Flue: rings, entries, the Stack table -/

/-- How a leg of an entry stands (R251–R256). `slot` is a group slot. -/
inductive LegSt where
  | unused | queued | sent | ended
  deriving DecidableEq, Repr

/-- A leg of an entry; `front` says that it was redirected or is a retry (R254), `missedGen` that GEN rose already because a
WRITE missed it (R257). -/
structure Leg where
  st : LegSt
  slot : Nat
  status : Nat
  missedGen : Bool
  front : Bool
  deriving DecidableEq, Repr

/-- How an entry stands (R217, R222, R233). -/
inductive EntryPh where
  | fetched | tokens | payload | active | ended
  deriving DecidableEq, Repr

/-- A submission entry that the device holds, with what its completion needs (R211, R218); `counted` says that it counts in
WR_INFL (R247), `dmaBad` that a DMA error on its buffers ends it with PROTOCOL (R237), `place` is its staging place (R25). -/
structure Entry where
  uid : Nat
  ring : Nat
  index : Nat
  raw : List Byte
  arrived : Nat
  phase : EntryPh
  deferUs : Nat
  order : Nat
  epoch : Nat
  prefLeg : Bool
  cqReserved : Bool
  leg0 : Leg
  leg1 : Leg
  retried : Bool
  dlMissed : Bool
  staleMarked : Bool
  apdu : List Byte
  rsp : List Byte
  sw : Nat
  cardUs : Nat
  status : Nat
  silent : Bool
  counted : Bool
  dmaBad : Bool
  place : Option Nat
  deriving DecidableEq, Repr

/-- The part of a ring pair that its registers do not hold: doorbell tail, CQ head, arrival times of entries not yet
fetched, outstanding fetch, deferral accrued, coalescing, a stall, and how many of the arrivals a revocation of the ceremony
overlay has ended (R236). -/
structure RingX where
  sqTail : Nat
  cqHead : Nat
  arrivals : List (Nat × Nat)
  batch : Nat
  fetching : Nat
  deferUs : Nat
  deferSince : Option Nat
  coalCount : Nat
  coalRun : Bool
  stalled : Bool
  policy : Nat
  deriving DecidableEq, Repr

def Leg.init : Leg := ⟨.unused, 0, 0, false, false⟩
def RingX.init : RingX := ⟨0, 0, [], 0, 0, 0, none, 0, false, false, 0⟩

/-- A leg that goes to a slot. -/
def Leg.toSlot (slot : Nat) (front : Bool) : Leg := ⟨.queued, slot, 0, false, front⟩

/-- The rebuild engine of the Stack table (R261–R264): the live bits that the last trigger saw, a further trigger that
waits, handles being moved, the µs of the swap, and the rotating order of the rings (R225). -/
structure StackX where
  liveSeen : Nat
  again : Bool
  moving : List Nat
  swapUs : Nat
  rotate : List Nat
  deriving DecidableEq, Repr

/-- Who asks the damper (R362, R364); a job of Cord is that of a slot, or of Kuzagan link `n - 64`. -/
inductive Asker where
  | entry (uid : Nat)
  | admission (ring : Nat)
  | activation (n : Nat)
  | mcmd (n : Nat)
  | ember (c : Nat)
  | cordJob (n : Nat)
  deriving DecidableEq, Repr

/-- A request that waits at the damper: asker, tier, cost in µJ, class 0, granted (with the bucket it came from). -/
structure Req where
  asker : Asker
  tier : Nat
  cost : Nat
  class0 : Bool
  deriving DecidableEq, Repr

/-- A grant not yet used: its asker, cost and bucket (true: floor). -/
structure Grant where
  asker : Asker
  cost : Nat
  floor : Bool
  deriving DecidableEq, Repr

/-- The damper (R359–R367). Bucket levels are in units of 0.1 nJ (10,000 to a token of 1 µJ), the powers in 0.1 mW,
temperatures in °C. -/
structure DamperX where
  main : Nat
  floor : Nat
  reqs : List Req
  grants : List Grant
  pWork : Nat
  pEff : Nat
  pStat : Nat
  pStand : Nat
  hot : Bool
  lastC0Us : Option Nat
  thin : Bool
  thermal : Bool
  deriving DecidableEq, Repr

/-! ## Cord -/

/-- A key set of a slot (R288). -/
structure KeySet where
  enc : List Byte
  mac : List Byte
  rmac : List Byte
  dek : List Byte
  counter : Nat
  mcv : List Byte
  th : List Byte
  deriving DecidableEq, Repr

/-- Where a Cinder exchange stands (R274). -/
inductive CinPh where
  | keyGen | beginWait | beginSent | verify | zss | zee | keyWait | keySent
  deriving DecidableEq, Repr

/-- A Cinder exchange in progress with its transient values (R274); `got` is a response, with the status of its
exchange, that is not yet judged. -/
structure CinX where
  kind : CinKind
  phase : CinPh
  nd : List Byte
  ephD : List Byte
  ephPub : List Byte
  sendOk : Bool
  beginData : List Byte
  beginRsp : List Byte
  zss : List Byte
  zee : List Byte
  next : Option KeySet
  cfc : List Byte
  got : Option (Nat × List Byte)
  deriving DecidableEq, Repr

/-- The Cord session of a slot: its key sets, the Cinder exchange in progress, the cache of R277, the static secret that
the session was derived with (a REKEY takes it again, log entry 23), and the state of its rekeying. -/
structure SessX where
  zss : List Byte
  cur : Option KeySet
  old : Option KeySet
  cin : Option CinX
  cache : Option (List Byte × List Byte)
  rekeyFails : Nat
  rekeyRetry : Bool
  subject : List Byte
  ageQ : Nat
  deriving DecidableEq, Repr

def SessX.init : SessX := ⟨[], none, none, none, none, 0, false, [], 0⟩

/-- The device-wide part of Cord: DRBG state and the seed pool of its entropy source (R292, R293). -/
structure CordX where
  drbg : List Byte
  drbgReqs : Nat
  esTest : Bool
  deriving DecidableEq, Repr

/-! ## Ember -/

/-- Who a job runs for (R302, R303): host software, a step of the Cinder exchange of a slot, a step of the keying of a Kuzagan
link (R476), the signature of an ATTEST statement (R454), or identity generation (R438). The signature check of an image or of a
token is part of the command that ends it (log entry 13). -/
inductive EmbUse where
  | host
  | cinderGen (n : Nat) | cinderVerify (n : Nat) | cinderZss (n : Nat) | cinderZee (n : Nat)
  | kzGen (k : Nat) | kzVerify (k : Nat) | kzZss (k : Nat) | kzZee (k : Nat)
  | attest (statement : List Byte)
  | identity
  deriving DecidableEq, Repr

/-- The jobs that take the identity private key as an input, or produce it: they run in a sealed context (R303). -/
def EmbUse.seals : EmbUse → Bool
  | .cinderZss _ | .kzZss _ | .attest _ | .identity => true
  | .host | .cinderGen _ | .cinderVerify _ | .cinderZee _ | .kzGen _ | .kzVerify _ | .kzZee _ => false

/-- A result that a register window presents (R241–R243): data words, status, one-shot, ready, consumed. -/
structure WinX where
  words : List Nat
  status : Nat
  oneShot : Bool
  ready : Bool
  consumed : Bool
  deriving DecidableEq, Repr

def WinX.init : WinX := ⟨[], 0x0D, false, false, false⟩

/-- The part of an Ember context that its registers do not hold: whose job it is, sealed, GO order, order of ageing,
beats still to run, yield points passed, tokens held, first beat done, µs of GO, divisor in force, what its result window
presents, and the destination of the last job where its result is one-shot: first word, words, pair (R302, R321). -/
structure CtxX where
  use : EmbUse
  isSealed : Bool
  goOrder : Nat
  aged : Option Nat
  rem : Nat
  yields : Nat
  hasTokens : Bool
  started : Bool
  goUs : Nat
  pace : Nat
  win : WinX
  shy : Option (Nat × Nat × Bool)
  deriving DecidableEq, Repr

def CtxX.init : CtxX := ⟨.host, false, 0, none, 0, 0, false, false, 0, 1, WinX.init, none⟩

/-- The device-wide part of Ember: next GO order, next aged order, and Stoker work that waits for a free context: its use, operation and operand bytes;
and jobs of Stoker that ended, with status and destination, until the unit that gave them has taken them. -/
structure EmberX where
  nextGo : Nat
  nextAged : Nat
  running : Option Nat
  stokerQ : List (EmbUse × Nat × List Byte)
  finished : List (EmbUse × Nat × List Byte)
  deriving DecidableEq, Repr

/-! ## Draught -/

/-- The part of the sequencer its registers do not hold: failed retries of each rail, rails whose automatic retry waits,
rails a retry powers up, a REDUCED that follows TOFF, the core off start, banks whose monitor missed its settle time, lock
of the PLLs, the plan rails in force, the rails judged in the stage, the banks powered up since the cold reset, the banks whose domain has power, and
whether a base image has been applied since the cold reset. -/
structure SeqX where
  retries : List (Nat × Nat)
  retryWait : List Nat
  retrying : List Nat
  reducedNext : Bool
  coreOff : Bool
  bmonLate : List Nat
  cardLock : Bool
  linkLock : Bool
  planRails : List Nat
  judged : List Nat
  banksUp : List Nat
  powered : List Nat
  imaged : Bool
  deriving DecidableEq, Repr

/-- Where a margin of the bellows stands (R349, R350): `reading` while VOUT_MODE and VOUT_COMMAND are read for its target. -/
inductive BelPh where
  | none | reading | setting | dwell | restoring
  deriving DecidableEq, Repr

/-- The margin in progress: its phase, map entry, rail, dwell in ms and direction. -/
structure BelX where
  phase : BelPh
  entry : Nat
  rail : Nat
  dwell : Nat
  dir : Nat
  deriving DecidableEq, Repr

/-- A PMBus transaction (R347): the map entry, the command, the bytes written after it, how many bytes are read, and for a setpoint
of AVS the one it replaces. -/
structure PmbTx where
  entry : Nat
  cmd : Nat
  data : List Byte
  read : Nat
  undo : Option Nat
  deriving DecidableEq, Repr

/-- The PMBus master: the transactions in order, the first of them on the bus, how often that one has failed, the VOUT_MODE bytes
read so far by entry, and the bellows. -/
structure PmbX where
  txs : List PmbTx
  fails : Nat
  modes : List (Nat × Nat)
  bel : BelX
  deriving DecidableEq, Repr

/-- The group sequencing role (R352–R357): straps, devices heard with stage 1 done, joins that wait, the START announced
last with whether its strobe is due and whether it is a join, the START received last, whether this device asked to join,
which stages were started, the devices that a START of stage 1 has named, and whether device 0 was heard. -/
structure GrpX where
  dev : Nat
  size : Nat
  ready : List Nat
  joins : List (Nat × Nat)
  startStage : Nat
  startMask : Nat
  strobeDue : Bool
  startJoin : Bool
  rxStage : Nat
  rxMask : Nat
  joinAsked : Bool
  stage1Sent : Bool
  stage2Sent : Bool
  named : Nat
  heardMaster : Bool
  deriving DecidableEq, Repr

/-- AVS, ageing and wear state (R368–R375): fast AVS period, drifts of the last plan, wear warning raised, a measurement
runs, corrected errors as (group, row) with the minute of each, spare rows used by group, row groups out, the fraction of
EQ_HOURS in 2^-48 of its unit, a record write due, minutes since the cold reset, and the VSET that the record holds. -/
structure WearX where
  fast : Bool
  lastPlan16 : Nat
  lastPlan17 : Nat
  warned : Bool
  measRun : Bool
  rowCe : List ((Nat × Nat) × Nat)
  rows : List (Nat × Nat)
  groupsOut : List Nat
  hrsFrac : Nat
  writePend : Bool
  minutes : Nat
  vset : Nat
  deriving DecidableEq, Repr

/-! ## Host ports and Kuzagan ports -/

/-- The part of a host port that its registers do not hold: PERST_N low, the MSI-X table by 32-bit word and the pending
bits (R460, R461), the LOSS_TMO timer, and a loss that has been declared. -/
structure PortX where
  perstLow : Bool
  msix : List (Nat × Nat)
  pba : List Nat
  lossRun : Bool
  ashWaits : Bool
  deriving DecidableEq, Repr

def PortX.init : PortX := ⟨true, [], [], false, false⟩

/-- A Kuzagan frame that waits for its ACK or for room in the window (R477): class, SEQ, TYPE, TAG, and its body: the
payload before it is sent, the bytes on the wire after. -/
structure KzFrame where
  cls : KzClass
  seq : Nat
  typ : Nat
  tag : Nat
  body : List Byte
  deriving DecidableEq, Repr

/-- A forward in progress (R475): its TAG, the leg it serves at the owner of the route, or the bytes received so far. -/
structure Fwd where
  tag : Nat
  src : LegSrc
  slot : Nat
  total : Nat
  got : List Byte
  deriving DecidableEq, Repr

/-- The part of a Kuzagan port that its register does not hold. -/
structure KzX where
  txSeq : List (Nat × Nat)
  rxSeq : List (Nat × Nat)
  unacked : List KzFrame
  txq : List KzFrame
  nonce : List Byte
  eph : List Byte
  k1sent : List Byte
  k1peer : List Byte
  certOk : Bool
  zee : List Byte
  zss : List Byte
  txKey : List Byte
  rxKey : List Byte
  myCf : List Byte
  peerCf : List Byte
  k2ok : Bool
  restart : Bool
  txCtr : Nat
  rxCtr : Nat
  gcmFails : Nat
  nextTag : Nat
  fwds : List Fwd
  inbound : List Fwd
  deriving DecidableEq, Repr

def KzX.init : KzX :=
  ⟨[], [], [], [], [], [], [], [], false, [], [], [], [], [], [], false, false, 0, 0, 0, 0, [], []⟩

/-! ## Ash -/

/-- An event on its way to Ash (R378): source, UNIT, DETAIL, and whether a force or an injection raised it. -/
structure AshEv where
  src : Nat
  unit : Nat
  detail : Nat
  forced : Bool
  deriving DecidableEq, Repr

/-- A journal record (R395): its four words. -/
structure JrnRec where
  w0 : Nat
  w1 : Nat
  w2 : Nat
  w3 : Nat
  deriving DecidableEq, Repr

/-- A fence that Ash holds: the unit, the source that raised it, and whether a force did (R381, R398). -/
structure FenceRec where
  unit : FUnit
  src : Nat
  forced : Bool
  deriving DecidableEq, Repr

/-- The part of Ash that its registers do not hold: events not yet classified, fences with their causes, open
consequence windows, the AON journal buffer by SEQ mod 512, the last journalled time of each source and UNIT,
records waiting for PD19, the pulse, the fatal hold, the safe state, heartbeat counts, the units that a force of KIND 0x4 or 0x5 has
just hit (R398), and for each port the microsecond, plus 1, of Ash's last message (R392). -/
structure AshX where
  inbox : List AshEv
  fences : List FenceRec
  windows : List FUnit
  journal : List (Nat × JrnRec)
  lastJrn : List ((Nat × Nat) × Nat)
  nvsPend : List JrnRec
  pulse : Bool
  fatal : Bool
  safe : Bool
  everSafe : Bool
  warmPend : Bool
  tamper : Bool
  hbRun : List (Nat × Nat)
  hbSeen : List Nat
  present : List Nat
  drilled : List FUnit
  irqUs : List (Nat × Nat)
  deriving DecidableEq, Repr

def AshX.init : AshX := ⟨[], [], [], [], [], [], false, false, false, false, false, false, [], [], [], [], []⟩

/-! ## Kiln: images, overlays, life cycle, mailbox -/

/-- What an image command does once its checks end (R410, R413). -/
inductive ImgOp where
  | select | applyBase | storeBase | applyOvl
  deriving DecidableEq, Repr

/-- An image command that runs: the command and the image bytes it took from the SRAM. -/
structure ImgJob where
  op : ImgOp
  bytes : List Byte
  deriving DecidableEq, Repr

/-- A register record of an image (R404): address, value, mask. -/
structure RegRec where
  addr : Nat
  value : Nat
  mask : Nat
  deriving DecidableEq, Repr

/-- An overlay that is applied or in work (R415–R419): its mode, its records and route words, the values they replace,
its roles and SEQ, its image, its minutes left, and whether a revocation removes it. -/
structure OvlX where
  index : Nat
  mode : Nat
  recs : List RegRec
  routes : List (Nat × Nat)
  saved : List RegRec
  savedRoutes : List (Nat × Nat)
  persist : Bool
  image : List Byte
  deriving DecidableEq, Repr

/-- The application or removal in progress (R418, R419). -/
structure OvlJob where
  index : Nat
  removing : Bool
  holds : Bool
  deriving DecidableEq, Repr

/-- An overlay mark (R404): address, mask, modes. -/
structure OvlMark where
  addr : Nat
  mask : Nat
  modes : Nat
  deriving DecidableEq, Repr

/-- What a transition does next (R443, R444): end of quiesce, a step of R444, the done mark, the state burn, or the
cold reset. -/
inductive LcPh where
  | quiesce | step (k : Nat) | doneMark | stateBurn | coldReset
  deriving DecidableEq, Repr

/-- A life-cycle transition in progress (R443, R445): target state, phase, the mailbox request whose result the intent
posts, and whether it is a resume. -/
structure LcJob where
  target : Nat
  phase : LcPh
  posted : Bool
  resumed : Bool
  halted : Bool
  deriving DecidableEq, Repr

/-- Where a key transfer stands (R425). -/
inductive XferPh where
  | release | load | done
  deriving DecidableEq, Repr

/-- A key transfer in progress (R424–R426): officer slot, route, load header, phase, the uid of its load entry, the
release status and status word, and an entry of the transfer that ended and is not yet judged. -/
structure XferX where
  src : Nat
  route : Nat
  hdr : List Byte
  phase : XferPh
  relStatus : Nat
  relSw : Nat
  ended : Option Entry
  deriving DecidableEq, Repr

/-- The part of Kiln and of Stoker's mailbox that their registers do not hold; `heldRings` and `heldSlots` are what the
holds of an overlay in work keep from starting anything new (R418), `idGen` the key pair that identity generation has made and
not yet burned (R438). -/
structure KlnX where
  img : Option ImgJob
  ovls : List OvlX
  job : Option OvlJob
  heldRings : List Nat
  heldSlots : List Nat
  removals : List Nat
  marks : List OvlMark
  xbar : List (Nat × Nat)
  devcert : List Byte
  family : Nat
  baseOn : Bool
  locked : Bool
  nonce : Option (List Byte)
  lc : Option LcJob
  xfer : Option XferX
  mbx : WinX
  idGen : Option (List Byte)
  deriving DecidableEq, Repr

def KlnX.init : KlnX :=
  ⟨none, [], none, [], [], [], [], [], [], 0, false, false, none, none, none, WinX.init, none⟩

/-- A copy of a voted value in the NVS (R447): all ones, a copy with a wrong CRC, or a value. -/
inductive VoteCopy where
  | unwritten | bad | val (v : Nat)
  deriving DecidableEq, Repr

/-- The wear record (R374): equivalent hours, last drifts and VSET, retired legs and claimed cells of each slot and
bank, slots that are leg clinkers, retirements of each bank, retired columns, retired lanes, fenced lanes, spare rows by group. -/
structure WearRec where
  hours : Nat
  drift16 : Nat
  drift17 : Nat
  vset : Nat
  legs : List ((Nat × Nat) × Nat)
  cells : List (Nat × Nat)
  clinkers : List Nat
  retirements : List (Nat × Nat)
  columns : Nat
  lanes : Nat
  lanesFenced : List Nat
  rows : List (Nat × Nat)
  deriving DecidableEq, Repr

def WearRec.init : WearRec := ⟨0, 0, 0, 0, [], [], [], [], 0, 0, [], []⟩

/-- The non-volatile store (R374, R394, R410, R417, R436, R447): base and overlay store slots, owner key table, the
copies of the four voted values, the persistent journal with the index of its next record, and the two copies of the wear
record with their sequence numbers (none: not valid). -/
structure Nvs where
  base : List (Nat × List Byte)
  ovl : List (Nat × List Byte)
  keys : List (Nat × List Byte)
  votes : List ((Nat × Nat) × VoteCopy)
  journal : List (Nat × JrnRec)
  journalNext : Nat
  wear0 : Option (Nat × WearRec)
  wear1 : Option (Nat × WearRec)
  deriving DecidableEq, Repr

/-- An NVS that nothing has written, with a valid first copy of the wear record (log entry 14). -/
def Nvs.init : Nvs := ⟨[], [], [], [], [], 0, some (0, WearRec.init), none⟩

end Sys2Proof.Machine
end

