-- ==== Sys2Proof/Machine/State.lean ====
section
/-! DEFINITION. The state of the block: the registers, the parts of each unit that no register holds, the memories,
the non-volatile stores, the record of what the block sends out, and the queue of commands that wait. -/

namespace Sys2Proof.Machine

/-- One instance of a field: the field and the instance number of its register (R4, R496). -/
structure Key where
  fld : Fld
  idx : Nat
  deriving DecidableEq, Repr

/-- A card contact (R49). -/
inductive Contact where
  | rst | clk | io | lane | vcc | discharge
  deriving DecidableEq, Repr

/-- What the block sends out: contacts, characters, blocks and frames to cards, DMA, messages, pins, SPI and PMBus
traffic, Kuzagan frames, values read. -/
inductive Out where
  | contact (n : Nat) (c : Contact) (level : Bool)
  | cardBytes (n : Nat) (bytes : List Byte)
  | t0Error (n : Nat)
  | t0Repeat (n : Nat)
  | t1Block (n : Nat) (block : List Byte)
  | lane (n : Nat) (rate : Nat) (bits : List Bool)
  | dmaRead (x : Nat) (addr len : Nat)
  | dmaWrite (x : Nat) (addr : Nat) (bytes : List Byte)
  | msix (x : Nat) (vec : Nat)
  | errFatal (x : Nat)
  | alertN (low : Bool)
  | value (p : Path) (addr : Nat) (v : Nat)
  | spiReply (bytes : List Byte)
  | rail (i : Nat) (on : Bool)
  | pmbus (bytes : List Byte) (read : Nat)
  | seqSync
  | kzFrame (k : Nat) (header body crc : List Byte)
  | lockCard
  deriving DecidableEq, Repr

/-- A change of a memory or a non-volatile store that a unit of the block asks for: bytes written into the SRAM, a
stretch of Ember's operand or list memory zeroed, bits burned into an OTP word, a part of the NVS written or erased. -/
inductive MemOp where
  | sram (off : Nat) (bytes : List Byte)
  | sramClear
  | opWrite (off : Nat) (bytes : List Byte)
  | listWrite (off : Nat) (bytes : List Byte)
  | wipeOp (off len : Nat)
  | wipeList (off len : Nat)
  | burn (word value : Nat)
  | nvsBase (slot : Nat) (image : List Byte)
  | nvsOvl (slot : Nat) (image : List Byte)
  | nvsKey (k : Nat) (key : List Byte)
  | nvsVote (index : Nat) (v : Nat)
  | nvsJournal (r : JrnRec)
  | nvsWear (r : WearRec)
  | nvsErase (keepWear : Bool)
  deriving DecidableEq, Repr

/-- Everything of the block but its memories, its non-volatile stores and its command queue. -/
structure Chip where
  regs : List (Key × Nat)
  slots : List (Nat × SlotX)
  rings : List (Nat × RingX)
  entries : List Entry
  nextUid : Nat
  nextOrder : Nat
  stack : StackX
  dmp : DamperX
  sess : List (Nat × SessX)
  cord : CordX
  ctxs : List (Nat × CtxX)
  ember : EmberX
  seq : SeqX
  pmb : PmbX
  grp : GrpX
  wear : WearX
  ash : AshX
  ports : List (Nat × PortX)
  kz : List (Nat × KzX)
  kln : KlnX
  blanked : List MonId
  stage : List (Nat × List Nat)
  mons : List (Nat × List SampleClass)
  base : List ((Nat × Nat × Bool) × Nat)
  us : Nat
  tick : Nat
  free : Nat
  memq : List MemOp
  out : List Out
  deriving DecidableEq, Repr

/-- The state of the block: the chip, the SRAM, Ember's operand and list memories, the OTP by word (log entry 15 numbers
the words), the NVS, and the commands that wait, first in first out. -/
structure State where
  chip : Chip
  sram : List Host.Cell
  opmem : List Host.Cell
  listmem : List Host.Cell
  otp : List (Nat × Nat)
  nvs : Nvs
  pending : List Instr
  deriving DecidableEq, Repr

/-! ## Reset -/

/-- The damper after a cold reset: empty buckets, no request (R359, R361). -/
def DamperX.init : DamperX := ⟨0, 0, [], [], 0, 0, 0, 0, false, none, false, false⟩

/-- Draught's parts after a cold reset (R339): no rail up, PG_MAIN not yet judged good. -/
def SeqX.init : SeqX := ⟨[], [], [], false, false, [], false, true, [], [], [], [], false⟩
def PmbX.init : PmbX := ⟨[], 0, [], ⟨.none, 0, 0, 0, 0⟩⟩
/-- The group role, latched from the straps; an invalid device number makes a group of one (R482). -/
def GrpX.init : GrpX :=
  ⟨if Config.strapDev ≤ Config.strapSize then Config.strapDev else 0,
   if Config.strapDev ≤ Config.strapSize then Config.strapSize else 0, [], [], 0, 0, false, false, 0, 0, false, false, false, 0, false⟩
def WearX.init : WearX := ⟨false, 0, 0, false, false, [], [], [], 0, false, 0, 0⟩
def StackX.init : StackX := ⟨0, false, [], 0, []⟩
def EmberX.init : EmberX := ⟨0, 0, none, [], []⟩
def CordX.init : CordX := ⟨[], 0, false⟩

/-- The chip after a cold reset (R10): every field at its reset value, no work, nothing on its way. -/
def Chip.init : Chip :=
  { regs := [], slots := [], rings := [], entries := [], nextUid := 0, nextOrder := 0, stack := StackX.init,
    dmp := DamperX.init, sess := [], cord := CordX.init, ctxs := [], ember := EmberX.init, seq := SeqX.init,
    pmb := PmbX.init, grp := GrpX.init, wear := WearX.init, ash := AshX.init, ports := [], kz := [],
    kln := KlnX.init, blanked := [], stage := [], mons := [], base := [], us := 0, tick := 0, free := 0, memq := [], out := [] }

/-- The block right after its first cold reset: unlisted registers read as their reset values, the memories list
nothing, the OTP is unburned (life-cycle state Blank, R432), the NVS is unwritten. -/
def State.reset : State :=
  { chip := Chip.init, sram := [], opmem := [], listmem := [], otp := [], nvs := Nvs.init, pending := [] }

/-- Why a command can stop the block with a fault. No command of this block does: every access to an address that holds
nothing has the effect R6, R22, R44 or R495 gives it, so the type has no constructor. Safe: there is nothing to stop on. -/
inductive Fault where
  deriving DecidableEq, Repr

/-- Why a command is refused by the model. -/
inductive Refusal where
  /-- The command named has no meaning in the model yet. Raised by the dispatch alone. Safe: nothing is claimed of it. -/
  | notModelled (mnemonic : String)
  deriving DecidableEq, Repr

end Sys2Proof.Machine
end

