-- ==== Sys2Proof/Machine/Ops.lean ====
section
/-! DEFINITION. The named operations over the registers, the units and the memories of the block that every meaning
is written from. -/

namespace Sys2Proof.Machine

/-! ## Registers -/

/-- The reset value of an instance of a field: the table's, or the one the chapter gives for the instance. -/
def Fld.resetAt (f : Fld) (i : Nat) : Nat :=
  match f.reg with
  | .HTH_SLOT_STAT => if f.lo = 0 ∧ i < 4 then 0xA else f.spec.reset
  | .HTH_BANK_CFG => if f.lo = 2 ∧ i ≠ 0 then 2 else f.spec.reset
  | .HTH_BANK_RICK => if f.lo = 16 ∧ i = 0 then 0xC0 else f.spec.reset
  | .HTH_PROT_CFG => if f.lo = 28 ∧ 4 ≤ i then 1 else f.spec.reset
  | .HTH_MON_CFG =>
    if i % 4 = 3 then (if f.lo = 13 then 1 else if f.lo = 8 then 15 else if f.lo = 4 then 8 else f.spec.reset)
    else if f.lo = 13 then 0 else if f.lo = 8 then 5 else if f.lo = 4 then 3 else f.spec.reset
  | .HTH_BMON_CFG | .DRG_RMON_CFG =>
    if f.lo = 13 then 0 else if f.lo = 8 then 5 else if f.lo = 4 then 3 else f.spec.reset
  | .HTH_MON_THR =>
    match i % 4 with
    | 0 => if f.lo = 16 then 20 else if f.lo = 8 then 20 else 1
    | 1 => if f.lo = 16 then 150 else if f.lo = 8 then 0 else 5
    | 2 => if f.lo = 16 then 14 else if f.lo = 8 then 10 else 2
    | _ => 0
  | .DRG_RMON_THR =>
    if f.lo = 16 then ([181, 190, 198, 187, 137].getD i 0)
    else if f.lo = 8 then ([149, 120, 162, 153, 113].getD i 0) else 2
  | .FLU_CLASS_CFG => [0, 50, 20, 10].getD i 0
  | .DRG_SEQ_SLOT =>
    if f.lo = 31 then (if i < 4 then 1 else 0)
    else if f.lo = 16 then [0, 10, 20, 30].getD i 0
    else if f.lo = 8 then [15, 10, 5, 0].getD i 0 else f.spec.reset
  | .DRG_DMP_COST => [60, 24, 92, 220, 220, 1500, 1000, 700, 8, 2, 60, 35, 20].getD i 0
  | .DRG_GRP_STAT => if f.lo = 30 then Config.strapDev else if f.lo = 28 then Config.strapSize else f.spec.reset
  | .DRG_DMP_STATIC => if f.lo = 16 then Config.staticW else Config.staticSlope
  | _ => f.spec.reset

/-- The access code of an instance of a field: the table's, or the one the chapter gives for the instance. -/
def Fld.accAt (f : Fld) (i : Nat) : Acc :=
  match f.reg with
  | .HTH_SLOT_ELEC =>
    if f.lo = 10 then (if i < 4 then .RW else .RO) else if f.lo = 5 then (if i < 4 then .RWL else .RO) else f.spec.acc
  | .HTH_BANK_CFG => if f.lo = 2 ∧ i = 0 then .RO else f.spec.acc
  | .HTH_PROT_CFG =>
    if f.lo = 31 then (if i < 4 then .RO else .RWL) else if f.lo = 28 then (if i < 4 then .RW else .RO) else f.spec.acc
  | .HTH_TURF_CFG => if i < 4 then .RO else f.spec.acc
  | .HTH_MON_CFG =>
    if f.lo = 13 then (if i % 4 = 3 then .RW else .RO) else if f.lo = 1 then .RO else f.spec.acc
  | .HTH_BMON_CFG => if f.lo = 1 then .RO else f.spec.acc
  | .HTH_MON_THR =>
    if i % 4 = 3 then .RO else if f.lo = 8 ∧ i % 4 = 1 then .RO else .RW
  | .DRG_RMON_THR => .RW
  | .DRG_SEQ_SLOT =>
    if f.lo = 31 then (if i < 20 then .RO else .RWL)
    else if i < 4 ∧ f.lo ≠ 0 then .RO else .RWL
  | _ => f.spec.acc

/-- The range a written value is stored within, for an instance of a field (R84–R493: "stored at the nearer limit"). -/
def Fld.limitsAt (f : Fld) (i : Nat) : Nat × Nat :=
  match f.reg with
  | .HTH_MON_THR =>
    match i % 4 with
    | 0 => if f.lo = 0 then (0, 7) else (0, 63)
    | 1 => if f.lo = 16 then (105, 150) else (0, 15)
    | _ => if f.lo = 16 then (1, 40) else if f.lo = 8 then (1, 16) else (0, 7)
  | .HTH_MON_CFG | .HTH_BMON_CFG | .DRG_RMON_CFG => if f.lo = 8 then (1, 15) else (f.spec.min, f.spec.max)
  | _ => (f.spec.min, f.spec.max)

/-- A key's rank, by register, place and instance. -/
def Key.rank (k : Key) : Nat := (k.fld.reg.ctorIdx * 32 + k.fld.lo) * 65536 + k.idx

/-- The value of an instance of a field. -/
def Chip.get (c : Chip) (f : Fld) (i : Nat) : Nat := tabGet (f.resetAt i) c.regs ⟨f, i⟩

/-- Store a value in an instance of a field, cut to the field's width. -/
def Chip.put (c : Chip) (f : Fld) (i : Nat) (v : Nat) : Chip :=
  { c with regs := tabPut Key.rank (f.resetAt i) c.regs ⟨f, i⟩ (v % 2 ^ f.width) }

/-- A one-bit field as a Bool. -/
def Chip.on (c : Chip) (f : Fld) (i : Nat) : Bool := decide (c.get f i ≠ 0)

/-- Set or clear a one-bit field. -/
def Chip.flag (c : Chip) (f : Fld) (i : Nat) (b : Bool) : Chip := c.put f i b.toNat

/-- Bit `k` of a field. -/
def Chip.bit (c : Chip) (f : Fld) (i k : Nat) : Bool := (c.get f i).testBit k

/-- Store bit `k` of a field. -/
def Chip.putBit (c : Chip) (f : Fld) (i k : Nat) (b : Bool) : Chip :=
  let v := c.get f i
  c.put f i (if v.testBit k = b then v else if b then v + 2 ^ k else v - 2 ^ k)

/-- Add one to a field, stopping at its largest value. -/
def Chip.incSat (c : Chip) (f : Fld) (i : Nat) : Chip :=
  let v := c.get f i
  if v + 1 < 2 ^ f.width then c.put f i (v + 1) else c

/-- Add one to a field, wrapping. -/
def Chip.incWrap (c : Chip) (f : Fld) (i : Nat) : Chip := c.put f i (c.get f i + 1)

/-- Return every field of instance `i` of a register to its reset value, but for the fields named. -/
def Chip.resetReg (c : Chip) (r : RegName) (i : Nat) (keep : List Nat := []) : Chip :=
  { c with regs := c.regs.filter (fun e => !(decide (e.1.fld.reg = r) && decide (e.1.idx = i) && !(keep.contains e.1.fld.lo))) }

/-- Keep only the registers a predicate names; the rest return to their reset values (R10). -/
def Chip.keepRegs (c : Chip) (p : Key → Bool) : Chip :=
  { c with regs := c.regs.filter (fun e => p e.1) }

/-! ## Records, free values, events -/

/-- Record something sent out. -/
def Chip.emit (c : Chip) (o : Out) : Chip := { c with out := c.out ++ [o] }

/-- Ask for a change of a memory. -/
def Chip.mem (c : Chip) (m : MemOp) : Chip := { c with memq := c.memq ++ [m] }

/-- Move on to the next free value. -/
def Chip.draw (c : Chip) : Chip := { c with free := c.free + 1 }

/-- The free value at hand. -/
def Chip.freeVal (c : Chip) : Nat := Config.freeNat c.free

/-- Send an event to Ash (R378). -/
def Chip.raise (c : Chip) (src unit : Nat) (detail : Nat := 0) (forced : Bool := false) : Chip :=
  { c with ash := { c.ash with inbox := c.ash.inbox ++ [⟨src, unit, detail, forced⟩] } }

/-- The block numbers of R4, used as the UNIT of sources 0x09 and 0x1C. -/
def blkKLN : Nat := 0
def blkDRG : Nat := 1
def blkASH : Nat := 2
def blkSTK : Nat := 3
def blkFLU : Nat := 4
def blkHTH : Nat := 5
def blkCRD : Nat := 6
def blkEMB : Nat := 7

/-- A command refused by a block raises source 0x1C (R379). -/
def Chip.refuse (c : Chip) (blk : Nat) : Chip := c.raise 0x1C blk

/-- The word an instance of a register reads as from its stored fields. -/
def Chip.word (c : Chip) (r : RegName) (i : Nat) : Nat :=
  (regFields r).foldl (fun w f => if f.acc = .WO then w else w + c.get ⟨r, f.lo⟩ i % 2 ^ f.width * 2 ^ f.lo) 0

/-! ## Units -/

def Chip.slot (c : Chip) (n : Nat) : SlotX := tabGet SlotX.init c.slots n
def Chip.setSlot (c : Chip) (n : Nat) (x : SlotX) : Chip := { c with slots := tabPut id SlotX.init c.slots n x }
def Chip.modSlot (c : Chip) (n : Nat) (f : SlotX → SlotX) : Chip := c.setSlot n (f (c.slot n))
def Chip.ring (c : Chip) (r : Nat) : RingX := tabGet RingX.init c.rings r
def Chip.setRing (c : Chip) (r : Nat) (x : RingX) : Chip := { c with rings := tabPut id RingX.init c.rings r x }
def Chip.modRing (c : Chip) (r : Nat) (f : RingX → RingX) : Chip := c.setRing r (f (c.ring r))
def Chip.sessOf (c : Chip) (n : Nat) : SessX := tabGet SessX.init c.sess n
def Chip.setSess (c : Chip) (n : Nat) (x : SessX) : Chip := { c with sess := tabPut id SessX.init c.sess n x }
def Chip.modSess (c : Chip) (n : Nat) (f : SessX → SessX) : Chip := c.setSess n (f (c.sessOf n))
def Chip.ctx (c : Chip) (k : Nat) : CtxX := tabGet CtxX.init c.ctxs k
def Chip.setCtx (c : Chip) (k : Nat) (x : CtxX) : Chip := { c with ctxs := tabPut id CtxX.init c.ctxs k x }
def Chip.modCtx (c : Chip) (k : Nat) (f : CtxX → CtxX) : Chip := c.setCtx k (f (c.ctx k))

def Chip.port (c : Chip) (x : Nat) : PortX := tabGet PortX.init c.ports x
def Chip.setPort (c : Chip) (x : Nat) (v : PortX) : Chip := { c with ports := tabPut id PortX.init c.ports x v }
def Chip.kzOf (c : Chip) (k : Nat) : KzX := tabGet KzX.init c.kz k
def Chip.setKz (c : Chip) (k : Nat) (v : KzX) : Chip := { c with kz := tabPut id KzX.init c.kz k v }

/-- Apply an action for each number below a bound, in rising order. -/
def Chip.forN (c : Chip) (n : Nat) (f : Chip → Nat → Chip) : Chip := (List.range n).foldl f c

/-! ## Slot facts -/

/-- Slot states (R85). -/
def stOFF : Nat := 0
def stRAMP : Nat := 1
def stCLOCKED : Nat := 2
def stRESETHELD : Nat := 3
def stATRWAIT : Nat := 4
def stNEGOTIATE : Nat := 5
def stREADY : Nat := 6
def stBUSY : Nat := 7
def stDEACT : Nat := 8
def stCLINKER : Nat := 9
def stABSENT : Nat := 10

def Chip.slotState (c : Chip) (n : Nat) : Nat := c.get HTH_SLOT_STAT.STATE n
def Chip.setSlotState (c : Chip) (n st : Nat) : Chip := c.put HTH_SLOT_STAT.STATE n st

/-- S00–S03 are the operator slots (R2). -/
def isOperator (n : Nat) : Bool := decide (n < 4)
/-- The bank of a slot (R2). -/
def bankOf (n : Nat) : Nat := n / 4
/-- The first slot of a bank. -/
def slotsOf (b : Nat) : List Nat := [4 * b, 4 * b + 1, 4 * b + 2, 4 * b + 3]

/-- A domain is powered and out of isolation (R334). -/
def Chip.domUp (c : Chip) (k : Nat) : Bool := c.bit DRG_DOM_STAT.UP 0 k

/-- A bank domain has power: its rail was judged good and the domain has not been switched off since. -/
def Chip.bankPow (c : Chip) (b : Nat) : Bool := c.domUp b || c.seq.powered.contains b

/-- PRES: the filtered state of PMON, card present (R186). -/
def Chip.pres (c : Chip) (n : Nat) : Bool := isOperator n && !c.on ⟨.HTH_MON_STAT, 0⟩ (4 * n + 3)

/-- A unit is fenced (R381). -/
def Chip.fencedU (c : Chip) (u : FUnit) : Bool := c.ash.fences.any (fun f => decide (f.unit = u))

/-- The fence line of a slot (R31): held by a fence, by the safe state (R388), or for a clinker (R117). -/
def Chip.slotLine (c : Chip) (n : Nat) : Bool :=
  c.ash.safe || (c.slot n).clinker || c.ash.fences.any (fun f => match f.unit with | .slot m => decide (m.val = n) | _ => false)

/-- The grant BSCAN is held: Kiln fences every bank and both host ports (R450). -/
def Chip.bscan (c : Chip) : Bool := c.bit KLN_DBG_STAT.HELD 0 1

/-- A bank is fenced by Ash, or by Kiln under BSCAN. -/
def Chip.bankFenced (c : Chip) (b : Nat) : Bool :=
  c.bscan || c.ash.fences.any (fun f => match f.unit with | .bank m => decide (m.val = b) | _ => false)

/-- The kill line of a bank (R31, R388). -/
def Chip.killLine (c : Chip) (b : Nat) : Bool := c.on HTH_BANK_ESTAT.KILL b || c.ash.safe || c.bankFenced b

/-- A slot is cut off by its fence line or its bank's kill line (FENCED of HTH_SLOT_STAT). -/
def Chip.slotFenced (c : Chip) (n : Nat) : Bool := c.slotLine n || c.killLine (bankOf n)

/-- The slot is enabled in SLOT_EN (R84); none is until a base image is applied (R410). -/
def Chip.slotEn (c : Chip) (n : Nat) : Bool := c.kln.baseOn && c.bit HTH_BANK_CFG.SLOT_EN (bankOf n) (n % 4)

/-- The live bit of a local slot (R249). -/
def Chip.liveLocal (c : Chip) (n : Nat) : Bool := c.slotEn n && c.domUp (bankOf n) && !c.slotFenced n

/-- A peer is present and not fenced. -/
def Chip.peerOk (c : Chip) (d : Nat) : Bool :=
  c.ash.present.contains d && !(c.ash.fences.any (fun f => match f.unit with | .peer m => decide (m.val = d) | _ => false))

/-- The live bit of a group slot (R249): FLU_LIVE holds the last notices of the peers. -/
def Chip.live (c : Chip) (g : Nat) : Bool :=
  if g / 64 = c.grp.dev then c.liveLocal (g % 64)
  else decide (g / 64 ≤ c.grp.size) && c.peerOk (g / 64) && c.bit FLU_LIVE.LIVE (g / 32) (g % 32)

/-- The class of a module slot's bank, or the class an operator slot is at (R52, R98): 1 A, 2 B, 3 C. -/
def Chip.trialClass (c : Chip) (n : Nat) : Nat :=
  if isOperator n then
    if c.get HTH_SLOT_ELEC.CLASS_MODE n ≠ 0 ∧ (c.slotState n = stOFF ∨ c.slotState n = stABSENT) then
      c.get HTH_SLOT_ELEC.CLASS_MODE n
    else c.get HTH_SLOT_STAT.TRIAL_CLASS n
  else c.get HTH_BANK_CFG.CLASS (bankOf n)

/-- A setting of a slot's engines as it holds for what runs (R153, R183). -/
def Chip.cfg (c : Chip) (f : Fld) (n : Nat) : Nat := tabGet (c.get f n) (c.slot n).held f

/-- Device-wide conditions. -/
def Chip.safe (c : Chip) : Bool := c.ash.safe

/-! ## Memory: sparse bytes, an unlisted address reads 0 -/

/-- What an unlisted byte of a memory reads as (log entry 4). -/
def memBlank : Byte := 0

/-- The byte at an offset of a memory. -/
def memRead (m : List Host.Cell) (a : Nat) : Byte := tabGet memBlank m a

/-- Store a byte at an offset of a memory. -/
def memWrite (m : List Host.Cell) (a : Nat) (b : Byte) : List Host.Cell := tabPut id memBlank m a b

/-- Store bytes from an offset on. -/
def memWriteBytes (m : List Host.Cell) (a : Nat) (bs : List Byte) : List Host.Cell :=
  (bs.zipIdx a).foldl (fun m p => memWrite m p.2 p.1) m

/-- Bytes from an offset on. -/
def memReadBytes (m : List Host.Cell) (a len : Nat) : List Byte := (List.range len).map (fun k => memRead m (a + k))

/-- The stretch of the SRAM device region that the staging buffers of one place of the in-flight pool take: 4 KiB for the command
and 4 KiB for the response (R22, R25, log entry 127). -/
def stageSize : Nat := 0x2000

/-- Return a stretch of a memory to zero. -/
def memWipe (m : List Host.Cell) (a len : Nat) : List Host.Cell :=
  m.filter (fun e => !(decide (a ≤ e.1) && decide (e.1 < a + len)))

/-- The canonical form of a memory: addresses strictly rising, nothing listed that reads as an unlisted byte does. -/
def Memory.wf (m : List Host.Cell) : Bool := tabRising id m && m.all (fun e => decide (e.2 ≠ memBlank))

/-- A little-endian number from bytes (R19). -/
def leNat (bs : List Byte) : Nat := bs.foldr (fun b acc => b.toNat + 256 * acc) 0
/-- A big-endian number from bytes (R19). -/
def beNat (bs : List Byte) : Nat := bs.foldl (fun acc b => acc * 256 + b.toNat) 0
/-- `len` little-endian bytes of a number. -/
def leBytes (len v : Nat) : List Byte := (List.range len).map (fun k => BitVec.ofNat 8 (v / 256 ^ k))
/-- `len` big-endian bytes of a number. -/
def beBytes (len v : Nat) : List Byte := (leBytes len v).reverse

/-! ## From the chip to the state -/

/-- A burn sets bits of an OTP word and clears none (R431). -/
def otpBurn (otp : List (Nat × Nat)) (w v : Nat) : List (Nat × Nat) :=
  tabPut id 0 otp w (tabGet 0 otp w ||| (v % 2 ^ 32))

/-- The value of an OTP word. -/
def otpWord (otp : List (Nat × Nat)) (w : Nat) : Nat := tabGet 0 otp w

/-- A wear record goes to the copy with the older sequence number, a copy that is not valid first (R374). -/
def Nvs.putWear (v : Nvs) (r : WearRec) : Nvs :=
  match v.wear0, v.wear1 with
  | none, none => { v with wear0 := some (1, r) }
  | none, some (q, _) => { v with wear0 := some (q + 1, r) }
  | some (q, _), none => { v with wear1 := some (q + 1, r) }
  | some (p, _), some (q, _) => if p < q then { v with wear0 := some (q + 1, r) } else { v with wear1 := some (p + 1, r) }

/-- A record joins the persistent journal, a ring of 4,096 (R394). -/
def Nvs.putJournal (v : Nvs) (r : JrnRec) : Nvs :=
  { v with journal := tabPut id ⟨0, 0, 0, 0⟩ v.journal v.journalNext r, journalNext := (v.journalNext + 1) % 4096 }

/-- A voted value is written to its three copies in order (R447). -/
def Nvs.putVote (v : Nvs) (i x : Nat) : Nvs :=
  [0, 1, 2].foldl (fun v k =>
    { v with votes := tabPut (fun p => 4 * p.1 + p.2) .unwritten v.votes (i, k) (.val x) }) v

/-- Carry out a change of a memory or a store. -/
def State.applyMem (s : State) (m : MemOp) : State :=
  match m with
  | .sram off bytes => { s with sram := memWriteBytes s.sram off bytes }
  | .sramClear => { s with sram := [] }
  | .opWrite off bytes => { s with opmem := memWriteBytes s.opmem off bytes }
  | .listWrite off bytes => { s with listmem := memWriteBytes s.listmem off bytes }
  | .wipeOp off len => { s with opmem := memWipe s.opmem off len }
  | .wipeList off len => { s with listmem := memWipe s.listmem off len }
  | .burn w v => { s with otp := otpBurn s.otp w v }
  | .nvsBase k img => { s with nvs := { s.nvs with base := tabPut id [] s.nvs.base k img } }
  | .nvsOvl k img => { s with nvs := { s.nvs with ovl := tabPut id [] s.nvs.ovl k img } }
  | .nvsKey k key => { s with nvs := { s.nvs with keys := tabPut id [] s.nvs.keys k key } }
  | .nvsVote i v => { s with nvs := s.nvs.putVote i v }
  | .nvsJournal r => { s with nvs := s.nvs.putJournal r }
  | .nvsWear r => { s with nvs := s.nvs.putWear r }
  | .nvsErase keep =>
    { s with nvs := if keep then { Nvs.init with wear0 := s.nvs.wear0, wear1 := s.nvs.wear1 } else { Nvs.init with wear0 := none } }

/-- Carry out the changes of the memories that the chip asked for. -/
def State.flush (s : State) : State :=
  s.chip.memq.foldl State.applyMem { s with chip := { s.chip with memq := [] } }

/-- Act on the chip, then carry out the changes of the memories that it asked for. -/
def State.act (s : State) (f : Chip → Chip) : State := State.flush { s with chip := f s.chip }

end Sys2Proof.Machine
end

