-- ==== Sys2Proof/Machine/Crypto.lean ====
section
/-! DEFINITION. The cryptographic functions the chapters name: AES-256 with CBC, CMAC and GCM, SHA-256, SHA-384, HMAC,
the CRCs of the block (R172, R468), and P-256 and P-384 arithmetic (R319). The functions themselves are those of FIPS 180,
FIPS 186, FIPS 197, SP 800-38 (PRESUMED from outside the spec, log entry 16); the spec names them. -/

namespace Sys2Proof.Machine

/-! ## SHA-2 -/

/-- Cut a number into `n` words of `w` bits, the most significant first. -/
def wordsOfNum (w n x : Nat) : List Nat := (List.range n).map (fun i => x / 2 ^ (w * (n - 1 - i)) % 2 ^ w)

/-- The fractional parts of the cube roots of the first 80 primes, to 64 bits each, five to a line and packed into one number
(FIPS 180 calls them K; Tests/Slice0.lean checks them as roots). -/
def sha512K : List Nat :=
  wordsOfNum 64 5 0x428a2f98d728ae227137449123ef65cdb5c0fbcfec4d3b2fe9b5dba58189dbbc3956c25bf348b538 ++
  wordsOfNum 64 5 0x59f111f1b605d019923f82a4af194f9bab1c5ed5da6d8118d807aa98a303024212835b0145706fbe ++
  wordsOfNum 64 5 0x243185be4ee4b28c550c7dc3d5ffb4e272be5d74f27b896f80deb1fe3b1696b19bdc06a725c71235 ++
  wordsOfNum 64 5 0xc19bf174cf692694e49b69c19ef14ad2efbe4786384f25e30fc19dc68b8cd5b5240ca1cc77ac9c65 ++
  wordsOfNum 64 5 0x2de92c6f592b02754a7484aa6ea6e4835cb0a9dcbd41fbd476f988da831153b5983e5152ee66dfab ++
  wordsOfNum 64 5 0xa831c66d2db43210b00327c898fb213fbf597fc7beef0ee4c6e00bf33da88fc2d5a79147930aa725 ++
  wordsOfNum 64 5 0x06ca6351e003826f142929670a0e6e7027b70a8546d22ffc2e1b21385c26c9264d2c6dfc5ac42aed ++
  wordsOfNum 64 5 0x53380d139d95b3df650a73548baf63de766a0abb3c77b2a881c2c92e47edaee692722c851482353b ++
  wordsOfNum 64 5 0xa2bfe8a14cf10364a81a664bbc423001c24b8b70d0f89791c76c51a30654be30d192e819d6ef5218 ++
  wordsOfNum 64 5 0xd69906245565a910f40e35855771202a106aa07032bbd1b819a4c116b8d2d0c81e376c085141ab53 ++
  wordsOfNum 64 5 0x2748774cdf8eeb9934b0bcb5e19b48a8391c0cb3c5c95a634ed8aa4ae3418acb5b9cca4f7763e373 ++
  wordsOfNum 64 5 0x682e6ff3d6b2b8a3748f82ee5defb2fc78a5636f43172f6084c87814a1f0ab728cc702081a6439ec ++
  wordsOfNum 64 5 0x90befffa23631e28a4506cebde82bde9bef9a3f7b2c67915c67178f2e372532bca273eceea26619c ++
  wordsOfNum 64 5 0xd186b8c721c0c207eada7dd6cde0eb1ef57d4f7fee6ed17806f067aa72176fba0a637dc5a2c898a6 ++
  wordsOfNum 64 5 0x113f9804bef90dae1b710b35131c471b28db77f523047d8432caab7b40c724933c9ebe0a15c9bebc ++
  wordsOfNum 64 5 0x431d67c49c100d4c4cc5d4becb3e42b6597f299cfc657e2a5fcb6fab3ad6faec6c44198c4a475817

/-- The same roots of the first 64 primes, to 32 bits. -/
def sha256K : List Nat := (sha512K.take 64).map (fun k => k / 2 ^ 32)

/-- Rotation to the right in a word of `w` bits. -/
def rotr (w k x : Nat) : Nat := (x >>> k) ||| ((x <<< (w - k)) % 2 ^ w)

/-- The parameters of a member of the SHA-2 family: word width, shifts of Σ0, Σ1, σ0, σ1 and the round constants. -/
structure ShaPar where
  w : Nat
  s0 : Nat × Nat × Nat
  s1 : Nat × Nat × Nat
  g0 : Nat × Nat × Nat
  g1 : Nat × Nat × Nat
  k : List Nat

def sha512Par : ShaPar := ⟨64, (28, 34, 39), (14, 18, 41), (1, 8, 7), (19, 61, 6), sha512K⟩
def sha256Par : ShaPar := ⟨32, (2, 13, 22), (6, 11, 25), (7, 18, 3), (17, 19, 10), sha256K⟩

/-- The message schedule, latest word first. -/
def shaSchedule (p : ShaPar) (block : List Nat) : List Nat :=
  ((List.range (p.k.length - 16)).foldl (fun ws _ =>
    let a := ws.getD 14 0
    let b := ws.getD 1 0
    let g0 := rotr p.w p.g0.1 a ^^^ rotr p.w p.g0.2.1 a ^^^ (a >>> p.g0.2.2)
    let g1 := rotr p.w p.g1.1 b ^^^ rotr p.w p.g1.2.1 b ^^^ (b >>> p.g1.2.2)
    ((g1 + ws.getD 6 0 + g0 + ws.getD 15 0) % 2 ^ p.w) :: ws) block.reverse).reverse

/-- One block of compression. -/
def shaBlock (p : ShaPar) (h block : List Nat) : List Nat :=
  let m := 2 ^ p.w
  let out := ((shaSchedule p block).zip p.k).foldl (fun v wk =>
    let a := v.getD 0 0
    let b := v.getD 1 0
    let c := v.getD 2 0
    let e := v.getD 4 0
    let t0 := rotr p.w p.s0.1 a ^^^ rotr p.w p.s0.2.1 a ^^^ rotr p.w p.s0.2.2 a
    let t1 := rotr p.w p.s1.1 e ^^^ rotr p.w p.s1.2.1 e ^^^ rotr p.w p.s1.2.2 e
    let ch := (e &&& v.getD 5 0) ^^^ ((m - 1 - e) &&& v.getD 6 0)
    let maj := (a &&& b) ^^^ (a &&& c) ^^^ (b &&& c)
    let t := v.getD 7 0 + t1 + ch + wk.2 + wk.1
    [(t + t0 + maj) % m, a, b, c, (v.getD 3 0 + t) % m, e, v.getD 5 0, v.getD 6 0]) h
  (h.zip out).map (fun x => (x.1 + x.2) % m)

/-- A message padded to whole blocks, as words. -/
def shaWords (p : ShaPar) (msg : List Byte) : List Nat :=
  let blk := p.w * 2
  let len := msg.length
  let pad := (2 * blk - (len + 1 + p.w / 4) % blk) % blk
  let all := msg ++ [0x80] ++ List.replicate pad 0 ++ beBytes (p.w / 4) (8 * len)
  (List.range (all.length / (p.w / 8))).map (fun i => beNat ((all.drop (p.w / 8 * i)).take (p.w / 8)))

def shaRun (p : ShaPar) (iv : List Nat) (msg : List Byte) : List Nat :=
  let ws := shaWords p msg
  (List.range (ws.length / 16)).foldl (fun h i => shaBlock p h ((ws.drop (16 * i)).take 16)) iv

/-- SHA-384 of a string. -/
def sha384 (msg : List Byte) : List Byte :=
  let iv := wordsOfNum 64 4 0xcbbb9d5dc1059ed8629a292a367cd5079159015a3070dd17152fecd8f70e5939 ++
    wordsOfNum 64 4 0x67332667ffc00b318eb44a8768581511db0c2e0d64f98fa747b5481dbefa4fa4
  ((shaRun sha512Par iv msg).take 6).flatMap (beBytes 8)

/-- SHA-256 of a string. -/
def sha256 (msg : List Byte) : List Byte :=
  let iv := wordsOfNum 32 8 0x6a09e667bb67ae853c6ef372a54ff53a510e527f9b05688c1f83d9ab5be0cd19
  (shaRun sha256Par iv msg).flatMap (beBytes 4)

/-- Byte-wise exclusive or. -/
def xorBytes (a b : List Byte) : List Byte := (a.zip b).map (fun p => p.1 ^^^ p.2)

/-- HMAC-SHA-384. -/
def hmac384 (key msg : List Byte) : List Byte :=
  let k := if 128 < key.length then sha384 key else key
  let k := k ++ List.replicate (128 - k.length) 0
  sha384 (xorBytes k (List.replicate 128 0x5C) ++ sha384 (xorBytes k (List.replicate 128 0x36) ++ msg))

/-! ## AES-256 -/

/-- The substitution box of AES, 32 bytes to a line and packed into one number (Tests/Slice0.lean checks it as inversion in the
field followed by the affine map). -/
def aesSbox : List Byte :=
  (wordsOfNum 8 32 0x637c777bf26b6fc53001672bfed7ab76ca82c97dfa5947f0add4a2af9ca472c0 ++
   wordsOfNum 8 32 0xb7fd9326363ff7cc34a5e5f171d8311504c723c31896059a071280e2eb27b275 ++
   wordsOfNum 8 32 0x09832c1a1b6e5aa0523bd6b329e32f8453d100ed20fcb15b6acbbe394a4c58cf ++
   wordsOfNum 8 32 0xd0efaafb434d338545f9027f503c9fa851a3408f929d38f5bcb6da2110fff3d2 ++
   wordsOfNum 8 32 0xcd0c13ec5f974417c4a77e3d645d197360814fdc222a908846eeb814de5e0bdb ++
   wordsOfNum 8 32 0xe0323a0a4906245cc2d3ac629195e479e7c8376d8dd54ea96c56f4ea657aae08 ++
   wordsOfNum 8 32 0xba78252e1ca6b4c6e8dd741f4bbd8b8a703eb5664803f60e613557b986c11d9e ++
   wordsOfNum 8 32 0xe1f8981169d98e949b1e87e9ce5528df8ca1890dbfe6426841992d0fb054bb16).map (BitVec.ofNat 8)

def aesSub (b : Byte) : Byte := aesSbox.getD b.toNat 0
def aesSubInv (b : Byte) : Byte := BitVec.ofNat 8 (aesSbox.idxOf b)

/-- Doubling in the field of AES. -/
def gfDouble (b : Byte) : Byte := (b <<< 1) ^^^ (if b.msb then 0x1B else 0)
/-- Product in the field of AES of a byte and an element below 16, as the mixing matrices have them. -/
def gfMul (a b : Byte) : Byte :=
  ((List.range 4).foldl (fun (acc : Byte × Byte) i =>
    (if a.getLsbD i then acc.1 ^^^ acc.2 else acc.1, gfDouble acc.2)) (0, b)).1

/-- The 15 round keys of AES-256, 16 bytes each. -/
def aesKeys (key : List Byte) : List (List Byte) :=
  let ws := (List.range 52).foldl (fun (ws : List (List Byte)) k =>
    let i := k + 8
    let t := ws.getD (i - 1) []
    let t := if i % 8 = 0 then
        let r := ((t.drop 1) ++ t.take 1).map aesSub
        [r.getD 0 0 ^^^ BitVec.ofNat 8 (2 ^ (i / 8 - 1))] ++ r.drop 1
      else if i % 8 = 4 then t.map aesSub else t
    ws ++ [xorBytes (ws.getD (i - 8) []) t])
    ((List.range 8).map (fun i => (key.drop (4 * i)).take 4))
  (List.range 15).map (fun r => ((ws.drop (4 * r)).take 4).flatten)

def aesShift (s : List Byte) : List Byte := (List.range 16).map (fun i => s.getD ((i + 4 * (i % 4)) % 16) 0)
def aesShiftInv (s : List Byte) : List Byte := (List.range 16).map (fun i => s.getD ((i + 12 * (i % 4)) % 16) 0)

/-- Multiply each column by a circulant matrix. -/
def aesMix (coef : List Byte) (s : List Byte) : List Byte :=
  (List.range 16).map (fun i =>
    (List.range 4).foldl (fun acc j => acc ^^^ gfMul (coef.getD ((j + 4 - i % 4) % 4) 0) (s.getD (i / 4 * 4 + j) 0)) 0)

/-- AES-256 of one block. -/
def aes256 (key block : List Byte) : List Byte :=
  let ks := aesKeys key
  let s := (List.range 13).foldl (fun s r =>
    xorBytes (aesMix [2, 3, 1, 1] (aesShift (s.map aesSub))) (ks.getD (r + 1) [])) (xorBytes block (ks.getD 0 []))
  xorBytes (aesShift (s.map aesSub)) (ks.getD 14 [])

/-- AES-256 inverse of one block. -/
def aes256Inv (key block : List Byte) : List Byte :=
  let ks := aesKeys key
  let s := (List.range 13).foldl (fun s r =>
    aesMix [14, 11, 13, 9] (xorBytes ((aesShiftInv s).map aesSubInv) (ks.getD (13 - r) [])))
    (xorBytes block (ks.getD 14 []))
  xorBytes ((aesShiftInv s).map aesSubInv) (ks.getD 0 [])

/-- The 16-byte blocks of a string. -/
def blocks16 (m : List Byte) : List (List Byte) := (List.range ((m.length + 15) / 16)).map (fun i => (m.drop (16 * i)).take 16)

/-- AES-256-CBC of whole blocks from an initial value. -/
def cbcEnc (key icv m : List Byte) : List Byte :=
  ((blocks16 m).foldl (fun (acc : List Byte × List Byte) b =>
    let c := aes256 key (xorBytes acc.1 b)
    (c, acc.2 ++ c)) (icv, [])).2

/-- AES-256-CBC decryption. -/
def cbcDec (key icv m : List Byte) : List Byte :=
  ((blocks16 m).foldl (fun (acc : List Byte × List Byte) b => (b, acc.2 ++ xorBytes (aes256Inv key b) acc.1)) (icv, [])).2

/-- Doubling of a CMAC subkey. -/
def cmacDouble (b : List Byte) : List Byte :=
  let v := beNat b * 2
  beBytes 16 (if v < 2 ^ 128 then v else (v % 2 ^ 128) ^^^ 0x87)

/-- AES-256-CMAC of a string. -/
def cmac256 (key msg : List Byte) : List Byte :=
  let k1 := cmacDouble (aes256 key (List.replicate 16 0))
  let bs := blocks16 msg
  let last := bs.getD (bs.length - 1) []
  let tail := if last.length = 16 then xorBytes last k1
    else xorBytes (last ++ [0x80] ++ List.replicate (15 - last.length) 0) (cmacDouble k1)
  aes256 key (xorBytes ((bs.take (bs.length - 1)).foldl (fun c b => aes256 key (xorBytes c b)) (List.replicate 16 0)) tail)

/-- Multiplication in the field of GHASH, most significant bit first. -/
def ghashMul (x y : Nat) : Nat :=
  ((List.range 128).foldl (fun (a : Nat × Nat) i =>
    (if x.testBit (127 - i) then a.1 ^^^ a.2 else a.1,
     if a.2.testBit 0 then (a.2 / 2) ^^^ (0xE1 * 2 ^ 120) else a.2 / 2)) (0, y)).1

def pad16 (m : List Byte) : List Byte := m ++ List.replicate ((16 - m.length % 16) % 16) 0

/-- AES-256-GCM keystream and tag: IV of 12 bytes, additional data, input; `dec` says the input is ciphertext. -/
def gcm256 (key iv aad input : List Byte) (dec : Bool) : List Byte × List Byte :=
  let h := beNat (aes256 key (List.replicate 16 0))
  let out := ((blocks16 input).zipIdx 2).flatMap (fun p => xorBytes p.1 (aes256 key (iv ++ beBytes 4 p.2)))
  let ct := if dec then input else out
  let all := pad16 aad ++ pad16 ct ++ beBytes 8 (8 * aad.length) ++ beBytes 8 (8 * ct.length)
  let g := (blocks16 all).foldl (fun acc b => ghashMul (acc ^^^ beNat b) h) 0
  (out, xorBytes (beBytes 16 g) (aes256 key (iv ++ beBytes 4 1)))

/-! ## CRCs -/

/-- The CRC-32 of R172 over a string: polynomial 0x04C11DB7, initial value all ones, unreflected, no final XOR. -/
def crc32 (m : List Byte) : Nat :=
  m.foldl (fun c b =>
    (List.range 8).foldl (fun c _ =>
      if c.testBit 31 then ((2 * c) % 2 ^ 32) ^^^ 0x04C11DB7 else (2 * c) % 2 ^ 32) (c ^^^ (b.toNat * 2 ^ 24))) 0xFFFFFFFF

/-- The CRC-8 of R468: polynomial 0x07, initial value 0, unreflected. -/
def crc8 (m : List Byte) : Nat :=
  m.foldl (fun c b =>
    (List.range 8).foldl (fun c _ => if c.testBit 7 then ((2 * c) % 256) ^^^ 7 else (2 * c) % 256) (c ^^^ b.toNat)) 0

/-- The CRC-16 of T=1 blocks: reflected polynomial 0x8408, initial value 0xFFFF, final complement, sent most significant byte first.
PRESUMED from ISO/IEC 7816-3 and 13239, which R144 leaves it to (log entry 16). -/
def crc16 (m : List Byte) : Nat :=
  (m.foldl (fun c b =>
    (List.range 8).foldl (fun c _ => if c.testBit 0 then (c / 2) ^^^ 0x8408 else c / 2) (c ^^^ b.toNat)) 0xFFFF)
    ^^^ 0xFFFF

/-! ## Curves -/

/-- A prime curve y² = x³ − 3x + b with its base point and order. -/
structure Curve where
  p : Nat
  b : Nat
  n : Nat
  gx : Nat
  gy : Nat
  limbs : Nat

def p256 : Curve :=
  ⟨0xffffffff00000001000000000000000000000000ffffffffffffffffffffffff,
   0x5ac635d8aa3a93e7b3ebbd55769886bc651d06b0cc53b0f63bce3c3e27d2604b,
   0xffffffff00000000ffffffffffffffffbce6faada7179e84f3b9cac2fc632551,
   0x6b17d1f2e12c4247f8bce6e563a440f277037d812deb33a0f4a13945d898c296,
   0x4fe342e2fe1a7f9b8ee7eb4a7c0f9e162bce33576b315ececbb6406837bf51f5, 4⟩
def p384 : Curve :=
  ⟨0xfffffffffffffffffffffffffffffffffffffffffffffffffffffffffffffffeffffffff0000000000000000ffffffff,
   0xb3312fa7e23ee7e4988e056be3f82d19181d9c6efe8141120314088f5013875ac656398d8a2ed19d2a85c8edd3ec2aef,
   0xffffffffffffffffffffffffffffffffffffffffffffffffc7634d81f4372ddf581a0db248b0a77aecec196accc52973,
   0xaa87ca22be8b05378eb1c71ef320ad746e1d3b628ba79b9859f741e082542a385502f25dbf55296c3a545e3872760ab7,
   0x3617de4a96262c6f5d9e98bf9292dc29f8f41dbd289a147ce9da3113b5f0b8c00a60b1ce1d7e819d7a431d7c90ea0e5f, 6⟩

/-- The bits of a number from the most significant of `k` bits down. -/
def bitsDown (k x : Nat) : List Bool := ((List.range k).map (fun i => x.testBit i)).reverse

/-- Modular power by squaring over the bits of the exponent. -/
def powMod (b e m : Nat) : Nat :=
  (bitsDown (Nat.log2 e + 1) e).foldl (fun acc bit => let q := acc * acc % m; if bit then q * b % m else q) (1 % m)

/-- Inverse modulo a prime. -/
def invMod (a p : Nat) : Nat := powMod (a % p) (p - 2) p

/-- A point: none is the point at infinity. -/
abbrev EcPt := Option (Nat × Nat)

def ecAdd (c : Curve) (a b : EcPt) : EcPt :=
  match a, b with
  | none, q => q
  | q, none => q
  | some (x1, y1), some (x2, y2) =>
    if x1 = x2 ∧ (y1 + y2) % c.p = 0 then none
    else
      let l := if x1 = x2 then (3 * x1 * x1 + c.p - 3) % c.p * invMod (2 * y1) c.p % c.p
        else (y2 + c.p - y1) % c.p * invMod (x2 + c.p - x1) c.p % c.p
      let x3 := (l * l + 2 * c.p - x1 - x2) % c.p
      some (x3, (l * (x1 + c.p - x3) + c.p - y1) % c.p)

/-- A point in Jacobian coordinates: x = X/Z², y = Y/Z³, and Z = 0 is the point at infinity. -/
structure JacPt where
  x : Nat
  y : Nat
  z : Nat
  deriving DecidableEq, Repr

/-- Difference modulo p of two numbers below p. -/
def subMod (a b p : Nat) : Nat := (a + p - b) % p

/-- Twice a point, on a curve with a = −3. -/
def JacPt.double (c : Curve) (a : JacPt) : JacPt :=
  if a.z = 0 ∨ a.y = 0 then ⟨1, 1, 0⟩
  else
    let zz := a.z * a.z % c.p
    let yy := a.y * a.y % c.p
    let b := a.x * yy % c.p
    let m := 3 * subMod a.x zz c.p * ((a.x + zz) % c.p) % c.p
    let x := subMod (m * m % c.p) (8 * b % c.p) c.p
    ⟨x, subMod (m * subMod (4 * b % c.p) x c.p % c.p) (8 * (yy * yy) % c.p) c.p, 2 * a.y * a.z % c.p⟩

/-- A point plus an affine one. -/
def JacPt.add (c : Curve) (a : JacPt) (qx qy : Nat) : JacPt :=
  if a.z = 0 then ⟨qx, qy, 1⟩
  else
    let zz := a.z * a.z % c.p
    let h := subMod (qx * zz % c.p) a.x c.p
    let r := subMod (qy * zz % c.p * a.z % c.p) a.y c.p
    if h = 0 then (if r = 0 then a.double c else ⟨1, 1, 0⟩)
    else
      let hh := h * h % c.p
      let hhh := h * hh % c.p
      let v := a.x * hh % c.p
      let x := subMod (subMod (r * r % c.p) hhh c.p) (2 * v % c.p) c.p
      ⟨x, subMod (r * subMod v x c.p % c.p) (a.y * hhh % c.p) c.p, a.z * h % c.p⟩

/-- The affine coordinates of a point. -/
def JacPt.affine (c : Curve) (a : JacPt) : EcPt :=
  if a.z = 0 then none
  else
    let w := invMod a.z c.p
    let ww := w * w % c.p
    some (a.x * ww % c.p, a.y * (ww * w % c.p) % c.p)

/-- Scalar multiple of a point. -/
def ecMul (c : Curve) (k : Nat) (pt : EcPt) : EcPt :=
  match pt with
  | none => none
  | some (x, y) =>
    ((bitsDown (Nat.log2 k + 1) k).foldl (fun (acc : JacPt) (bit : Bool) =>
      let d := acc.double c
      if bit then d.add c x y else d) ⟨1, 1, 0⟩).affine c

/-- A point lies on the curve. -/
def onCurve (c : Curve) (x y : Nat) : Bool :=
  decide (x < c.p) && decide (y < c.p) && decide (y * y % c.p = (x * x % c.p * x + (c.p - 3) * x + c.b) % c.p)

/-- ECDSA verification of the integer e of a digest (R319). -/
def ecdsaHolds (c : Curve) (qx qy e r s : Nat) : Bool :=
  let w := invMod s c.n
  match ecAdd c (ecMul c (e * w % c.n) (some (c.gx, c.gy))) (ecMul c (r * w % c.n) (some (qx, qy))) with
  | some (x, _) => decide (x % c.n = r)
  | none => false

/-- ECDSA signature of e under d with the nonce k. -/
def ecdsaSign (c : Curve) (d e k : Nat) : Nat × Nat :=
  match ecMul c k (some (c.gx, c.gy)) with
  | some (x, _) => (x % c.n, invMod k c.n * (e + x % c.n * d) % c.n)
  | none => (0, 0)

/-- Verification of a P-384 signature r, s (96 bytes) by an uncompressed public key (97 bytes, 0x04 first) over a
message digested with SHA-384; an r or s of zero or at least the order fails (R409). -/
def ecdsa384Verify (pub msg sig : List Byte) : Bool :=
  let qx := beNat ((pub.drop 1).take 48)
  let qy := beNat ((pub.drop 49).take 48)
  let r := beNat (sig.take 48)
  let s := beNat ((sig.drop 48).take 48)
  decide (pub.length = 97) && decide (pub.head? = some 4) && onCurve p384 qx qy && decide (0 < r) && decide (r < p384.n)
    && decide (0 < s) && decide (s < p384.n) && ecdsaHolds p384 qx qy (beNat (sha384 msg)) r s

/-- The uncompressed public key of a P-384 private key. -/
def pub384 (d : Nat) : List Byte :=
  match ecMul p384 d (some (p384.gx, p384.gy)) with
  | some (x, y) => [4] ++ beBytes 48 x ++ beBytes 48 y
  | none => []

/-- The x-coordinate of d · Q for an uncompressed public key, or none where the key fails validation. -/
def ecdh384 (d : Nat) (pub : List Byte) : Option (List Byte) :=
  let qx := beNat ((pub.drop 1).take 48)
  let qy := beNat ((pub.drop 49).take 48)
  if decide (pub.length = 97) && decide (pub.head? = some 4) && onCurve p384 qx qy then
    match ecMul p384 d (some (qx, qy)) with
    | some (x, _) => some (beBytes 48 x)
    | none => none
  else none

/-- A scalar in [1, n − 1] from 64(w + 1) random bits (R319). -/
def scalarOf (c : Curve) (rnd : List Byte) : Nat := beNat rnd % (c.n - 1) + 1

end Sys2Proof.Machine
end

