-- ==== Sys2Proof/Machine/EmberList.lean ====
section
/-! DEFINITION. Ember's command lists (R305–R311): the fields of a command word, the check of a raw list with its count
of beats, and what a list computes. -/

namespace Sys2Proof.Machine

/-- A command word taken apart (R306). -/
structure ECmd where
  op : Nat
  len : Nat
  aa : Nat
  ab : Nat
  ofs : Nat
  ix : Nat
  dn : Bool
  clr : Bool
  imm : Nat
  deriving DecidableEq, Repr

def ECmd.ofWord (w : Nat) : ECmd :=
  { op := w / 2 ^ 58 % 64, len := w / 2 ^ 51 % 128 + 1, aa := w / 2 ^ 40 % 2048, ab := w / 2 ^ 29 % 2048,
    ofs := w / 2 ^ 22 % 128, ix := w / 2 ^ 20 % 4, dn := w.testBit 17, clr := w.testBit 16, imm := w % 2 ^ 16 }

/-- The beats of an operand pass (R297). -/
def ECmd.u (i : ECmd) : Nat := (i.len + 15) / 16

/-- The beats of one execution of a command (R307). -/
def ECmd.beats (i : ECmd) : Nat :=
  match i.op with
  | 0x00 | 0x12 => 0
  | 0x01 | 0x06 | 0x0B | 0x11 | 0x13 => 1
  | 0x02 | 0x03 | 0x04 | 0x0D | 0x0E | 0x0F | 0x10 => i.u
  | 0x05 => i.u + 1
  | 0x0A => (i.ofs + 1) * i.u
  | _ => 2 * i.u

/-! ## The check of a raw list (R309) -/

/-- A stretch of beats as rule 7 sees it: total, beats before its first yield point, beats after its last, and the command of
its first yield point. -/
structure ESeg where
  total : Nat
  pre : Nat
  post : Nat
  first : Option Nat

def ESeg.nil : ESeg := ⟨0, 0, 0, none⟩

/-- Beats that follow a stretch. -/
def ESeg.add (s : ESeg) (b : Nat) : ESeg :=
  { s with total := s.total + b, pre := if s.first.isSome then s.pre else s.pre + b, post := s.post + b }

/-- A yield point, command `k`, that follows a stretch. -/
def ESeg.yield (s : ESeg) (k : Nat) : ESeg := { s with first := s.first.orElse (fun _ => some k), post := 0 }

/-- A loop body run `n` times after a stretch. -/
def ESeg.loop (s : ESeg) (body : ESeg) (n : Nat) : ESeg :=
  if body.first.isNone then s.add (n * body.total)
  else
    { total := s.total + n * body.total,
      pre := if s.first.isSome then s.pre else s.pre + body.pre,
      post := body.post,
      first := s.first.orElse (fun _ => body.first) }

/-- The beats between two yield points, or between one of them and the start or END, that rule 7 allows. -/
def yieldSpan : Nat := 65536

/-- The first yield point of a loop body that a turn of the loop reaches too late after the last one of the turn before. -/
def ESeg.wraps (body : ESeg) (n : Nat) : Option Nat :=
  if 1 < n ∧ yieldSpan < body.post + body.pre then body.first else none

/-- An open loop during the check: its count, the stretch before it, ACC touched in its body, and the first yield in its
body that came before ACC was touched (its ACC is the one the body ends with). -/
structure EFrame where
  count : Nat
  before : ESeg
  touched : Bool
  early : Option Nat

/-- The walk of the check: open loops, stretch, ACC in use. -/
structure EWalk where
  frames : List EFrame
  seg : ESeg
  dirty : Bool

/-- The beats since the last yield point, or since the start, where a walk stands in the first turn of its open loops. -/
def sinceYield : ESeg → List EFrame → Nat
  | s, [] => s.post
  | s, f :: rest => if s.first.isSome then s.post else s.post + sinceYield f.before rest

/-- The word offsets a command reads: first offset and number of words of each region, with the index range of IX. `reach` is
the largest loop counter that IX adds. -/
def ECmd.reads (i : ECmd) (reach : Nat) : List (Nat × Nat) :=
  match i.op with
  | 0x02 | 0x06 | 0x0C | 0x0D | 0x0E => [(i.aa, i.len)]
  | 0x04 => [(i.aa, i.len), (i.ab, reach + 1)]
  | 0x05 => [(i.ab, reach + 1)]
  | 0x07 | 0x08 => [(i.aa, i.len), (i.ab, i.len + reach)]
  | 0x0A => [(i.aa, (i.ofs + 1) * i.len)]
  | 0x0B => [(i.ab, (i.imm + reach * i.ofs + i.ofs + 63) / 64)]
  | _ => []

/-- The words that a command writes with counter 0: first offset and number. -/
def ECmd.writes (i : ECmd) : List (Nat × Nat) :=
  match i.op with
  | 0x03 | 0x07 | 0x08 | 0x0A | 0x0D | 0x0E | 0x0F | 0x10 => [(i.ab, i.len)]
  | _ => []

/-- A job's regions: words of its space, destination and scratch. -/
structure ERegions where
  space : Nat
  dst : Nat
  dlen : Nat
  scr : Nat
  slen : Nat
  deriving DecidableEq, Repr

def inRange (a n b m : Nat) : Bool := decide (b ≤ a) && decide (a + n ≤ b + m)

/-- Every write of a sweep lies in the destination or in the scratch region (rule 3): `r` is its first word and the words of
one write, and it begins at `reach` words further on each turn of a loop. A sweep of single words may pass from the one region
into the other where they touch. -/
def ERegions.writable (g : ERegions) (r : Nat × Nat) (reach : Nat) : Bool :=
  let inDst := fun a => inRange a r.2 g.dst g.dlen
  let inScr := fun a => inRange a r.2 g.scr g.slen
  let last := r.1 + reach
  (inDst r.1 && inDst last) || (inScr r.1 && inScr last)
    || (decide (r.2 = 1) && ((inDst r.1 && inScr last && decide (g.dst + g.dlen = g.scr))
      || (inScr r.1 && inDst last && decide (g.scr + g.slen = g.dst))))

/-- Rule 3 on the regions themselves. -/
def ERegions.sound (g : ERegions) : Bool :=
  inRange g.dst g.dlen 0 g.space && inRange g.scr g.slen 0 g.space && decide (g.dlen ≤ 255)
    && (decide (g.dst + g.dlen ≤ g.scr) || decide (g.scr + g.slen ≤ g.dst) || decide (g.dlen = 0) || decide (g.slen = 0))

/-- Commands that leave something in ACC, and those that clear it (rule 5). -/
def ECmd.usesAcc (i : ECmd) : Bool := decide (i.op = 2 ∨ i.op = 4 ∨ i.op = 5 ∨ i.op = 9)
def ECmd.clearsAcc (i : ECmd) : Bool := decide (i.op = 1) || (decide (i.op = 3) && i.clr)

/-- The first rule a command breaks where it stands, 0 for none. -/
def ECmd.broken (i : ECmd) (g : ERegions) (w : EWalk) : Nat :=
  let reach := if i.ix = 0 then 0 else (w.frames[i.ix - 1]?.map (·.count - 1)).getD 0
  if 0x14 ≤ i.op then 1
  else if !(i.reads reach).all (fun r => inRange r.1 r.2 0 g.space) then 2
  else if !i.writes.all (fun r => g.writable r reach) then 3
  else if (decide (i.op = 0x11) && (decide (3 ≤ w.frames.length) || decide (i.imm = 0)))
      || (decide (i.op = 0x12) && w.frames.isEmpty)
      || (decide (i.ix ≠ 0) && decide (w.frames.length < i.ix))
      || (decide (i.op = 0) && !w.frames.isEmpty) then 4
  else if (decide (i.op = 0x13) || decide (i.op = 0)) && w.dirty then 5
  else if (decide (i.op = 2) || decide (i.op = 3) || decide (i.op = 4)) && decide (258 < i.ofs + i.len) then 6
  else 0

/-- The walk of one command that breaks none of rules 1 to 6 where it stands. -/
def EWalk.go (w : EWalk) (k : Nat) (i : ECmd) : Sum (Nat × Nat) EWalk :=
  if i.op = 0x11 then
    .inr { w with frames := ⟨i.imm, w.seg.add 1, false, none⟩ :: w.frames, seg := ESeg.nil }
  else if i.op = 0x12 then
    match w.frames with
    | [] => .inl (4, k)
    | f :: rest =>
      match (if w.dirty && decide (1 < f.count) then f.early else none), w.seg.wraps f.count with
      | some y, _ => .inl (5, y)
      | none, some y => .inl (7, y)
      | none, none => .inr { w with frames := rest, seg := f.before.loop w.seg f.count }
  else if i.op = 0x13 then
    if yieldSpan < sinceYield (w.seg.add 1) w.frames then .inl (7, k)
    else
      .inr { w with seg := (w.seg.add 1).yield k,
                    frames := w.frames.map (fun f => if f.touched then f else { f with early := f.early.orElse (fun _ => some k) }) }
  else
    let touch := i.usesAcc || i.clearsAcc
    .inr { w with seg := w.seg.add i.beats, dirty := if i.clearsAcc then false else w.dirty || i.usesAcc,
                  frames := if touch then w.frames.map (fun f => { f with touched := true }) else w.frames }

/-- B of R310. -/
def beatsOf (blist d s : Nat) : Nat := 40 + blist + 24 + (d + 7) / 8 + (s + 7) / 8

/-- The first word that defines no command, in the words after END (rule 1). END ends the list, so the other rules have nothing to
say of them (log entry 138). -/
def tailBroken (words : List Nat) : Option Nat := words.findIdx? (fun x => decide (0x14 ≤ (ECmd.ofWord x).op))

/-- Walk a list: the rule broken and its command, or B. -/
def checkWalk (g : ERegions) (k : Nat) (w : EWalk) : List Nat → Sum (Nat × Nat) Nat
  | [] => .inl (1, k - 1)
  | x :: rest =>
    let i := ECmd.ofWord x
    let r := i.broken g w
    if r ≠ 0 then .inl (r, k)
    else if i.op = 0 then
      let b := beatsOf w.seg.total g.dlen g.slen
      if yieldSpan < w.seg.post then .inl (7, k)
      else if 2 ^ 32 ≤ b then .inl (8, k)
      else match tailBroken rest with
        | some j => .inl (1, k + 1 + j)
        | none => .inr b
    else
      match w.go k i with
      | .inl e => .inl e
      | .inr w => checkWalk g (k + 1) w rest

/-- The check of a raw list: the rule broken and its command, or B. -/
def checkList (words : List Nat) (g : ERegions) (most : Nat) : Sum (Nat × Nat) Nat :=
  if words.length = 0 ∨ most < words.length then .inl (1, 0)
  else if !g.sound then .inl (3, 0)
  else checkWalk g 0 ⟨[], ESeg.nil, false⟩ words

/-! ## What a list computes -/

/-- A job as it runs: command index, open loops (first command, count, turns made), ACC, D, M with its length, flags,
the context space, and how many free values it took. -/
structure EVm where
  pc : Nat
  loops : List (Nat × Nat × Nat)
  acc : Nat
  d : Nat
  m : Nat
  flags : Nat
  mem : List Host.Cell
  draws : Nat
  beats : Nat
  yields : List Nat
  done : Bool

def EVm.start (mem : List Host.Cell) (draws : Nat) : EVm := ⟨0, [], 0, 0, 0, 0, mem, draws, 0, [], false⟩

/-- An operand of `n` limbs at a word offset of the space that begins at byte `base` (R304). -/
def limbs (mem : List Host.Cell) (base a n : Nat) : Nat := leNat (memReadBytes mem (base + 8 * a) (8 * n))

/-- Store an operand of `n` limbs. -/
def putLimbs (mem : List Host.Cell) (base a n v : Nat) : List Host.Cell :=
  memWriteBytes mem (base + 8 * a) (leBytes (8 * n) v)

def EVm.store (s : EVm) (base a n v : Nat) : EVm := { s with mem := putLimbs s.mem base a n v }

/-- The counter of an open loop, counted up or down. -/
def EVm.counter (s : EVm) (i : ECmd) : Nat :=
  if i.ix = 0 then 0
  else match s.loops[i.ix - 1]? with
    | some (_, n, t) => if i.dn then n - 1 - t else t
    | none => 0

/-- The ROM constants of SUBST (R307), as limb strings. -/
def substRom (k : Nat) : Nat :=
  match k with
  | 0 => 2
  | 1 => p256.gx + p256.gy * 2 ^ 256
  | 2 => p384.gx + p384.gy * 2 ^ 384
  | _ => 1

/-- One command. An input of MADD or MSUB that is not below M, and a DIG field of a width other than 1 to 64, have no
stated result: a free value (log entry 19). -/
def EVm.exec (s : EVm) (base : Nat) (i : ECmd) : EVm :=
  let k := s.counter i
  let ab := i.ab + (if i.op = 0x0B then 0 else k)
  let a := limbs s.mem base i.aa i.len
  let b := limbs s.mem base ab i.len
  let lim := 2 ^ (64 * i.len)
  let accW := 2 ^ (64 * 258)
  let next := { s with pc := s.pc + 1, beats := s.beats + i.beats }
  match i.op with
  | 0x00 => { s with done := true }
  | 0x01 => { next with acc := 0 }
  | 0x02 => { next with acc := s.acc - s.acc / 2 ^ (64 * i.ofs) % lim * 2 ^ (64 * i.ofs) + a * 2 ^ (64 * i.ofs) }
  | 0x03 => { next.store base ab i.len (s.acc / 2 ^ (64 * i.ofs) % lim) with acc := if i.clr then 0 else s.acc }
  | 0x04 => { next with acc := (s.acc + a * limbs s.mem base ab 1 * 2 ^ (64 * i.ofs)) % accW }
  | 0x05 =>
    let q := s.acc % 2 ^ 64 * limbs s.mem base ab 1 % 2 ^ 64
    { next with acc := (s.acc + s.m * q) / 2 ^ 64 }
  | 0x06 => { next with m := a }
  | 0x07 =>
    if a < s.m ∧ b < s.m then next.store base ab i.len ((a + b) % s.m)
    else { next.store base ab i.len (Config.freeNat s.draws) with draws := s.draws + 1 }
  | 0x08 =>
    if a < s.m ∧ b < s.m then next.store base ab i.len ((b + s.m - a) % s.m)
    else { next.store base ab i.len (Config.freeNat s.draws) with draws := s.draws + 1 }
  | 0x09 => { next with acc := if s.m ≤ s.acc then s.acc - s.m else s.acc }
  | 0x0A => next.store base ab i.len (limbs s.mem base (i.aa + s.d % (i.ofs + 1) * i.len) i.len)
  | 0x0B =>
    let pos := i.imm + k * i.ofs
    if 1 ≤ i.ofs ∧ i.ofs ≤ 64 then
      { next with d := limbs s.mem base (i.ab + pos / 64) 2 / 2 ^ (pos % 64) % 2 ^ i.ofs }
    else { next with d := Config.freeNat s.draws % 2 ^ 64, draws := s.draws + 1 }
  | 0x0C =>
    let v := s.acc % lim
    let undefinedTest := decide (3 < i.imm % 16)
    let hit := match i.imm % 16 with
      | 0 => decide (v = 0)
      | 1 => decide (a ≤ v)
      | 2 => decide (v ≠ a)
      | 3 => decide (v = a)
      | _ => decide (Config.freeNat s.draws % 2 = 1)
    { next with flags := if hit then s.flags ||| 2 ^ (i.imm / 256 % 4) else s.flags,
                draws := if undefinedTest then s.draws + 1 else s.draws }
  | 0x0D => next.store base ab i.len (if s.flags = 0 then a else substRom (i.imm % 4))
  | 0x0E => next.store base ab i.len a
  | 0x0F => next.store base ab i.len 0
  | 0x10 => { next.store base ab i.len (leNat (Config.freeBytes s.draws (8 * i.len))) with draws := s.draws + 1 }
  | 0x11 => { next with loops := (s.pc + 1, i.imm, 0) :: s.loops }
  | 0x12 =>
    match s.loops with
    | (p, n, t) :: rest =>
      if t + 1 < n then { s with pc := p, loops := (p, n, t + 1) :: rest } else { s with pc := s.pc + 1, loops := rest }
    | [] => { s with done := true }
  | 0x13 => { next with yields := s.yields ++ [s.beats + 1] }
  | _ => { s with done := true }

/-- Run a list to its END. `fuel` bounds the commands executed. -/
def runList (words : List Nat) (base : Nat) : Nat → EVm → EVm
  | 0, s => s
  | fuel + 1, s =>
    if s.done then s
    else runList words base fuel (s.exec base (ECmd.ofWord (words.getD s.pc 0)))

/-- Fuel enough for any list that the check lets pass: each word is executed at most once for each turn of three nested loops. -/
def listFuel (words : List Nat) : Nat := (words.length + 1) * 2 ^ 48

/-! ## Library operations (R317–R320) -/

/-- An entry of R317: destination and scratch in words, B, pair, and the places of R318 and R319 (a curve's scratch
follows its destination, log entry 20). -/
structure LibOp where
  d : Nat
  s : Nat
  b : Nat
  pair : Bool
  dst : Nat
  scr : Nat
  deriving DecidableEq, Repr

def libOp (op : Nat) : Option LibOp :=
  let rsa := fun (h s b : Nat) (pair : Bool) => some ⟨2 * h, s, b, pair, 13 * h + 3, 15 * h + 3⟩
  let pub := fun (h s b : Nat) => some ⟨2 * h, s, b, false, 6 * h + 1, 8 * h + 1⟩
  let crv := fun (d s b dst : Nat) => some ⟨d, s, b, false, dst, dst + d⟩
  match op with
  | 0x01 => rsa 16 384 147469 false
  | 0x02 => rsa 24 576 524967 false
  | 0x03 => rsa 32 768 907070 true
  | 0x04 => pub 16 64 3263
  | 0x05 => pub 24 96 6676
  | 0x06 => pub 32 128 11305
  | 0x11 => crv 12 320 48000 0
  | 0x12 => crv 4 320 86400 12
  | 0x13 => crv 8 384 96000 8
  | 0x14 => crv 1 448 163200 20
  | 0x21 => crv 18 448 100000 0
  | 0x22 => crv 6 448 180000 18
  | 0x23 => crv 12 512 200000 12
  | 0x24 => crv 1 640 340000 30
  | _ => none

/-- The beats executed at the yield points of an RSA private operation, h limbs to a prime, where u and v are the beats of an
operand pass of h and 2h limbs (R297, R307, R315, and the phases of the chapter's example, whose sum is the B of R317 for each
h): the end of each exponent window, half by half. -/
def rsaYields (h : Nat) : List Nat :=
  let u := (h + 15) / 16
  let v := (2 * h + 15) / 16
  let mont := 1 + h * (u + (u + 1)) + 2 * u + u
  let check := v + 2 * v + 2 * v + 1 + v
  let reduce := v + 1 + h * (u + 1) + 2 * u + u
  let table := u + 15 * mont
  let window := 1 + 4 * mont + 16 * u + mont + 1
  let start := reduce + table + 1
  let half := start + 16 * h * window + mont
  [0, 1].flatMap (fun p => (List.range (16 * h)).map (fun j => 40 + check + p * half + start + (j + 1) * window))

/-- The beats executed at the `k`-th yield point of a curve operation: the places of its point operations are free values, no
more than 12,000 beats apart (R315, log entry 10). -/
def curveYield (op : Nat) : Nat → Nat
  | 0 => 1 + Config.romYieldBeats op 0 % 12000
  | k + 1 => curveYield op k + 1 + Config.romYieldBeats op (k + 1) % 12000

/-- The beats executed at the `k`-th yield point of a library operation of `b` beats, where it has one. The public operations
have no exponent windows. -/
def libYield (op b k : Nat) : Option Nat :=
  match op with
  | 0x01 => (rsaYields 16)[k]?
  | 0x02 => (rsaYields 24)[k]?
  | 0x03 => (rsaYields 32)[k]?
  | 0x04 | 0x05 | 0x06 => none
  | _ => if curveYield op k < b then some (curveYield op k) else none

/-- Operations that draw random words (R319). -/
def libRand (op : Nat) : Bool := decide (op = 0x11 ∨ op = 0x13 ∨ op = 0x21 ∨ op = 0x23)
/-- Operations whose result is always one-shot (R321). -/
def libOneShot (op : Nat) : Bool := decide (op = 0x11 ∨ op = 0x12 ∨ op = 0x21 ∨ op = 0x22)

/-- The flags F0 (range), F1 (curve), F2 (result check) and the destination of a library operation. -/
structure LibRes where
  f0 : Bool
  f1 : Bool
  f2 : Bool
  value : Nat
  deriving DecidableEq, Repr

/-- The CRT private operation (R318, R320). Where the derived constants are not those R318 states, the value that the
list computes is free and the result check judges it. -/
def rsaPrivate (x : Nat → Nat → Nat) (h draws : Nat) : LibRes :=
  let c0 := x 0 (2 * h)
  let n := x (2 * h) (2 * h)
  let p := x (4 * h) h
  let q := x (5 * h) h
  let dp := x (6 * h) h
  let dq := x (7 * h) h
  let rp := 2 ^ (64 * h)
  let f0 := decide (c0 = 0) || decide (n ≤ c0)
  let c := if f0 then 2 else c0
  let qinv := powMod (q % p) (p - 2) p
  let ninvOk := fun (m v : Nat) => decide (m * v % 2 ^ 64 = 2 ^ 64 - 1)
  let good := decide (0 < p) && decide (0 < q) && decide (0 < n)
    && decide (q * qinv % p = 1 % p) && decide (x (8 * h) h = qinv * rp % p)
    && decide (x (9 * h) h = rp * rp * rp % p) && decide (x (10 * h) h = rp * rp * rp % q)
    && decide (x (11 * h) (2 * h) = rp * rp * (rp * rp) % n)
    && ninvOk p (x (13 * h) 1) && ninvOk q (x (13 * h + 1) 1) && ninvOk n (x (13 * h + 2) 1)
  let m1 := powMod (c % p) dp p
  let m2 := powMod (c % q) dq q
  let m := if good then m2 + (m1 + p * (m2 / p + 1) - m2) % p * qinv % p * q
    else Config.freeNat draws % 2 ^ (128 * h)
  let f2 := if decide (0 < n) then decide (powMod (m % n) 65537 n ≠ c) else true
  ⟨f0, false, f2, m⟩

/-- The public operation (R318, R320); its value is free where the derived constants are not those R318 states. -/
def rsaPublic (x : Nat → Nat → Nat) (h draws : Nat) : LibRes :=
  let v := x 0 (2 * h)
  let n := x (2 * h) (2 * h)
  let rn := 2 ^ (128 * h)
  let f0 := decide (v = 0) || decide (n ≤ v)
  let good := decide (0 < n) && decide (x (4 * h) (2 * h) = rn * rn % n)
    && decide (n * x (6 * h) 1 % 2 ^ 64 = 2 ^ 64 - 1)
  ⟨f0, false, false, if good then powMod ((if f0 then 2 else v) % n) 65537 n else Config.freeNat draws % rn⟩

/-- A curve operation (R319, R320): `kind` 1 key pair, 2 ECDH, 3 sign, 4 verify. -/
def curveOp (cv : Curve) (kind : Nat) (x : Nat → Nat → Nat) (draws : Nat) : LibRes :=
  let w := cv.limbs
  let r64 := 2 ^ (64 * w)
  let rnd := scalarOf cv (Config.freeBytes draws (8 * (w + 1)))
  let dBad := decide (x 0 w = 0) || decide (cv.n ≤ x 0 w)
  match kind with
  | 1 =>
    match ecMul cv rnd (some (cv.gx, cv.gy)) with
    | some (qx, qy) => ⟨false, false, false, rnd + qx * r64 + qy * r64 * r64⟩
    | none => ⟨false, false, false, rnd⟩
  | 2 =>
    let d := if dBad then 1 else x 0 w
    let qx := x w w
    let qy := x (2 * w) w
    let rangeBad := decide (cv.p ≤ qx) || decide (cv.p ≤ qy)
    let off := !onCurve cv qx qy
    let q := if rangeBad || off then (cv.gx, cv.gy) else (qx, qy)
    ⟨dBad || rangeBad, off, false, ((ecMul cv d (some q)).map (·.1)).getD 0⟩
  | 3 =>
    let d := if dBad then 1 else x 0 w
    let rs := ecdsaSign cv d (x w w) rnd
    ⟨dBad || decide (rs.1 = 0) || decide (rs.2 = 0), false, false, rs.1 + rs.2 * r64⟩
  | _ =>
    let qx := x 0 w
    let qy := x w w
    let r := x (3 * w) w
    let s := x (4 * w) w
    let bad := decide (r = 0) || decide (cv.n ≤ r) || decide (s = 0) || decide (cv.n ≤ s)
    let off := !onCurve cv qx qy
    let q := if off then (cv.gx, cv.gy) else (qx, qy)
    ⟨bad, off, false, (ecdsaHolds cv q.1 q.2 (x (2 * w) w) (if bad then 1 else r) (if bad then 1 else s)).toNat⟩

/-- A library operation on operands read by `x` (word offset, limbs). -/
def libRun (op : Nat) (x : Nat → Nat → Nat) (draws : Nat) : LibRes :=
  match op with
  | 0x01 => rsaPrivate x 16 draws
  | 0x02 => rsaPrivate x 24 draws
  | 0x03 => rsaPrivate x 32 draws
  | 0x04 => rsaPublic x 16 draws
  | 0x05 => rsaPublic x 24 draws
  | 0x06 => rsaPublic x 32 draws
  | 0x11 => curveOp p256 1 x draws
  | 0x12 => curveOp p256 2 x draws
  | 0x13 => curveOp p256 3 x draws
  | 0x14 => curveOp p256 4 x draws
  | 0x21 => curveOp p384 1 x draws
  | 0x22 => curveOp p384 2 x draws
  | 0x23 => curveOp p384 3 x draws
  | _ => curveOp p384 4 x draws

end Sys2Proof.Machine
end

