-- ==== Sys2Proof/Machine/Flags.lean ====
section
/-! DEFINITION. Event bits: each sets its bit in the block's event register and sends the event to Ash under the
source that R379 gives it. -/

namespace Sys2Proof.Machine

/-- The word of HTH_SLOT_CAUSE, the DETAIL of source 0x14 (R396). -/
def Chip.causeWord (c : Chip) (n : Nat) : Nat := c.word .HTH_SLOT_CAUSE n

/-- Set an event of HTH_SLOT_EVT and send it to Ash: insertions and removals are source 0x13, the end of a deactivation
0x14 (with EMERG in the same event), escalation 0x17, clinker 0x18, refusal 0x1C. INSERTED, REMOVED and EMERG
go with those, and ATR_DONE and READY_IN have no source in R379 and only set their bit
(log entry 6). -/
def Chip.slotEvt (c : Chip) (f : Fld) (n : Nat) (forced : Bool := false) : Chip :=
  let c := c.flag f n true
  if f = HTH_SLOT_EVT.DEACT_DONE then c.raise 0x14 n (c.causeWord n) forced
  else if f = HTH_SLOT_EVT.ESCALATED then c.raise 0x17 n (c.word .HTH_SLOT_EVT n) forced
  else if f = HTH_SLOT_EVT.CLINKER_IN then c.raise 0x18 n (c.word .HTH_SLOT_EVT n) forced
  else if f = HTH_SLOT_EVT.CMD_REFUSED then c.refuse blkHTH
  else c

/-- Set an event of HTH_PROT_EVT; source 0x19 carries the register word (R152, R396). -/
def Chip.protEvt (c : Chip) (f : Fld) (n : Nat) : Chip :=
  let c := c.flag f n true
  c.raise 0x19 n (c.word .HTH_PROT_EVT n)

/-- Set an event of HTH_TURF_EVT; source 0x1A carries the register word (R185, R396). -/
def Chip.turfEvt (c : Chip) (f : Fld) (n : Nat) : Chip :=
  let c := c.flag f n true
  c.raise 0x1A n (c.word .HTH_TURF_EVT n)

/-- Record a protocol error in HTH_PROT_LAST (R154). -/
def Chip.protLast (c : Chip) (n phase kind : Nat) : Chip :=
  (c.put HTH_PROT_LAST.PHASE n phase).put HTH_PROT_LAST.KIND n kind

/-- Set an event of CRD_EVT that belongs to a slot: source 0x1B with CINDER_ERR and the event bits (R396). -/
def Chip.crdSlotEvt (c : Chip) (f : Fld) (n : Nat) : Chip :=
  let c := c.flag f 0 true
  c.raise 0x1B n (c.get CRD_SESS_STAT.CINDER_ERR n * 2 ^ 24 + c.word .CRD_EVT 0)

/-- Set an event of CRD_EVT that is device-wide: source 0x58 for a failed health test, 0x59 for recovery and
zeroisation (R379). -/
def Chip.crdEvt (c : Chip) (f : Fld) : Chip :=
  let c := c.flag f 0 true
  c.raise (if f = CRD_EVT.ES_FAIL then 0x58 else 0x59) 0 (c.word .CRD_EVT 0)

/-- The port that owns a ring now (R207). -/
def Chip.owner (c : Chip) (r : Nat) : Nat := c.get FLU_RING_STAT.OWNER_NOW r

/-- Set an event of FLU_RING_EVT: source 0x35 of the owning port (R379, R396). -/
def Chip.ringEvt (c : Chip) (f : Fld) (r : Nat) : Chip :=
  let c := c.flag f r true
  c.raise 0x35 (c.owner r) (c.word .FLU_RING_EVT r * 2 ^ 16 + r)

/-- Set an event of FLU_STACK_EVT: source 0x36 (R379). -/
def Chip.stackEvt (c : Chip) (f : Fld) : Chip :=
  let c := c.flag f 0 true
  c.raise 0x36 0 (c.word .FLU_STACK_EVT 0)

/-- Set an event of EMB_EVT and send it under the source that R379 gives: column retired 0x50, memory errors
0x52 and 0x53, watchdog 0x54, result check, list error and late abort 0x55. WIPE_ALL is a
zeroisation that completed, 0x59; RERUN travels in the DETAIL of its COL_RETIRED, 0x50 (log entry 6). -/
def Chip.embEvt (c : Chip) (f : Fld) (unit : Nat) (forced : Bool := false) : Chip :=
  let c := c.flag f 0 true
  let w := c.word .EMB_EVT 0
  if f = EMB_EVT.COL_RETIRED then c.raise 0x50 unit w forced
  else if f = EMB_EVT.WIPE_ALL then c.raise 0x59 0 w forced
  else if f = EMB_EVT.ECC_CE then c.raise 0x52 unit w forced
  else if f = EMB_EVT.ECC_UE then c.raise 0x53 unit w forced
  else if f = EMB_EVT.WDOG then c.raise 0x54 unit w forced
  else if f = EMB_EVT.CHECK_FAIL ∨ f = EMB_EVT.LIST_ERR ∨ f = EMB_EVT.ABORT_LATE then c.raise 0x55 unit w forced
  else c

/-- Set an event of DRG_SEQ_EVT; notices go to Ash under source 0x2D, a refusal under 0x1C, REDUCED under 0x2E. -/
def Chip.seqEvt (c : Chip) (f : Fld) : Chip :=
  let c := c.flag f 0 true
  if f = DRG_SEQ_EVT.PG_UNEXP ∨ f = DRG_SEQ_EVT.STUCK_ON ∨ f = DRG_SEQ_EVT.FAIL_IN_DOWN ∨ f = DRG_SEQ_EVT.MAIN_RETURN
      ∨ f = DRG_SEQ_EVT.RESTART then c.raise 0x2D 0 (c.word .DRG_SEQ_EVT 0)
  else if f = DRG_SEQ_EVT.REDUCED_IN then c.raise 0x2E 0 (c.word .DRG_SEQ_EVT 0)
  else if f = DRG_SEQ_EVT.CMD_REFUSED then c.refuse blkDRG
  else c

/-- Set an event of DRG_DMP_EVT: source 0x0D (R379). -/
def Chip.dmpEvt (c : Chip) (f : Fld) : Chip :=
  let c := c.flag f 0 true
  c.raise 0x0D 0 (c.word .DRG_DMP_EVT 0)

end Sys2Proof.Machine
end

