-- ==== Sys2Proof/Machine/Damper.lean ====
section
/-! DEFINITION. The damper (R359–R367): buckets, requests, tiers, grants and their return. -/

namespace Sys2Proof.Machine

/-- Units of 0.1 nJ in a token of 1 µJ. -/
def tok : Nat := 10000

/-- The depth of the main bucket (DEPTH mJ) and of the floor bucket (R359). -/
def Chip.mainDepth (c : Chip) : Nat := c.get DRG_DMP_CFG.DEPTH 0 * 1000 * tok
def Chip.floorDepth (c : Chip) : Nat := c.mainDepth * c.get FLU_SCHED_CFG.CL0_FLOOR 0 / 100

/-- Put energy into a bucket: beyond the floor's depth it passes to the main bucket, beyond that it is discarded
(R360, R363). -/
def Chip.fill (c : Chip) (toFloor : Bool) (units : Nat) : Chip :=
  let d := c.dmp
  let f := if toFloor then d.floor + units else d.floor
  let spill := f - c.floorDepth
  let m := d.main + (if toFloor then spill else units)
  { c with dmp := { d with floor := if toFloor then f - spill else d.floor, main := min m c.mainDepth } }

/-- Cost k of R362 in µJ. -/
def Chip.cost (c : Chip) (k : Nat) : Nat := c.get DRG_DMP_COST.COST k

/-- Make a request (R364); a cost beyond the main bucket's depth is charged that depth (R362). -/
def Chip.request (c : Chip) (a : Asker) (tier cost : Nat) (class0 : Bool) : Chip :=
  let cost := min cost (c.get DRG_DMP_CFG.DEPTH 0 * 1000)
  { c with dmp := { c.dmp with reqs := c.dmp.reqs ++ [⟨a, tier, cost, class0⟩] } }

/-- Withdraw what an asker has waiting, and return a grant it has not used to the bucket it came from (R91, R363). -/
def Chip.withdraw (c : Chip) (a : Asker) : Chip :=
  let back := c.dmp.grants.filter (fun g => decide (g.asker = a))
  let c := { c with dmp := { c.dmp with reqs := c.dmp.reqs.filter (fun r => decide (r.asker ≠ a)),
                                        grants := c.dmp.grants.filter (fun g => decide (g.asker ≠ a)) } }
  back.foldl (fun c g => c.fill g.floor (g.cost * tok)) c

/-- The work a grant was for has started: its tokens are spent (R363). -/
def Chip.spend (c : Chip) (a : Asker) : Chip :=
  { c with dmp := { c.dmp with grants := c.dmp.grants.filter (fun g => decide (g.asker ≠ a)) } }

/-- THR of a tier in percent of DEPTH (R364). -/
def thrPct (t : Nat) : Nat := 10 * t

/-- Whether the damper can grant a request now, and from which bucket (true: floor) (R364, R365, R367). -/
def Chip.grantable (c : Chip) (r : Req) : Option Bool :=
  let d := c.dmp
  if r.class0 && decide (d.reqs.find? (·.class0) = some r) && decide (r.cost * tok ≤ d.floor) then some true
  else if decide (d.reqs.find? (fun q => decide (q.tier = r.tier)) = some r)
      && !d.reqs.any (fun q => decide (q.tier < r.tier))
      && (!d.hot || decide (r.tier = 0))
      && decide (r.cost * tok + c.mainDepth * thrPct r.tier / 100 ≤ d.main) then some false
  else none

/-- Grant a request: its cost leaves the bucket at once (R363). -/
def Chip.grantReq (c : Chip) (r : Req) (fromFloor : Bool) : Chip :=
  let d := c.dmp
  let d := if fromFloor then { d with floor := d.floor - r.cost * tok } else { d with main := d.main - r.cost * tok }
  { c with dmp := { d with reqs := d.reqs.filter (fun q => decide (q.asker ≠ r.asker)),
                           grants := d.grants ++ [⟨r.asker, r.cost, fromFloor⟩],
                           lastC0Us := if r.class0 then some c.us else d.lastC0Us } }

/-- The request of an asker, if the damper can grant it now. -/
def Chip.canGrant (c : Chip) (a : Asker) : Option (Req × Bool) :=
  match c.dmp.reqs.find? (fun r => decide (r.asker = a)) with
  | some r => (c.grantable r).map (fun b => (r, b))
  | none => none

/-- The request that the damper serves next among those a predicate picks, oldest first. -/
def Chip.nextGrant (c : Chip) (p : Asker → Bool) : Option (Req × Bool) :=
  c.dmp.reqs.findSome? (fun r => if p r.asker then (c.grantable r).map (fun b => (r, b)) else none)

/-- TIER_WAIT of DRG_DMP_EVT: bit t set while a request of tier t waits (R364). -/
def Chip.tierWait (c : Chip) : Nat :=
  (List.range 6).foldl (fun w t => if c.dmp.reqs.any (fun r => decide (r.tier = t)) then w + 2 ^ t else w) 0

/-- Standing cost of a slot in RAMP to BUSY, in 0.1 mW (R361, R362). -/
def Chip.standOf (c : Chip) (n : Nat) : Nat :=
  let st := c.slotState n
  if 1 ≤ st ∧ st ≤ 7 then
    10 * c.cost (9 + c.get HTH_SLOT_ESTAT.CLASS_APPLIED n) * (if c.get HTH_SLOT_ESTAT.CLASS_APPLIED n = 0 then 0 else 1)
  else 0

end Sys2Proof.Machine
end

