-- ==== Sys2Proof/Machine/Link.lean ====
section
/-! DEFINITION. What goes out of the block over its links: MSI-X and DMA of the host ports (R459–R463), and frames of
the Kuzagan ports with their sequence numbers and windows (R46, R471–R477). -/

namespace Sys2Proof.Machine

/-! ## Host ports -/

/-- A port is fenced by Ash, or by Kiln under BSCAN. -/
def Chip.portFenced (c : Chip) (x : Nat) : Bool :=
  c.bscan || c.ash.fences.any (fun f => match f.unit with | .port m => decide (m.val = x) | _ => false)

/-- A port is serving (R459): data link up, D0, Bus Master Enable and Memory Space Enable set. -/
def Chip.serving (c : Chip) (x : Nat) : Bool :=
  c.domUp 18 && c.on FLU_HP_STAT.DL_UP x && decide (c.get FLU_HP_STAT.DSTATE x = 0) && c.on FLU_HP_STAT.BME x
    && c.on FLU_HP_STAT.MSE x

/-- A port carries DMA and messages: serving, neither lost nor fenced, and the block not in the safe state (R381, R388). -/
def Chip.portOpen (c : Chip) (x : Nat) : Bool :=
  c.serving x && !c.portFenced x && !c.on FLU_PORT_STAT.LOST x && !c.safe

/-- Whether vector `v` of a port is masked: bit 0 of its control word, set after reset in the PCIe layout (log entry 7). -/
def Chip.msixMasked (c : Chip) (x v : Nat) : Bool := (tabGet 1 (c.port x).msix (4 * v + 3)).testBit 0

/-- Send an MSI-X message, or set its pending bit while it is masked; nothing beyond the table (R221, R461). -/
def Chip.sendMsix (c : Chip) (x v : Nat) : Chip :=
  if c.get FLU_HP_CFG.MSIX_LAST x < v ∨ !c.portOpen x then c
  else if c.msixMasked x v then
    if (c.port x).pba.contains v then c else c.setPort x { c.port x with pba := (c.port x).pba ++ [v] }
  else c.emit (.msix x v)

/-! ## The entries whose legs go out -/

def Entry.leg (e : Entry) (second : Bool) : Leg := if second then e.leg1 else e.leg0
def Entry.setLeg (e : Entry) (second : Bool) (l : Leg) : Entry :=
  if second then { e with leg1 := l } else { e with leg0 := l }

def Chip.entry? (c : Chip) (uid : Nat) : Option Entry := c.entries.find? (fun e => decide (e.uid = uid))
def Chip.modEntry (c : Chip) (uid : Nat) (f : Entry → Entry) : Chip :=
  { c with entries := c.entries.map (fun e => if e.uid = uid then f e else e) }

/-- A leg is sent: its first bit is on the card side, or its first forwarding frame has left (R231). -/
def Chip.markSent (c : Chip) (uid : Nat) (second : Bool) : Chip :=
  c.modEntry uid (fun e => { e.setLeg second { e.leg second with st := .sent } with silent := false })

/-- The first frame of a forward leaves on a Kuzagan port: its leg is sent (R28, R231). -/
def Chip.fwdLeft (c : Chip) (k tag : Nat) : Chip :=
  match (((c.kzOf k).fwds.find? (fun (f : Fwd) => decide (f.tag = tag))).map (fun f => f.src) : Option LegSrc) with
  | some (.entry uid second) =>
    if (c.entry? uid).any (fun e => decide ((e.leg second).st = .queued)) then c.markSent uid second else c
  | _ => c

/-! ## Kuzagan ports -/

/-- The device that Kuzagan port k leads to (R46). -/
def Chip.peerOf (c : Chip) (k : Nat) : Nat := (c.grp.dev + k + 1) % 4

/-- The Kuzagan port that leads to device d (R46). -/
def Chip.kzFor (c : Chip) (d : Nat) : Nat := (d + 3 - c.grp.dev) % 4

/-- The port leads to a device of the group (R46). -/
def Chip.kzUsed (c : Chip) (k : Nat) : Bool := decide (c.peerOf k ≤ c.grp.size) && decide (c.grp.size ≠ 0)

/-- The number of a class in a header (R472). -/
def clsCode : KzClass → Nat
  | .seq => 0
  | .fault => 1
  | .traffic => 2

/-- The header of a frame from this device, with the number of its CLASS (R472); its numbers are sent most significant byte first
(log entry 18). -/
def Chip.kzHead (c : Chip) (k code typ seq len tag : Nat) : List Byte :=
  [BitVec.ofNat 8 (64 * code + typ), BitVec.ofNat 8 seq, BitVec.ofNat 8 (64 * c.grp.dev + 16 * c.peerOf k), 0]
    ++ beBytes 2 len ++ beBytes 2 tag

/-- The header of a sequencing, fault or traffic frame (R472). -/
def Chip.kzHeader (c : Chip) (k : Nat) (cls : KzClass) (typ seq len tag : Nat) : List Byte :=
  c.kzHead k (clsCode cls) typ seq len tag

/-- A frame as it goes out: header, payload with the GCM tag, and the CRC over both (R472). -/
def kzOut (k : Nat) (hdr body : List Byte) : Out := .kzFrame k hdr body (beBytes 4 (crc32 (hdr ++ body)))

/-- A link control frame (R473): CLASS 3, which R477 does not number. -/
def Chip.kzControl (c : Chip) (k typ : Nat) (payload : List Byte) : Out :=
  kzOut k (c.kzHead k 3 typ 0 payload.length 0) payload

/-- ACK or NAK: the CLASS, and the SEQ acknowledged or expected (R474). -/
def Chip.kzAck (c : Chip) (k : Nat) (cls : KzClass) (seq : Nat) (nak : Bool) : Out :=
  c.kzControl k (if nak then 2 else 1) [BitVec.ofNat 8 (clsCode cls), BitVec.ofNat 8 seq]

/-- INIT: the device number and the group size minus 1 (R474). -/
def Chip.kzInit (c : Chip) (k : Nat) : Out := c.kzControl k 3 [BitVec.ofNat 8 c.grp.dev, BitVec.ofNat 8 c.grp.size]

/-- KEY1 or KEY2 (R476). -/
def Chip.kzKey (c : Chip) (k : Nat) (second : Bool) (payload : List Byte) : Out := c.kzControl k (if second then 5 else 4) payload

/-- Put a frame on the wire with the next SEQ of its class; a traffic frame is sealed under the direction's key with the
next frame counter (R476). -/
def Chip.kzPut (c : Chip) (k : Nat) (cls : KzClass) (typ tag : Nat) (payload : List Byte) : Chip :=
  let x := c.kzOf k
  let seq := tabGet 0 x.txSeq (clsCode cls)
  let hdr := c.kzHeader k cls typ seq payload.length tag
  let ctr := if cls = .traffic then x.txCtr + 1 else x.txCtr
  let body := if cls = .traffic then
      let iv := [BitVec.ofNat 8 c.grp.dev, BitVec.ofNat 8 (c.peerOf k), 0, 0] ++ beBytes 8 ctr
      let r := gcm256 x.txKey iv hdr payload false
      r.1 ++ r.2
    else payload
  let x := { x with txSeq := tabPut id 0 x.txSeq (clsCode cls) ((seq + 1) % 256), txCtr := ctr,
                    unacked := x.unacked ++ [⟨cls, seq, typ, tag, body⟩] }
  let c := (c.setKz k x).emit (kzOut k hdr body)
  if cls = .traffic ∧ typ = 1 then c.fwdLeft k tag else c

/-- A frame of a class may go out on a port: fewer than 8 frames of the class wait for their ACK (R477), and one of the traffic
class only while the link is keyed and PD16 is up (R47, R476). -/
def Chip.kzRoom (c : Chip) (k : Nat) (cls : KzClass) : Bool :=
  decide (((c.kzOf k).unacked.filter (fun f => decide (f.cls = cls))).length < 8)
    && (decide (cls ≠ .traffic) || (c.on DRG_KZ_STAT.KEYED k && c.domUp 16))

/-- Send a frame, or hold it until it may go out (R476, R477). A link without INIT_OK carries none (R471). -/
def Chip.kzSend (c : Chip) (k : Nat) (cls : KzClass) (typ tag : Nat) (payload : List Byte) : Chip :=
  if !c.on DRG_KZ_STAT.INIT_OK k then c else
  let x := c.kzOf k
  if c.kzRoom k cls then c.kzPut k cls typ tag payload
  else c.setKz k { x with txq := x.txq ++ [⟨cls, 0, typ, tag, payload⟩] }

/-- Send a frame on every connected Kuzagan port. -/
def Chip.kzAll (c : Chip) (cls : KzClass) (typ : Nat) (payload : List Byte) : Chip :=
  c.forN 3 (fun c k => if c.kzUsed k then c.kzSend k cls typ 0 payload else c)

/-- A frame with the expected SEQ of its class is accepted and acknowledged (R477). -/
def Chip.kzAccept (c : Chip) (k : Nat) (cls : KzClass) : Chip :=
  let x := c.kzOf k
  let seq := tabGet 0 x.rxSeq (clsCode cls)
  (c.setKz k { x with rxSeq := tabPut id 0 x.rxSeq (clsCode cls) ((seq + 1) % 256) }).emit (c.kzAck k cls seq false)

/-- The segment header and data of a forward (R475), cut into frames of at most 1,016 bytes of data. -/
def fwdSegments (slot status : Nat) (total : List Byte) : Nat → Nat → List (List Byte)
  | 0, _ => []
  | fuel + 1, off =>
    let part := (total.drop off).take 1016
    let last := decide (total.length ≤ off + 1016)
    let hdr := [BitVec.ofNat 8 slot, if last then 1 else 0] ++ beBytes 2 total.length ++ beBytes 2 off
      ++ [BitVec.ofNat 8 status, 0]
    (hdr ++ part) :: (if last then [] else fwdSegments slot status total fuel (off + 1016))

/-- Forward a command to the peer that owns a group slot (R28, R475). -/
def Chip.forward (c : Chip) (g : Nat) (src : LegSrc) (apdu : List Byte) : Chip :=
  let k := c.kzFor (g / 64)
  let x := c.kzOf k
  let tag := x.nextTag
  let c := c.setKz k { x with nextTag := (tag + 1) % 65536, fwds := x.fwds ++ [⟨tag, src, g, 0, []⟩] }
  (fwdSegments g 0 apdu 8 0).foldl (fun c p => c.kzSend k .traffic 1 tag p) c

/-- A forward none of whose frames has left is taken back. -/
def Chip.unforward (c : Chip) (k : Nat) (src : LegSrc) : Chip :=
  let x := c.kzOf k
  let tags := (x.fwds.filter (fun f => decide (f.src = src))).map (·.tag)
  c.setKz k { x with fwds := x.fwds.filter (fun f => decide (f.src ≠ src)),
                     txq := x.txq.filter (fun f => !(decide (f.cls = .traffic) && decide (f.typ = 1) && tags.contains f.tag)) }

/-- Return the outcome of a forwarded leg to the peer (R475). -/
def Chip.forwardRsp (c : Chip) (k tag g status : Nat) (rsp : List Byte) : Chip :=
  (fwdSegments g status rsp 8 0).foldl (fun c p => c.kzSend k .traffic 2 tag p) c

end Sys2Proof.Machine
end

