-- ==== Sys2Proof/Machine/Flow.lean ====
section
/-! DEFINITION. Entries of the rings from fetch to completion (R207–R240), the Stack table's resolution, redirection,
retry and marks (R245–R266). -/

namespace Sys2Proof.Machine

/-! ## Status codes (R12) and states -/

def stsOK : Nat := 0x00
def stsPARTIAL : Nat := 0x01
def stsABORTED : Nat := 0x02
def stsTIMEOUTCARD : Nat := 0x03
def stsTIMEOUTRING : Nat := 0x04
def stsSLOTINACTIVE : Nat := 0x05
def stsNOROUTE : Nat := 0x06
def stsINPUTRANGE : Nat := 0x07
def stsNOTONCURVE : Nat := 0x08
def stsINTEGRITY : Nat := 0x09
def stsPROTOCOL : Nat := 0x0A
def stsFENCED : Nat := 0x0B
def stsCONSUMED : Nat := 0x0C
def stsNOTREADY : Nat := 0x0D
def stsPOLICY : Nat := 0x0E
def stsBUDGET : Nat := 0x0F

def rsDISABLED : Nat := 0
def rsRUNNING : Nat := 1
def rsPAUSED : Nat := 2
def rsORPHANED : Nat := 3
def rsERROR : Nat := 4
def rsRESETTING : Nat := 5

def Chip.ringState (c : Chip) (r : Nat) : Nat := c.get FLU_RING_STAT.STATE r
def Chip.setRingState (c : Chip) (r st : Nat) : Chip := c.put FLU_RING_STAT.STATE r st

/-! ## The fields of a submission entry (R211) -/

def Entry.le (e : Entry) (off len : Nat) : Nat := leNat ((e.raw.drop off).take len)
def Entry.opcode (e : Entry) : Nat := e.le 0 1
def Entry.flagBit (e : Entry) (k : Nat) : Bool := (e.le 1 1).testBit k
def Entry.deadline (e : Entry) : Nat := e.le 4 3
def Entry.handle (e : Entry) : Nat := e.le 8 2 % 4096
def Entry.cmdLen (e : Entry) : Nat := e.le 0x0A 2
def Entry.rspMax (e : Entry) : Nat := e.le 0x0C 2
def Entry.cmdAddr (e : Entry) : Nat := e.le 0x10 8
def Entry.rspAddr (e : Entry) : Nat := e.le 0x18 8
def Entry.isInline (e : Entry) : Bool := e.flagBit 5
def Entry.isNop (e : Entry) : Bool := decide (e.opcode = 0)
def Entry.isRead (e : Entry) : Bool := decide (e.opcode = 1 ∨ e.opcode = 3)
def Entry.isWrite (e : Entry) : Bool := decide (e.opcode = 2)

/-- An entry has been admitted and its completion not yet written. -/
def Entry.inFlight (e : Entry) : Bool :=
  match e.phase with
  | .payload => true
  | .active => true
  | .ended => e.cqReserved
  | _ => false

/-- An entry that has a leg on the wire or done. -/
def Entry.anySent (e : Entry) : Bool := !e.silent

def Chip.dropEntry (c : Chip) (uid : Nat) : Chip :=
  { c with entries := c.entries.filter (fun e => decide (e.uid ≠ uid)) }

/-- An entry leaves the device; a WRITE counts in WR_INFL no more (R247). -/
def Chip.leaveEntry (c : Chip) (uid : Nat) : Chip :=
  let done := (c.entry? uid).filter (·.counted)
  (match done with
    | some e => c.put FLU_STACK_MARK.WR_INFL e.handle (c.get FLU_STACK_MARK.WR_INFL e.handle - 1)
    | none => c).dropEntry uid
def Chip.ringEntries (c : Chip) (r : Nat) : List Entry := c.entries.filter (fun e => decide (e.ring = r))

/-- INFLIGHT of a ring and POOL_USED (R225, R244). -/
def Chip.inflight (c : Chip) (r : Nat) : Nat := ((c.ringEntries r).filter Entry.inFlight).length
def Chip.poolUsed (c : Chip) : Nat := (c.entries.filter (fun e => e.inFlight && decide (e.ring < 512))).length

/-- Whether the deadline of an entry has been reached (R231): its expiry was seen, or the 1 µs timebase shows it. -/
def Chip.deadlinePast (c : Chip) (e : Entry) : Bool :=
  e.dlMissed || (decide (e.deadline ≠ 0) && decide (e.deadline ≤ c.us - e.arrived))

/-- The time a ring has been deferred so far, in µs (R227). -/
def Chip.ringDefer (c : Chip) (r : Nat) : Nat :=
  let x := c.ring r
  x.deferUs + (match x.deferSince with
    | some t => if c.on FLU_RING_STAT.DEFERRED r then c.us - t else 0
    | none => 0)

/-- The SRAM bytes that a write reaches: those of a fenced row group are discarded with the access-error event (R6, R373). -/
def Chip.sramPut (c : Chip) (off : Nat) (bytes : List Byte) : Chip :=
  let out := fun (a : Nat) => c.wear.groupsOut.contains (a / 0x10000)
  if (bytes.zipIdx off).any (fun p => out p.2) then
    ((bytes.zipIdx off).foldl (fun c p => if out p.2 then c else c.mem (.sram p.2 [p.1])) c).raise 0x09 0x08
  else c.mem (.sram off bytes)

/-! ## Staging (R22, R25 step 5) -/

/-- The lowest staging place that no entry holds and no fenced row group takes in (log entry 127). -/
def Chip.freePlace (c : Chip) : Option Nat :=
  (List.range 512).find? (fun p =>
    !c.entries.any (fun e => decide (e.place = some p)) && !c.wear.groupsOut.contains (stageSize * p / 0x10000))

/-- Copy bytes into the staging place of an entry: the command at its start, the response in its second half. -/
def Chip.stageCopy (c : Chip) (e : Entry) (response : Bool) (bytes : List Byte) : Chip :=
  match e.place with
  | some p => c.mem (.sram (stageSize * p + if response then stageSize / 2 else 0) bytes)
  | none => c

/-- A staging place serves a local slot too (R453). -/
def Chip.stageSlot (c : Chip) (e : Entry) (n : Nat) : Chip :=
  match e.place with
  | some p => { c with stage := tabPut id [] c.stage p ((tabGet [] c.stage p) ++ [n]) }
  | none => c

/-- An entry as it is fetched. -/
def Entry.held0 (uid ring index : Nat) (raw : List Byte) (arrived : Nat) : Entry :=
  { uid := uid, ring := ring, index := index, raw := raw, arrived := arrived, phase := .fetched, deferUs := 0, order := 0,
    epoch := 0, prefLeg := false, cqReserved := false, leg0 := Leg.init, leg1 := Leg.init, retried := false,
    dlMissed := false, staleMarked := false, apdu := [], rsp := [], sw := 0, cardUs := 0, status := 0, silent := true,
    counted := false, dmaBad := false, place := none }

/-! ## Completions (R218–R221) -/

def Chip.cqSize (c : Chip) (r : Nat) : Nat := 2 ^ c.get FLU_RING_CTL.CQ_SIZE r
def Chip.sqSize (c : Chip) (r : Nat) : Nat := 2 ^ c.get FLU_RING_CTL.SQ_SIZE r
def Chip.cqBase (c : Chip) (r : Nat) : Nat :=
  c.get FLU_CQ_BASE_HI.ADDR_HI r * 2 ^ 32 + c.get FLU_CQ_BASE_LO.ADDR_LO r * 32
def Chip.sqBase (c : Chip) (r : Nat) : Nat :=
  c.get FLU_SQ_BASE_HI.ADDR_HI r * 2 ^ 32 + c.get FLU_SQ_BASE_LO.ADDR_LO r / 2 * 64

/-- Completions written and not yet released by the host (R215). -/
def Chip.cqWritten (c : Chip) (r : Nat) : Nat :=
  (c.get FLU_RING_PTR.CQ_TAIL r + c.cqSize r - (c.ring r).cqHead) % c.cqSize r

/-- CQ entries neither valid nor reserved; one always stays free (R209, R220). -/
def Chip.cqFree (c : Chip) (r : Nat) : Nat :=
  c.cqSize r - 1 - c.cqWritten r - ((c.ringEntries r).filter (·.cqReserved)).length

/-- Whether the block may fetch, write responses and write completions for a ring now (R233, R237, R388). -/
def Chip.ringServed (c : Chip) (r : Nat) : Bool :=
  (decide (c.ringState r = rsRUNNING) || decide (c.ringState r = rsPAUSED) || decide (c.ringState r = rsERROR))
    && !c.on FLU_RING_STAT.AWAIT_DB r && c.portOpen (c.owner r)

/-- The completion entry (R218). -/
def Chip.completionBytes (c : Chip) (e : Entry) : List Byte :=
  let r := e.ring
  let cflags := (if e.dlMissed then 1 else 0) + (if e.deferUs ≠ 0 then 2 else 0) + (if e.retried then 4 else 0)
    + (if e.staleMarked then 8 else 0) + (if e.leg0.st ≠ .unused then 16 else 0) + (if e.leg1.st ≠ .unused then 32 else 0)
  let l0 := if e.leg0.st = .unused then (0, 0) else (e.leg0.status, e.leg0.slot)
  let l1 := if e.leg1.st = .unused then (0, 0) else (e.leg1.status, e.leg1.slot)
  leBytes 2 (e.le 2 2) ++ leBytes 1 e.status ++ leBytes 1 cflags ++ leBytes 2 (c.get FLU_RING_PTR.SQ_HEAD r)
    ++ leBytes 2 e.rsp.length ++ leBytes 2 e.sw ++ leBytes 1 l0.1 ++ leBytes 1 l1.1 ++ leBytes 1 l0.2 ++ leBytes 1 l1.2
    ++ leBytes 2 e.epoch ++ leBytes 4 (min (c.us - e.arrived) 0xFFFFFF) ++ leBytes 4 (min e.deferUs 0xFFFFFF)
    ++ leBytes 4 (min e.cardUs 0xFFFFFF) ++ leBytes 3 0 ++ leBytes 1 (c.get FLU_RING_PTR.CQ_PHASE r)

/-- Signal a ring's completions: at once for IRQ, at COAL_CNT, or start the coalescing timer (R221). -/
def Chip.signal (c : Chip) (r : Nat) (irq : Bool) : Chip :=
  let x := c.ring r
  let n := x.coalCount + 1
  if irq ∨ c.get FLU_RING_CTL.COAL_CNT r ≤ n then
    let c := c.setRing r { x with coalCount := 0, coalRun := false }
    if c.on FLU_RING_CTL.INT_EN r then c.sendMsix (c.owner r) (c.get FLU_RING_CTL.INT_VEC r) else c
  else c.setRing r { x with coalCount := n, coalRun := x.coalRun || decide (c.get FLU_RING_CTL.COAL_TIME r ≠ 0) }

/-- Write the response data, then the completion entry, and leave the device (R218, R219). -/
def Chip.writeCompletion (c : Chip) (e : Entry) : Chip :=
  let r := e.ring
  let x := c.owner r
  let c := if e.rsp = [] then c
    else if e.flagBit 4 then c.sramPut e.rspAddr e.rsp else c.emit (.dmaWrite x e.rspAddr e.rsp)
  let tail := c.get FLU_RING_PTR.CQ_TAIL r
  let c := c.emit (.dmaWrite x (c.cqBase r + 32 * tail) (c.completionBytes e))
  let next := (tail + 1) % c.cqSize r
  let c := c.put FLU_RING_PTR.CQ_TAIL r next
  let c := if next = 0 then c.put FLU_RING_PTR.CQ_PHASE r (1 - c.get FLU_RING_PTR.CQ_PHASE r) else c
  let c := (c.incWrap FLU_RING_CNT.CPL_CNT r).leaveEntry e.uid
  c.signal r (e.flagBit 0)

/-- Write the completions of a ring that are due, in the order in which their entries ended (R222, R233). A completion
without a reserved place waits for room in the CQ with CQ_FULL set (R220). -/
def Chip.flushList (c : Chip) (r : Nat) : List Entry → Chip
  | [] => c.flag FLU_RING_STAT.CQ_FULL r false
  | e :: rest =>
    if !c.ringServed r then c
    else if e.cqReserved ∨ 0 < c.cqFree r then (c.writeCompletion e).flushList r rest
    else if c.on FLU_RING_STAT.CQ_FULL r then c
    else (c.flag FLU_RING_STAT.CQ_FULL r true).ringEvt FLU_RING_EVT.CQ_FULL_SEEN r

def Chip.flushRing (c : Chip) (r : Nat) : Chip :=
  c.flushList r ((c.ringEntries r).filter (fun e => decide (e.phase = .ended)))

/-- End an entry with a status: its grant goes back where its deadline or a ring reset ends it unsent, counters and events
follow the status, and its completion is written when it can be; a ring in RESETTING writes none (R213, R220, R228, R231,
R238, R363). A leg of a key transfer runs as
an entry of no ring (R425), numbered 512 here; its outcome goes to the transfer. -/
def Chip.endEntry (c : Chip) (uid status : Nat) : Chip :=
  match c.entry? uid with
  | none => c
  | some e =>
    let r := e.ring
    let back := !e.anySent && (decide (status = stsTIMEOUTRING) || decide (c.ringState r = rsRESETTING))
    let c := if back then c.withdraw (.entry uid) else c.spend (.entry uid)
    let c := if e.phase = .tokens then c.withdraw (.admission r) else c
    if 512 ≤ r then
      let c := c.leaveEntry uid
      { c with kln := { c.kln with xfer := c.kln.xfer.map (fun x =>
          { x with ended := some { e with phase := .ended, status := status } }) } }
    else if c.ringState r = rsRESETTING then c.leaveEntry uid else
    let e := { e with phase := .ended, status := status, dlMissed := e.anySent && c.deadlinePast e,
                      deferUs := if e.order ≠ 0 then e.deferUs else c.ringDefer r - e.deferUs }
    let c := { c.dropEntry uid with entries := (c.dropEntry uid).entries ++ [e] }
    let c := if status = stsBUDGET then (c.incSat FLU_RING_DCNT.BUDGET_CNT r).ringEvt FLU_RING_EVT.BUDGET_SEEN r
      else if status = stsTIMEOUTRING then (c.incSat FLU_RING_DCNT.TMO_CNT r).ringEvt FLU_RING_EVT.TMO_SEEN r else c
    c.flushRing r

/-! ## Marks and resolution (R247, R251–R257) -/

def staleFld (second : Bool) : Fld := if second then FLU_STACK_MARK.STALE1 else FLU_STACK_MARK.STALE0
def legSlotFld (second : Bool) : Fld := if second then FLU_STACK_ACT.LEG1_SLOT else FLU_STACK_ACT.LEG0_SLOT

/-- A leg of a route is usable: live and not STALE (R251). -/
def Chip.usable (c : Chip) (h : Nat) (second : Bool) : Bool :=
  c.live (c.get (legSlotFld second) h) && !c.on (staleFld second) h

/-- Something happened that calls for a rebuild (R261): one starts, or one more follows the one that runs. -/
def Chip.rebuildTrigger (c : Chip) : Chip :=
  if c.get FLU_STACK_STAT.RB_STATE 0 = 0 then c.put FLU_STACK_STAT.RB_STATE 0 1
  else { c with stack := { c.stack with again := true } }

/-- Mark a leg STALE with GEN raised (R257, R262). -/
def Chip.setStale (c : Chip) (h : Nat) (second : Bool) : Chip :=
  let c := (c.flag (staleFld second) h true).incWrap FLU_STACK_MARK.GEN h
  ((c.incSat FLU_STACK_SCNT.STALE_CNT 0).stackEvt FLU_STACK_EVT.STALE_SET).rebuildTrigger

/-- Mark the leg of a PARTIAL write (R257). -/
def Chip.markLeg (c : Chip) (h : Nat) (second : Bool) (genDone : Bool) : Chip :=
  if !c.on (staleFld second) h then c.setStale h second
  else if genDone then c else c.incWrap FLU_STACK_MARK.GEN h

/-- The status of a leg that is not sent (R255). -/
def Chip.unsentStatus (c : Chip) (h : Nat) (second : Bool) (g : Nat) : Nat :=
  if !c.live g then stsFENCED else if c.on (staleFld second) h then stsNOROUTE else stsSLOTINACTIVE

/-- The selection of legs (R251): a status when the entry ends at resolution, or for each leg whether it goes, is
missed, or is not used. -/
inductive LegPlan where
  | skip | go | missed
  deriving DecidableEq, Repr

def Chip.selectLegs (c : Chip) (e : Entry) : Sum Nat (LegPlan × LegPlan) :=
  let h := e.handle
  if !c.on FLU_STACK_ACT.VALID h then .inl stsNOROUTE else
  let mirror := c.on FLU_STACK_ACT.MIRROR h
  let u0 := c.usable h false
  let u1 := c.usable h true
  if e.opcode = 4 then
    let second := e.flagBit 2
    if second && !mirror then .inl stsNOROUTE
    else if !c.live (c.get (legSlotFld second) h) then .inl stsFENCED
    else .inr (if second then (.skip, .go) else (.go, .skip))
  else if !mirror then (if u0 then .inr (.go, .skip) else .inl stsNOROUTE)
  else if e.isWrite then
    if u0 || u1 then .inr (if u0 then .go else .missed, if u1 then .go else .missed) else .inl stsNOROUTE
  else if (if c.on FLU_STACK_ACT.PREF h then u1 else u0) then
    .inr (if c.on FLU_STACK_ACT.PREF h then (.skip, .go) else (.go, .skip))
  else if (if c.on FLU_STACK_ACT.PREF h then u0 else u1) then
    .inr (if c.on FLU_STACK_ACT.PREF h then (.go, .skip) else (.skip, .go))
  else .inl stsNOROUTE

/-- A missed leg of a WRITE: its status is fixed, and GEN rises if it was already STALE (R247, R255). -/
def Chip.missLeg (c : Chip) (uid h : Nat) (second : Bool) : Chip :=
  let g := c.get (legSlotFld second) h
  let stale := c.on (staleFld second) h
  let st := c.unsentStatus h second g
  let c := if stale then c.incWrap FLU_STACK_MARK.GEN h else c
  c.modEntry uid (fun e => e.setLeg second ⟨.ended, g, st, stale, false⟩)

/-! ## Leg queues, ends of legs, redirection and retry -/

/-- The causes of a failed activation (R114): NO_ATR, ATR_INVALID, POLICY_TIMEOUT, NEG_TIMEOUT, NEG_FAIL. -/
def actFailCause (k : Nat) : Bool := [0x08, 0x09, 0x0C, 0x0D, 0x0E].contains k
/-- The causes of an electrical fault (R115): SHORT, VCC_FAULT, IO_FAULT. -/
def elecCause (k : Nat) : Bool := [0x03, 0x04, 0x05].contains k

/-- What follows a deactivation (R108): the state the slot goes to and, for OFF, an activation behind REACT_MIN or the
insertion timer. -/
inductive Follow where
  | clinker | absent | off (react ins : Bool)
  deriving DecidableEq, Repr

/-- The follow-up of the deactivation in progress (R108, R110, R111, R113–R115), with the counts that INACTIVE will
reach. -/
def Chip.follow (c : Chip) (n : Nat) : Follow :=
  let x := c.slot n
  let k := c.get HTH_SLOT_CAUSE.CAUSE n
  let op := isOperator n
  let auto := c.on HTH_SLOT_CTL.AUTO_ACT n
  if !op && (x.toClinker
      || (elecCause k && decide (c.get HTH_SLOT_RCV.ELEC_LIMIT n ≤ min 15 (c.get HTH_SLOT_RCNT.ELEC_CNT n + 1)))
      || (actFailCause k && x.coldAct
          && decide (c.get HTH_SLOT_RCV.ACT_LIMIT n ≤ min 15 (c.get HTH_SLOT_RCNT.ACT_FAIL_CNT n + 1)))) then .clinker
  else if op && (!c.pres n || x.forcedAbsent) then .absent
  else if x.resetPend then .off false false
  else if x.forcedRemoval ∨ x.reinserted then .off false true
  else if k = 0x0A ∨ (k = 0x0F ∧ !x.noFollow) then .off true false
  else if !op && auto && (actFailCause k || elecCause k) then .off true false
  else if auto && (decide (k = 0x06) || decide (k = 0x07)) && !c.slotFenced n then .off true false
  else .off false false

/-- Whether a leg may wait at a slot (R253): sent, waiting or about to be activated. -/
def Chip.slotTakes (c : Chip) (n : Nat) : Bool :=
  let st := c.slotState n
  let x := c.slot n
  let auto := c.on HTH_SLOT_CTL.AUTO_ACT n
  c.liveLocal n &&
    (decide (1 ≤ st ∧ st ≤ 7)
      || (decide (st = stOFF)
          && (c.on HTH_SLOT_STAT.ACT_PEND n || x.schedReact || (c.on HTH_SLOT_STAT.INS_PEND n && auto)))
      || (decide (st = stDEACT) && (match c.follow n with
            | .off r i => r || (i && auto)
            | _ => false)))

/-- Put a leg into a slot's leg queue (R223, R254). -/
def Chip.enqueue (c : Chip) (n : Nat) (q : QLeg) : Chip := c.modSlot n (fun x => { x with queue := x.queue ++ [q] })

/-- The queue entry of a leg of an entry; a leg of a key transfer is of class 0 (R425). -/
def Chip.qleg (c : Chip) (e : Entry) (second : Bool) : QLeg :=
  let own := decide (e.ring < 512)
  { src := .entry e.uid second, ring := e.ring, cls := if own then c.get FLU_RING_CFG.CLASS e.ring else 0,
    prio := if own then c.get FLU_RING_CFG.PRIO e.ring else 0, order := e.order, front := (e.leg second).front,
    ready := decide (e.phase = .active), apdu := e.apdu }

/-- Finish an entry whose legs have all ended: status, response and marks (R237, R256, R257). -/
def Chip.finishEntry (c : Chip) (uid : Nat) : Chip :=
  match c.entry? uid with
  | none => c
  | some e =>
    let h := e.handle
    let used := fun (second : Bool) => decide ((e.leg second).st ≠ .unused)
    let ok := fun (second : Bool) => used second && decide ((e.leg second).status = stsOK)
    let fin := fun (c : Chip) (status : Nat) =>
      if e.dmaBad then (c.modEntry uid (fun e => { e with rsp := [], sw := 0, cardUs := 0 })).endEntry uid stsPROTOCOL
      else c.endEntry uid status
    if e.isWrite && used false && used true then
      if ok false && ok true then fin c stsOK
      else if ok false || ok true then
        let bad := ok false
        let c := c.markLeg h bad (e.leg bad).missedGen
        fin (c.modEntry uid (fun e => { e with staleMarked := true })) stsPARTIAL
      else fin c (e.leg e.prefLeg).status
    else if e.retried then
      -- the status of the retry: the leg that was not the first attempt
      fin c (e.leg (!e.prefLeg)).status
    else fin c (e.leg (used true && !used false)).status

/-- A leg is still on its way. -/
def Leg.isOpen (l : Leg) : Bool := decide (l.st = .queued) || decide (l.st = .sent)

/-- Finish an entry once no leg of it is still on its way. -/
def Chip.maybeFinish (c : Chip) (uid : Nat) : Chip :=
  match c.entry? uid with
  | none => c
  | some e => if e.leg0.isOpen || e.leg1.isOpen then c else c.finishEntry uid

/-- Hand a leg to its slot: into the local leg queue, where it keeps its place while its command is still on the way to staging, or,
once that is there, as a forward to the peer (R25, R28, R222, R252). -/
def Chip.placeLeg (c : Chip) (uid : Nat) (second : Bool) : Chip :=
  match c.entry? uid with
  | none => c
  | some e =>
    let g := (e.leg second).slot
    if g / 64 = c.grp.dev then (c.stageSlot e (g % 64)).enqueue (g % 64) (c.qleg e second)
    else if e.phase = .active then c.forward g (.entry uid second) e.apdu
    else c

/-- Give a leg its status without sending it, and finish the entry if it was the last (R255). -/
def Chip.closeLeg (c : Chip) (uid : Nat) (second : Bool) (status : Nat) : Chip :=
  (c.modEntry uid (fun e => e.setLeg second { e.leg second with st := .ended, status := status })).maybeFinish uid

/-- Send the other leg of a route in place of, or after, one: it goes ahead of the legs that are neither redirected nor a retry, or
ends unsent where its slot does not take it (R253–R255, R258). -/
def Chip.otherLeg (c : Chip) (uid : Nat) (second : Bool) : Chip :=
  match c.entry? uid with
  | none => c
  | some e =>
    let g := c.get (legSlotFld second) e.handle
    let c := c.modEntry uid (fun e => e.setLeg second (Leg.toSlot g true))
    if g / 64 = c.grp.dev && !c.slotTakes (g % 64) then c.closeLeg uid second (c.unsentStatus e.handle second g)
    else c.placeLeg uid second

/-- Redirect a leg taken out unsent (R254). A leg that was redirected before, or is a retry, is not redirected again
(R258; for a redirected leg, log entry 8). A WRITE that so misses a leg already STALE raises GEN (R247). -/
def Chip.redirect (c : Chip) (uid : Nat) (second : Bool) : Chip :=
  match c.entry? uid with
  | none => c
  | some e =>
    let h := e.handle
    let l := e.leg second
    let st := c.unsentStatus h second l.slot
    if c.ringState e.ring = rsRESETTING then c.closeLeg uid second st
    else if e.opcode = 4 then c.closeLeg uid second (if c.live l.slot then stsSLOTINACTIVE else stsFENCED)
    else if e.isRead && !l.front && c.on FLU_STACK_ACT.MIRROR h && c.usable h (!second) then
      let c := (c.incSat FLU_STACK_CNT.REDIR_CNT 0).stackEvt FLU_STACK_EVT.REDIRECT
      (c.modEntry uid (fun e => e.setLeg second Leg.init)).otherLeg uid (!second)
    else
      let stale := e.isWrite && c.on (staleFld second) h
      let c := if stale then c.incWrap FLU_STACK_MARK.GEN h else c
      (c.modEntry uid (fun e => e.setLeg second { e.leg second with missedGen := stale })).closeLeg uid second st

/-- A sent leg ends with a status and, when it is OK, a response (R107, R151, R178, R256, R258); data longer than RSP_MAX end the
leg with PROTOCOL (R214). -/
def Chip.legEnd (c : Chip) (uid : Nat) (second : Bool) (status : Nat) (rsp : List Byte) (sw cardUs : Nat) : Chip :=
  match c.entry? uid with
  | none => c
  | some e =>
    let h := e.handle
    let status := if status = stsOK ∧ e.rspMax < rsp.length then stsPROTOCOL else status
    let takes := decide (status = stsOK) && decide (e.rsp = []) && decide (e.sw = 0)
    let c := c.modEntry uid (fun e =>
      let e := e.setLeg second { e.leg second with st := .ended, status := status }
      if takes then { e with rsp := rsp, sw := sw, cardUs := cardUs } else e)
    let c := if takes then c.stageCopy e true rsp else c
    let retryable := decide (status = stsTIMEOUTCARD ∨ status = stsSLOTINACTIVE ∨ status = stsFENCED ∨ status = stsINTEGRITY)
    if e.isRead && c.on FLU_RING_CFG.IDEMP e.ring && !e.retried && retryable && c.on FLU_STACK_ACT.MIRROR h
        && c.usable h (!second) && !c.deadlinePast e && !e.dmaBad && decide (c.ringState e.ring ≠ rsRESETTING) then
      let c := (c.incSat FLU_STACK_CNT.RETRY_CNT 0).stackEvt FLU_STACK_EVT.RETRY
      (c.modEntry uid (fun e => { e with retried := true, prefLeg := second })).otherLeg uid (!second)
    else c.maybeFinish uid

/-- Take a leg out of the queue it waits in. -/
def Chip.unqueue (c : Chip) (g : Nat) (src : LegSrc) : Chip :=
  if g / 64 = c.grp.dev then
    c.modSlot (g % 64) (fun x => { x with queue := x.queue.filter (fun q => decide (q.src ≠ src)) })
  else c.unforward (c.kzFor (g / 64)) src

/-- What waits for module-command budget on a slot is a leg, or the RESUME that goes before it (R181, R230). -/
def SlotX.waitsFor (x : SlotX) (src : LegSrc) : Bool :=
  match x.wait with
  | some ex => decide (ex.use = .leg src) || decide (ex.use = .dozeResume src)
  | none => false

/-- Take an unsent leg out of wherever it waits, with its budget returned: the leg queue of its slot, the wait for module-command
budget, or the frames held for its peer (R231, R236, R238, R264). -/
def Chip.takeOut (c : Chip) (uid : Nat) (second : Bool) : Chip :=
  match c.entry? uid with
  | none => c
  | some e =>
    let g := (e.leg second).slot
    let n := g % 64
    let c := c.unqueue g (.entry uid second)
    if g / 64 = c.grp.dev && (c.slot n).waitsFor (.entry uid second) then
      ((c.withdraw (.mcmd n)).modSlot n (fun x => { x with wait := none })).flag HTH_SLOT_STAT.BUDGET_WAIT n false
    else c

/-- Withdraw every unsent leg of an entry (R231, R236, R238). -/
def Chip.withdrawLegs (c : Chip) (uid : Nat) : Chip :=
  [false, true].foldl (fun c second =>
    if (c.entry? uid).any (fun e => decide ((e.leg second).st = .queued)) then
      (c.takeOut uid second).modEntry uid (fun e => e.setLeg second Leg.init)
    else c) c

/-- A leg's command is in staging: the leg may go to the card, or goes out as a forward if its live bit is still 1 (R25, R265). -/
def Chip.legReady (c : Chip) (uid : Nat) (second : Bool) (apdu : List Byte) : Chip :=
  match c.entry? uid with
  | none => c
  | some e =>
    let l := e.leg second
    if l.st ≠ .queued then c
    else if l.slot / 64 = c.grp.dev then
      c.modSlot (l.slot % 64) (fun x => { x with queue := x.queue.map (fun q =>
        if q.src = .entry uid second then { q with ready := true, apdu := apdu } else q) })
    else if c.live l.slot then c.forward l.slot (.entry uid second) apdu
    else c.redirect uid second

/-- Unsent legs to a peer's slot whose live bit is 0 are taken out and redirected (R253, R254, R265). -/
def Chip.evictRemote (c : Chip) : Chip :=
  c.entries.foldl (fun c e =>
    [false, true].foldl (fun c second =>
      let l := e.leg second
      if l.st = .queued ∧ l.slot / 64 ≠ c.grp.dev ∧ !c.live l.slot then (c.takeOut e.uid second).redirect e.uid second else c) c) c

/-- Resolve the route of an admitted entry, queue its legs and ask for its payload (R25 steps 4 and 5, R222, R251, R252). An entry
that ends here takes back its tokens. -/
def Chip.resolve (c : Chip) (uid : Nat) : Chip :=
  match c.entry? uid with
  | none => c
  | some e =>
    let h := e.handle
    let c := c.modEntry uid (fun e => { e with epoch := c.get FLU_STACK_EPOCH.EPOCH 0 % 65536 })
    match c.selectLegs e with
    | .inl st => (c.withdraw (.entry uid)).endEntry uid st
    | .inr (p0, p1) =>
      let pref := c.on FLU_STACK_ACT.PREF h
      let c := c.modEntry uid (fun e => { e with phase := .payload, prefLeg := pref, counted := e.isWrite })
      let c := if e.isWrite then c.incSat FLU_STACK_MARK.WR_INFL h else c
      let place := fun (c : Chip) (second : Bool) (p : LegPlan) =>
        match p with
        | .skip => c
        | .go => (c.modEntry uid (fun e => e.setLeg second (Leg.toSlot (c.get (legSlotFld second) h) false))).placeLeg uid second
        | .missed => c.missLeg uid h second
      let c := place (place c false p0) true p1
      if e.isInline ∨ e.flagBit 3 then c else c.emit (.dmaRead (c.owner e.ring) e.cmdAddr e.cmdLen)

/-- Legs of a slot's queue that the slot no longer takes are taken out and redirected (R253). A forwarded leg of a peer
is answered with the status of R255. -/
def Chip.evict (c : Chip) (n : Nat) : Chip :=
  if c.slotTakes n then c else
  let qs := (c.slot n).queue
  let c := c.modSlot n (fun x => { x with queue := [] })
  qs.foldl (fun c q =>
    match q.src with
    | .entry uid second => c.redirect uid second
    | .peer k tag =>
      c.forwardRsp k tag (64 * c.grp.dev + n) (if c.liveLocal n then stsSLOTINACTIVE else stsFENCED) []) c

end Sys2Proof.Machine
end

