-- ==== Sys2Proof/Machine/Gate.lean ====
section
/-! DEFINITION. Which accesses reach a block: the life-cycle state (R429), the safe state (R389), a fenced port (R381)
and a domain that is off (R44). A command that carries a path is the access as it arrives at the device (log entry 17). -/

namespace Sys2Proof.Machine

/-! ## Life-cycle state -/

def lcBlank : Nat := 0x1
def lcTest : Nat := 0x2
def lcProduction : Nat := 0x3
def lcAnalysis : Nat := 0x4
def lcEnd : Nat := 0x5
def lcLocked : Nat := 0xE

/-- What a value of LC_WORD means (R432); every other value is invalid. -/
def lcOfWord (w : Nat) : Option Nat :=
  if w = 0 then some lcBlank else if w = 0xFF then some lcTest else if w = 0xFFFF then some lcProduction
  else if w = 0xFFFFFF then some lcAnalysis else if w = 0xFFFFFFFF then some lcEnd else none

/-- STATE of KLN_LC_STAT: LOCKED where the start found no valid word and no resume (R445). -/
def Chip.lcState (c : Chip) : Nat :=
  if c.kln.locked then lcLocked else (lcOfWord (c.get KLN_LC_WORD.VALUE 0)).getD lcLocked

/-- The states in which images are applied and slots and rings run (R429). -/
def Chip.lcRuns (c : Chip) : Bool := decide (2 ≤ c.lcState ∧ c.lcState ≤ 4)

/-! ## The start of a device (R433, R445) -/

/-- The nibble of LC_MARK that holds the intent, or the done mark, of the transition to a state. -/
def Chip.lcMark (c : Chip) (target : Nat) (isDone : Bool) : Nat :=
  c.get KLN_LC_MARK.VALUE 0 / 2 ^ (8 * (target - 2) + 4 * isDone.toNat) % 16

/-- The pattern of LC_WORD for a state (R432). -/
def lcPattern (target : Nat) : Nat := [0, 0, 0xFF, 0xFFFF, 0xFFFFFF, 0xFFFFFFFF].getD target 0

/-- A transition goes on with a phase: what KLN_LC_STAT shows of it. -/
def Chip.lcEnter (c : Chip) (j : LcJob) : Chip :=
  let phase := match j.phase with
    | .quiesce => 1
    | .step _ => 2
    | _ => 3
  let step := match j.phase with
    | .step k => k
    | _ => 0
  let c := { c with kln := { c.kln with lc := some j } }
  let c := ((c.put KLN_LC_STAT.TARGET 0 j.target).flag KLN_LC_STAT.BUSY 0 true).flag KLN_LC_STAT.RESUMED 0 j.resumed
  (c.put KLN_LC_STAT.PHASE 0 phase).put KLN_LC_STAT.STEP 0 step

/-- No transition is in progress any more. -/
def Chip.lcDrop (c : Chip) : Chip :=
  let c := { c with kln := { c.kln with lc := none } }
  let c := (c.put KLN_LC_STAT.TARGET 0 0).flag KLN_LC_STAT.BUSY 0 false
  (c.put KLN_LC_STAT.PHASE 0 0).put KLN_LC_STAT.STEP 0 0

/-- Kiln's start once VNVS is judged (R445): an interrupted transition goes on where the marks say, a valid word starts
normally, and anything else is LOCKED; so is a start that needs a resume with VNVS not good. -/
def Chip.lcStart (c : Chip) (vnvsGood : Bool) : Chip :=
  let w := c.get KLN_LC_WORD.VALUE 0
  let go := fun (t : Nat) (ph : LcPh) =>
    if vnvsGood then
      ({ c with kln := { c.kln with locked := false } }).lcEnter ⟨t, ph, true, true, false⟩
    else { c with kln := { c.kln with locked := true } }
  match [2, 3, 4, 5].find? (fun t => decide (c.lcMark t false ≠ 0) && decide (c.lcMark t true ≠ 0xF)) with
  | some t => go t (.step 1)
  | none =>
    match [2, 3, 4, 5].find? (fun t => decide (c.lcMark t true = 0xF) && decide (w ≠ lcPattern t) && decide (w &&& lcPattern t = w)) with
    | some t => go t .stateBurn
    | none => { c.flag KLN_LC_STAT.RESUMED 0 false with kln := { c.kln with locked := (lcOfWord w).isNone } }

/-! ## Paths -/

def portOf : Path → Option Nat
  | .portA => some 0
  | .portB => some 1
  | .spi => none

/-- Blocks whose registers lie in AON (R44). -/
def aonBlock (blk : Nat) : Bool := decide (blk = blkKLN ∨ blk = blkDRG ∨ blk = blkASH)

/-- Whether an access of a path to a block is served at all: in LOCKED and End of life the ports read KLN, DRG, ASH and
use the mailbox; in Blank no port trains (R429); in the safe state the ports read KLN, DRG, ASH and write ASH_CMD, the
SPI keeps the AON blocks (R389); a fenced port writes Ash only (R381). -/
def Chip.served (c : Chip) (p : Path) (blk : Nat) (isWrite isAshCmd : Bool) : Bool :=
  match portOf p with
  | none => if c.safe then aonBlock blk else true
  | some x =>
    let st := c.lcState
    let lc :=
      if st = lcBlank then false
      else if st = lcEnd ∨ st = lcLocked then decide (blk = blkSTK) || (aonBlock blk && !isWrite)
      else true
    let sf := !c.safe || (if isWrite then isAshCmd else aonBlock blk)
    let fn := !c.portFenced x || !isWrite || decide (blk = blkASH)
    lc && sf && fn

/-- A write to a register of a block: discarded where the access is not served; discarded with the access-error event
where the register's domain is off (R6, R44). -/
def Chip.hostWrite (c : Chip) (p : Path) (blk : Nat) (up : Bool) (f : Chip → Chip) : Chip :=
  if !c.served p blk true false then c
  else if !up then c.raise 0x09 blk
  else f c

/-- A write to a register of a slot channel, which lies in the slot's bank domain (R42, R87). -/
def Chip.slotWrite (c : Chip) (p : Path) (n : Nat) (f : Chip → Chip) : Chip :=
  c.hostWrite p blkHTH (c.bankPow (bankOf n)) f

end Sys2Proof.Machine
end

