-- ==== Sys2Proof/Machine/EmberCore.lean ====
section
/-! DEFINITION. Ember's contexts, its scheduling and its failures (R300–R325). -/

namespace Sys2Proof.Machine

/-! ## Facts -/

def esIDLE : Nat := 0
def esCHECKING : Nat := 1
def esTOKENS : Nat := 2
def esQUEUED : Nat := 3
def esRUNNING : Nat := 4
def esSUSPENDED : Nat := 5
def esWIPING : Nat := 6
def esDONE : Nat := 7
def esFENCED : Nat := 8

def Chip.ctxState (c : Chip) (k : Nat) : Nat := c.get EMB_CSTAT.STATE k
def Chip.setCtxState (c : Chip) (k st : Nat) : Chip := c.put EMB_CSTAT.STATE k st

/-- A context belongs to host software (R302). -/
def Chip.ctxHost (c : Chip) (k : Nat) : Bool := c.bit EMB_CFG.CTX_HOST 0 k

/-- A context holds a job. -/
def Chip.ctxJob (c : Chip) (k : Nat) : Bool :=
  !(decide (c.ctxState k = esIDLE) || decide (c.ctxState k = esDONE) || decide (c.ctxState k = esFENCED))

/-- A context is the second half of a pair job (R301). -/
def Chip.ctxPaired (c : Chip) (k : Nat) : Bool := decide (k % 2 = 1) && c.on EMB_JOB.PAIR (k - 1) && c.ctxJob (k - 1)

/-- A context may take a job: IDLE or DONE, not half of a pair job, no sealed wipe under way (R303, R316). -/
def Chip.ctxFree (c : Chip) (k : Nat) : Bool :=
  (decide (c.ctxState k = esIDLE) || decide (c.ctxState k = esDONE)) && !c.ctxPaired k && !(c.ctx k).isSealed

/-- FENCED of EMB_STAT: array clinker, CK_CARD unlocked, or PD17 off. -/
def Chip.arrayFenced (c : Chip) : Bool := c.on EMB_STAT.CLINKER 0 || !c.seq.cardLock || !c.domUp 17

/-- The pacing divisor of PD17's derate level (R298, R370). -/
def Chip.paceDiv (c : Chip) : Nat := 2 ^ c.get DRG_AVS_STAT.DER17 0

/-- The byte where a context's operand memory begins, and the words of a job's space. -/
def ctxBase (k : Nat) : Nat := 0x2000 * k
def Chip.ctxSpace (c : Chip) (k : Nat) : Nat := if c.on EMB_JOB.PAIR k then 2048 else 1024

/-- The regions of a context's job. -/
def Chip.regionsOf (c : Chip) (k : Nat) : ERegions :=
  ⟨c.ctxSpace k, c.get EMB_DST.BASE k, c.get EMB_DST.LEN k, c.get EMB_SCR.BASE k, c.get EMB_SCR.LEN k⟩

/-- Zero the destination and scratch regions of a context (R322). -/
def Chip.wipeRegions (c : Chip) (k : Nat) : Chip :=
  let g := c.regionsOf k
  (c.mem (.wipeOp (ctxBase k + 8 * g.dst) (8 * g.dlen))).mem (.wipeOp (ctxBase k + 8 * g.scr) (8 * g.slen))

/-! ## Ends of a job -/

/-- A job's outcome for the unit that gave it: a status and the words of its destination. Host jobs have none; they show
in the registers and the result window. -/
def Chip.jobReport (c : Chip) (k status : Nat) (bytes : List Byte) : Chip :=
  let x := c.ctx k
  let c := c.setCtx k { x with use := .host }
  match x.use with
  | .host => c
  | u => { c with ember := { c.ember with finished := c.ember.finished ++ [(u, status, bytes)] } }

/-- A job reaches DONE with a status; `words` are the data words that its window presents (R321). -/
def Chip.jobDone (c : Chip) (k status : Nat) (words : List Nat) : Chip :=
  let x := c.ctx k
  let c := c.setCtx k { x with
    hasTokens := false, started := false, aged := none,
    win := if c.ctxHost k then ⟨words, status, c.on EMB_JOB.ONE_SHOT k, true, false⟩ else WinX.init,
    shy := if words = [] then x.shy
      else if c.on EMB_JOB.ONE_SHOT k then some (c.get EMB_DST.BASE k, c.get EMB_DST.LEN k, c.on EMB_JOB.PAIR k) else none }
  let c := if c.ember.running = some k then { c with ember := { c.ember with running := none } } else c
  let c := (c.setCtxState k esDONE).put EMB_CSTAT.STATUS k status
  ((c.flag EMB_CSTAT.ABORT_PEND k false).flag EMB_CSTAT.AGED k false).incWrap EMB_JOBCNT.JOB_CNT 0

/-- A job ends without a result: its tokens go back if it has not started. -/
def Chip.jobFail (c : Chip) (k status cause : Nat) : Chip :=
  ((c.withdraw (.ember k)).put EMB_CSTAT.FAIL_CAUSE k cause).jobDone k status []

/-- A context goes to WIPING (R316, R322). -/
def Chip.jobWipe (c : Chip) (k : Nat) : Chip :=
  let c := c.withdraw (.ember k)
  let c := if c.ember.running = some k then { c with ember := { c.ember with running := none } } else c
  (c.wipeRegions k).setCtxState k esWIPING

/-- A failure fences a context that holds a job (R316, R323). -/
def Chip.jobFence (c : Chip) (k cause : Nat) : Chip :=
  if !c.ctxJob k then c else
  let c := ((c.withdraw (.ember k)).wipeRegions k).flag EMB_CSTAT.ABORT_PEND k false
  let c := c.flag EMB_CSTAT.AGED k false
  let c := if c.ember.running = some k then { c with ember := { c.ember with running := none } } else c
  let x := c.ctx k
  let c := c.setCtx k { x with hasTokens := false, started := false, aged := none,
                               win := if c.ctxHost k then ⟨[], stsFENCED, false, true, false⟩ else WinX.init }
  let c := (c.put EMB_CSTAT.STATUS k stsFENCED).put EMB_CSTAT.FAIL_CAUSE k cause
  (c.setCtxState k esFENCED).jobReport k stsFENCED []

/-- A context is fenced, with the job that runs in it: its own, or that of the pair whose second half it is (R301, R323). One that
holds no job of its own is wiped and FENCED too; its last status stays, and what its result window presented is gone (log
entry 84). -/
def Chip.ctxFence (c : Chip) (k cause : Nat) : Chip :=
  let c := if c.ctxPaired k then c.jobFence (k - 1) cause else c
  if c.ctxJob k then c.jobFence k cause
  else if c.ctxState k = esFENCED then c
  else
    let x := c.ctx k
    let c := c.setCtx k { x with win := { x.win with words := x.win.words.map (fun _ => 0) } }
    ((c.wipeRegions k).put EMB_CSTAT.FAIL_CAUSE k cause).setCtxState k esFENCED

/-- Every job ends with a status and a cause, and its regions are wiped (R323, R324). -/
def Chip.stopJobs (c : Chip) (status cause : Nat) : Chip :=
  c.forN 8 (fun c k =>
    if c.ctxJob k then ((((c.wipeRegions k).jobFail k status cause)).jobReport k status []) else c)

/-- Count a job that ended with ABORTED. -/
def Chip.countAbort (c : Chip) : Chip := c.incSat EMB_CNT.ABORT_CNT 0

/-! ## Starting a job -/

/-- Ask the damper for the tokens of a job (R312, R362, R364). -/
def Chip.jobTokens (c : Chip) (k b : Nat) : Chip :=
  let isLong := decide (c.get EMB_CFG.LONG_THR 0 * 4000 < b)
  let tier := if !c.ctxHost k then 0 else if isLong then 5 else 1
  let c := (c.put EMB_BEATS.BEATS k b).flag EMB_CSTAT.LONG k isLong
  let c := c.setCtx k { c.ctx k with rem := b, yields := 0, hasTokens := false, started := false, aged := none }
  (c.setCtxState k esTOKENS).request (.ember k) tier ((b + 999) / 1000 * c.cost 8) false

/-- GO on a context (R316). -/
def Chip.jobGo (c : Chip) (k : Nat) : Chip :=
  if !c.ctxFree k then ((c.flag EMB_CSTAT.CMD_REFUSED k true).refuse blkEMB) else
  let op := c.get EMB_JOB.OP k
  let c := if op = 3 then c.flag EMB_JOB.PAIR k true else c
  let c := if libOneShot op then c.flag EMB_JOB.ONE_SHOT k true else c
  let x := c.ctx k
  let c := c.setCtx k { x with goOrder := c.ember.nextGo, goUs := c.us, win := WinX.init, yields := 0, aged := none,
                               started := false, hasTokens := false, pace := c.paceDiv }
  let c := { c with ember := { c.ember with nextGo := c.ember.nextGo + 1 } }
  let c := (c.flag EMB_CSTAT.AGED k false).flag EMB_CSTAT.RERUN k false
  let c := ((c.put EMB_CSTAT.FAIL_CAUSE k 0).put EMB_LERR.RULE k 0).put EMB_LERR.WORD k 0
  let c := (c.put EMB_WAIT.SWITCHES k 0).put EMB_WAIT.WAIT_US k 0
  let c := c.put EMB_CSTAT.STATUS k stsNOTREADY
  let pairBad := c.on EMB_JOB.PAIR k
    && (decide (k % 2 = 1) || decide (c.ctxHost k ≠ c.ctxHost (k + 1)) || !c.ctxFree (k + 1))
  if pairBad then (c.jobFail k stsPROTOCOL 8).jobReport k stsPROTOCOL []
  else if c.arrayFenced then
    (c.jobFail k stsFENCED (if c.on EMB_STAT.CLINKER 0 then 2 else 6)).jobReport k stsFENCED []
  else if op = 0xFF then c.setCtxState k esCHECKING
  else
    match libOp op with
    | none => (c.jobFail k stsPROTOCOL 8).jobReport k stsPROTOCOL []
    | some l =>
      let c := (c.put EMB_DST.BASE k l.dst).put EMB_DST.LEN k l.d
      let c := (c.put EMB_SCR.BASE k l.scr).put EMB_SCR.LEN k l.s
      c.jobTokens k l.b

/-- Start Stoker's waiting work in the lowest-numbered free contexts that belong to Stoker (R302); its inputs go in after GO and
before the first beat (R303). Where every context of Stoker is FENCED, no job of its can run any more: it ends with FENCED (R323). -/
def Chip.stokerStart1 (c : Chip) : Chip :=
  let mine := (List.range 8).filter (fun k => !c.ctxHost k)
  match c.ember.stokerQ, mine.find? c.ctxFree with
  | (u, op, bytes) :: rest, some k =>
    let c := { c with ember := { c.ember with stokerQ := rest } }
    let c := c.setCtx k { c.ctx k with use := u, isSealed := false }
    let c := ((c.put EMB_JOB.OP k op).flag EMB_JOB.PAIR k false).jobGo k
    if c.ctxJob k then
      (c.setCtx k { c.ctx k with isSealed := u.seals }).mem (.opWrite (ctxBase k) bytes)
    else c
  | (u, _, _) :: rest, none =>
    if mine ≠ [] ∧ mine.all (fun k => decide (c.ctxState k = esFENCED)) then
      { c with ember := { c.ember with stokerQ := rest, finished := c.ember.finished ++ [(u, stsFENCED, [])] } }
    else c
  | [], _ => c

def Chip.stokerStart (c : Chip) : Chip := c.forN 8 (fun c _ => c.stokerStart1)

/-- Stoker gives Ember a job. -/
def Chip.stokerJob (c : Chip) (u : EmbUse) (op : Nat) (bytes : List Byte) : Chip :=
  { c with ember := { c.ember with stokerQ := c.ember.stokerQ ++ [(u, op, bytes)] } }.stokerStart

/-- A unit has work with Ember that has not ended, or whose end it has not taken yet. -/
def Chip.hasJob (c : Chip) (u : EmbUse) : Bool :=
  c.ember.stokerQ.any (fun w => decide (w.1 = u)) || c.ember.finished.any (fun w => decide (w.1 = u))
    || (List.range 8).any (fun k => decide ((c.ctx k).use = u) && c.ctxJob k)

/-- ABORT on a context (R316); in CHECKING and WIPING the table has no row for it, and it does nothing (R20). -/
def Chip.jobAbort (c : Chip) (k : Nat) : Chip :=
  let st := c.ctxState k
  if st = esIDLE ∨ st = esDONE ∨ st = esFENCED then (c.flag EMB_CSTAT.CMD_REFUSED k true).refuse blkEMB
  else if st = esRUNNING then c.flag EMB_CSTAT.ABORT_PEND k true
  else if st = esCHECKING ∨ st = esWIPING then c
  else c.jobWipe k

/-- Stoker abandons work (R322): what waits is dropped, jobs are aborted, results discarded. -/
def Chip.abandonJobs (c : Chip) (mine : EmbUse → Bool) : Chip :=
  let c := { c with ember := { c.ember with stokerQ := c.ember.stokerQ.filter (fun w => !mine w.1),
                                            finished := c.ember.finished.filter (fun w => !mine w.1) } }
  c.forN 8 (fun c k =>
    if mine (c.ctx k).use && c.ctxJob k then (c.setCtx k { c.ctx k with use := .host }).jobAbort k else c)

/-- The Cinder work of a slot. -/
def EmbUse.isCinder (n : Nat) : EmbUse → Bool
  | .cinderGen m | .cinderVerify m | .cinderZss m | .cinderZee m => decide (m = n)
  | .host | .kzGen _ | .kzVerify _ | .kzZss _ | .kzZee _ | .attest _ | .identity => false

/-- The keying work of a Kuzagan link. -/
def EmbUse.isKeying (n : Nat) : EmbUse → Bool
  | .kzGen m | .kzVerify m | .kzZss m | .kzZee m => decide (m = n)
  | .host | .cinderGen _ | .cinderVerify _ | .cinderZss _ | .cinderZee _ | .attest _ | .identity => false

/-- Stoker abandons the Cinder work of a slot (R96). -/
def Chip.abandonCinder (c : Chip) (n : Nat) : Chip := (c.withdraw (.cordJob n)).abandonJobs (EmbUse.isCinder n)

/-! ## The array -/

/-- The order of R313: AGED first in order, then fewest beats to run, then earliest GO. -/
def Chip.before (c : Chip) (i j : Nat) : Bool :=
  let x := c.ctx i
  let y := c.ctx j
  match x.aged, y.aged with
  | some a, some b => decide (a < b)
  | some _, none => true
  | none, some _ => false
  | none, none => decide (x.rem < y.rem) || (decide (x.rem = y.rem) && decide (x.goOrder < y.goOrder))

/-- The job that the rules choose among the queued and suspended jobs. -/
def Chip.chosen (c : Chip) : Option Nat :=
  ((List.range 8).filter (fun k => decide (c.ctxState k = esQUEUED ∨ c.ctxState k = esSUSPENDED))).foldl
    (fun best k => match best with
      | none => some k
      | some b => if c.before k b then some k else some b) none

/-- A job takes the array; `afterYield` says that another job gave it up (R311). Its tokens are spent at its first beat. A job that
is AGED stays so, and gives the array up no more (R313). -/
def Chip.takeArray (c : Chip) (k : Nat) (afterYield : Bool) : Chip :=
  let x := c.ctx k
  let isSwitch := afterYield || x.started
  let c := if x.started then c
    else (c.put EMB_WAIT.WAIT_US k (min (c.us - x.goUs) 0xFFFFFF)).spend (.ember k)
  let c := c.setCtx k { x with started := true, pace := if x.started then x.pace else c.paceDiv }
  let c := if isSwitch then (c.incSat EMB_WAIT.SWITCHES k).incWrap EMB_CNT.SWITCH_CNT 0 else c
  { c.setCtxState k esRUNNING with ember := { c.ember with running := some k } }

/-- The free array takes the next job (R313). -/
def Chip.arrayNext (c : Chip) : Chip :=
  if c.ember.running.isSome || c.arrayFenced then c else
  match c.chosen with
  | some k => c.takeArray k false
  | none => c

/-- The running job reaches a YIELD with `rem` beats still to run (R313, R316, R325). -/
def Chip.arrayYield (c : Chip) (rem : Nat) : Chip :=
  match c.ember.running with
  | none => c
  | some r =>
    let c := c.setCtx r { c.ctx r with rem := rem, yields := (c.ctx r).yields + 1 }
    if c.on EMB_CSTAT.ABORT_PEND r then
      let c := c.jobWipe r
      match c.chosen with
      | some k => c.takeArray k true
      | none => c
    else
      match c.chosen with
      | some k =>
        if (c.ctx r).aged.isNone && ((c.ctx k).aged.isSome || decide ((c.ctx k).rem < rem)) then
          (c.setCtxState r esSUSPENDED).takeArray k true
        else c
      | none => c

/-- The array becomes a clinker: every job ends with FENCED, and every later GO does until a cold reset (R323). -/
def Chip.arrayClinker (c : Chip) (col : Nat) : Chip :=
  let c := c.flag EMB_STAT.CLINKER 0 true
  (c.forN 8 (fun c k => c.jobFence k 2)).raise 0x51 col (c.word .EMB_EVT 0)

/-- A column fault of the running job (R323). -/
def Chip.columnFaultAt (c : Chip) (col : Nat) : Chip :=
  match c.ember.running with
  | none => c
  | some r =>
    if c.get EMB_STAT.SPARE_COL 0 ≠ 0x1F ∧ !c.on EMB_CSTAT.RERUN r then
      let c := (c.putBit EMB_COLMAP.RETIRED 0 col true).put EMB_STAT.SPARE_COL 0 0x1F
      let c := { c with wear := { c.wear with writePend := true } }
      let c := c.setCtx r { c.ctx r with rem := c.get EMB_BEATS.BEATS r, yields := 0 }
      ((c.flag EMB_CSTAT.RERUN r true).flag EMB_EVT.RERUN 0 true).embEvt EMB_EVT.COL_RETIRED col
    else c.arrayClinker col

/-- Operand memory is zeroed from AON and every job ends with ABORTED (R324). -/
def Chip.emberZeroise (c : Chip) : Chip :=
  let c := c.forN 8 (fun c k => if c.ctxJob k then (((c.countAbort).jobFail k stsABORTED 0).jobReport k stsABORTED []) else c)
  let c := c.forN 8 (fun c k =>
    let x := c.ctx k
    c.setCtx k { x with isSealed := false, win := { x.win with words := x.win.words.map (fun _ => 0) } })
  (c.mem (.wipeOp 0 0x10000)).embEvt EMB_EVT.WIPE_ALL 0

end Sys2Proof.Machine
end

