-- ==== Sys2Proof/Machine/Cord.lean ====
section
/-! DEFINITION. Cord's sessions (R268–R296): the wrap and unwrap of SCP03, key derivation, certificates, retirement and
zeroisation of keys. -/

namespace Sys2Proof.Machine

/-! ## Command APDUs -/

/-- A command APDU taken apart (ISO/IEC 7816-3 cases 1 to 4, short and extended). -/
structure Apdu where
  cla : Nat
  ins : Nat
  p1 : Byte
  p2 : Byte
  data : List Byte
  hasLe : Bool
  le : Nat
  ext : Bool
  deriving DecidableEq, Repr

/-- Take a command APDU apart; none where its length matches no case. -/
def apduOf (b : List Byte) : Option Apdu :=
  let mk := fun (data : List Byte) (hasLe : Bool) (le : Nat) (ext : Bool) =>
    some ⟨(b.getD 0 0).toNat, (b.getD 1 0).toNat, b.getD 2 0, b.getD 3 0, data, hasLe, le, ext⟩
  let n := b.length
  let l1 := (b.getD 4 0).toNat
  let l2 := beNat ((b.drop 5).take 2)
  if n < 4 then none
  else if n = 4 then mk [] false 0 false
  else if n = 5 then mk [] true (if l1 = 0 then 256 else l1) false
  else if l1 ≠ 0 then
    if n = 5 + l1 then mk (b.drop 5) false 0 false
    else if n = 6 + l1 then mk ((b.drop 5).take l1) true (if (b.getD (n - 1) 0) = 0 then 256 else (b.getD (n - 1) 0).toNat) false
    else none
  else if n = 7 then mk [] true (if l2 = 0 then 65536 else l2) true
  else if l2 = 0 then none
  else if n = 7 + l2 then mk (b.drop 7) false 0 true
  else if n = 9 + l2 then
    let le := beNat (b.drop (7 + l2))
    mk ((b.drop 7).take l2) true (if le = 0 then 65536 else le) true
  else none

/-- A command that host software may not send (R273). -/
def apduPolicy (a : Apdu) : Bool :=
  ((decide (a.cla = 0x80) || decide (a.cla = 0x84)) && (decide (a.ins = 0x3C) || decide (a.ins = 0x3E)))
    || (decide (a.cla = 0xF4) && decide (a.ins = 0x2C))

/-- A CLA or INS that secure messaging refuses (R281 step 1). -/
def apduRefused (a : Apdu) : Bool :=
  decide (a.cla % 16 ≠ 0) || decide (a.ins / 16 = 6) || decide (a.ins / 16 = 9)

/-- Padding of ISO/IEC 9797-1 method 2. -/
def padBytes (m : List Byte) : List Byte :=
  let p := m ++ [0x80]
  p ++ List.replicate ((16 - p.length % 16) % 16) 0

/-- Remove that padding; none where it is invalid. -/
def unpadBytes (m : List Byte) : Option (List Byte) :=
  let r := m.reverse.dropWhile (fun b => decide (b = 0))
  match r with
  | b :: rest => if b = 0x80 && decide (m.length - rest.length ≤ 16) then some rest.reverse else none
  | [] => none

/-- Protect a command (R281): the protected APDU and the new MCV, or none where the limits of R281 refuse it. The counter
is the one the command takes. -/
def wrapApdu (k : KeySet) (onT0 : Bool) (a : Apdu) : Option (List Byte × List Byte) :=
  if apduRefused a then none else
  let icv := aes256 k.enc (beBytes 16 (k.counter + 1))
  let enc := if a.data = [] then [] else cbcEnc k.enc icv (padBytes a.data)
  let lc := enc.length + 8
  let ext := a.ext || decide (255 < lc)
  let lcBytes := if ext then [0] ++ beBytes 2 lc else beBytes 1 lc
  let head := [BitVec.ofNat 8 (a.cla ||| 4), BitVec.ofNat 8 a.ins, a.p1, a.p2] ++ lcBytes
  let mac := cmac256 k.mac (k.mcv ++ head ++ enc)
  let le := if !a.hasLe then [] else if ext then [0, 0] else [0]
  let out := head ++ enc ++ mac.take 8 ++ le
  if 4096 < out.length ∨ (onT0 ∧ 255 < lc) then none else some (out, mac)

/-- Unprotect a response of data and status word (R282): none for INTEGRITY. -/
def unwrapRsp (k : KeySet) (rsp : List Byte) : Option (List Byte × Nat) :=
  if rsp.length < 10 then none else
  let sw := rsp.drop (rsp.length - 2)
  let mac := (rsp.drop (rsp.length - 10)).take 8
  let data := rsp.take (rsp.length - 10)
  if (cmac256 k.rmac (k.mcv ++ data ++ sw)).take 8 ≠ mac then none
  else if data = [] then some ([], beNat sw)
  else if data.length % 16 ≠ 0 then none
  else
    let icv := aes256 k.enc ([0x80] ++ (beBytes 16 k.counter).drop 1)
    (unpadBytes (cbcDec k.enc icv data)).map (fun d => (d, beNat sw))

/-! ## Key derivation (R276, R278) -/

/-- A derived key of two CMAC blocks over the 64-byte input. -/
def kdfKey (kdk th : List Byte) (const : Nat) : List Byte :=
  let blk := fun (j : Nat) =>
    cmac256 kdk (List.replicate 11 0 ++ [BitVec.ofNat 8 const, 0, 1, 0, BitVec.ofNat 8 j] ++ th)
  blk 1 ++ blk 2

/-- A key set from Zee, Zss, the nonces and TH, with the confirmation keys of device and card. -/
def deriveKeys (zee zss nd nc th : List Byte) : KeySet × List Byte × List Byte :=
  let kdk := (hmac384 (nd ++ nc) (zee ++ zss)).take 32
  (⟨kdfKey kdk th 0x04, kdfKey kdk th 0x06, kdfKey kdk th 0x07, kdfKey kdk th 0x50, 0, th.take 16, th⟩,
   kdfKey kdk th 0x51, kdfKey kdk th 0x52)

/-! ## Certificates (R268–R270) -/

def certLen : Nat := 233
def certKind (cert : List Byte) : Nat := (cert.getD 1 0).toNat
def certRole (cert : List Byte) : Nat := (cert.getD 2 0).toNat
def certGen (cert : List Byte) : Nat := beNat ((cert.drop 4).take 4)
def certSerial (cert : List Byte) : Nat := beNat ((cert.drop 8).take 8)
def certIssuer (cert : List Byte) : List Byte := (cert.drop 16).take 8
def certSubject (cert : List Byte) : List Byte := (cert.drop 24).take 16
def certPub (cert : List Byte) : List Byte := (cert.drop 40).take 97
def certSig (cert : List Byte) : List Byte := (cert.drop 137).take 96

/-- The first check of R270. -/
def certForm (cert : List Byte) : Bool :=
  decide (cert.length = certLen) && decide (cert.getD 0 0 = 0xC1) && decide (cert.getD 3 0 = 0)
    && decide (cert.getD 40 0 = 4)

/-- The issuer key that a certificate names among the accepted ones. -/
def certKey (issuers : List (List Byte)) (cert : List Byte) : Option (List Byte) :=
  issuers.find? (fun k => decide ((sha384 k).take 8 = certIssuer cert))

/-- The pin of a slot (R270): its four words, in byte order, or none where all are zero. -/
def Chip.pinOf (c : Chip) (n : Nat) : Option (List Byte) :=
  let b := (List.range 4).flatMap (fun w => leBytes 4 (c.get KLN_PIN.SUBJECT (4 * n + w)))
  if b.all (fun x => decide (x = 0)) then none else some b

/-- What the checks of R270 after the signature find: a CINDER_ERR code, or 0. -/
def Chip.certRest (c : Chip) (n : Nat) (cert : List Byte) : Nat :=
  let kindOk := if isOperator n then decide (certKind cert = 2) && decide (certRole cert ≠ 0) && decide (certRole cert ≠ 0xFF)
    else decide (certKind cert = 1)
  if !kindOk then 0x07
  else if certGen cert < c.get CRD_GEN_FLOOR.FLOOR (if isOperator n then 1 else 0) then 0x08
  else match c.pinOf n with
    | some p => if p ≠ certSubject cert then 0x09 else 0
    | none => 0

/-! ## Sessions -/

def ssNONE : Nat := 0
def ssESTABLISHING : Nat := 1
def ssACTIVE : Nat := 2
def ssREKEYING : Nat := 3
def ssOVERLAP : Nat := 4
def ssREESTABLISHING : Nat := 5

/-- Zeroise the key sets and transient values of a slot (R283, R290). -/
def Chip.zeroSlot (c : Chip) (n : Nat) : Chip :=
  c.modSess n (fun s => { s with zss := [], cur := none, old := none, cin := none, rekeyRetry := false })

/-- Retire the session of a slot (R97, R290, R294): its keys are zeroised and Stoker abandons its Cinder work. -/
def Chip.retireSession (c : Chip) (n : Nat) : Chip :=
  let c := (c.abandonCinder n).zeroSlot n
  let c := (c.put CRD_SESS_STAT.SESS n ssNONE).flag CRD_SESS_STAT.OLD_HELD n false
  c.flag CRD_SESS_STAT.REKEY_DUE n false

/-- The keys of a Kuzagan link are gone: KEYED ends, keying starts over with its Ember work abandoned, and the peer's
live bits are held clear (R476). -/
def Chip.kzUnkey (c : Chip) (k : Nat) : Chip :=
  let x := c.kzOf k
  let c := ((c.withdraw (.cordJob (64 + k))).abandonJobs (EmbUse.isKeying k)).flag DRG_KZ_STAT.KEYED k false
  let c := c.setKz k { x with nonce := [], eph := [], k1sent := [], k1peer := [], certOk := false, zee := [], zss := [], txKey := [],
                              rxKey := [], myCf := [], peerCf := [], k2ok := false, txCtr := 0, rxCtr := 0, gcmFails := 0 }
  let d := c.peerOf k
  (c.put FLU_LIVE.LIVE (2 * d) 0).put FLU_LIVE.LIVE (2 * d + 1) 0

/-- The whole key store, the lanes and the DRBG are zeroised (R291). The cause is that of CRD_ZSTAT; 0 at a power-up of
PD16, which does not count. -/
def Chip.zeroStore (c : Chip) (cause : Nat) : Chip :=
  let c := c.forN 64 (fun c n => (c.retireSession n).modSess n (fun s => { s with cache := none }))
  let c := { c.forN 3 Chip.kzUnkey with cord := { c.cord with drbg := [], drbgReqs := 0 } }
  let c := (c.flag CRD_STAT.DRBG_READY 0 false).crdEvt CRD_EVT.ZEROISED
  if cause = 0 then c else (c.incSat CRD_ZSTAT.ZERO_CNT 0).put CRD_ZSTAT.LAST_CAUSE 0 cause

/-- The DRBG is seeded or reseeded with 384 bits (R292). -/
def Chip.reseed (c : Chip) : Chip :=
  let seed := Config.freeBytes c.free 48
  { c.draw with cord := { c.cord with drbg := seed, drbgReqs := 0 } }.incWrap CRD_DRBG_CNT.RESEED_CNT 0

/-- A request to the DRBG; the one that makes 2^16 since the last reseed is followed by one (R292). -/
def Chip.drbgRequest (c : Chip) : Chip :=
  let k := c.cord.drbgReqs + 1
  if 65536 ≤ k then c.reseed else { c with cord := { c.cord with drbgReqs := k } }

/-- Random bytes of the DRBG (R292). -/
def Chip.random (c : Chip) (len : Nat) : List Byte × Chip := (Config.freeBytes c.free len, c.draw.drbgRequest)

end Sys2Proof.Machine
end

