-- ==== Sys2Proof/Machine/Slot.lean ====
section
/-! DEFINITION. The sequencer of a slot channel (R85–R119): activation triggers, warm reset of the card, the
deactivation sequences with their precedence, recovery, and the slot reset. -/

namespace Sys2Proof.Machine

/-! ## Causes (R119) -/

def cauHOST : Nat := 0x01
def cauREMOVAL : Nat := 0x02
def cauSHORT : Nat := 0x03
def cauVCC : Nat := 0x04
def cauIO : Nat := 0x05
def cauKILL : Nat := 0x06
def cauFENCE : Nat := 0x07
def cauNOATR : Nat := 0x08
def cauATRBAD : Nat := 0x09
def cauNEXT : Nat := 0x0A
def cauPOLREJ : Nat := 0x0B
def cauPOLTMO : Nat := 0x0C
def cauNEGTMO : Nat := 0x0D
def cauNEGFAIL : Nat := 0x0E
def cauRECOVERY : Nat := 0x0F
def cauSLOTRST : Nat := 0x10
def cauWARMDEV : Nat := 0x11
def cauCLINKER : Nat := 0x12
def cauLEG : Nat := 0x13
def cauDISABLED : Nat := 0x14

/-! ## Contacts and clock -/

/-- The card clock divider for a frequency in units of 10 kHz, in 1/1024: the step nearest to 800 MHz / f, within 40 to
800 (R124). -/
def clkDivOf (f10 : Nat) : Nat :=
  let q := (2 * 80000 * 1024 + f10) / (2 * f10)
  min (max q (40 * 1024)) (800 * 1024)

/-- ACT_CLK in units of 10 kHz (R119). -/
def actClk (code : Nat) : Nat := [400, 100, 200, 500].getD code 400

/-- Run the card clock at a frequency (R124); the edges change with it: fast above 4.0 MHz, and always with CLK_EDGE = 1 (R62). -/
def Chip.setClk (c : Chip) (n f10 : Nat) : Chip :=
  let d := clkDivOf f10
  let c := c.modSlot n (fun x => { x with fastEdges := x.clkEdge || decide (400 < f10) })
  ((c.put HTH_PROT_CLKDIV.DIV_INT n (d / 1024)).put HTH_PROT_CLKDIV.DIV_FRAC n (d % 1024)).flag HTH_PROT_CLKDIV.RUN n true

/-- The pull-up of I/O in kΩ, none where it is disconnected: it is connected only while the VCC switch is closed (R63). -/
def Chip.ioPull (c : Chip) (n : Nat) : Option Nat :=
  if c.on HTH_SLOT_ESTAT.SW_CLOSED n then some (if (c.slot n).ioPu then 20 else 10) else none

/-- A contact changes. -/
def Chip.contact (c : Chip) (n : Nat) (k : Contact) (level : Bool) : Chip := c.emit (.contact n k level)

/-- All contacts go inactive in the order of the sequence: a cut opens the switch first (R106), the others take the
signals low first (R101, R103, R105). The discharge comes on with the switch opening (R57). -/
def Chip.contactsLow (c : Chip) (n : Nat) (cut : Bool) : Chip :=
  let sig := fun (c : Chip) =>
    let c := (((c.contact n .rst false).contact n .clk false).contact n .io false)
    if isOperator n then c else c.contact n .lane false
  let sw := fun (c : Chip) => (c.contact n .vcc false).contact n .discharge true
  let c := if cut then sig (sw c) else sw (sig c)
  let c := (c.flag HTH_SLOT_ESTAT.SW_CLOSED n false).flag HTH_SLOT_ESTAT.DISCHARGE n true
  let c := (c.put HTH_SLOT_ESTAT.CLASS_APPLIED n 0).flag HTH_SLOT_ESTAT.LIMITING n false
  c.flag HTH_PROT_CLKDIV.RUN n false

/-- The lane ends (R182): LANE returns to IDLE; an attempt that was stopped shows in FAIL_PHASE. -/
def Chip.stopLane (c : Chip) (n : Nat) : Chip :=
  if isOperator n then c else
  let c := if c.get HTH_TURF_STAT.LANE n = 2 then c.put HTH_TURF_LAST.FAIL_PHASE n 4 else c
  let c := (c.put HTH_TURF_STAT.LANE n 0).put HTH_TURF_STAT.RATE n 0
  (c.flag HTH_TURF_STAT.SEQ n false).modSlot n (fun x => { x with tf := TurfX.init })

/-! ## Activation (R89–R92) -/

/-- The conditions of R89 on a slot in OFF. -/
def Chip.actReady (c : Chip) (n : Nat) : Bool :=
  c.slotEn n && c.domUp (bankOf n) && decide (c.slotState n = stOFF) && !c.slotFenced n
    && (!isOperator n || (c.pres n && !c.on HTH_SLOT_STAT.INS_PEND n))
    && !c.on HTH_SLOT_STAT.REACT_WAIT n && c.seq.cardLock

/-- No slot of the bank is in RAMP (R90). -/
def Chip.bankFree (c : Chip) (b : Nat) : Bool := (slotsOf b).all (fun n => decide (c.slotState n ≠ stRAMP))

/-- An activation trigger on a slot in OFF: ACT_PEND is set and inrush budget requested (R88, R91, R362). -/
def Chip.trigger (c : Chip) (n : Nat) : Chip :=
  if c.slotState n = stOFF ∧ !c.on HTH_SLOT_STAT.ACT_PEND n then
    let k := 4 + c.trialClass n
    ((c.flag HTH_SLOT_STAT.ACT_PEND n true).flag HTH_SLOT_STAT.BUDGET_WAIT n true).request
      (.activation n) 4 (c.cost k) false
  else c

/-- A pending activation and its budget request are withdrawn (R91, R102). -/
def Chip.untrigger (c : Chip) (n : Nat) : Chip :=
  if c.on HTH_SLOT_STAT.ACT_PEND n then
    ((c.withdraw (.activation n)).flag HTH_SLOT_STAT.ACT_PEND n false).flag HTH_SLOT_STAT.BUDGET_WAIT n false
  else c

/-- The ATR buffer is cleared (R94), and the protocol parameters return to those of activation (R123). -/
def Chip.clearAtr (c : Chip) (n : Nat) : Chip :=
  let c := (c.resetReg .HTH_SLOT_ATRLEN n).resetReg .HTH_PROT_STAT n
  let c := c.resetReg .HTH_PROT_WT n
  c.modSlot n (fun x => { x with atr := [], atrDone := false, spoke := false, clockPend := false, pps := [], neg := .none,
                                 t0 := T0X.init, t1 := T1X.init, tf := TurfX.init,
                                 held := [] })

/-! ## Ends of what a slot carries -/

/-- A leg that a slot gives back unsent: redirected, or answered to the peer (R107, R254, R255). -/
def Chip.giveBack (c : Chip) (n : Nat) (src : LegSrc) : Chip :=
  match src with
  | .entry uid second => c.redirect uid second
  | .peer k tag => c.forwardRsp k tag (64 * c.grp.dev + n) (if c.liveLocal n then stsSLOTINACTIVE else stsFENCED) []

/-- A sent leg that ends at a slot: to Flue, or to the peer as data and status word (R475). -/
def Chip.legResult (c : Chip) (n : Nat) (src : LegSrc) (status : Nat) (rsp : List Byte) (sw startUs : Nat) : Chip :=
  match src with
  | .entry uid second => c.legEnd uid second status rsp sw (c.us - startUs)
  | .peer k tag =>
    c.forwardRsp k tag (64 * c.grp.dev + n) status (if status = stsOK then rsp ++ beBytes 2 sw else [])

/-- The exchange that a slot carries or waits to carry is cut (R107): a sent leg ends with `status`, an unsent one is
given back with its budget. -/
def Chip.cutExchange (c : Chip) (n : Nat) (status : Nat) : Chip :=
  let x := c.slot n
  let c := (c.withdraw (.mcmd n)).modSlot n (fun x => { x with wait := none, cur := none, t0 := T0X.init, t1 := T1X.init })
  let c := if c.slotState n = stOFF then c else c.flag HTH_SLOT_STAT.BUDGET_WAIT n false
  let one := fun (c : Chip) (e : Option Exch) =>
    match e with
    | none => c
    | some ex =>
      match ex.use with
      | .leg src => if ex.sent then c.legResult n src status [] 0 ex.startUs else c.giveBack n src
      | .dozeResume src => c.giveBack n src
      | _ => c
  one (one c x.cur) x.wait

/-! ## Deactivation (R101–R109) -/

/-- Precedence of the sequences (R109). -/
def SeqKind.rank : SeqKind → Nat
  | .kill => 1
  | .fence => 2
  | .fault => 3
  | .removal => 4
  | .commanded => 6

/-- The status of a sent leg that a sequence cuts (R107). -/
def cutStatus (k : SeqKind) (cause : Nat) : Nat :=
  match k with
  | .removal => stsSLOTINACTIVE
  | .fault => stsSLOTINACTIVE
  | .kill => stsFENCED
  | .fence => stsFENCED
  | .commanded => if cause = cauCLINKER then stsFENCED else stsABORTED

/-- The event bits of a sequence that runs (R119). -/
def Chip.seqBits (c : Chip) (n : Nat) (k : SeqKind) : Chip :=
  let c := if k = .commanded then c else c.slotEvt HTH_SLOT_EVT.EMERG n
  if k = .removal then c.slotEvt HTH_SLOT_EVT.REMOVED n else c

/-- A deactivation sequence starts, or meets the one that runs (R88, R97, R109, R119). The contacts go low in the order of the
sequence at once; an electrical fault that comes before INACTIVE rises is taken to come before an ordered sequence has opened the
switch (log entry 128). -/
def Chip.startDeact (c : Chip) (n : Nat) (k : SeqKind) (cause : Nat) : Chip :=
  let st := c.slotState n
  if st = stDEACT then
    let c := if c.get HTH_SLOT_CAUSE.SECOND n = 0 then c.put HTH_SLOT_CAUSE.SECOND n cause else c
    match (c.slot n).seq with
    | some r =>
      if k.rank < r.rank then
        let cut := decide (k = .kill ∨ k = .fence)
        (c.modSlot n (fun x => { x with seq := some k, opening := x.opening && !cut, armed := x.armed && !cut })).seqBits n k
      else c
    | none => c
  else if 1 ≤ st ∧ st ≤ 7 then
    let c := (c.put HTH_SLOT_CAUSE.CAUSE n cause).put HTH_SLOT_CAUSE.SECOND n 0
    let c := c.put HTH_SLOT_CAUSE.STATE_AT n st
    let c := c.setSlotState n stDEACT
    let meas := (c.slot n).measuring
    let closed := c.on HTH_SLOT_ESTAT.SW_CLOSED n
    let c := c.modSlot n (fun x => { x with seq := some k, measuring := false, measAtRamp := false, rstHigh := false, rampDone := false,
                                            opening := closed && !decide (k = .kill ∨ k = .fence),
                                            armed := x.armed && !decide (k = .kill ∨ k = .fence),
                                            exchWait := none, clockPend := false, pps := [], neg := .none })
    let c := if meas then c.flag HTH_LEG_STAT.MEAS_VALID n false else c
    let c := c.flag HTH_SLOT_STAT.EXCH_WAIT n false
    let c := (c.seqBits n k).retireSession n
    let c := (c.contactsLow n (decide (k = .kill ∨ k = .fence))).stopLane n
    (c.cutExchange n (cutStatus k cause)).evict n
  else c

/-- The class of the next attempt starts over at C, or at the one class of CLASS_MODE (R98). -/
def Chip.trialReset (c : Chip) (n : Nat) : Chip := if isOperator n then c.put HTH_SLOT_STAT.TRIAL_CLASS n 3 else c

/-- A requested leg measurement stops: MEAS_DONE sets, and MEAS_VALID reads 0 (R82, R84). What it completed is recorded already
(R82, Chip.measEnd). -/
def Chip.stopMeas (c : Chip) (n : Nat) : Chip :=
  if (c.slot n).measuring && !(c.slot n).measAtRamp then
    let c := (c.flag HTH_LEG_CMD.MEAS_REQ n false).flag HTH_LEG_CMD.MEAS_DONE n true
    (c.flag HTH_LEG_STAT.MEAS_VALID n false).modSlot n (fun x => { x with measuring := false })
  else c

/-- A fence line or kill line is asserted on a slot (R88, R91, R98, R106): its live bit is gone already. -/
def Chip.cutSlot (c : Chip) (n : Nat) (k : SeqKind) : Chip :=
  let st := c.slotState n
  if st = stCLINKER then c
  else if st = stOFF ∨ st = stABSENT then
    ((((c.stopMeas n).untrigger n).trialReset n).modSlot n (fun x => { x with schedReact := false })).evict n
  else c.startDeact n k (if k = .kill then cauKILL else cauFENCE)

/-- The fence line of a slot and the kill line of its bank are gone: the slot in OFF is treated as at a power-up of its
bank for AUTO_ACT (R88, R108). A slot that SLOT_EN disables waits with ACT_PEND set (R89). -/
def Chip.liftSlot (c : Chip) (n : Nat) : Chip :=
  if !c.slotFenced n && decide (c.slotState n = stOFF) && c.on HTH_SLOT_CTL.AUTO_ACT n
      && (!isOperator n || (c.pres n && !c.on HTH_SLOT_STAT.INS_PEND n)) then c.trigger n
  else c

/-! ## Warm reset of a card (R100) -/

/-- A warm reset of the card takes effect: RESET_HELD, the session retired, RST low, CLK at ACT_CLK, the lane ended. -/
def Chip.warmCard (c : Chip) (n : Nat) : Chip :=
  let c := (c.setSlotState n stRESETHELD).retireSession n
  let c := c.flag HTH_SLOT_STAT.EXCH_WAIT n false
  let c := (c.stopLane n).clearAtr n
  let c := c.modSlot n (fun x => { x with coldAct := false, trial := false, exchWait := none, rstHigh := false })
  let c := if isOperator n then c else c.contact n .lane false
  (c.contact n .rst false).setClk n (actClk (c.get HTH_SLOT_CTL.ACT_CLK n))

/-! ## Recovery (R113) -/

/-- The slot escalates one level, and the level's action runs. -/
def Chip.escalate (c : Chip) (n : Nat) : Chip :=
  let lvl := min 3 (c.get HTH_SLOT_RCNT.ESC_LEVEL n + 1)
  let c := (c.put HTH_SLOT_RCNT.ESC_LEVEL n lvl).put HTH_SLOT_RCNT.FAIL_CNT n 0
  let c := c.slotEvt HTH_SLOT_EVT.ESCALATED n
  if lvl = 1 then c.warmCard n
  else if lvl = 2 then c.startDeact n .commanded cauRECOVERY
  else if isOperator n then (c.modSlot n (fun x => { x with noFollow := true })).startDeact n .commanded cauRECOVERY
  else (c.modSlot n (fun x => { x with toClinker := true })).startDeact n .commanded cauCLINKER

/-- The slot leaves BUSY: a command that waited in EXCH_WAIT runs, or the slot reads READY (R88, R110). -/
def Chip.leaveBusy (c : Chip) (n : Nat) : Chip :=
  match (c.slot n).exchWait with
  | some .deactivate => c.startDeact n .commanded cauHOST
  | some .warmReset => c.warmCard n
  | none => c.setSlotState n stREADY

/-! ## Slot reset (R111, R154, R185) -/

/-- The registers of the slot return to their reset values, but for those that R111, R154 and R185 keep; pending and
scheduled activations, a class trial and the insertion timer end. -/
def Chip.slotResetRegs (c : Chip) (n : Nat) : Chip :=
  let c := c.untrigger n
  let c := c.resetReg .HTH_SLOT_STAT n [0, 12]
  let c := [RegName.HTH_SLOT_CMD, .HTH_SLOT_EVT, .HTH_SLOT_CAUSE, .HTH_SLOT_ATRLEN, .HTH_PROT_STAT, .HTH_PROT_WT,
    .HTH_PROT_CLKDIV, .HTH_PROT_EVT, .HTH_PROT_LAST, .HTH_TURF_STAT, .HTH_TURF_EVT, .HTH_TURF_LAST].foldl
      (fun c r => c.resetReg r n) c
  let c := c.modSlot n (fun x => { x with schedReact := false, resetPend := false, reinserted := false, atr := [],
                                          atrDone := false, trial := false, noFollow := false, exchWait := none })
  c.evict n

/-- SLOT_RESET, also as Ash's recovery requests it (R111). Under a sequence that runs it is recorded as SECOND (R109). -/
def Chip.slotReset (c : Chip) (n : Nat) : Chip :=
  let st := c.slotState n
  if st = stOFF ∨ st = stABSENT ∨ st = stCLINKER then c.slotResetRegs n
  else
    (c.modSlot n (fun x => { x with resetPend := true })).startDeact n .commanded cauSLOTRST

/-! ## The clinker (R117) -/

/-- The rick cells that a slot holds are released (R81). -/
def Chip.releaseCells (c : Chip) (n : Nat) : Chip :=
  [HTH_BANK_RICK.SUPPLY_CELL, HTH_BANK_RICK.SIGNAL_CELL, HTH_BANK_RICK.LANE_CELL].foldl (fun c f =>
    let v := c.get f (bankOf n)
    if v / 64 = 1 ∧ v / 16 % 4 = n % 4 then
      { c.put f (bankOf n) 0 with wear := { c.wear with writePend := true } }
    else c) c

/-- The slot enters CLINKER: its fence line is held, its session retired, its live bit cleared (R81, R97, R117, R249). -/
def Chip.enterClinker (c : Chip) (n : Nat) : Chip :=
  let c := (c.untrigger n).setSlotState n stCLINKER
  let c := c.modSlot n (fun x => { x with seq := none, clinker := true, schedReact := false, toClinker := false,
                                          forcedRemoval := false, reinserted := false, measuring := false, armed := false, opening := false })
  let c := ((c.retireSession n).releaseCells n).put HTH_LEG_STAT.RICK_SUB n 0
  (c.slotEvt HTH_SLOT_EVT.CLINKER_IN n).evict n

end Sys2Proof.Machine
end

