-- ==== Sys2Proof/Machine/Atr.lean ====
section
/-! DEFINITION. The answer to reset (R128–R130), the class decision (R99), the Turf marker (R156, R157), the choice of
protocol and the PPS (R132–R134), and the card clock (R123–R127). -/

namespace Sys2Proof.Machine

/-! ## Transmission factors (R123) -/

/-- fmax in units of 10 kHz of an FI code; none for RFU. -/
def fiMax (code : Nat) : Option Nat :=
  [some 400, some 500, some 600, some 800, some 1200, some 1600, some 2000, none, none, some 500, some 750, some 1000,
    some 1500, some 2000, none, none].getD code none

/-- Di of a DI code; none for RFU. -/
def diVal (code : Nat) : Option Nat :=
  [none, some 1, some 2, some 4, some 8, some 16, some 32, some 64, some 12, some 20].getD code none

/-! ## The ATR -/

/-- Protocol error kinds (R154). -/
def kPARITY : Nat := 0x01
def kEDC : Nat := 0x02
def kLEN : Nat := 0x03
def kPCB : Nat := 0x04
def kSEQNO : Nat := 0x05
def kCWT : Nat := 0x06
def kBWT : Nat := 0x07
def kWT : Nat := 0x08
def kPROC : Nat := 0x09
def kTS : Nat := 0x0A
def kTCK : Nat := 0x0B
def kATRSTR : Nat := 0x0C
def kPPS : Nat := 0x0D
def kSVAL : Nat := 0x0E
def kOVER : Nat := 0x0F
def kNAD : Nat := 0x10
def kREQ : Nat := 0x11
def kATRVAL : Nat := 0x12
def kPARAM : Nat := 0x13

/-- An ATR as far as it has come: the bytes its structure announces so far, the interface bytes by letter (0 TA to 3
TD) and group, the T of each TD, and where the historical bytes begin; `full` once the structure is known whole. -/
structure Atr where
  need : Nat
  ifb : List ((Nat × Nat) × Nat)
  tds : List Nat
  histAt : Nat
  histLen : Nat
  tck : Bool
  full : Bool
  deriving DecidableEq, Repr

/-- Read the interface bytes of groups from `pos` on (R129). `y` announces the bytes of group `g`; at most 8 groups fit
into 33 bytes. -/
def atrGroups (b : List Byte) : Nat → Nat → Nat → Nat → Atr → Atr
  | 0, _, _, _, a => a
  | fuel + 1, pos, y, g, a =>
    let here := (List.range 4).filter (fun s => y.testBit s)
    let got := (here.zipIdx pos).filter (fun p => decide (p.2 < b.length))
    let a := { a with ifb := a.ifb ++ got.map (fun (p : Nat × Nat) => ((p.1, g), (b.getD p.2 0).toNat)) }
    let next := pos + here.length
    let low := next + a.histLen + a.tck.toNat
    if got.length < here.length then { a with need := low }
    else if y.testBit 3 then
      let td := (b.getD (next - 1) 0).toNat
      let a := { a with tds := a.tds ++ [td % 16], tck := a.tck || decide (td % 16 ≠ 0) }
      atrGroups b fuel next (td / 16) (g + 1) a
    else { a with need := low, histAt := next, full := true }

/-- Take an ATR apart. -/
def atrOf (b : List Byte) : Atr :=
  let a : Atr := ⟨2, [], [], 0, (b.getD 1 0).toNat % 16, false, false⟩
  if b.length < 2 then a else atrGroups b 33 2 ((b.getD 1 0).toNat / 16) 1 a

/-- An interface byte of an ATR. -/
def Atr.byte (a : Atr) (letter g : Nat) : Option Nat := tabFind a.ifb (letter, g)

/-- The first interface byte of a letter after a TD that names T, from the third group on (R129). -/
def Atr.first (a : Atr) (letter t : Nat) : Option Nat :=
  (List.range (a.tds.length + 2)).findSome? (fun g =>
    if 3 ≤ g ∧ a.tds[g - 2]? = some t then a.byte letter g else none)

/-- The values that R129 declares invalid. -/
def Atr.badValue (a : Atr) : Bool :=
  (match a.byte 0 1 with | some v => (fiMax (v / 16)).isNone || (diVal (v % 16)).isNone | none => false)
    || (match a.byte 0 2 with | some v => v.testBit 4 | none => false)
    || decide (a.byte 2 2 = some 0)
    || (match a.first 0 1 with | some v => decide (v = 0 ∨ v = 0xFF) | none => false)
    || (match a.first 1 1 with | some v => decide (9 < v / 16) | none => false)

/-- The protocols offered (R129): only T=0 where no TD names another than T=15. -/
def Atr.offered (a : Atr) : List Nat :=
  let ps := (a.tds.filter (fun t => decide (t ≠ 15))).eraseDups
  if ps = [] then [0] else ps

/-- The protocols a slot may use, in the order of preference (R130, R154). -/
def protOrder (module : Bool) (sel : Nat) : List Nat :=
  if module then [1] else [[1, 0], [1], [0, 1], [0]].getD sel []

/-- The protocol that PROT_SEL chooses among those offered (R133). -/
def Atr.choose (a : Atr) (module : Bool) (sel : Nat) : Option Nat :=
  (protOrder module sel).find? (fun t => a.offered.contains t)

/-- XOR of bytes. -/
def xorAll (b : List Byte) : Byte := b.foldl (fun x y => x ^^^ y) 0

/-- What an ATR that has come so far is (R128–R130): still arriving, faulty with a KIND, or complete. -/
inductive AtrJudge where
  | more | bad (kind : Nat) | whole
  deriving DecidableEq, Repr

def atrJudge (module : Bool) (sel : Nat) (b : List Byte) : AtrJudge :=
  let a := atrOf b
  if b.getD 0 0 ≠ 0x3B ∧ b.getD 0 0 ≠ 0x3F then .bad kTS
  else if a.badValue then .bad kATRVAL
  else if 33 < a.need then .bad kATRSTR
  else if b.length < a.need ∨ !a.full then .more
  else if a.tck && decide (xorAll (b.drop 1) ≠ 0) then .bad kTCK
  else if (a.choose module sel).isNone then .bad kATRVAL
  else .whole

/-- The class indicator: bit 0 A, bit 1 B, bit 2 C (R99). -/
def Atr.classes (a : Atr) : Option Nat := (a.first 0 15).map (fun v => v % 8)

/-- The class decision on a valid ATR (R99): stay, the next class of the trial, or ATR_INVALID. Classes are 1 A, 2 B,
3 C; a higher class has a lower number. -/
inductive ClassDec where
  | stay | next (cls : Nat) | decline
  deriving DecidableEq, Repr

def classDec (trial : Bool) (x : Nat) (ind : Option Nat) : ClassDec :=
  match ind with
  | none => .stay
  | some v =>
    if v.testBit (x - 1) then .stay
    else if trial then
      match [2, 1].find? (fun k => decide (k < x) && v.testBit (k - 1)) with
      | some k => .next k
      | none => .decline
    else .decline

/-! ## The Turf marker (R156, R157) -/

/-- The first marker object in the historical bytes: none, invalid, or rates, MAXF and TRN. -/
inductive Marker where
  | none | bad | ok (rates maxf trn : Nat)
  deriving DecidableEq, Repr

/-- Scan the compact-TLV objects. The first object that looks like a marker decides: a good one after a bad one does not count (log
entry 136). -/
def markScan : Nat → List Byte → Marker
  | 0, _ => .none
  | fuel + 1, h =>
    match h with
    | [] => .none
    | hd :: rest =>
      let len := hd.toNat % 16
      if hd.toNat / 16 = 5 ∧ 1 ≤ len ∧ rest.head? = some 0xC7 then
        let vr := (rest.getD 1 0).toNat
        let maxf := (rest.getD 2 0).toNat
        let trn := (rest.getD 3 0).toNat
        if len = 4 ∧ 4 ≤ rest.length ∧ vr / 16 = 1 ∧ !vr.testBit 3 ∧ vr % 8 ≠ 0 ∧ 1 ≤ maxf ∧ maxf ≤ 66 ∧ 1 ≤ trn
            ∧ trn ≤ 15 then .ok (vr % 8) maxf trn
        else .bad
      else markScan fuel (rest.drop len)

def markOf (hist : List Byte) : Marker :=
  match hist with
  | h :: rest => if h = 0x80 then markScan 16 rest else .none
  | [] => .none

/-- The historical bytes of a complete ATR. -/
def histOf (b : List Byte) : List Byte := let a := atrOf b; (b.drop a.histAt).take a.histLen

/-! ## PPS (R132–R134) -/

/-- The DI code that a PPS offers: the card's own, or that of the largest Di at most DI_MAX and the card's (R133). -/
def ppsDi (di diMax : Nat) : Nat :=
  let v := (diVal di).getD 1
  if v ≤ diMax then di
  else
    ([1, 2, 3, 4, 5, 6, 7, 8, 9].foldl (fun best k =>
      let w := (diVal k).getD 1
      if w ≤ diMax ∧ w ≤ v ∧ (diVal best).getD 0 < w then k else best) 1)

/-- The PPS request for a protocol and TA1. -/
def ppsReq (t ta1 diMax : Nat) : List Byte :=
  let p1 := ta1 / 16 * 16 + ppsDi (ta1 % 16) diMax
  let body : List Byte := if p1 = 0x11 then [0xFF, BitVec.ofNat 8 t] else [0xFF, BitVec.ofNat 8 (16 + t), BitVec.ofNat 8 p1]
  body ++ [xorAll body]

/-- What a PPS response means (R134): accepted, accepted with Fd and Dd, or refused. -/
inductive PpsJudge where
  | same | default | refused
  deriving DecidableEq, Repr

def ppsJudge (req rsp : List Byte) : PpsJudge :=
  if rsp = req then .same
  else if req.length = 4 ∧ rsp.length = 3 ∧ rsp.getD 0 0 = 0xFF ∧ rsp.getD 1 0 = (req.getD 1 0 &&& 0x0F) ∧ xorAll rsp = 0 then
    .default
  else .refused

/-! ## The clock change (R125, R127) -/

/-- The operating frequency in units of 10 kHz. -/
def Chip.opClk (c : Chip) (n fi : Nat) : Nat :=
  let op := min (c.get HTH_PROT_CFG.OP_CLK n) 2000
  if !isOperator n && c.on HTH_PROT_CFG.FMAX_IGN n then op else min op ((fiMax fi).getD 500)

/-- A protocol error in the ATR: recorded, and the slot deactivates with ATR_INVALID (R93, R130). -/
def Chip.atrFault (c : Chip) (n kind : Nat) : Chip := (c.protLast n 1 kind).startDeact n .commanded cauATRBAD

/-- A failure of NEGOTIATE with its error record: PHASE and KIND, then NEG_FAIL (R88, R152). -/
def Chip.negFault (c : Chip) (n phase kind : Nat) : Chip := (c.protLast n phase kind).startDeact n .commanded cauNEGFAIL

/-- The parameters of a complete ATR go to the protocol registers (R129, R154): N, WI, IFSC, BWI, CWI, EDC and SPEC_MODE.
FI and DI stay those of activation until the clock change. -/
def Chip.atrParams (c : Chip) (n : Nat) (b : List Byte) : Chip :=
  let a := atrOf b
  let c := (c.put HTH_PROT_STAT.N_EGT n ((a.byte 2 1).getD 0)).flag HTH_PROT_STAT.SPEC_MODE n (a.byte 0 2).isSome
  let c := (c.put HTH_PROT_WT.WI n ((a.byte 2 2).getD 10)).put HTH_PROT_STAT.IFSC n ((a.first 0 1).getD 32)
  let bc := (a.first 1 1).getD 0x4D
  let c := (c.put HTH_PROT_WT.BWI n (bc / 16)).put HTH_PROT_WT.CWI n (bc % 16)
  c.flag HTH_PROT_STAT.EDC n (((a.first 2 1).getD 0).testBit 0)

/-- The marker of a complete ATR on a module slot (R156, R157, R185). -/
def Chip.atrMarker (c : Chip) (n : Nat) (b : List Byte) : Chip :=
  if isOperator n then c else
  let c := (((c.put HTH_TURF_STAT.MOD_RATES n 0).put HTH_TURF_STAT.MOD_MAXF n 0).put HTH_TURF_STAT.MOD_TRN n 0).flag
    HTH_TURF_STAT.MARK_OK n false
  match markOf (histOf b) with
  | .none => c
  | .bad => c.turfEvt HTH_TURF_EVT.MARK_BAD n
  | .ok rates maxf trn =>
    (((c.put HTH_TURF_STAT.MOD_RATES n rates).put HTH_TURF_STAT.MOD_MAXF n maxf).put HTH_TURF_STAT.MOD_TRN n trn).flag
      HTH_TURF_STAT.MARK_OK n true

/-- The protocol of a slot in the code of PROT (R154), with Fi and Di in force, after the clock change. -/
def Chip.useParams (c : Chip) (n t fi di : Nat) : Chip :=
  ((c.put HTH_PROT_STAT.PROT n (t + 1)).put HTH_PROT_STAT.FI n fi).put HTH_PROT_STAT.DI n di

end Sys2Proof.Machine
end

