-- ==== Sys2Proof/Machine/TurfBits.lean ====
section
/-! DEFINITION. The bits of the Turf lane, first sent first: the training pattern (R162, R163), and the sending and receiving of a
frame (R169–R173). -/

namespace Sys2Proof.Machine

/-- The bits of a byte string, the most significant first (R169). -/
def bytesBits (b : List Byte) : List Bool := b.flatMap (fun x => [7, 6, 5, 4, 3, 2, 1, 0].map (fun i => x.toNat.testBit i))

/-- A number from bits, the most significant first. -/
def bitsNat (b : List Bool) : Nat := b.foldl (fun v x => 2 * v + x.toNat) 0

/-- The bytes of a bit string whose length is `8 * n`. -/
def bitsBytes : Nat → List Bool → List Byte
  | 0, _ => []
  | n + 1, b => BitVec.ofNat 8 (bitsNat (b.take 8)) :: bitsBytes n (b.drop 8)

/-- `2 * k` preamble bits: 1010…10 (R169). -/
def preamble (k : Nat) : List Bool := (List.replicate k [true, false]).flatten

/-- The start-of-frame delimiter 0xF3 (R169). -/
def sfdBits : List Bool := bytesBits [0xF3]

/-! ## Training (R162, R163) -/

/-- The PRBS-15 generator: `n` bits from a register (R163). -/
def prbs15 : Nat → Nat → List Bool
  | 0, _ => []
  | n + 1, r =>
    let out := (r / 2 ^ 14 + r / 2 ^ 13) % 2
    decide (out = 1) :: prbs15 n ((2 * r + out) % 2 ^ 15)

/-- A training phase from a seed: 256 preamble bits, the SFD, 512 PRBS-15 bits and the postamble (R162). -/
def phaseBits (seed : Nat) : List Bool := preamble 128 ++ sfdBits ++ prbs15 512 seed ++ List.replicate 4 false

/-! ## Bit stuffing (R171) -/

/-- The last bit of the stuffed region and the length of its run of equal bits; a run of 0 stands before the first bit. -/
structure Run where
  last : Bool
  len : Nat
  deriving DecidableEq, Repr

def Run.start : Run := ⟨false, 0⟩

/-- The run after one more bit. -/
def Run.push (r : Run) (b : Bool) : Run := if r.len ≠ 0 ∧ b = r.last then ⟨b, r.len + 1⟩ else ⟨b, 1⟩

/-- The sender's bits: after six equal bits one of the opposite value goes in, which opens the next run. -/
def stuffBits : Run → List Bool → List Bool
  | r, [] => if r.len = 6 then [!r.last] else []
  | r, b :: rest =>
    if r.len = 6 then (!r.last) :: b :: stuffBits ((Run.mk (!r.last) 1).push b) rest else b :: stuffBits (r.push b) rest

/-- The receiver before its next bit: an inserted bit is removed; none where a seventh equal bit or no bit stands there. -/
def Run.settle (r : Run) (bits : List Bool) : Option (Run × List Bool) :=
  if r.len = 6 then
    match bits with
    | b :: rest => if b = r.last then none else some (⟨b, 1⟩, rest)
    | [] => none
  else some (r, bits)

/-- Take `n` bits of the stuffed region: the bits, the run they leave and what follows. -/
def takeBits : Nat → Run → List Bool → Option (List Bool × Run × List Bool)
  | 0, r, bits => some ([], r, bits)
  | n + 1, r, bits =>
    match r.settle bits with
    | some (r, b :: rest) =>
      (takeBits n (r.push b) rest).map (fun t => (b :: t.1, t.2))
    | _ => none

/-! ## Frames (R169, R170, R172) -/

/-- The header word of a frame. -/
def turfHeader (ft : Nat) (seq : Bool) (len : Nat) : Nat := ft * 2 ^ 14 + seq.toNat * 2 ^ 13 + len

/-- The bits of a frame as sent. -/
def turfFrame (ft : Nat) (seq : Bool) (payload : List Byte) : List Bool :=
  let m := beBytes 2 (turfHeader ft seq payload.length) ++ payload
  preamble 8 ++ sfdBits ++ stuffBits Run.start (bytesBits (m ++ beBytes 4 (crc32 m))) ++ List.replicate 4 false

/-- What the receiver makes of what arrives: nothing where no preamble stands in it, an invalid frame (R173), or a frame. -/
inductive TurfRx where
  | quiet
  | bad
  | data (seq : Bool) (payload : List Byte)
  | nak (seq : Bool)
  | ctrl (code : Nat)
  deriving DecidableEq, Repr

/-- What follows the first SFD that at least 8 preamble bits precede (R169). -/
def afterSfd : List Bool → Option (List Bool)
  | [] => none
  | b :: rest => if (b :: rest).take 16 = preamble 4 ++ sfdBits then some ((b :: rest).drop 16) else afterSfd rest

/-- 8 preamble bits stand in the bits. -/
def hasPreamble : List Bool → Bool
  | [] => false
  | b :: rest => decide ((b :: rest).take 8 = preamble 4) || hasPreamble rest

/-- The type of a frame of the module and its payload: LEN and the CTRL codes as in R170; LINK_UP is the device's alone (R173). -/
def turfKind (ft : Nat) (seq : Bool) (payload : List Byte) : TurfRx :=
  if ft = 0 ∧ payload ≠ [] ∧ payload.length ≤ 4224 then .data seq payload
  else if ft = 1 ∧ payload = [] then .nak seq
  else match ft, payload with
    | 2, [code] => if 2 ≤ code.toNat ∧ code.toNat ≤ 4 then .ctrl code.toNat else .bad
    | _, _ => .bad

/-- A frame from the header on: its bits unstuffed and its CRC compared; none where it is broken (R171–R173). -/
def turfBody (bits : List Bool) : Option (Nat × List Byte) :=
  match takeBits 16 Run.start bits with
  | none => none
  | some (h, r, rest) =>
    let len := bitsNat h % 2 ^ 13
    match takeBits (8 * len + 32) r rest with
    | none => none
    | some (p, r, rest) =>
      let m := bitsBytes (2 + len) (h ++ p)
      if (r.settle rest).isSome ∧ bitsNat (p.drop (8 * len)) = crc32 m then some (bitsNat h, m.drop 2) else none

/-- What arrives on the lane. -/
def turfParse (bits : List Bool) : TurfRx :=
  match afterSfd bits with
  | none => if hasPreamble bits then .bad else .quiet
  | some rest =>
    match turfBody rest with
    | none => .bad
    | some (h, payload) => turfKind (h / 2 ^ 14) (h.testBit 13) payload

end Sys2Proof.Machine
end

