-- ==== Sys2Proof/Machine/Exch.lean ====
section
/-! DEFINITION. Card-side exchanges (R86, R113, R152, R174–R182, R282–R287): how they end and what follows, the steps of
NEGOTIATE (R96), and the answer to a Turf OPEN or RESUME (R159). -/

namespace Sys2Proof.Machine

/-! ## Blocks of T=1 (R144) -/

/-- The EDC of a block: LRC or CRC, as the ATR chose. -/
def edcOf (crc : Bool) (b : List Byte) : List Byte := if crc then beBytes 2 (crc16 b) else [xorAll b]

/-- A block of the device: NAD 0x00, PCB, LEN, INF, EDC. -/
def Chip.t1Bytes (c : Chip) (n pcb : Nat) (inf : List Byte) : List Byte :=
  let b := [0, BitVec.ofNat 8 pcb, BitVec.ofNat 8 inf.length] ++ inf
  b ++ edcOf (c.on HTH_PROT_STAT.EDC n) b

/-- Send a block and remember it (R149). -/
def Chip.t1Put (c : Chip) (n : Nat) (kind : T1Last) (b : List Byte) : Chip :=
  (c.modSlot n (fun x => { x with spoke := true, t1 := { x.t1 with last := kind, lastBlock := b } })).emit (.t1Block n b)

/-- Send S(IFS request) (R146). -/
def Chip.t1Ifs (c : Chip) (n : Nat) : Chip :=
  let v := c.cfg HTH_PROT_CFG.IFSD n
  let c := c.modSlot n (fun x => { x with t1 := { x.t1 with ifsReq := some v, retries := 0, silent := true } })
  c.t1Put n .sReq (c.t1Bytes n 0xC1 [BitVec.ofNat 8 v])

/-! ## Cinder's part of NEGOTIATE -/

/-- A Cinder exchange in its first phase. -/
def CinX.start (k : CinKind) : CinX := ⟨k, .keyGen, [], [], [], false, [], [], [], [], none, [], none⟩

/-- Stoker starts a Cinder exchange: Ember makes the ephemeral pair (R274 step 1). -/
def Chip.cinStart (c : Chip) (n : Nat) (k : CinKind) : Chip :=
  (c.modSess n (fun s => { s with cin := some (CinX.start k) })).stokerJob (.cinderGen n) 0x21 []

/-- The Cinder step begins: BEGIN is next (R274 step 2). -/
def Chip.cinBegin (c : Chip) (n ss : Nat) : Chip :=
  (c.put CRD_SESS_STAT.SESS n ss).modSess n (fun s =>
    { s with cin := s.cin.map (fun k => { k with phase := .beginWait }) })

/-- NEGOTIATE reaches its Cinder step (R96). -/
def Chip.negCinder (c : Chip) (n : Nat) : Chip :=
  (c.modSlot n (fun x => { x with neg := .cinder })).cinBegin n ssESTABLISHING

/-! ## The Turf lane's command (R158) and its outcomes -/

def lnIDLE : Nat := 0
def lnNOTOFFERED : Nat := 1
def lnTRAINING : Nat := 2
def lnUP : Nat := 3
def lnDOZE : Nat := 4
def lnDOWN : Nat := 5

/-- The device drives C4 and C8: bits go out at the lane's rate in the code of RATE (R161, R169). -/
def Chip.laneDrive (c : Chip) (n rate : Nat) (bits : List Bool) : Chip :=
  (c.modSlot n (fun x => { x with tf := { x.tf with parked := false } })).emit (.lane n rate bits)

/-- C4 and C8 are held low (R161). -/
def Chip.lanePark (c : Chip) (n : Nat) : Chip :=
  if (c.slot n).tf.parked then c
  else (c.modSlot n (fun x => { x with tf := { x.tf with parked := true } })).emit (.contact n .lane false)

/-- The OPEN or RESUME command (R158). -/
def turfCmd (p1 p2 seed : Nat) : List Byte :=
  [0xF4, 0x2C, BitVec.ofNat 8 p1, BitVec.ofNat 8 p2, 0x04, 0x42, 0x01] ++ beBytes 2 seed ++ [0x02]

/-- A seed from a draw of 16 bits: bit 15 is 0, neither 0x0000 nor 0x7FFF (R158). -/
def seedOf (v : Nat) : Nat := v % 0x7FFE + 1

/-- An exchange is a leg's, or the RESUME that goes before it (R181). -/
def XUse.isLeg : XUse → Bool
  | .leg _ | .dozeResume _ => true
  | _ => false

/-- A slot asks for module-command budget for an exchange (R30, R362, R364). -/
def Chip.askMcmd (c : Chip) (n : Nat) (ex : Exch) : Chip :=
  let k := match ex.path with
    | .turf => 2
    | .t1 => 3
    | .t0 => 4
  let c := (c.modSlot n (fun x => { x with wait := some ex, leftReady := false })).flag HTH_SLOT_STAT.BUDGET_WAIT n true
  c.request (.mcmd n) ex.cls (c.cost k) (ex.use.isLeg && decide (ex.cls = 0))

/-- Ask for the OPEN or RESUME of a slot's lane; its seed is drawn from the DRBG (R158). -/
def Chip.askTurf (c : Chip) (n : Nat) (use : XUse) (p1 p2 cls : Nat) (front : Bool) : Chip :=
  let r := c.random 2
  let seed := seedOf (beNat r.1)
  let c := r.2.modSlot n (fun x => { x with tf := { x.tf with seed := seed, rates := p1, isResume := decide (p2 = 1) } })
  c.askMcmd n ⟨use, turfCmd p1 p2 seed, [], .t1, cls, front, false, 0, none⟩

/-- OPEN is asked for once the DRBG generates its seed (R158, R293; log entry 137). -/
def Chip.openLane (c : Chip) (n : Nat) : Chip :=
  let x := c.slot n
  if c.slotState n = stNEGOTIATE ∧ x.neg = .turf ∧ x.wait.isNone ∧ x.cur.isNone ∧ c.on CRD_STAT.DRBG_READY 0 then c.askTurf n .turfOpen x.tf.rates 0 0 false
  else c

/-- The Turf step of NEGOTIATE (R96, R155): the lane is offered, or the step is skipped. -/
def Chip.negTurf (c : Chip) (n : Nat) : Chip :=
  if isOperator n then c.negCinder n else
  let rates := c.get HTH_TURF_CFG.RATES n &&& c.get HTH_TURF_STAT.MOD_RATES n
  let cause :=
    if !c.on HTH_TURF_CFG.TURF_EN n then 0x03
    else if !c.on HTH_TURF_STAT.MARK_OK n then (if markOf (histOf (c.slot n).atr) = .bad then 0x02 else 0x01)
    else if rates = 0 then 0x03 else 0
  if cause ≠ 0 then ((c.put HTH_TURF_LAST.CAUSE n cause).put HTH_TURF_STAT.LANE n lnNOTOFFERED).negCinder n
  else (c.modSlot n (fun x => { x with neg := .turf, tf := { x.tf with rates := rates } })).openLane n

/-- The slot's step after T=1 is ready (R96). -/
def Chip.negAfterPps (c : Chip) (n : Nat) : Chip :=
  if c.get HTH_PROT_STAT.PROT n = 2 ∧ c.cfg HTH_PROT_CFG.IFSD n ≠ 32 then
    (c.modSlot n (fun x => { x with neg := .ifs })).t1Ifs n
  else c.negTurf n

/-! ## The leg that follows a RESUME -/

/-- How a protected command goes to the card: on the lane when it is up and the command fits a frame, else on I/O
(R177, R362). -/
def Chip.pathFor (c : Chip) (n len : Nat) : XPath :=
  if !isOperator n && decide (c.get HTH_TURF_STAT.LANE n = lnUP) && decide (len ≤ 64 * c.get HTH_TURF_STAT.MOD_MAXF n) then .turf
  else if c.get HTH_PROT_STAT.PROT n = 1 then .t0 else .t1

/-- A source of a leg is still to be sent. -/
def Chip.legWaits (c : Chip) (src : LegSrc) : Bool :=
  match src with
  | .entry uid second => (match c.entry? uid with
    | some e => decide ((e.leg second).st = .queued)
    | none => false)
  | .peer _ _ => true

/-- A retraining is over: where it was the last that RETRAIN_LIM allows and the lane is DOWN, CAUSE says so (R180). -/
def Chip.retrainSpent (c : Chip) (n : Nat) : Chip :=
  if c.get HTH_TURF_STAT.LANE n = lnDOWN ∧ c.get HTH_TURF_CFG.RETRAIN_LIM n ≤ c.get HTH_TURF_LAST.RETRAINS n then
    c.put HTH_TURF_LAST.CAUSE n 0x09
  else c

/-- The Turf command of a slot is over: NEGOTIATE goes on, a retraining ends, or the leg that a RESUME was run for asks
for its own budget on the path it now takes (R160, R180, R181). -/
def Chip.turfOver (c : Chip) (n : Nat) : Chip :=
  match (c.slot n).cur with
  | none => c
  | some ex =>
    let c := c.modSlot n (fun x => { x with cur := none, t1 := T1X.init })
    match ex.use with
    | .turfOpen => c.negCinder n
    | .dozeResume src =>
      if c.legWaits src then
        c.askMcmd n { ex with use := .leg src, wire := ex.mcv.drop 16, mcv := ex.mcv.take 16,
                              path := c.pathFor n (ex.mcv.length - 16), sent := false }
      else c.leaveBusy n
    | .retrain => (c.retrainSpent n).leaveBusy n
    | _ => c.leaveBusy n

/-- The lane is down with a cause, and parked (R161, R164, R179). -/
def Chip.laneDown (c : Chip) (n cause : Nat) : Chip :=
  ((c.put HTH_TURF_LAST.CAUSE n cause).put HTH_TURF_STAT.LANE n lnDOWN).lanePark n

/-- The answer to OPEN or RESUME is judged (R159, R160, R180, R181). -/
def Chip.turfAnswer (c : Chip) (n status : Nat) (rsp : List Byte) : Chip :=
  match (c.slot n).cur with
  | none => c
  | some ex =>
    if status ≠ stsOK then
      if ex.use = .turfOpen then c.startDeact n .commanded cauNEGFAIL
      else (c.laneDown n 0x0A).turfOver n
    else
      let p1 := (c.slot n).tf.rates
      let sw := beNat (rsp.drop (rsp.length - 2))
      let data := rsp.take (rsp.length - 2)
      let bit := (data.getD 0 0).toNat
      if rsp.length < 2 ∨ sw ≠ 0x9000 then ((c.turfEvt HTH_TURF_EVT.DECLINED n).laneDown n 0x04).turfOver n
      else if data.length = 2 ∧ data.getD 1 0 = 0 ∧ (bit = 1 ∨ bit = 2 ∨ bit = 4) ∧ bit &&& p1 = bit then
        let c := c.modSlot n (fun x =>
          { x with neg := if x.neg = .turf then .train else x.neg,
                   tf := { x.tf with phase := .phaseA, tryRate := bit,
                                     rates := if x.tf.isResume then x.tf.openRates else p1 } })
        (c.put HTH_TURF_STAT.LANE n lnTRAINING).put HTH_TURF_LAST.ATTEMPTS n 0
      else ((c.turfEvt HTH_TURF_EVT.DECLINED n).laneDown n 0x05).turfOver n

/-! ## The end of a leg's exchange -/

/-- A re-establishment starts after an INTEGRITY leg: the slot stays in BUSY (R284). -/
def Chip.reestablish (c : Chip) (n : Nat) : Chip :=
  ((c.modSlot n (fun x => { x with exchWait := none })).flag HTH_SLOT_STAT.EXCH_WAIT n false).cinStart n .reestablish
    |>.cinBegin n ssREESTABLISHING

/-- Recovery counters and what follows an exchange of a leg (R113, R110, R150, R284). `esc` says that the
resynchronisation failed. DESIGN CHOICE (log entry 136): OK_RUN that has reached RCV_CLEAR clears the counters again at every
further OK exchange. -/
def Chip.afterLeg (c : Chip) (n status : Nat) (esc : Bool) : Chip :=
  if c.slotState n ≠ stBUSY then c else
  let failed := decide (status = stsTIMEOUTCARD ∨ status = stsPROTOCOL ∨ status = stsINTEGRITY)
  let c :=
    if status = stsOK then
      let c := (c.put HTH_SLOT_RCNT.FAIL_CNT n 0).incSat HTH_SLOT_RCNT.OK_RUN n
      if c.get HTH_SLOT_RCV.RCV_CLEAR n ≤ c.get HTH_SLOT_RCNT.OK_RUN n then
        ((c.put HTH_SLOT_RCNT.ESC_LEVEL n 0).put HTH_SLOT_RCNT.ACT_FAIL_CNT n 0).put HTH_SLOT_RCNT.ELEC_CNT n 0
      else c
    else if failed then
      let c := c.put HTH_SLOT_RCNT.OK_RUN n 0
      if esc then c else c.incSat HTH_SLOT_RCNT.FAIL_CNT n
    else c
  let esc := esc || (failed && decide (c.get HTH_SLOT_RCV.FAIL_LIMIT n ≤ c.get HTH_SLOT_RCNT.FAIL_CNT n))
  if (c.slot n).exchWait = some .deactivate then
    (if esc then c.put HTH_SLOT_RCNT.FAIL_CNT n 0 else c).leaveBusy n
  else if esc then c.escalate n
  else if status = stsINTEGRITY then c.reestablish n
  else c.leaveBusy n

/-- INTEGRITY: both key sets are zeroised and the leg is counted (R283, R296). -/
def Chip.integrity (c : Chip) (n : Nat) : Chip :=
  let c := c.zeroSlot n
  let c := (c.put CRD_SESS_STAT.SESS n ssNONE).flag CRD_SESS_STAT.OLD_HELD n false
  let c := (c.flag CRD_SESS_STAT.REKEY_DUE n false).incSat CRD_SESS_AGE.INTEG_CNT n
  c.crdSlotEvt CRD_EVT.INTEGRITY_SEEN n

/-- The first verified response under a new set retires the old one (R286). -/
def Chip.retireOld (c : Chip) (n : Nat) : Chip :=
  if c.on CRD_SESS_STAT.OLD_HELD n then
    ((c.modSess n (fun s => { s with old := none })).flag CRD_SESS_STAT.OLD_HELD n false).put CRD_SESS_STAT.SESS n ssACTIVE
  else c

/-- RSP_MAX of the entry that a leg serves, where this device holds it (R214). -/
def Chip.rspMaxOf (c : Chip) (src : LegSrc) : Nat :=
  match src with
  | .entry uid _ => (match c.entry? uid with
    | some e => e.rspMax
    | none => 65536)
  | .peer _ _ => 65536

/-- Cord judges the response to a leg: status, plaintext data, status word (R214, R282). -/
def Chip.unwrapLeg (c : Chip) (n : Nat) (src : LegSrc) (rsp : List Byte) : Nat × List Byte × Nat :=
  match (c.sessOf n).cur with
  | none => (stsINTEGRITY, [], 0)
  | some ks =>
    match unwrapRsp ks rsp with
    | none => (stsINTEGRITY, [], 0)
    | some (d, sw) => if c.rspMaxOf src < d.length then (stsPROTOCOL, [], sw) else (stsOK, d, sw)

/-- The exchange of a leg ends on the card side (R25 steps 8 and 9, R152, R178). -/
def Chip.legOver (c : Chip) (n : Nat) (ex : Exch) (src : LegSrc) (status : Nat) (rsp : List Byte) (esc : Bool) : Chip :=
  let c := c.modSlot n (fun x => { x with cur := none, t0 := T0X.init, t1 := T1X.init })
  let j := if status = stsOK then c.unwrapLeg n src rsp else (status, [], 0)
  let verified := decide (status = stsOK) && decide (j.1 ≠ stsINTEGRITY)
  let c := if verified then c.retireOld n else c
  let c := if status = stsOK ∧ j.1 = stsPROTOCOL then c.protLast n 4 kOVER else c
  let c := if j.1 = stsINTEGRITY then c.integrity n else c
  let c := c.legResult n src j.1 j.2.1 (if j.1 = stsOK then j.2.2 else 0) ex.startUs
  c.afterLeg n j.1 esc

/-- An exchange of no leg ends in BUSY through RESYNCH_FAIL: the Cinder exchange or the lane it was for fails, a leg that waits behind
a RESUME is taken out, and the slot escalates at once unless a DEACTIVATE waits (R110, R150 step 4, R151, R275, R287). -/
def Chip.escalateNow (c : Chip) (n : Nat) (use : XUse) : Chip :=
  let c := c.modSlot n (fun x => { x with cur := none, t0 := T0X.init, t1 := T1X.init })
  let c := match use with
    | .begin k | .key k =>
      let c := ((c.put CRD_SESS_STAT.CINDER_ERR n 0x0F).abandonCinder n).modSess n (fun s => { s with cin := none })
      c.crdSlotEvt (if k = CinKind.rekey then CRD_EVT.REKEY_FAIL else CRD_EVT.CINDER_FAIL) n
    | .turfOpen | .retrain => c.laneDown n 0x0A
    | .dozeResume src => (c.laneDown n 0x0A).giveBack n src
    | .leg _ => c
  if (c.slot n).exchWait = some .deactivate then c.leaveBusy n else c.escalate n

/-- The exchange that a slot carries ends with a status and, for OK, the response bytes as received. -/
def Chip.exchDone (c : Chip) (n status : Nat) (rsp : List Byte) (esc : Bool) : Chip :=
  match (c.slot n).cur with
  | none => c
  | some ex =>
    if esc ∧ c.slotState n = stBUSY ∧ !(match ex.use with | .leg _ => true | _ => false) then c.escalateNow n ex.use else
    match ex.use with
    | .leg src => c.legOver n ex src status rsp esc
    | .begin _ | .key _ =>
      (c.modSlot n (fun x => { x with cur := none, t0 := T0X.init, t1 := T1X.init })).modSess n (fun s =>
        { s with cin := s.cin.map (fun k => { k with got := some (status, rsp) }) })
    | .turfOpen | .retrain | .dozeResume _ =>
      (c.modSlot n (fun x => { x with t1 := T1X.init })).turfAnswer n status rsp

/-- The error record's PHASE of a slot (R154). -/
def Chip.errPhase (c : Chip) (n : Nat) : Nat := if c.slotState n = stNEGOTIATE then 3 else 4

end Sys2Proof.Machine
end

