-- ==== Sys2Proof/Machine/Proto.lean ====
section
/-! DEFINITION. The T=0 engine (R140–R143) and the T=1 engine (R144–R151) of a slot. -/

namespace Sys2Proof.Machine

/-! ## T=0 -/

/-- Set the T=0 engine. -/
def Chip.t0Set (c : Chip) (n : Nat) (t : T0X) : Chip := c.modSlot n (fun x => { x with t0 := t })

/-- Send characters under T=0. -/
def Chip.t0Send (c : Chip) (n : Nat) (t : T0X) (b : List Byte) : Chip :=
  (c.modSlot n (fun x => { x with spoke := true, t0 := { t with sending := true, run := b.length, repAt := none, repeats := 0 } })).emit
    (.cardBytes n b)

/-- Send a header and wait for a procedure byte. -/
def Chip.t0Header (c : Chip) (n : Nat) (t : T0X) : Chip := c.t0Send n { t with wait := .proc } t.hdr

/-- A T=0 exchange ends with PROTOCOL, with its error record. -/
def Chip.t0Fail (c : Chip) (n kind : Nat) : Chip := (c.protLast n (c.errPhase n) kind).exchDone n stsPROTOCOL [] false

/-- A command goes to the T=0 engine (R140). -/
def Chip.t0Start (c : Chip) (n : Nat) (wire : List Byte) : Chip :=
  match apduOf wire with
  | none => c.t0Fail n kREQ
  | some a =>
    if a.ext ∨ a.cla = 0xFF ∨ a.ins / 16 = 6 ∨ a.ins / 16 = 9 then c.t0Fail n kREQ
    else
      let p3 := if a.data ≠ [] then a.data.length else if a.hasLe then a.le % 256 else 0
      c.t0Header n { T0X.init with
        hdr := [BitVec.ofNat 8 a.cla, BitVec.ofNat 8 a.ins, a.p1, a.p2, BitVec.ofNat 8 p3],
        toSend := a.data, toRecv := if a.data = [] ∧ a.hasLe then a.le else 0 }

/-- Whether the engine handles 0x61 and 0x6C itself: T0_AUTO, and always for Cinder (R142, R272). -/
def Chip.t0Auto (c : Chip) (n : Nat) : Bool :=
  decide (c.cfg HTH_PROT_CFG.T0_AUTO n ≠ 0) || (match (c.slot n).cur with
    | some ex => (match ex.use with
      | .begin _ => true
      | .key _ => true
      | _ => false)
    | none => false)

/-- A TPDU ends with its status word (R141, R142). DESIGN CHOICE (log entry 136): a GET RESPONSE header that 0x6C makes the engine
resend does not count a second time among the 32. -/
def Chip.t0Status (c : Chip) (n : Nat) (t : T0X) (sw1 sw2 : Byte) : Chip :=
  let auto := c.t0Auto n
  let len := if sw2 = 0 then 256 else sw2.toNat
  if auto ∧ sw1 = 0x61 then
    if 32 ≤ t.getRsp then c.t0Fail n kOVER
    else c.t0Header n { t with hdr := [0x00, 0xC0, 0x00, 0x00, sw2], toSend := [], toRecv := len,
                               getRsp := t.getRsp + 1, resent := false }
  else if auto ∧ sw1 = 0x6C ∧ !t.resent then
    c.t0Header n { t with hdr := t.hdr.take 4 ++ [sw2], toRecv := len, resent := true }
  else c.exchDone n stsOK (t.rsp ++ [sw1, sw2]) false

/-- A character of response data. -/
def Chip.t0Data (c : Chip) (n : Nat) (t : T0X) (b : Byte) (next : T0Wait) : Chip :=
  if 4096 ≤ t.rsp.length then c.t0Fail n kOVER
  else c.t0Set n { t with rsp := t.rsp ++ [b], toRecv := t.toRecv - 1, wait := next, repAt := none, repeats := 0 }

/-- A procedure byte or SW1 (R141). -/
def Chip.t0Proc (c : Chip) (n : Nat) (t : T0X) (b : Byte) : Chip :=
  let ins := t.hdr.getD 1 0
  let t := { t with repAt := none, repeats := 0, sending := false }
  if b = 0x60 then c.t0Set n t
  else if b = ins then
    if t.toSend ≠ [] then c.t0Send n { t with toSend := [] } t.toSend
    else if 0 < t.toRecv then c.t0Set n { t with wait := .dataAll }
    else c.t0Fail n kPROC
  else if b = ins ^^^ 0xFF then
    if t.toSend ≠ [] then c.t0Send n { t with toSend := t.toSend.drop 1 } (t.toSend.take 1)
    else if 0 < t.toRecv then c.t0Set n { t with wait := .dataOne }
    else c.t0Fail n kPROC
  else if b.toNat / 16 = 6 ∨ b.toNat / 16 = 9 then c.t0Set n { t with wait := .sw2 b }
  else c.t0Fail n kPROC

/-- A parity error in either direction (R143): counted, and the character repeated at most PAR_RETRY times; `at_` is the character of
the last run sent that it concerns, none for the character awaited. -/
def Chip.t0Parity (c : Chip) (n : Nat) (at_ : Option Nat) (again : Out) : Chip :=
  let t := (c.slot n).t0
  let made := if t.repAt = at_ then t.repeats else 0
  let c := ((c.incSat HTH_PROT_CNT.PAR_CNT n).protLast n (c.errPhase n) kPARITY).protEvt HTH_PROT_EVT.PAR_ERR n
  if made < c.cfg HTH_PROT_LIM.PAR_RETRY n then (c.t0Set n { t with repAt := at_, repeats := made + 1 }).emit again
  else c.exchDone n stsPROTOCOL [] false

/-- A character that nothing awaits is discarded (R131). -/
def Chip.strayChar (c : Chip) (n : Nat) : Chip :=
  if c.slotState n = stNEGOTIATE ∧ !(c.slot n).spoke then c.protEvt HTH_PROT_EVT.STRAY n else c

/-- A character arrives under T=0 (R141, R143); between exchanges it is discarded, with STRAY in NEGOTIATE before the device's first
character (R131). -/
def Chip.t0Char (c : Chip) (n : Nat) (b : Byte) (parityOk : Bool) : Chip :=
  let t := (c.slot n).t0
  if t.wait = .idle then c.strayChar n
  else if !parityOk then c.t0Parity n none (.t0Error n)
  else
    match t.wait with
    | .idle => c
    | .proc => c.t0Proc n t b
    | .dataAll => c.t0Data n t b (if t.toRecv ≤ 1 then .proc else .dataAll)
    | .dataOne => c.t0Data n t b .proc
    | .sw2 sw1 => c.t0Status n t sw1 b

/-! ## T=1 -/

/-- Set the T=1 engine. -/
def Chip.t1Set (c : Chip) (n : Nat) (f : T1X → T1X) : Chip := c.modSlot n (fun x => { x with t1 := f x.t1 })

/-- Send the next I-block of the command (R147). -/
def Chip.t1NextI (c : Chip) (n : Nat) : Chip :=
  let t := (c.slot n).t1
  let k := c.get HTH_PROT_STAT.IFSC n
  let inf := t.pendingCmd.take k
  let rest := t.pendingCmd.drop k
  let ns := c.get HTH_PROT_STAT.NS_TX n
  let b := c.t1Bytes n (0x40 * ns + (if rest = [] then 0 else 0x20)) inf
  let c := c.t1Set n (fun t => { t with pendingCmd := rest, lastMore := decide (rest ≠ []), lastInf := b })
  (c.put HTH_PROT_STAT.NS_TX n (1 - ns)).t1Put n .iBlock b

/-- A command goes to the T=1 engine. -/
def Chip.t1Start (c : Chip) (n : Nat) (wire : List Byte) : Chip :=
  (c.modSlot n (fun x => { x with t1 := { T1X.init with pendingCmd := wire } })).t1NextI n

/-- The T=1 engine has nothing more to do for what it carried: an exchange ends, or the S(IFS) of NEGOTIATE failed
(R152). -/
def Chip.t1End (c : Chip) (n status : Nat) (rsp : List Byte) (esc : Bool) : Chip :=
  if (c.slot n).cur.isSome then c.exchDone n status rsp esc
  else if (c.slot n).neg = .ifs then c.startDeact n .commanded cauNEGFAIL
  else c

/-- Resynchronisation: one more S(RESYNCH request), or RESYNCH_FAIL (R150, R151). DESIGN CHOICE (log entry 136): a repeated
S(RESYNCH request) is a further attempt of R150, not a block sent again, so it neither sets RETRANS nor counts in RETRANS_CNT. -/
def Chip.t1Resynch (c : Chip) (n : Nat) : Chip :=
  let t := (c.slot n).t1
  if t.resynchs < c.cfg HTH_PROT_LIM.RESYNCH_LIM n then
    let c := c.t1Set n (fun t => { t with resynch := true, resynchs := t.resynchs + 1 })
    c.t1Put n .sReq (c.t1Bytes n 0xC0 [])
  else
    let c := c.protEvt HTH_PROT_EVT.RESYNCH_FAIL n
    c.t1End n (t.ended.getD (if t.silent then stsTIMEOUTCARD else stsPROTOCOL)) [] true

/-- A block of T=1 is sent again (R149). -/
def Chip.t1Again (c : Chip) (n : Nat) (kind : T1Last) (b : List Byte) : Chip :=
  ((c.incSat HTH_PROT_CNT.RETRANS_CNT n).protEvt HTH_PROT_EVT.RETRANS n).t1Put n kind b

/-- A recovery attempt, or resynchronisation once T1_RETRY attempts have been made (R149). -/
def Chip.t1Recover (c : Chip) (n : Nat) (attempt : Chip → Chip) : Chip :=
  let t := (c.slot n).t1
  if t.resynch then c.t1Resynch n
  else if t.retries < c.cfg HTH_PROT_LIM.T1_RETRY n then
    attempt (c.t1Set n (fun t => { t with retries := t.retries + 1 }))
  else c.t1Resynch n

/-- An invalid or missing block (R145, R149): the error is recorded, and an R-block with the error code goes out, or the
last block again. -/
def Chip.t1Bad (c : Chip) (n code kind : Nat) (heard : Bool) : Chip :=
  let c := c.protLast n (c.errPhase n) kind
  let c := if heard then c.t1Set n (fun t => { t with silent := false }) else c
  c.t1Recover n (fun c =>
    let t := (c.slot n).t1
    match t.last with
    | .iBlock => c.t1Put n .rBlock (c.t1Bytes n (0x80 + 0x10 * c.get HTH_PROT_STAT.NS_RX n + code) [])
    | .none => c
    | k => c.t1Again n k t.lastBlock)

/-- An I-block of the card with the expected N(S) (R147). -/
def Chip.t1Info (c : Chip) (n : Nat) (more : Bool) (inf : List Byte) : Chip :=
  let ns := 1 - c.get HTH_PROT_STAT.NS_RX n
  let c := c.put HTH_PROT_STAT.NS_RX n ns
  let c := c.t1Set n (fun t => { t with rsp := if t.overlong then t.rsp else t.rsp ++ inf,
                                        overlong := t.overlong || decide (4096 < t.rsp.length + inf.length),
                                        retries := 0, silent := true, wtx := 0 })
  let t := (c.slot n).t1
  if more then c.t1Put n .rBlock (c.t1Bytes n (0x80 + 0x10 * ns) [])
  else if t.overlong then (c.protLast n (c.errPhase n) kOVER).t1End n stsPROTOCOL [] false
  else c.t1End n stsOK t.rsp false

/-- An R-block of the card (R147, R149). DESIGN CHOICE (log entry 136): once the card's response chain has begun, an R-block
acknowledges nothing and is invalid, whatever its N(R). -/
def Chip.t1Ack (c : Chip) (n nr : Nat) : Chip :=
  let t := (c.slot n).t1
  let ns := c.get HTH_PROT_STAT.NS_TX n
  if t.lastInf = [] ∨ t.rsp ≠ [] then c.t1Bad n 2 kSEQNO true
  else if nr = ns then
    if t.lastMore then (c.t1Set n (fun t => { t with retries := 0, silent := true, wtx := 0 })).t1NextI n
    else c.t1Bad n 2 kSEQNO true
  else
    (c.t1Set n (fun t => { t with silent := false })).t1Recover n (fun c => c.t1Again n .iBlock t.lastInf)

/-- The S(IFS response) that the device waits for (R146). -/
def Chip.t1IfsDone (c : Chip) (n v : Nat) : Chip :=
  let c := (c.put HTH_PROT_WT.IFSD_ACT n v).t1Set n (fun t => { t with ifsReq := none, retries := 0, silent := true })
  let t := (c.slot n).t1
  match t.ended with
  | some st => c.t1End n st [] false
  | none => if (c.slot n).neg = .ifs then (c.modSlot n (fun x => { x with t1 := T1X.init })).negTurf n else c

/-- A valid S(RESYNCH response) (R150): both sides start over; the exchange in progress ends after S(IFS). DEDUCED (log entry 136): it
ends with PROTOCOL even where every failure before was a silent BWT, since recovery did not run out (R151). -/
def Chip.t1Resynched (c : Chip) (n : Nat) : Chip :=
  let c := (c.put HTH_PROT_STAT.NS_TX n 0).put HTH_PROT_STAT.NS_RX n 0
  let c := (c.put HTH_PROT_STAT.IFSC n (((atrOf (c.slot n).atr).first 0 1).getD 32)).put HTH_PROT_WT.IFSD_ACT n 32
  let c := (c.put HTH_PROT_WT.WTX n 0).protEvt HTH_PROT_EVT.RESYNCH_OK n
  let st := (c.slot n).t1.ended.getD stsPROTOCOL
  let busy := (c.slot n).cur.isSome
  let c := c.modSlot n (fun x => { x with t1 := { T1X.init with ended := if busy then some st else none } })
  if c.cfg HTH_PROT_CFG.IFSD n ≠ 32 then c.t1Ifs n
  else c.t1End n st [] false

/-- A request of the card (R146, R148): `b` is its PCB, `v` its byte. -/
def Chip.t1Request (c : Chip) (n pcb v : Nat) : Chip :=
  let reply := fun (c : Chip) (inf : List Byte) => c.t1Put n .sResp (c.t1Bytes n (pcb + 0x20) inf)
  if pcb = 0xC1 then
    if v = 0 ∨ v = 0xFF then c.t1Bad n 2 kSVAL true
    else reply ((c.put HTH_PROT_STAT.IFSC n v).protEvt HTH_PROT_EVT.IFS_RX n) [BitVec.ofNat 8 v]
  else if pcb = 0xC2 then (reply (c.protEvt HTH_PROT_EVT.ABORT_RX n) []).t1End n stsPROTOCOL [] false
  else if pcb = 0xC3 then
    if v = 0 then c.t1Bad n 2 kSVAL true
    else
      reply (((c.put HTH_PROT_WT.WTX n v).t1Set n (fun t => { t with wtx := v })).protEvt HTH_PROT_EVT.WTX_RX n)
        [BitVec.ofNat 8 v]
  else c.t1Bad n 2 kSVAL true

/-- The code and KIND of a block that R145 makes invalid by itself. -/
def Chip.t1Fault (c : Chip) (n : Nat) (b : List Byte) (parityOk : Bool) : Option (Nat × Nat) :=
  let e := if c.on HTH_PROT_STAT.EDC n then 2 else 1
  let crc := c.on HTH_PROT_STAT.EDC n
  let pcb := (b.getD 1 0).toNat
  let len := (b.getD 2 0).toNat
  let isI := decide (pcb < 0x80) && decide (pcb % 32 = 0)
  let isR := decide (pcb / 64 = 2) && [0x80, 0x81, 0x82, 0x90, 0x91, 0x92].contains pcb
  let isS := [0xC0, 0xE0, 0xC1, 0xE1, 0xC2, 0xE2, 0xC3, 0xE3].contains pcb
  if !parityOk then some (1, kPARITY)
  else if b.length < 3 + e ∨ b.drop (b.length - e) ≠ edcOf crc (b.take (b.length - e)) then some (1, kEDC)
  else if b.getD 0 0 ≠ 0 then some (2, kNAD)
  else if !(isI || isR || isS) then some (2, kPCB)
  else if len ≠ b.length - 3 - e ∨ (isI ∧ (c.get HTH_PROT_WT.IFSD_ACT n < len ∨ (len = 0 ∧ pcb.testBit 5)))
      ∨ (isR ∧ len ≠ 0) ∨ (isS ∧ len ≠ (if pcb % 0x20 = 1 ∨ pcb % 0x20 = 3 then 1 else 0)) then some (2, kLEN)
  else none

/-- A block of the card arrives (R145–R150). DESIGN CHOICE (log entry 136): while S(RESYNCH response) is awaited, every other block is
invalid, the requests of the card among them. -/
def Chip.t1Block (c : Chip) (n : Nat) (b : List Byte) (parityOk : Bool) : Chip :=
  let t := (c.slot n).t1
  match c.t1Fault n b parityOk with
  | some (code, kind) => c.t1Bad n code kind true
  | none =>
    let pcb := (b.getD 1 0).toNat
    let len := (b.getD 2 0).toNat
    let inf := (b.drop 3).take len
    let v := (inf.getD 0 0).toNat
    if t.resynch then
      if pcb = 0xE0 then c.t1Resynched n
      else c.t1Bad n 2 (if 0xC0 ≤ pcb then kSVAL else kSEQNO) true
    else if pcb < 0x80 then
      if pcb / 64 = c.get HTH_PROT_STAT.NS_RX n ∧ t.lastInf ≠ [] ∧ !t.lastMore ∧ t.ifsReq.isNone then
        c.t1Info n (pcb.testBit 5) inf
      else c.t1Bad n 2 kSEQNO true
    else if pcb < 0xC0 then
      if t.ifsReq.isSome then c.t1Bad n 2 kSEQNO true else c.t1Ack n (pcb / 16 % 2)
    else if pcb < 0xE0 then c.t1Request n pcb v
    else if pcb = 0xE1 ∧ t.ifsReq = some v then c.t1IfsDone n v
    else c.t1Bad n 2 kSVAL true

/-- Whether the T=1 engine waits for a block of the card. -/
def Chip.t1Waits (c : Chip) (n : Nat) : Bool :=
  let x := c.slot n
  x.t1.last ≠ .none && (decide (x.neg = .ifs) || (match x.cur with
    | some ex => ex.sent && decide (ex.path = .t1)
    | none => false))

end Sys2Proof.Machine
end

