-- ==== Sys2Proof/Machine/TurfLane.lean ====
section
/-! DEFINITION. The Turf lane: training (R161–R166), frames and exchanges (R169–R178), loss, retraining and DOZE
(R179–R182). -/

namespace Sys2Proof.Machine

/-- Set the Turf engine. -/
def Chip.tfSet (c : Chip) (n : Nat) (f : TurfX → TurfX) : Chip := c.modSlot n (fun x => { x with tf := f x.tf })

/-- The code of RATE for a rate bit (R185). -/
def rateCode (bit : Nat) : Nat := if bit = 1 then 1 else if bit = 2 then 2 else if bit = 4 then 3 else 0

/-! ## Training -/

/-- The next lower fallback rate (R164): `rates` holds the rates of P1, for a RESUME those of the OPEN. -/
def fallback (rates tried : Nat) : Option Nat := [2, 1].find? (fun b => decide (b < tried) && decide (rates &&& b = b))

/-- A training attempt fails: the lane is parked, and a fallback rate, if any, comes next (R164). -/
def Chip.trainFail (c : Chip) (n phase : Nat) : Chip :=
  let t := (c.slot n).tf
  let c := ((c.put HTH_TURF_LAST.FAIL_PHASE n phase).turfEvt HTH_TURF_EVT.TRAIN_FAIL n).lanePark n
  match fallback t.rates t.tryRate with
  | some b => c.tfSet n (fun t => { t with phase := .phaseA, tryRate := b })
  | none => ((c.tfSet n (fun t => { t with phase := .off })).laneDown n (if t.isResume then 0x0A else 0x06)).turfOver n

/-- Phase A goes out at the rate in trial (R162). -/
def Chip.trainStart (c : Chip) (n : Nat) : Chip :=
  let t := (c.slot n).tf
  if t.phase = .phaseA then
    ((c.incSat HTH_TURF_LAST.ATTEMPTS n).tfSet n (fun t => { t with phase := .phaseB })).laneDrive n (rateCode t.tryRate)
      (phaseBits t.seed)
  else c

/-- The bits of Phase B as the receiver has them (R162–R164): without an SFD nothing has arrived; the 512 bits after it must be those
of PRBS-15 from S XOR 0x7FFF, and LINK_UP follows. -/
def Chip.trainB (c : Chip) (n : Nat) (bits : List Bool) : Chip :=
  let t := (c.slot n).tf
  match t.phase, afterSfd bits with
  | .phaseB, some rest =>
    if rest.take 512 = prbs15 512 (t.seed ^^^ 0x7FFF) then
      (c.tfSet n (fun t => { t with phase := .linkUp })).laneDrive n (rateCode t.tryRate) (turfFrame 2 false [0x01])
    else c.trainFail n 2
  | _, _ => c

/-- LINK_UP_ACK arrives: the lane is UP, and parked until its first frame (R162, R166, R174, R185). -/
def Chip.trainUp (c : Chip) (n : Nat) : Chip :=
  let t := (c.slot n).tf
  if t.phase = .linkUp then
    let c := c.tfSet n (fun t => { t with phase := .off, lastRate := t.tryRate, retrainDue := false, retrainNow := false,
                                          openRates := if t.isResume then t.openRates else t.rates })
    let c := (c.put HTH_TURF_STAT.LANE n lnUP).put HTH_TURF_STAT.RATE n (rateCode t.tryRate)
    let c := (((c.flag HTH_TURF_STAT.SEQ n false).put HTH_TURF_LAST.CAUSE n 0).turfEvt HTH_TURF_EVT.TRAIN_OK n).lanePark n
    (if t.isResume then c.turfEvt HTH_TURF_EVT.RESUMED n else c).turfOver n
  else c

/-! ## Exchanges -/

/-- A slot has an exchange on the lane. -/
def Chip.onLane (c : Chip) (n : Nat) : Bool :=
  match (c.slot n).cur with
  | some ex => ex.sent && decide (ex.path = .turf)
  | none => false

/-- Send the command frame (R174). -/
def Chip.turfSend (c : Chip) (n : Nat) : Chip :=
  match (c.slot n).cur with
  | some ex => c.laneDrive n (c.get HTH_TURF_STAT.RATE n) (turfFrame 0 (c.on HTH_TURF_STAT.SEQ n) ex.wire)
  | none => c

/-- The first attempt of an exchange (R176). -/
def Chip.turfStart (c : Chip) (n : Nat) : Chip :=
  (c.tfSet n (fun t => { t with attempts := 1, waits := 0, silent := true, retxDue := false })).turfSend n

/-- The lane is lost (R179, R180, R183): parked, and a retraining follows unless a command waits in EXCH_WAIT. -/
def Chip.turfLoss (c : Chip) (n cause : Nat) : Chip :=
  let waits := (c.slot n).exchWait.isSome
  let c := ((c.laneDown n cause).turfEvt HTH_TURF_EVT.LOSS n)
  c.tfSet n (fun t => { t with retxDue := false, retrainDue := !waits, retrainNow := false })

/-- An attempt failed: the command is sent again within 20 µs, or the attempts are exhausted and the lane is lost (R176,
R178, R179). `timeout` tells a frame timeout from a refusal or an invalid frame. -/
def Chip.turfAgain (c : Chip) (n : Nat) (timeout : Bool) : Chip :=
  let c := if timeout then c else c.tfSet n (fun t => { t with silent := false })
  let t := (c.slot n).tf
  if t.attempts < 1 + c.cfg HTH_TURF_CFG.TURF_RETRY n then c.tfSet n (fun t => { t with retxDue := true })
  else (c.turfLoss n 0x07).exchDone n (if t.silent then stsTIMEOUTCARD else stsPROTOCOL) [] false

/-- An invalid frame is counted (R173). -/
def Chip.turfInvalid (c : Chip) (n : Nat) : Chip := (c.incSat HTH_TURF_CNT.INV_CNT n).turfEvt HTH_TURF_EVT.CRC_ERR n

/-- A frame that was not expected (R173): it is invalid; during an exchange the command goes out again. -/
def Chip.turfBadFrame (c : Chip) (n : Nat) : Chip :=
  let c := c.turfInvalid n
  if c.onLane n && !(c.slot n).tf.retxDue then c.turfAgain n false else c

/-- The lane's receiver is on: the lane is UP (R161, R167). -/
def Chip.laneHears (c : Chip) (n : Nat) : Bool := !isOperator n && decide (c.get HTH_TURF_STAT.LANE n = lnUP)

end Sys2Proof.Machine
end

