-- ==== Sys2Proof/Machine/Monitor.lean ====
section
/-! DEFINITION. Window monitors (R186–R206): the windows, the class of a sample, the majority filter with its history, the filtered
state, its record and its events. A command brings the samples that a monitor takes at successive ticks. -/

namespace Sys2Proof.Machine

/-- The configuration register, status register and instance of a monitor (R186, R206). -/
def monReg : MonId → RegName × RegName × Nat
  | .vmon n => (.HTH_MON_CFG, .HTH_MON_STAT, 4 * n.val)
  | .imon n => (.HTH_MON_CFG, .HTH_MON_STAT, 4 * n.val + 1)
  | .iomon n => (.HTH_MON_CFG, .HTH_MON_STAT, 4 * n.val + 2)
  | .pmon n => (.HTH_MON_CFG, .HTH_MON_STAT, 4 * n.val + 3)
  | .bmon b => (.HTH_BMON_CFG, .HTH_BMON_STAT, b.val)
  | .rmon r => (.DRG_RMON_CFG, .DRG_RMON_STAT, r.val)

/-- A field of a monitor's status and configuration register, by its place: they share one layout each. -/
def monStat (m : MonId) (lo : Nat) : Fld := ⟨(monReg m).2.1, lo⟩
def monCfg (m : MonId) (lo : Nat) : Fld := ⟨(monReg m).1, lo⟩
def monIdx (m : MonId) : Nat := (monReg m).2.2

/-- Places in the status and configuration words (R206). -/
def mTRIP : Nat := 24
def mDECIDED : Nat := 7
def mUNDECIDED : Nat := 6
def mRAWSEEN : Nat := 5
def mLATCHED : Nat := 4
def mRAW : Nat := 1
def mSTATE : Nat := 0
def mMODE : Nat := 14
def mTICK : Nat := 13
def mLEN : Nat := 8
def mNEED : Nat := 4
def mASSUME : Nat := 12
def mLATCH : Nat := 2
def mGLITCH : Nat := 1

/-- A monitor has power: a slot or bank monitor from its bank domain, from the rise of the bank's rail until the domain is switched
off; the rail monitors lie in AON (R186, R197, R205). -/
def Chip.monUp (c : Chip) (m : MonId) : Bool :=
  match m with
  | .vmon n | .imon n | .iomon n => c.bankPow (bankOf n.val)
  | .pmon n => c.bankPow (bankOf n.val)
  | .bmon b => c.bankPow b.val
  | .rmon _ => true

/-- The monitor samples at the 32 MHz tick: TICK asks for it and CK_CARD is locked (R193). -/
def Chip.monFast (c : Chip) (m : MonId) : Bool := !c.on (monCfg m mTICK) (monIdx m) && c.seq.cardLock

/-- The mode in use (R191). -/
def Chip.modeEff (c : Chip) (m : MonId) : Nat :=
  let v := c.get (monCfg m mMODE) (monIdx m)
  match m with
  | .bmon _ | .rmon _ => v
  | .vmon _ => if c.on HTH_MON_GSTAT.FIXED_M1 0 then 1 else min v 2
  | _ => if c.on HTH_MON_GSTAT.FIXED_M1 0 then 1 else v

/-- The status word of a monitor as it reads. -/
def Chip.monWord (c : Chip) (m : MonId) : Nat :=
  let w := c.word (monReg m).2.1 (monIdx m)
  w - w / 2 ^ 18 % 4 * 2 ^ 18 + c.modeEff m * 2 ^ 18

/-- A monitor is on its alarm side. -/
def Chip.monAlarm (c : Chip) (m : MonId) : Bool := c.on (monStat m mSTATE) (monIdx m)

/-! ## Windows (R187–R189) -/

/-- The number of a monitor in the table of histories. -/
def monKey : MonId → Nat
  | .vmon n => 4 * n.val
  | .imon n => 4 * n.val + 1
  | .iomon n => 4 * n.val + 2
  | .pmon n => 4 * n.val + 3
  | .bmon b => 256 + b.val
  | .rmon r => 272 + r.val

/-- The samples that a monitor keeps, the last one first. -/
def Chip.monHist (c : Chip) (m : MonId) : List SampleClass := tabGet [] c.mons (monKey m)
def Chip.setMonHist (c : Chip) (m : MonId) (h : List SampleClass) : Chip :=
  { c with mons := tabPut id [] c.mons (monKey m) h }

/-- Nominal VCC of a class in µV, and Icc max in µA (R50). -/
def vccNom (cls : Nat) : Int := [0, 5000000, 3000000, 1800000].getD cls 0
def iccMax (cls : Nat) : Int := [0, 60000, 50000, 30000].getD cls 0

/-- The class a slot's windows follow: the one applied, with VCC off the one TRIAL_CLASS shows (R188). -/
def Chip.windowClass (c : Chip) (n : Nat) : Nat :=
  if c.get HTH_SLOT_ESTAT.CLASS_APPLIED n = 0 then c.trialClass n else c.get HTH_SLOT_ESTAT.CLASS_APPLIED n

/-- The range of a bank input in µV (R53). -/
def bankRange (cls : Nat) : Int × Int :=
  if cls = 2 then (3300000, 3700000) else if cls = 3 then (2100000, 2500000) else (5300000, 5700000)

/-- The LSB of a rail monitor in µV (R189). -/
def rmonLsb (r : Nat) : Int := [20000, 5000, 10000, 5000, 20000].getD r 0

/-- The register of a monitor's thresholds. -/
def monThr : MonId → RegName
  | .bmon _ => .HTH_BMON_THR
  | .rmon _ => .DRG_RMON_THR
  | _ => .HTH_MON_THR

/-- A window: lower trip where there is one, upper trip, and hysteresis. -/
structure MonWindow where
  low : Option Int
  high : Int
  hyst : Int
  deriving DecidableEq, Repr

/-- The window of a monitor at a sample, from its thresholds (R188, R189). -/
def Chip.monWindow (c : Chip) (m : MonId) (x : Sample) : MonWindow :=
  let hi : Int := c.get ⟨monThr m, 16⟩ (monIdx m)
  let lo : Int := c.get ⟨monThr m, 8⟩ (monIdx m)
  let hy : Int := c.get ⟨monThr m, 0⟩ (monIdx m)
  match m with
  | .vmon n => let v := vccNom (c.windowClass n.val); ⟨some (v - v / 200 * lo), v + v / 200 * hi, v / 200 * hy⟩
  | .imon n => let i := iccMax (c.windowClass n.val); ⟨none, i / 100 * hi, i / 100 * hy⟩
  | .iomon _ => ⟨some (-(lo * 25000)), x.vcc + hi * 25000, hy * 25000⟩
  | .pmon _ => ⟨some 500000, 1200000, 0⟩
  | .bmon b => let r := bankRange (c.get HTH_BANK_CFG.CLASS b.val); ⟨some r.1, r.2, hy * 25000⟩
  | .rmon r => ⟨some (lo * rmonLsb r.val), hi * rmonLsb r.val, hy * rmonLsb r.val⟩

/-- The class of an input (R187): a release threshold is the trip threshold moved inward by the hysteresis, and an input on it is
inside, one on a trip threshold not beyond it (log entry 129). -/
def MonWindow.classify (w : MonWindow) (v : Int) : SampleClass :=
  let under := fun (k : Int) => match w.low with | some l => decide (v < l + k) | none => false
  if under 0 then .below
  else if w.high < v then .above
  else if under w.hyst ∨ w.high - w.hyst < v then .band
  else .inside

/-- The class of a sample of a monitor. For PMON the levels of R69 bound the band, and PRES_POL says which side is the card's
(R69, R188). -/
def Chip.monClass (c : Chip) (m : MonId) (x : Sample) : SampleClass :=
  let k := (c.monWindow m x).classify x.v
  match m with
  | .pmon n =>
    match k, (c.slot n.val).presPol with
    | .below, false => .inside
    | .below, true => .below
    | .above, false => .above
    | .above, true => .inside
    | _, _ => .band
  | _ => k

/-- A class beyond a trip threshold. -/
def SampleClass.out : SampleClass → Bool
  | .below | .above => true
  | _ => false

/-- The code of a class in RAW (R206). -/
def SampleClass.code : SampleClass → Nat
  | .inside => 0
  | .band => 1
  | .below => 2
  | .above => 3

/-- What the majority filter says of a history: alarm, good, or nothing (R192). -/
def filterSays (need : Nat) (h : List SampleClass) : Option Bool :=
  if need ≤ (h.filter SampleClass.out).length then some true
  else if need ≤ (h.filter (fun k => decide (k = .inside))).length then some false
  else none

/-! ## The filtered state (R192, R197, R200, R203) -/

/-- A W1C write leaves LATCHED set: on the alarm side, and where only a period clears it (R203). -/
def Chip.latchHeld (c : Chip) (m : MonId) : Bool := c.monAlarm m || decide (c.get (monCfg m mLATCH) (monIdx m) = 2)

/-- The Ash source and UNIT of a move of a monitor to its alarm side (R379); a bank monitor goes to Ash as source 0x20
after its isolation is released. -/
def monSource : MonId → Nat × Nat
  | .imon n => (0x10, n.val)
  | .vmon n => (0x11, n.val)
  | .iomon n => (0x12, n.val)
  | .pmon n => (0x13, n.val)
  | .bmon b => (0x20, b.val)
  | .rmon r => (0x2C, r.val)

/-- The rail that a monitor watches (R186, R189). -/
def monRail : MonId → Option Nat
  | .bmon b => some (4 + b.val)
  | .rmon r => [none, some 1, some 0, some 3, some 2].getD r.val none
  | _ => none

/-- A move to the alarm side counts, latches, and goes to Ash with the STAT word (R200, R203, R396); a bank monitor has a source
only after the release of its bank's isolation (R379). -/
def Chip.monTrip (c : Chip) (m : MonId) : Chip :=
  let i := monIdx m
  let c := ((c.flag (monStat m mSTATE) i true).flag (monStat m mLATCHED) i true).incSat (monStat m mTRIP) i
  let s := monSource m
  let c := if monRail m = some c.pmb.bel.rail ∧ c.pmb.bel.phase = .dwell then c.incSat DRG_BEL_RES.MON_EVT 0 else c
  match m with
  | .bmon b => if c.domUp b.val then c.raise s.1 s.2 (c.monWord m) else c
  | _ => c.raise s.1 s.2 (c.monWord m)

/-- A move to the good side; an insertion goes to Ash (R203, R379). -/
def Chip.monGood (c : Chip) (m : MonId) : Chip :=
  let i := monIdx m
  let c := c.flag (monStat m mSTATE) i false
  let c := if c.get (monCfg m mLATCH) i = 0 then c.flag (monStat m mLATCHED) i false else c
  match m with
  | .pmon n => c.raise 0x13 n.val (c.monWord m)
  | _ => c

/-- The filter decides, on either side: DECIDED sets and UNDECIDED clears, and the filtered state moves or is confirmed
(R192, R197, R198). The second part is the move. -/
def Chip.monDecide (c : Chip) (m : MonId) (alarm : Bool) : Chip × Option Bool :=
  let i := monIdx m
  let c := (c.flag (monStat m mDECIDED) i true).flag (monStat m mUNDECIDED) i false
  if c.monAlarm m = alarm then (c, none)
  else (if alarm then c.monTrip m else c.monGood m, some alarm)

/-- A comparator excursion beyond a trip threshold: RAW_SEEN, and on an RMON with GLITCH_EV a glitch event (R204). -/
def Chip.rawTrip (c : Chip) (m : MonId) : Chip :=
  let c := c.flag (monStat m mRAWSEEN) (monIdx m) true
  match m with
  | .rmon r => if c.on (monCfg m mGLITCH) (monIdx m) then c.raise 0x2C r.val (c.monWord m) else c
  | _ => c

/-- The unfiltered presence follows the comparator (R84). -/
def Chip.presRaw (c : Chip) (m : MonId) (k : SampleClass) : Chip :=
  match m with
  | .pmon n => if k = .band then c else c.flag HTH_SLOT_ESTAT.PRES_RAW n.val (!k.out)
  | _ => c

/-- One sample of a monitor (R187, R192, R196, R204); a sample beyond a trip threshold after one that was not is an excursion.
The second part is a move of the filtered state. -/
def Chip.monSample (c : Chip) (m : MonId) (x : Sample) : Chip × Option Bool :=
  if !c.monUp m || c.blanked.contains m then (c, none)
  else
    let i := monIdx m
    let k := c.monClass m x
    let fresh := k.out && decide (c.get (monStat m mRAW) i < 2)
    let h := (k :: c.monHist m).take (c.get (monCfg m mLEN) i)
    let c := ((c.setMonHist m h).put (monStat m mRAW) i k.code).presRaw m k
    let c := if fresh then c.rawTrip m else if k.out then c.flag (monStat m mRAWSEEN) i true else c
    match filterSays (c.get (monCfg m mNEED) i) h with
    | some alarm => c.monDecide m alarm
    | none => (c, none)

/-- A period starts (R203). -/
def Chip.monPeriod (c : Chip) (m : MonId) : Chip :=
  if 2 ≤ c.get (monCfg m mLATCH) (monIdx m) then c.flag (monStat m mLATCHED) (monIdx m) false else c

/-- The monitors of a slot. -/
def slotMons (n : Nat) : List MonId :=
  if h : n < 64 then
    [.vmon ⟨n, h⟩, .imon ⟨n, h⟩, .iomon ⟨n, h⟩] ++ (if h4 : n < 4 then [.pmon ⟨n, h4⟩] else [])
  else []

/-- The domain of a monitor is switched on: it starts in its assumed state, undecided, with an empty history (R197). -/
def Chip.monStart (c : Chip) (m : MonId) : Chip :=
  let i := monIdx m
  let c := (c.flag (monStat m mDECIDED) i false).flag (monStat m mUNDECIDED) i false
  let c := ((c.put (monStat m mRAW) i 1).flag (monStat m mRAWSEEN) i false).flag (monStat m mLATCHED) i false
  let c := (c.flag (monStat m mSTATE) i (!c.on (monCfg m mASSUME) i)).setMonHist m []
  { c with blanked := c.blanked.filter (fun q => decide (q ≠ m)) }

/-- The monitors of a domain: of a bank, its slots' and its own. -/
def domMons (k : Nat) : List MonId :=
  if h : k < 16 then (slotsOf k).flatMap slotMons ++ [.bmon ⟨k, h⟩] else []

/-- A monitor whose filter has not decided when DRG_MON_SETTLE expires (R198): UNDECIDED sets and source 0x0A goes to
Ash, with the kind in DETAIL [21:20] (R396). -/
def Chip.monSettle (c : Chip) (m : MonId) : Chip :=
  let i := monIdx m
  if c.on (monStat m mDECIDED) i || c.on (monStat m mUNDECIDED) i then c
  else
    let c := c.flag (monStat m mUNDECIDED) i true
    let kind := match m with
      | .bmon _ => 1
      | .rmon _ => 2
      | _ => 0
    c.raise 0x0A i (c.monWord m + kind * 2 ^ 20)

/-- MODE of a monitor is written, or the regime changes (R196): the filtered state is held while the comparators settle. -/
def Chip.monBlank (c : Chip) (m : MonId) : Chip :=
  if c.blanked.contains m then c else { c with blanked := c.blanked ++ [m] }

/-- What a write of a monitor's settings does beside storing them (R192, R196, R203): another MODE blanks the filter, a shorter M
keeps the most recent samples, and without a latch LATCHED follows the filtered state once that is decided. -/
def Chip.monCfgEffect (c old : Chip) (m : MonId) : Chip :=
  let i := monIdx m
  let c := if c.get (monCfg m mMODE) i = old.get (monCfg m mMODE) i then c else c.monBlank m
  let c := c.setMonHist m ((c.monHist m).take (c.get (monCfg m mLEN) i))
  if c.get (monCfg m mLATCH) i = 0 then
    c.flag (monStat m mLATCHED) i (c.monAlarm m && c.on (monStat m mDECIDED) i)
  else c

/-- The regime is taken (R191): the count of enabled slots in banks of the plan, and FIXED_M1. -/
def Chip.takeRegime (c : Chip) : Chip :=
  let active := ((List.range 64).filter (fun n => c.on HTH_BANK_CFG.BANK_EN (bankOf n) && c.slotEn n)).length
  let fixed := decide (32 < active)
  let change := decide (fixed ≠ c.on HTH_MON_GSTAT.FIXED_M1 0)
  let c := (c.put HTH_MON_GSTAT.ACTIVE 0 active).flag HTH_MON_GSTAT.FIXED_M1 0 fixed
  if change then ((List.range 64).flatMap slotMons).foldl (fun c m => c.monBlank m) c else c

end Sys2Proof.Machine
end

