-- ==== Sys2Proof/Machine/Activate.lean ====
section
/-! DEFINITION. A cold activation from its trigger to NEGOTIATE, leg measurement, and the end of a deactivation
(R71–R83, R88–R119, R128–R134). -/

namespace Sys2Proof.Machine

/-! ## The VCC switch and RAMP -/

/-- Step 4 of R92: the VCC switch closes, unless IMON is still on its alarm side (R200). -/
def Chip.closeSwitch (c : Chip) (n : Nat) : Chip :=
  let c := c.modSlot n (fun x => { x with measuring := false, measAtRamp := false, rampDone := false })
  if c.on HTH_MON_STAT.STATE (4 * n + 1) then c.startDeact n .fault cauSHORT
  else
    let c := (c.flag HTH_SLOT_ESTAT.SW_CLOSED n true).flag HTH_SLOT_ESTAT.DISCHARGE n false
    let c := (c.flag HTH_SLOT_ESTAT.INACTIVE n false).put HTH_SLOT_ESTAT.CLASS_APPLIED n (c.trialClass n)
    (c.contact n .discharge false).contact n .vcc true

/-- A leg measurement starts, with the factors in force (R78). -/
def Chip.startMeas (c : Chip) (n : Nat) (atRamp : Bool) : Chip :=
  let b := bankOf n
  (c.flag HTH_LEG_STAT.MEAS_VALID n false).modSlot n (fun x =>
    { x with measuring := true, measAtRamp := atRamp, measLo := c.get HTH_BANK_LEGLIM.LO_FACTOR b,
             measHi := c.get HTH_BANK_LEGLIM.HI_FACTOR b, measSides := [], measGone := [], measDead := false })

/-- A pending activation whose budget is granted enters RAMP once the conditions of R89 and R90 hold (R88): the class of
the attempt is fixed, the settings of HTH_SLOT_ELEC are latched (R84), the slot's monitors start a period (R203), and leg measurement
starts where the calibration source passed its check (CAL_OK); else the switch closes at once. -/
def Chip.tryRamp (c : Chip) (n : Nat) : Chip :=
  if c.on HTH_SLOT_STAT.ACT_PEND n && c.actReady n && c.bankFree (bankOf n)
      && c.dmp.grants.any (fun g => decide (g.asker = .activation n)) && !(c.slot n).measuring then
    let cl := c.trialClass n
    let c := (c.spend (.activation n)).flag HTH_SLOT_STAT.ACT_PEND n false
    let c := (c.clearAtr n).put HTH_SLOT_STAT.TRIAL_CLASS n cl
    let c := if isOperator n then c else c.put HTH_TURF_LAST.RETRAINS n 0
    let c := c.modSlot n (fun x =>
      { x with coldAct := true, trial := isOperator n && decide (c.get HTH_SLOT_ELEC.CLASS_MODE n = 0), schedReact := false,
               noFollow := false, toClinker := false, forcedRemoval := false, slew := c.get HTH_SLOT_ELEC.VCC_SLEW n,
               clkEdge := c.on HTH_SLOT_ELEC.CLK_EDGE n, ioPu := c.on HTH_SLOT_ELEC.IO_PU n,
               presPol := c.on HTH_SLOT_ELEC.PRES_POL n, rstHigh := false, armed := false, opening := false })
    let c := c.setSlotState n stRAMP
    let c := (slotMons n).foldl (fun c m => c.monPeriod m) c
    if c.on HTH_BANK_ESTAT.CAL_OK (bankOf n) then c.startMeas n true else c.closeSwitch n
  else c

/-! ## Leg measurement (R71–R80) -/

/-- The kind of a leg: 0 supply, 1 signal, 2 lane (R71, R72). -/
def legKind (k : Nat) : Nat := if k < 2 then 0 else if k < 8 then 1 else 2

/-- The rick cell of a kind (R84). -/
def cellFld (kind : Nat) : Fld :=
  if kind = 0 then HTH_BANK_RICK.SUPPLY_CELL else if kind = 1 then HTH_BANK_RICK.SIGNAL_CELL else HTH_BANK_RICK.LANE_CELL

/-- The absolute upper limit of a side, in 1/16 Ω (R71). -/
def legAbs (kind : Nat) (low : Bool) : Nat :=
  16 * (if kind = 0 then (if low then 14 else 4) else if kind = 1 then (if low then 55 else 70) else 100)

/-- The key of a leg's baseline, or of a rick cell's: slot or 64 + bank, leg index or cell kind, low side. -/
abbrev BaseKey : Type := Nat × Nat × Bool

/-- The baseline of a leg or cell, in 1/16 Ω: the value that the Test state stored, a free value where the model did not see it
stored (R74, log entry 21). -/
def Chip.baseline (c : Chip) (k : BaseKey) : Nat :=
  match tabFind c.base k with
  | some v => v
  | none => if k.1 < 64 then Config.legBaseline k.1 k.2.1 k.2.2 else Config.cellBaseline (k.1 - 64) k.2.1 k.2.2

/-- In the Test state, while the TRIM grant is held and the OTP has its power, the first value of a leg or cell is its baseline (R74,
R431). -/
def Chip.learns (c : Chip) (k : BaseKey) : Bool :=
  decide (c.lcState = lcTest) && (c.get KLN_DBG_STAT.HELD 0).testBit 6 && c.domUp 19 && (tabFind c.base k).isNone
def Chip.learn (c : Chip) (k : BaseKey) (v : Nat) : Chip := { c with base := c.base ++ [(k, v)] }

/-- 1000 times the divisor of R75 at a temperature. -/
def ronDiv (tj : Int) : Nat := (1000 + 4 * (tj - 25)).toNat

/-- A raw on-resistance compensated to 25 °C, in 1/16 Ω, rounded down (R75, log entry 130). -/
def ron25 (tj : Int) (raw : Nat) : Nat := raw * 1000 / ronDiv tj

/-- The window of a side (R77): factors in 1/16, baseline, absolute limit, and the temperature of the measurement. -/
structure SideWindow where
  lo : Nat
  hi : Nat
  base : Nat
  limit : Nat
  tj : Int
  deriving DecidableEq, Repr

/-- A raw value lies, compensated, within its window. -/
def SideWindow.inside (w : SideWindow) (raw : Nat) : Bool :=
  let d := ronDiv w.tj
  decide (w.lo * w.base * d ≤ 16000 * raw) && decide (16000 * raw ≤ w.hi * w.base * d) && decide (1000 * raw ≤ w.limit * d)

/-- The median of three values. -/
def median3 (x y z : Nat) : Nat := max (min x y) (min (max x y) z)

/-- A side as its values judge it: whether it stays in service, and the raw value recorded; none while values are missing. A first
value outside the window needs two more, and two of the three outside decide (R77). -/
def SideWindow.judge (w : SideWindow) : List Nat → Option (Bool × Nat)
  | [] => none
  | x :: rest =>
    if w.inside x then some (true, x)
    else match rest with
      | y :: z :: _ => some (w.inside y && w.inside z, median3 x y z)
      | _ => none

/-- The cell of a kind, measured: whether both sides are within their windows, and their compensated values; none while a side has
not been measured (R76, R79, R83). -/
def Chip.cellJudge (c : Chip) (b kind lo hi : Nat) (sides : List (Int × CellSide)) : Option (Bool × List (Bool × Nat)) :=
  let one := fun (low : Bool) =>
    match sides.find? (fun s => decide (s.2.lowSide = low)) with
    | some s =>
      ((SideWindow.mk lo hi (c.baseline (64 + b, kind, low)) (legAbs kind low) s.1).judge s.2.raws).map
        (fun r => (r.1, ron25 s.1 r.2))
    | none => none
  match one true, one false with
  | some (p, x), some (q, y) => some (p && q, [(true, x), (false, y)])
  | _, _ => none

/-- The cell of a kind is free. -/
def Chip.cellFree (c : Chip) (b kind : Nat) : Bool := decide (c.get (cellFld kind) b / 64 = 0)

/-- A retirement or claim changes the wear record and goes to Ash as source 0x15 (R79, R396). -/
def Chip.legEvent (c : Chip) (n k : Nat) (low claimed : Bool) (med : Nat) : Chip :=
  { c with wear := { c.wear with writePend := true } }.raise 0x15 n
    (claimed.toNat * 2 ^ 21 + low.toNat * 2 ^ 20 + k * 2 ^ 16 + med % 2 ^ 16)

/-- The low-side or high-side word of a leg's on-resistance. -/
def Chip.putRon (c : Chip) (n k : Nat) (low : Bool) (v : Nat) : Chip :=
  c.put (if low then HTH_LEG_RON.LO_RON else HTH_LEG_RON.HI_RON) (12 * n + k) v

/-- Claim the free cell of a leg's kind: the cell takes the leg's place, and the leg's words hold its values (R79 step 1,
R84). -/
def Chip.claimCell (c : Chip) (n k : Nat) (vals : List (Bool × Nat)) : Chip :=
  let c := (c.put (cellFld (legKind k)) (bankOf n) (64 + 16 * (n % 4) + k)).putBit HTH_LEG_STAT.RICK_SUB n k true
  vals.foldl (fun c v => c.putRon n k v.1 v.2) c

/-- A leg is retired (R79): what becomes of the chip, and whether the slot cannot be repaired; none while the measurement of the
free cell is missing. -/
def Chip.retireLeg (c : Chip) (n : Nat) (r : LegReading) (med : Nat) : Option (Chip × Bool) :=
  let k := r.leg.val
  let low := r.lowSide
  let b := bankOf n
  let kind := legKind k
  let c' := c.incSat HTH_BANK_LCNT.RETIRE_CNT b
  if c.bit HTH_LEG_STAT.RICK_SUB n k then
    -- the cell that serves the leg failed: the cell is retired
    some ((((c'.put (cellFld kind) b 128).putBit HTH_LEG_STAT.RICK_SUB n k false).legEvent n k low false med), true)
  else
    let c' := c'.putBit HTH_LEG_STAT.LEG_RET n k true
    if !c.cellFree b kind then some (c'.legEvent n k low false med, true)
    else
      match c.cellJudge b kind (c.slot n).measLo (c.slot n).measHi (r.cell.map (fun s => (r.tj, s))) with
      | none => none
      | some (true, vals) => some ((c'.claimCell n k vals).legEvent n k low true med, false)
      | some (false, vals) =>
        let c' := c'.legEvent n k low false med
        some (((c'.incSat HTH_BANK_LCNT.RETIRE_CNT b).put (cellFld kind) b 128).legEvent n k low false
          ((vals.head?.map Prod.snd).getD 0), true)

/-- A leg of a slot is in service: not retired, or served by a rick cell (R72, R79). -/
def Chip.legServes (c : Chip) (n k : Nat) : Bool :=
  (!isOperator n || decide (k < 8)) && (!c.bit HTH_LEG_STAT.LEG_RET n k || c.bit HTH_LEG_STAT.RICK_SUB n k)

/-- A side is complete: its value goes on record, and the measurement has it (R77, R82). -/
def Chip.sideDone (c : Chip) (n k : Nat) (low : Bool) (v : Nat) : Chip :=
  ((c.incWrap HTH_BANK_LCNT.MEAS_CNT (bankOf n)).putRon n k low v).modSlot n (fun x =>
    { x with measSides := x.measSides ++ [(k, low)] })

/-- A side measured (R74, R75, R77): recorded once it is complete, and judged by two of three values. -/
def Chip.judgeSide (n : Nat) (c : Chip) (r : LegReading) : Chip :=
  let x := c.slot n
  let k := r.leg.val
  let b := bankOf n
  let kind := legKind k
  if !c.legServes n k || x.measGone.contains k || x.measSides.contains (k, r.lowSide) then c
  else
    let key : BaseKey := if c.bit HTH_LEG_STAT.RICK_SUB n k then (64 + b, kind, r.lowSide) else (n, k, r.lowSide)
    match r.raws with
    | [] => c
    | first :: _ =>
      if c.learns key then (c.learn key (ron25 r.tj first)).sideDone n k r.lowSide (ron25 r.tj first)
      else
        match (SideWindow.mk x.measLo x.measHi (c.baseline key) (legAbs kind r.lowSide) r.tj).judge r.raws with
        | none => c
        | some (true, raw) => c.sideDone n k r.lowSide (ron25 r.tj raw)
        | some (false, raw) =>
          let med := ron25 r.tj raw
          match (c.sideDone n k r.lowSide med).retireLeg n r med with
          | none => c
          | some (c', dead) =>
            c'.modSlot n (fun x => { x with measGone := x.measGone ++ [k], measDead := x.measDead || dead })

/-- A slot becomes a leg clinker (R79 step 2, R117): the cause is LEG and no deactivation runs. -/
def Chip.legClinker (c : Chip) (n : Nat) : Chip :=
  let c := (c.put HTH_SLOT_CAUSE.STATE_AT n (c.slotState n)).put HTH_SLOT_CAUSE.CAUSE n cauLEG
  ((c.put HTH_SLOT_CAUSE.SECOND n 0).flag HTH_LEG_STAT.CLINKER_LEG n true).enterClinker n

/-- Both sides of every leg in service have been measured (R76). -/
def Chip.measWhole (c : Chip) (n : Nat) : Bool :=
  let x := c.slot n
  (List.range 12).all (fun k => !c.legServes n k || x.measGone.contains k
    || (x.measSides.contains (k, true) && x.measSides.contains (k, false)))

/-- Sides measured (R75–R79, R88): each is recorded as it completes, so that a stop loses none (R82). Once both sides of every leg
in service are measured the measurement ends: at RAMP the switch closes, a requested one sets MEAS_DONE. A slot that cannot be
repaired becomes a clinker. Before that the measurement goes on. -/
def Chip.measEnd (c : Chip) (n : Nat) (rs : List LegReading) : Chip :=
  if !(c.slot n).measuring then c else
  let c := rs.foldl (Chip.judgeSide n) c
  let x := c.slot n
  let whole := c.measWhole n
  if !whole && !x.measDead then c
  else
    let c := (c.flag HTH_LEG_STAT.MEAS_VALID n whole).modSlot n (fun x => { x with measuring := false })
    let c := if x.measAtRamp then c else (c.flag HTH_LEG_CMD.MEAS_REQ n false).flag HTH_LEG_CMD.MEAS_DONE n true
    if x.measDead then c.legClinker n else if x.measAtRamp then c.closeSwitch n else c

/-! ## From VCC good to the ATR -/

/-- VCC good (R88, R200, R201): VMON has decided on the good side and the ramp controller has reached its final value. VMON and
IOMON are armed, and an IOMON on its alarm side acts at once; else CLK starts at ACT_CLK. -/
def Chip.vccTry (c : Chip) (n : Nat) : Chip :=
  if c.slotState n = stRAMP ∧ c.on HTH_SLOT_ESTAT.SW_CLOSED n ∧ (c.slot n).rampDone ∧ c.on HTH_MON_STAT.DECIDED (4 * n)
      ∧ !c.on HTH_MON_STAT.STATE (4 * n) then
    let c := c.modSlot n (fun x => { x with armed := true })
    if c.on HTH_MON_STAT.STATE (4 * n + 2) then c.startDeact n .fault cauIO
    else ((c.setClk n (actClk (c.get HTH_SLOT_CTL.ACT_CLK n))).contact n .clk true).setSlotState n stCLOCKED
  else c

/-- The ramp controller has reached its final value (R201). -/
def Chip.rampEnd (c : Chip) (n : Nat) : Chip :=
  if c.slotState n = stRAMP ∧ c.on HTH_SLOT_ESTAT.SW_CLOSED n then
    (c.modSlot n (fun x => { x with rampDone := true })).vccTry n
  else c

/-- RST rises and the ATR window opens (R88, R92 steps 7 and 8). -/
def Chip.rstUp (c : Chip) (n : Nat) : Chip :=
  let st := c.slotState n
  if st = stCLOCKED ∨ st = stRESETHELD then
    let c := if st = stCLOCKED then c.contact n .io true else c
    ((c.contact n .rst true).modSlot n (fun x => { x with rstHigh := true })).setSlotState n stATRWAIT
  else c

/-- The class that the next attempt of a trial takes (R99): the one the class indicator names, or the next in order. -/
def Chip.nextClass (c : Chip) (n : Nat) : Nat :=
  let x := c.trialClass n
  if (c.slot n).atrDone then
    match classDec true x (atrOf (c.slot n).atr).classes with
    | .next k => k
    | _ => 3
  else x - 1

/-- A complete ATR that passed its checks (R94, R99, R129): its parameters are taken, and the class decision is made. -/
def Chip.atrWhole (c : Chip) (n : Nat) : Chip :=
  let b := (c.slot n).atr
  let c := (c.flag HTH_SLOT_ATRLEN.ATR_VALID n true).slotEvt HTH_SLOT_EVT.ATR_DONE n
  let c := ((c.atrParams n b).atrMarker n b).modSlot n (fun x => { x with atrDone := true })
  match classDec (c.slot n).trial (c.trialClass n) (atrOf b).classes with
  | .stay => c
  | .next _ => c.startDeact n .commanded cauNEXT
  | .decline => c.startDeact n .commanded cauATRBAD

/-- A character arrives where an ATR is expected (R93, R94, R128–R131). -/
def Chip.atrChar (c : Chip) (n : Nat) (b : Byte) (parityOk inWindow : Bool) : Chip :=
  let st := c.slotState n
  let x := c.slot n
  if (st = stATRWAIT ∧ x.atrDone) ∨ (st = stNEGOTIATE ∧ !x.spoke) then
    c.protEvt HTH_PROT_EVT.STRAY n
  else if st ≠ stATRWAIT then c
  else if !inWindow then c.atrFault n kTS
  else
    let bytes := x.atr ++ [b]
    let c := (c.modSlot n (fun x => { x with atr := bytes })).put HTH_SLOT_ATRLEN.ATR_LEN n bytes.length
    if !parityOk then c.atrFault n kPARITY
    else
      match atrJudge (!isOperator n) (c.get HTH_PROT_CFG.PROT_SEL n) bytes with
      | .more => c
      | .bad k => c.atrFault n k
      | .whole => c.atrWhole n

/-- The ATR window closes without a start bit (R93, R99). -/
def Chip.atrClose (c : Chip) (n : Nat) : Chip :=
  let x := c.slot n
  if c.slotState n = stATRWAIT ∧ x.atr = [] then
    c.startDeact n .commanded (if x.trial && decide (c.trialClass n ≠ 1) then cauNEXT else cauNOATR)
  else c

/-- The initial waiting time expires (R128, R130, R134, R137): an ATR that lacks only its TCK misses TCK. -/
def Chip.initialWt (c : Chip) (n : Nat) : Chip :=
  let x := c.slot n
  let st := c.slotState n
  if st = stATRWAIT ∧ x.atr ≠ [] ∧ !x.atrDone then
    let a := atrOf x.atr
    (c.protEvt HTH_PROT_EVT.CARD_TMO n).atrFault n (if a.full && a.tck && decide (x.atr.length + 1 = a.need) then kTCK else kWT)
  else if st = stNEGOTIATE ∧ x.neg = .pps then (c.protEvt HTH_PROT_EVT.CARD_TMO n).negFault n 2 kWT
  else c

/-! ## NEGOTIATE up to the clock change -/

/-- Stoker accepts the ATR (R96, R132, R133, R274 step 1): Ember starts on the ephemeral pair, and NEGOTIATE begins with the PPS, or with the parameters that hold without
one. -/
def Chip.atrAccept (c : Chip) (n : Nat) : Chip :=
  let a := atrOf (c.slot n).atr
  let module := !isOperator n
  let sel := c.get HTH_PROT_CFG.PROT_SEL n
  let diMax := c.get HTH_PROT_CFG.DI_MAX n
  let ta1 := (a.byte 0 1).getD 0x11
  let c := (c.setSlotState n stNEGOTIATE).cinStart n .establish
  let ok := fun (t di : Nat) => (protOrder module sel).contains t && decide ((diVal di).getD 1 ≤ diMax)
  let plain := fun (t p1 : Nat) =>
    if ok t (p1 % 16) then
      c.modSlot n (fun x => { x with neg := .clock, pps := [0xFF, BitVec.ofNat 8 (16 + t), BitVec.ofNat 8 p1] })
    else c.negFault n 3 kPARAM
  match a.byte 0 2 with
  | some ta2 => plain (ta2 % 16) ta1
  | none =>
    if !c.on HTH_PROT_CFG.PPS_EN n then plain (a.offered.headD 0) 0x11
    else
      match a.choose module sel with
      | none => c.negFault n 3 kPARAM
      | some t =>
        let req := ppsReq t ta1 diMax
        (c.modSlot n (fun x => { x with neg := .pps, pps := req, spoke := true })).emit (.cardBytes n req)

/-- The PPS response is judged (R134). -/
def Chip.ppsRsp (c : Chip) (n : Nat) (rsp : List Byte) (parityOk : Bool) : Chip :=
  let x := c.slot n
  if c.slotState n = stNEGOTIATE ∧ x.neg = .pps then
    if !parityOk then c.negFault n 2 kPARITY
    else if ppsJudge x.pps rsp = .refused then c.negFault n 2 kPPS
    else (c.flag HTH_PROT_STAT.PPS_DONE n true).modSlot n (fun x => { x with neg := .clock, pps := rsp })
  else c

/-- The clock change (R125, R127): the protocol, F, D and f take effect, and T=1 starts with S(IFS request) (R146). -/
def Chip.clkChange (c : Chip) (n : Nat) : Chip :=
  let x := c.slot n
  if c.slotState n = stNEGOTIATE ∧ x.neg = .clock then
    let p0 := (x.pps.getD 1 0).toNat
    let p1 := if p0.testBit 4 then (x.pps.getD 2 0).toNat else 0x11
    let c := c.useParams n (p0 % 16) (p1 / 16) (p1 % 16)
    (c.setClk n (c.opClk n (p1 / 16))).negAfterPps n
  else c

/-! ## Presence -/

/-- What a rise of PRES does to the slot (R88, R110, R113, R119). -/
def Chip.inserted (c : Chip) (n : Nat) : Chip :=
  let st := c.slotState n
  if st = stCLINKER then c
  else
    let c := (c.slotEvt HTH_SLOT_EVT.INSERTED n).put HTH_SLOT_RCNT.ESC_LEVEL n 0
    let c := (c.put HTH_SLOT_RCNT.FAIL_CNT n 0).put HTH_SLOT_RCNT.OK_RUN n 0
    let c := c.modSlot n (fun x => { x with forcedAbsent := false, reinserted := x.reinserted || decide (st = stDEACT) })
    if st = stABSENT then (c.setSlotState n stOFF).flag HTH_SLOT_STAT.INS_PEND n true else c

/-- The insertion timer runs out (R88, R108). -/
def Chip.insExpire (c : Chip) (n : Nat) : Chip :=
  if c.on HTH_SLOT_STAT.INS_PEND n then
    let c := c.flag HTH_SLOT_STAT.INS_PEND n false
    if c.on HTH_SLOT_CTL.AUTO_ACT n then c.trigger n else c
  else c

/-- PRES falls, or the force bit removes the card (R82, R88, R91, R103, R104, R110). -/
def Chip.removed (c : Chip) (n : Nat) : Chip :=
  let st := c.slotState n
  if st = stOFF ∧ isOperator n then
    let c := ((c.stopMeas n).untrigger n).flag HTH_SLOT_STAT.INS_PEND n false
    (((c.modSlot n (fun x => { x with schedReact := false })).trialReset n).setSlotState n stABSENT).evict n
  else if st = stCLINKER then c
  else if st = stABSENT ∨ st = stOFF then c.stopMeas n
  else (c.modSlot n (fun x => { x with reinserted := false })).startDeact n .removal cauREMOVAL

/-! ## The end of a deactivation (R108) -/

/-- INACTIVE rises: counters, REACT_MIN, the next state, and a slot reset that waited (R108, R111, R114, R115). -/
def Chip.inactive (c : Chip) (n : Nat) : Chip :=
  if c.slotState n ≠ stDEACT then c else
  let x := c.slot n
  let k := c.get HTH_SLOT_CAUSE.CAUSE n
  let fo := c.follow n
  let c := if actFailCause k && x.coldAct then c.incSat HTH_SLOT_RCNT.ACT_FAIL_CNT n else c
  let c := if elecCause k then c.incSat HTH_SLOT_RCNT.ELEC_CNT n else c
  let c := ((c.flag HTH_SLOT_ESTAT.INACTIVE n true).flag HTH_SLOT_STAT.REACT_WAIT n true).slotEvt HTH_SLOT_EVT.DEACT_DONE n
  let cls := if k = cauNEXT ∧ !c.slotFenced n ∧ !x.reinserted ∧ !x.resetPend then c.nextClass n else 3
  let c := c.modSlot n (fun x => { x with seq := none, toClinker := false, noFollow := false, forcedRemoval := false,
                                          reinserted := false, coldAct := false, armed := false, opening := false })
  match fo with
  | .clinker => if x.resetPend then (c.enterClinker n).slotResetRegs n else c.enterClinker n
  | .absent =>
    let c := ((c.trialReset n).setSlotState n stABSENT)
    (if x.resetPend then c.slotResetRegs n else c).evict n
  | .off r i =>
    let c := (if isOperator n then c.put HTH_SLOT_STAT.TRIAL_CLASS n cls else c).setSlotState n stOFF
    let c := c.modSlot n (fun x => { x with schedReact := r })
    let c := if i then c.flag HTH_SLOT_STAT.INS_PEND n true else c
    (if x.resetPend then c.slotResetRegs n else c).evict n

/-- REACT_MIN elapses (R89, R108). -/
def Chip.reactExpire (c : Chip) (n : Nat) : Chip :=
  if c.on HTH_SLOT_STAT.REACT_WAIT n then
    let go := (c.slot n).schedReact
    let c := (c.flag HTH_SLOT_STAT.REACT_WAIT n false).modSlot n (fun x => { x with schedReact := false })
    if go then c.trigger n else c
  else c

end Sys2Proof.Machine
end

