-- ==== Sys2Proof/Machine/Otp.lean ====
section
/-! DEFINITION. What the OTP and the owner key table hold: identity slots, owner root slots, and the issuer keys that the
life-cycle state accepts (R269, R431–R438). -/

namespace Sys2Proof.Machine

/-- The first OTP word of identity slot s and of owner root hash k, and the word of the root controls (log entry 15). -/
def otpId (s : Nat) : Nat := 16 + 40 * s
def otpRoot (k : Nat) : Nat := 200 + 12 * k
def otpRootCtl : Nat := 2
def otpLcWord : Nat := 0
def otpLcMark : Nat := 1

/-- Words of the OTP from one on. -/
def otpWords (otp : List (Nat × Nat)) (w n : Nat) : List Nat := (List.range n).map (fun i => otpWord otp (w + i))

/-- Words as the bytes of a string. -/
def wordsBytes (ws : List Nat) : List Byte := ws.flatMap (leBytes 4)

/-- The bytes of a string as words. -/
def bytesWords (bs : List Byte) : List Nat := (List.range ((bs.length + 3) / 4)).map (fun i => leNat ((bs.drop (4 * i)).take 4))

def allOnes (ws : List Nat) : Bool := ws.all (fun w => decide (w = 0xFFFFFFFF))
def allZero (ws : List Nat) : Bool := ws.all (fun w => decide (w = 0))

/-- State of an identity slot (R434, KLN_ID_STAT): 0 blank, 1 valid, 2 wiped, 3 spoiled. -/
def idStat (otp : List (Nat × Nat)) (s : Nat) : Nat :=
  let ws := otpWords otp (otpId s) 37
  if allZero ws then 0
  else if (ws.getD 36 0) % 16 = 0xF ∧ !allOnes (ws.take 12) then 1
  else if allOnes (ws.take 12) then 2 else 3

/-- The identity slot in use: 0 A, 1 B, 2 C, 3 none. -/
def idInUse (otp : List (Nat × Nat)) : Nat := ([0, 1, 2].find? (fun s => decide (idStat otp s = 1))).getD 3

/-- The identity private key. -/
def idPriv (otp : List (Nat × Nat)) : Option Nat :=
  if idInUse otp < 3 then some (beNat (wordsBytes (otpWords otp (otpId (idInUse otp)) 12))) else none

/-- The identity public key, uncompressed. -/
def idPub (otp : List (Nat × Nat)) : Option (List Byte) :=
  if idInUse otp < 3 then some ([4] ++ wordsBytes (otpWords otp (otpId (idInUse otp) + 12) 24)) else none

/-- State of an owner root slot (R434, KLN_ROOT_STAT): 0 empty or staged, 1 live, 2 revoked, 3 no hash. -/
def rootStat (otp : List (Nat × Nat)) (k : Nat) : Nat :=
  let hash := otpWords otp (otpRoot k) 12
  let ctl := otpWord otp otpRootCtl
  let live := ctl / 2 ^ (4 * k) % 4
  let revoke := ctl / 2 ^ (16 + 4 * k) % 4
  if allOnes hash then 3
  else if revoke ≠ 0 then 2
  else if live = 3 ∧ !allZero hash then 1
  else 0

/-- The live root slot whose hash a key matches (R436). -/
def rootSlotOf (otp : List (Nat × Nat)) (key : List Byte) : Option Nat :=
  [0, 1, 2, 3].find? (fun k => decide (rootStat otp k = 1) && decide (wordsBytes (otpWords otp (otpRoot k) 12) = sha384 key))

/-- The owner keys of the table that hold against their hashes, with their slots (R436). -/
def ownerKeys (otp : List (Nat × Nat)) (nvs : Nvs) : List (Nat × List Byte) :=
  nvs.keys.filter (fun e => decide (rootSlotOf otp e.2 = some e.1))

/-- The keys that may issue card certificates and sign images in a life-cycle state (R269, R405, R435). -/
def issuersOf (otp : List (Nat × Nat)) (nvs : Nvs) (lc : Nat) : List (List Byte) :=
  if lc = lcProduction then (ownerKeys otp nvs).map (·.2)
  else if lc = lcTest ∨ lc = lcAnalysis then [Config.vendorRoot] else []

/-- What the chip's work needs of the OTP and the NVS: the issuer keys accepted and the identity private key. -/
structure Env where
  issuers : List (List Byte)
  priv : Option Nat
  blankId : Bool
  deriving DecidableEq, Repr

def State.env (s : State) : Env :=
  ⟨issuersOf s.otp s.nvs s.chip.lcState, idPriv s.otp, [0, 1, 2].any (fun k => decide (idStat s.otp k = 0))⟩

end Sys2Proof.Machine
end

