-- ==== Sys2Proof/Machine/Cinder.lean ====
section
/-! DEFINITION. The Cinder exchange step by step (R271–R279, R284–R287), the sending of a granted exchange (R30, R88),
and what a slot in READY does next (R223, R285). -/

namespace Sys2Proof.Machine

/-- Change the Cinder exchange of a slot. -/
def Chip.cinMod (c : Chip) (n : Nat) (f : CinX → CinX) : Chip :=
  c.modSess n (fun s => { s with cin := s.cin.map f })

/-- The slot runs T=0. -/
def Chip.onT0 (c : Chip) (n : Nat) : Bool := decide (c.get HTH_PROT_STAT.PROT n = 1)

/-- The slot enters READY from NEGOTIATE (R88, R114). -/
def Chip.enterReady (c : Chip) (n : Nat) : Chip :=
  let c := (c.setSlotState n stREADY).put HTH_SLOT_RCNT.ACT_FAIL_CNT n 0
  (c.modSlot n (fun x => { x with neg := .done, coldAct := false })).slotEvt HTH_SLOT_EVT.READY_IN n

/-! ## Failure (R275, R284, R287) -/

/-- A REKEY failed for a reason other than INTEGRITY (R287). -/
def Chip.rekeyFail (c : Chip) (n : Nat) : Chip :=
  let c := (c.abandonCinder n).crdSlotEvt CRD_EVT.REKEY_FAIL n
  let s := c.sessOf n
  let c := c.put CRD_SESS_STAT.SESS n (if c.on CRD_SESS_STAT.OLD_HELD n then ssOVERLAP else ssACTIVE)
  let waits := decide ((c.slot n).exchWait = some .deactivate)
  let back := fun (c : Chip) => if c.slotState n = stBUSY then c.leaveBusy n else c
  if c.get CRD_CFG.REKEY_TRIES 0 ≤ s.rekeyFails + 1 then
    let c := c.modSess n (fun s => { s with cin := none, rekeyFails := 0 })
    if waits then back c else c.startDeact n .commanded cauRECOVERY
  else back (c.modSess n (fun s => { s with cin := none, rekeyFails := s.rekeyFails + 1, rekeyRetry := true }))

/-- The Cinder exchange of a slot fails with a CINDER_ERR code. -/
def Chip.cinFail (c : Chip) (n code : Nat) : Chip :=
  match (c.sessOf n).cin with
  | none => c
  | some k =>
    let c := c.put CRD_SESS_STAT.CINDER_ERR n code
    match k.kind with
    | .rekey => c.rekeyFail n
    | _ => (c.crdSlotEvt CRD_EVT.CINDER_FAIL n).startDeact n .commanded cauNEGFAIL

/-! ## Commands (R271, R272) -/

/-- BEGIN or KEY is built, wrapped for a REKEY, and asks for its budget at T0 (R362, R364). -/
def Chip.cinAsk (c : Chip) (n : Nat) (k : CinX) (ins : Nat) (data : List Byte) (le : Nat) (use : XUse) : Chip :=
  let t0 := c.onT0 n
  let path := if t0 then XPath.t0 else .t1
  match k.kind with
  | .rekey =>
    match (c.sessOf n).cur with
    | none => c
    | some ks =>
      match wrapApdu ks t0 ⟨0x80, ins, 1, 1, data, !t0, le, false⟩ with
      | some (w, mcv) => c.askMcmd n ⟨use, w, mcv, path, 0, false, false, 0, none⟩
      | none => c.cinFail n 0x0F
  | _ =>
    let lc := if 255 < data.length ∨ (¬ t0 ∧ 256 < le) then [0] ++ beBytes 2 data.length else beBytes 1 data.length
    let leB := if t0 then [] else if 256 < le then beBytes 2 le else beBytes 1 le
    c.askMcmd n ⟨use, [0x80, BitVec.ofNat 8 ins, 1, 0] ++ lc ++ data ++ leB, [], path, 0, false, false, 0, none⟩

/-- BEGIN is due once the DRBG generates and the slot carries nothing (R274 step 2, R293). -/
def Chip.cinBeginAsk (c : Chip) (n : Nat) (k : CinX) : Chip :=
  let (nd, c) := c.random 16
  let data := [0x01] ++ nd ++ (if k.kind = .rekey then [] else c.kln.devcert)
  let k := { k with nd := nd, beginData := data }
  (c.cinMod n (fun _ => k)).cinAsk n k 0x3C data (if k.kind = .rekey then 0x72 else 0x15B) (.begin k.kind)

/-! ## Judging responses -/

/-- The card's part of a BEGIN response: NC, CCERT (ESTABLISH only), EC. -/
def cinNc (rsp : List Byte) : List Byte := (rsp.drop 1).take 16
def cinCert (rsp : List Byte) : List Byte := (rsp.drop 17).take certLen
def cinEc (k : CinKind) (rsp : List Byte) : List Byte := (rsp.drop (if k = .rekey then 17 else 17 + certLen)).take 97

/-- Little-endian operand bytes of a big-endian string of 48 bytes. -/
def limbBytes (b : List Byte) : List Byte := leBytes 48 (beNat b)

/-- Zee is next: EC must begin with 0x04, and Ember must have made the ephemeral pair (R274 step 4, R275). -/
def Chip.cinZee (c : Chip) (n : Nat) : Chip :=
  match (c.sessOf n).cin with
  | none => c
  | some k =>
    let ec := cinEc k.kind k.beginRsp
    if ec.head? ≠ some 4 then c.cinFail n 0x0A
    else
      let c := c.cinMod n (fun k => { k with phase := .zee, sendOk := decide (k.ephD ≠ []) })
      if k.ephD = [] then c
      else c.stokerJob (.cinderZee n) 0x22 (leBytes 48 (beNat k.ephD) ++ limbBytes ((ec.drop 1).take 48) ++ limbBytes (ec.drop 49))

/-- Zss is next, in a sealed context (R274 step 4, R277, R303); without an identity ESTABLISH fails (R438). -/
def Chip.cinZss (c : Chip) (n : Nat) (env : Env) (cert : List Byte) : Chip :=
  match env.priv with
  | none => c.cinFail n 0x0E
  | some d =>
    let pub := certPub cert
    (c.cinMod n (fun k => { k with phase := .zss })).stokerJob (.cinderZss n) 0x22
      (leBytes 48 d ++ limbBytes ((pub.drop 1).take 48) ++ limbBytes (pub.drop 49))

/-- The certificate of a BEGIN response is checked (R270, R274 step 3, R277). -/
def Chip.cinJudgeCert (c : Chip) (n : Nat) (env : Env) (cert : List Byte) : Chip :=
  if !certForm cert then c.cinFail n 0x04
  else match certKey env.issuers cert with
    | none => c.cinFail n 0x05
    | some key =>
      let hit := match (c.sessOf n).cache with
        | some (h, z) => if c.on CRD_CFG.CACHE_EN 0 && decide (h = sha384 cert) then some z else none
        | none => none
      let c := c.flag CRD_SESS_STAT.CACHE_HIT n hit.isSome
      match hit with
      | some z =>
        if c.certRest n cert ≠ 0 then c.cinFail n (c.certRest n cert)
        else (c.cinMod n (fun k => { k with zss := z })).cinZee n
      | none =>
        let sig := certSig cert
        (c.cinMod n (fun k => { k with phase := .verify })).stokerJob (.cinderVerify n) 0x24
          (limbBytes ((key.drop 1).take 48) ++ limbBytes (key.drop 49) ++ limbBytes (sha384 (cert.take 137))
            ++ limbBytes (sig.take 48) ++ limbBytes (sig.drop 48))

/-- The end of a Cinder exchange that kept its session: the slot enters READY or returns to it (R274, R284, R286). -/
def Chip.cinInstall (c : Chip) (n : Nat) (k : CinX) (ks : KeySet) : Chip :=
  let c := (c.put CRD_SESS_CNT.EXCH n 0).put CRD_SESS_AGE.AGE_MIN n 0
  let c := c.flag CRD_SESS_STAT.REKEY_DUE n false
  match k.kind with
  | .rekey =>
    let c := c.modSess n (fun s => { s with old := s.cur, cur := some ks, cin := none, rekeyFails := 0, ageQ := 0 })
    let c := (c.flag CRD_SESS_STAT.OLD_HELD n true).flag CRD_SESS_STAT.SET n (!c.on CRD_SESS_STAT.SET n)
    let c := (c.put CRD_SESS_STAT.SESS n ssOVERLAP).incWrap CRD_SESS_AGE.REKEY_CNT n
    if c.slotState n = stBUSY then c.leaveBusy n else c
  | kind =>
    let cert := cinCert k.beginRsp
    let c := c.modSess n (fun s => { s with zss := k.zss, cur := some ks, old := none, cin := none, rekeyFails := 0,
                                            subject := certSubject cert, ageQ := 0 })
    let c := (c.put CRD_SESS_STAT.ROLE n (certRole cert)).put CRD_SESS_STAT.KIND n (certKind cert)
    let c := (c.put CRD_SESS_CERT.SERIAL_LO n (certSerial cert)).flag CRD_SESS_STAT.SET n false
    let c := c.put CRD_SESS_STAT.SESS n ssACTIVE
    if kind = .reestablish then (c.crdSlotEvt CRD_EVT.REESTAB n).leaveBusy n else c.enterReady n

/-- The first verified response under a new set is one of a REKEY that follows: the old set is zeroised (R286). -/
def Chip.retireHeld (c : Chip) (n : Nat) : Chip :=
  if c.on CRD_SESS_STAT.OLD_HELD n then
    (c.modSess n (fun s => { s with old := none })).flag CRD_SESS_STAT.OLD_HELD n false
  else c

/-- A response to a Cinder command is judged (R274, R275, R286, R287). -/
def Chip.cinJudge (c : Chip) (n : Nat) (env : Env) (k : CinX) (status : Nat) (rsp : List Byte) : Chip :=
  if status ≠ stsOK then c.cinFail n 0x0F else
  let plain := match k.kind with
    | .rekey => (match (c.sessOf n).cur with
      | some ks => unwrapRsp ks rsp
      | none => none)
    | _ => some (rsp.take (rsp.length - 2), beNat (rsp.drop (rsp.length - 2)))
  match plain with
  | none =>
    let c := (c.abandonCinder n).integrity n
    if (c.slot n).exchWait = some .deactivate then c.leaveBusy n else c.reestablish n
  | some (data, sw) =>
    let c := if k.kind = .rekey then c.retireHeld n else c
    if k.phase = .keySent then
      if sw ≠ 0x9000 ∨ data.length ≠ 16 then c.cinFail n 0x0B
      else match k.next with
        | some ks => if data ≠ cmac256 k.cfc ks.th then c.cinFail n 0x0C else c.cinInstall n k ks
        | none => c
    else if sw ≠ 0x9000 then c.cinFail n 0x01
    else if data.length ≠ (if k.kind = .rekey then 114 else 347) then c.cinFail n 0x02
    else if data.head? ≠ some 1 then c.cinFail n 0x03
    else
      let c := c.cinMod n (fun k => { k with beginRsp := data })
      if k.kind = .rekey then (c.cinMod n (fun k => { k with zss := (c.sessOf n).zss })).cinZee n
      else c.cinJudgeCert n env (cinCert data)

/-! ## Ember's results -/

/-- A destination of an operation as big-endian bytes, from word offset `o` on. -/
def dstBe (bytes : List Byte) (o : Nat) : List Byte := ((bytes.drop (48 * o)).take 48).reverse

/-- An Ember job of a Cinder exchange ended (R270, R274, R275). -/
def Chip.cinJob (c : Chip) (env : Env) (u : EmbUse) (status : Nat) (bytes : List Byte) : Chip :=
  let bad := decide (status = stsINPUTRANGE ∨ status = stsNOTONCURVE)
  match u with
  | .host | .kzGen _ | .kzVerify _ | .kzZss _ | .kzZee _ | .attest _ | .identity => c
  | .cinderGen n =>
    if status ≠ stsOK then c.cinFail n 0x0E
    else
      let c := c.cinMod n (fun k => { k with ephD := dstBe bytes 0, ephPub := [4] ++ dstBe bytes 1 ++ dstBe bytes 2 })
      match (c.sessOf n).cin with
      | some k => if k.phase = .zee ∧ !k.sendOk then c.cinZee n else c
      | none => c
  | .cinderVerify n =>
    match (c.sessOf n).cin with
    | none => c
    | some k =>
      let cert := cinCert k.beginRsp
      if bad ∨ (status = stsOK ∧ leNat bytes = 0) then c.cinFail n 0x06
      else if status ≠ stsOK then c.cinFail n 0x0E
      else if c.certRest n cert ≠ 0 then c.cinFail n (c.certRest n cert)
      else c.cinZss n env cert
  | .cinderZss n =>
    match (c.sessOf n).cin with
    | none => c
    | some k =>
      if bad then c.cinFail n 0x0A
      else if status ≠ stsOK then c.cinFail n 0x0E
      else
        let z := dstBe bytes 0
        let c := c.modSess n (fun s =>
          { s with cache := if c.on CRD_CFG.CACHE_EN 0 then some (sha384 (cinCert k.beginRsp), z) else none })
        (c.cinMod n (fun k => { k with zss := z })).cinZee n
  | .cinderZee n =>
    if bad then c.cinFail n 0x0A
    else if status ≠ stsOK then c.cinFail n 0x0E
    else (c.cinMod n (fun k => { k with zee := dstBe bytes 0, phase := .keyWait })).request (.cordJob n) 0 (c.cost 9) false

/-- The Cord job of a Cinder exchange runs: TH, the keys and MAC_D, and KEY goes out (R274 steps 5 and 6, R276, R278). -/
def Chip.cordRun (c : Chip) (n : Nat) : Chip :=
  match (c.sessOf n).cin with
  | none => c
  | some k =>
    if k.phase ≠ .keyWait then c else
    let seed := match k.kind, (c.sessOf n).cur with
      | .rekey, some ks => ks.th
      | _, _ => []
    let th := sha384 (seed ++ k.beginData ++ k.beginRsp ++ k.ephPub)
    let (ks, cfd, cfc) := deriveKeys k.zee k.zss k.nd (cinNc k.beginRsp) th
    let k := { k with next := some ks, cfc := cfc, ephD := [], zee := [] }
    (c.cinMod n (fun _ => k)).cinAsk n k 0x3E (k.ephPub ++ cmac256 cfd th) 0x10 (.key k.kind)

/-! ## Sending (R25 step 7, R30, R88) -/

/-- The granted exchange of a slot goes to the card: a leg counts as sent, the session's counter and MCV move on, READY
turns into BUSY, and the engine of its path starts. -/
def Chip.sendExch (c : Chip) (n : Nat) : Chip :=
  match (c.slot n).wait with
  | none => c
  | some ex =>
    let c := (c.spend (.mcmd n)).flag HTH_SLOT_STAT.BUDGET_WAIT n false
    let keep := ((c.slot n).held.filter (fun h => decide (h.1.reg = .HTH_PROT_CFG)))
    let now := some { ex with sent := true, startUs := c.us }
    let c := c.modSlot n (fun x => { x with wait := none, held := keep, cur := now })
    let c := if c.slotState n = stREADY then c.setSlotState n stBUSY else c
    let moves := match ex.use with
      | .dozeResume _ => false
      | _ => decide (ex.mcv ≠ [])
    let c := if moves then
        c.modSess n (fun s => { s with cur := s.cur.map (fun k => { k with counter := k.counter + 1, mcv := ex.mcv }) })
      else c
    let c := match ex.use with
      | .leg (.entry uid second) => c.markSent uid second
      | .begin _ => c.cinMod n (fun k => { k with phase := .beginSent })
      | .key _ => c.cinMod n (fun k => { k with phase := .keySent })
      | _ => c
    let c := match ex.use, ex.path with
      | .leg _, .t1 => if c.get HTH_TURF_STAT.LANE n = lnUP ∧ !isOperator n then c.turfEvt HTH_TURF_EVT.OVERSIZE n else c
      | _, _ => c
    match ex.path with
    | .t0 => c.t0Start n ex.wire
    | .t1 => c.t1Start n ex.wire
    | .turf => c.turfStart n

/-! ## What a slot in READY does next -/

/-- Whether a leg goes before another: redirected legs and retries first, then class, priority and admission order
(R223, R254). -/
def QLeg.before (p q : QLeg) : Bool :=
  if p.front ≠ q.front then p.front
  else if p.cls ≠ q.cls then decide (p.cls < q.cls)
  else if p.prio ≠ q.prio then decide (p.prio < q.prio) else decide (p.order < q.order)

/-- The legs of a queue that may go: those whose command is in staging, and that follow no leg of their ring that still waits for
its own (R25, R222; log entry 134). -/
def legsReady (qs : List QLeg) : List QLeg :=
  qs.filter (fun q => q.ready && (q.front
    || !qs.any (fun p => !p.front && !p.ready && decide (p.ring = q.ring) && decide (p.order < q.order))))

/-- The leg of a queue that goes next. -/
def bestLeg (qs : List QLeg) : Option QLeg :=
  (legsReady qs).foldl (fun best q => match best with
    | none => some q
    | some b => if q.before b then some q else some b) none

/-- A leg ends before it is sent (R213, R281). -/
def Chip.refuseLeg (c : Chip) (n : Nat) (src : LegSrc) (status : Nat) : Chip :=
  match src with
  | .entry uid second => c.closeLeg uid second status
  | .peer k tag => c.forwardRsp k tag (64 * c.grp.dev + n) status []

/-- A leg is taken from the queue, wrapped by Cord and counted (R25 step 6, R281, R285), and asks for its budget; on a lane
in DOZE a RESUME goes first (R181). -/
def Chip.takeLeg (c : Chip) (n : Nat) (q : QLeg) : Chip :=
  let c := c.modSlot n (fun x => { x with queue := x.queue.filter (fun p => decide (p.src ≠ q.src)) })
  if !c.legWaits q.src then c else
  match apduOf q.apdu, (c.sessOf n).cur with
  | none, _ => c.refuseLeg n q.src stsPROTOCOL
  | some _, none => c.refuseLeg n q.src stsPROTOCOL
  | some a, some ks =>
    if apduPolicy a then c.refuseLeg n q.src stsPOLICY else
    match wrapApdu ks (c.onT0 n) a with
    | none => c.refuseLeg n q.src stsPROTOCOL
    | some (w, mcv) =>
      let c := c.incSat CRD_SESS_CNT.EXCH n
      let c := if 2 ^ c.get CRD_CFG.REKEY_LOG2 0 ≤ c.get CRD_SESS_CNT.EXCH n then c.flag CRD_SESS_STAT.REKEY_DUE n true else c
      if !isOperator n && decide (c.get HTH_TURF_STAT.LANE n = lnDOZE) then
        let c := c.askTurf n (.dozeResume q.src) (c.slot n).tf.lastRate 1 q.cls q.front
        c.modSlot n (fun x => { x with wait := x.wait.map (fun e => { e with mcv := mcv ++ w, back := some q }) })
      else c.askMcmd n ⟨.leg q.src, w, mcv, c.pathFor n w.length, q.cls, q.front, false, 0, some q⟩

/-- A session is due for rekey and its REKEY can start (R285, R287). -/
def Chip.rekeyReady (c : Chip) (n : Nat) : Bool :=
  c.on CRD_SESS_STAT.REKEY_DUE n && c.on CRD_STAT.DRBG_READY 0 && !(c.sessOf n).rekeyRetry
    && decide (c.get CRD_SESS_STAT.SESS n = ssACTIVE ∨ c.get CRD_SESS_STAT.SESS n = ssOVERLAP)

/-- The slot is READY with nothing on the card side and nothing waiting to go there (R86), and no overlay in work holds it
(R418). -/
def Chip.slotIdle (c : Chip) (n : Nat) : Bool :=
  let x := c.slot n
  decide (c.slotState n = stREADY) && x.wait.isNone && x.cur.isNone && (c.sessOf n).cin.isNone
    && !c.kln.heldSlots.contains n

/-- A retraining starts with its RESUME, or RETRAIN_LIM is spent (R180, R183). TURF_EN and RATES are not consulted: the rates of a
RESUME are those of the OPEN (log entry 136). -/
def Chip.retrainAsk (c : Chip) (n : Nat) : Chip :=
  let c := c.tfSet n (fun t => { t with retrainNow := false })
  if c.get HTH_TURF_CFG.RETRAIN_LIM n ≤ c.get HTH_TURF_LAST.RETRAINS n then c.put HTH_TURF_LAST.CAUSE n 0x09
  else (c.incSat HTH_TURF_LAST.RETRAINS n).askTurf n .retrain (c.slot n).tf.lastRate 1 0 false

/-- A retraining is due and can start: its seed needs the DRBG (R158, R180; log entry 137). -/
def Chip.retrainReady (c : Chip) (n : Nat) : Bool := (c.slot n).tf.retrainNow && c.on CRD_STAT.DRBG_READY 0

/-- A leg may be taken: one that a RESUME goes before needs the DRBG for its seed (R158, R181; log entry 137). -/
def Chip.laneTakes (c : Chip) (n : Nat) : Bool :=
  isOperator n || decide (c.get HTH_TURF_STAT.LANE n ≠ lnDOZE) || c.on CRD_STAT.DRBG_READY 0

/-- A leg that waits for its budget stands back, unwrapped, behind a REKEY or a retraining that is due, unless it was redirected
or is a retry (R180, R285). -/
def Chip.standBack (c : Chip) (n : Nat) : Chip :=
  let x := c.slot n
  match x.wait with
  | none => c
  | some ex =>
    match ex.back with
    | none => c
    | some q =>
      if c.slotState n = stREADY ∧ x.cur.isNone ∧ (c.sessOf n).cin.isNone ∧ !q.front ∧ (c.rekeyReady n ∨ c.retrainReady n) then
        ((c.withdraw (.mcmd n)).modSlot n (fun x => { x with wait := none, queue := x.queue ++ [q] })).flag
          HTH_SLOT_STAT.BUDGET_WAIT n false
      else c

/-- One choice of an idle slot: redirected legs and retries, then a due REKEY (which holds the rest back until it starts),
then a retraining, then the leg queue. -/
def Chip.kick1 (c : Chip) (n : Nat) : Chip :=
  if !c.slotIdle n then c else
  let x := c.slot n
  match bestLeg x.queue with
  | some q =>
    if q.front && c.laneTakes n then c.takeLeg n q
    else if c.rekeyReady n then c
    else if c.retrainReady n then c.retrainAsk n
    else if c.laneTakes n then c.takeLeg n q else c
  | none => if c.rekeyReady n then c else if c.retrainReady n then c.retrainAsk n else c

/-- An idle slot chooses until something waits for budget or nothing is left. -/
def Chip.kickN : Nat → Chip → Nat → Chip
  | 0, c, _ => c
  | fuel + 1, c, n => if c.slotIdle n then Chip.kickN fuel (c.kick1 n) n else c

def Chip.kick (c : Chip) (n : Nat) : Chip := let c := c.standBack n; Chip.kickN ((c.slot n).queue.length + 2) c n

/-- REKEY_START: a due session starts its REKEY on an idle slot (R285, R286). -/
def Chip.rekeyGo (c : Chip) (n : Nat) : Chip :=
  if c.slotIdle n && c.rekeyReady n then (c.cinStart n .rekey).cinBegin n ssREKEYING else c

/-- A Cinder exchange that waits to send BEGIN goes on when it can. -/
def Chip.cinStep (c : Chip) (n : Nat) : Chip :=
  match (c.sessOf n).cin with
  | some k =>
    let x := c.slot n
    if k.phase = .beginWait ∧ c.on CRD_STAT.DRBG_READY 0 ∧ x.wait.isNone ∧ x.cur.isNone then c.cinBeginAsk n k else c
  | none => c

/-- A response that a Cinder exchange has received and not judged yet. -/
def Chip.cinTake (c : Chip) (n : Nat) (env : Env) : Chip :=
  match (c.sessOf n).cin with
  | some k =>
    match k.got with
    | some (status, rsp) => (c.cinMod n (fun k => { k with got := none })).cinJudge n env { k with got := none } status rsp
    | none => c
  | none => c

/-- NEG_TMO expires in NEGOTIATE or during a re-establishment (R88, R96, R275, R284). Where the Cinder step of NEGOTIATE has had no
DRBG output, the failure is 0x0D and the cause NEG_FAIL (R275). -/
def Chip.negExpire (c : Chip) (n : Nat) : Chip :=
  let st := c.slotState n
  let cin := (c.sessOf n).cin
  let reest : Bool := match cin with
    | some k => decide (k.kind = .reestablish)
    | none => false
  let waitsDrbg : Bool := match cin with
    | some k => decide (k.phase = .beginWait ∨ k.ephD = []) && !c.on CRD_STAT.DRBG_READY 0
    | none => false
  if st = stNEGOTIATE ∨ (st = stBUSY ∧ reest) then
    let c := if waitsDrbg then (c.put CRD_SESS_STAT.CINDER_ERR n 0x0D).crdSlotEvt CRD_EVT.CINDER_FAIL n else c
    c.startDeact n .commanded (if waitsDrbg ∧ st = stNEGOTIATE then cauNEGFAIL else cauNEGTMO)
  else c

end Sys2Proof.Machine
end

