-- ==== Sys2Proof/Machine/Keying.lean ====
section
/-! DEFINITION. The keying of a Kuzagan link (R476): KEY1, the check of the peer's certificate, and the link keys. Its Ember work is
that of a cache miss in R279: a key pair, a verification, and the ephemeral and the static ECDH, the last in a sealed context
(R303). -/

namespace Sys2Proof.Machine

/-- The certificate and the ephemeral public key that a KEY1 carries. -/
def key1Cert (payload : List Byte) : List Byte := (payload.drop 16).take certLen
def key1Eph (payload : List Byte) : List Byte := payload.drop (16 + certLen)

/-- Keying starts: a nonce is drawn and Ember makes the ephemeral pair. It waits for Cord's DRBG, the identity and the
certificate. -/
def Chip.keyStart (c : Chip) (env : Env) (k : Nat) : Chip :=
  let x := c.kzOf k
  if !c.on DRG_KZ_STAT.INIT_OK k || x.restart || decide (x.k1sent ≠ []) || c.hasJob (.kzGen k) || !c.domUp 16
      || !c.on CRD_STAT.DRBG_READY 0 || env.priv.isNone || decide (c.kln.devcert = []) then c
  else
    let (nonce, c) := c.random 16
    (c.setKz k { c.kzOf k with nonce := nonce }).stokerJob (.kzGen k) 0x21 []

/-- The two key agreements run once both KEY1 are there and the peer's certificate holds (R476 step 3). -/
def Chip.keyAgree (c : Chip) (env : Env) (k : Nat) : Chip :=
  let x := c.kzOf k
  if x.k1sent = [] ∨ x.k1peer = [] ∨ !x.certOk ∨ x.txKey ≠ [] then c
  else
    match env.priv with
    | none => c
    | some d =>
      let point := fun (pub : List Byte) => limbBytes ((pub.drop 1).take 48) ++ limbBytes (pub.drop 49)
      let c := if x.zee ≠ [] || c.hasJob (.kzZee k) then c
        else c.stokerJob (.kzZee k) 0x22 (limbBytes x.eph ++ point (key1Eph x.k1peer))
      if x.zss ≠ [] || c.hasJob (.kzZss k) then c
      else c.stokerJob (.kzZss k) 0x22 (leBytes 48 d ++ point (certPub (key1Cert x.k1peer)))

/-- The Cord job of a keying runs, once both values agreed are there: the link keys are derived, and KEY2 goes out (R362, R476
steps 3 and 4). -/
def Chip.keyDerive (c : Chip) (k : Nat) : Chip :=
  let x := c.kzOf k
  if x.zee = [] ∨ x.zss = [] ∨ x.txKey ≠ [] then c
  else
    let lower := decide (c.grp.dev < c.peerOf k)
    let lo := if lower then x.k1sent else x.k1peer
    let hi := if lower then x.k1peer else x.k1sent
    let th := sha384 (lo ++ hi)
    let kdk := (hmac384 (lo.take 16 ++ hi.take 16) (x.zee ++ x.zss)).take 32
    let up := kdfKey kdk th 0x60
    let down := kdfKey kdk th 0x61
    let cfLo := cmac256 (kdfKey kdk th 0x62) th
    let cfHi := cmac256 (kdfKey kdk th 0x63) th
    let x := { x with zee := [], zss := [], eph := [], txKey := if lower then up else down, rxKey := if lower then down else up,
                      myCf := if lower then cfLo else cfHi, peerCf := if lower then cfHi else cfLo }
    (c.setKz k x).emit (c.kzKey k true x.myCf)

/-- The peer's KEY1 does not hold (R476 step 2). -/
def Chip.key1Bad (c : Chip) (k : Nat) : Chip :=
  (c.setKz k { c.kzOf k with certOk := false, k1peer := [], zee := [], zss := [] }).put DRG_KZ_STAT.KZ_ERR k 2

/-- KEY1 arrives: the checks of R270 on its certificate begin, KIND 0x03 only. The same KEY1 again asks for KEY2 again, or for
what has not run yet; another one says that the peer keys anew (log entry 42). -/
def Chip.key1In (c : Chip) (env : Env) (k : Nat) (payload : List Byte) : Chip :=
  if !c.domUp 16 then c
  else if (c.kzOf k).k1peer = payload ∧ (c.kzOf k).txKey ≠ [] then c.emit (c.kzKey k true (c.kzOf k).myCf)
  else if (c.kzOf k).k1peer = payload ∧ (c.kzOf k).certOk then (c.keyStart env k).keyAgree env k
  else if (c.kzOf k).k1peer = payload ∧ c.hasJob (.kzVerify k) then c
  else
    let c := if (c.kzOf k).k1peer = [] ∨ (c.kzOf k).k1peer = payload then c else c.kzUnkey k
    let cert := key1Cert payload
    if !(certForm cert && decide (certKind cert = 3)) ∨ (key1Eph payload).head? ≠ some 4 then c.key1Bad k
    else
      match certKey env.issuers cert with
      | none => c.key1Bad k
      | some key =>
        let sig := certSig cert
        let c := c.setKz k { c.kzOf k with certOk := false, k1peer := payload }
        (c.keyStart env k).stokerJob (.kzVerify k) 0x24
          (limbBytes ((key.drop 1).take 48) ++ limbBytes (key.drop 49) ++ limbBytes (sha384 (cert.take 137))
            ++ limbBytes (sig.take 48) ++ limbBytes (sig.drop 48))

/-- A value of the keying has been agreed, or cannot be: a point or scalar that the operation refuses fails the keying as the
certificate does; a job that was fenced or aborted runs again with the next KEY1 (log entry 13). -/
def Chip.keyAgreed (c : Chip) (k status : Nat) (f : KzX → KzX) : Chip :=
  if status = stsINPUTRANGE ∨ status = stsNOTONCURVE then c.key1Bad k
  else if status ≠ stsOK then c
  else
    let c := c.setKz k (f (c.kzOf k))
    if (c.kzOf k).zee = [] ∨ (c.kzOf k).zss = [] then c else (c.withdraw (.cordJob (64 + k))).request (.cordJob (64 + k)) 0 (c.cost 9) false

/-- An Ember job of a keying ended. -/
def Chip.keyJob (c : Chip) (env : Env) (u : EmbUse) (status : Nat) (bytes : List Byte) : Chip :=
  match u with
  | .kzGen k =>
    let x := c.kzOf k
    if status ≠ stsOK then c.setKz k { x with nonce := [] }
    else
      let key1 := x.nonce ++ c.kln.devcert ++ [4] ++ dstBe bytes 1 ++ dstBe bytes 2
      ((c.setKz k { x with eph := dstBe bytes 0, k1sent := key1 }).emit (c.kzKey k false key1)).keyAgree env k
  | .kzVerify k =>
    if status = stsINPUTRANGE ∨ status = stsNOTONCURVE ∨ (status = stsOK ∧ leNat bytes = 0) then c.key1Bad k
    else if status ≠ stsOK then c.setKz k { c.kzOf k with k1peer := [] }
    else (c.setKz k { c.kzOf k with certOk := true }).keyAgree env k
  | .kzZee k => c.keyAgreed k status (fun x => { x with zee := dstBe bytes 0 })
  | .kzZss k => c.keyAgreed k status (fun x => { x with zss := dstBe bytes 0 })
  | .host | .cinderGen _ | .cinderVerify _ | .cinderZss _ | .cinderZee _ | .attest _ | .identity => c

/-- KEY1 is sent again, or for the first time where keying could not start before; what has not run yet does (R476). -/
def Chip.key1Again (c : Chip) (env : Env) (k : Nat) : Chip :=
  let x := c.kzOf k
  if !c.on DRG_KZ_STAT.INIT_OK k || x.restart || x.k2ok then c
  else if x.k1sent = [] then c.keyStart env k
  else (c.emit (c.kzKey k false x.k1sent)).keyAgree env k

/-- 100 ms after a wrong KEY2 keying runs again (R476). -/
def Chip.keyRestart (c : Chip) (env : Env) (k : Nat) : Chip :=
  let x := c.kzOf k
  if x.restart then (c.setKz k { x with restart := false }).keyStart env k else c

end Sys2Proof.Machine
end

