-- ==== Sys2Proof/Machine/RingOps.lean ====
section
/-! DEFINITION. Ring pairs: doorbells, fetching, the checks of an entry, admission rounds, deadlines, deferral, loss of a
port, pause, reset and errors (R207–R240), and the rebuild, swap and move of the Stack table (R259–R264). -/

namespace Sys2Proof.Machine

/-! ## Facts -/

/-- Entries fetched and not yet admitted or completed (R215, R217). -/
def Entry.held (e : Entry) : Bool := decide (e.phase = .fetched ∨ e.phase = .tokens)
def Chip.unadmitted (c : Chip) (r : Nat) : List Entry := (c.ringEntries r).filter Entry.held

/-- The link of a port is up, as LINK_UP of FLU_PORT_STAT reads: the port is serving (R232, R459). -/
def Chip.linkUp (c : Chip) (x : Nat) : Bool := c.serving x

/-- The deferral of a ring stops accruing (R227). -/
def Chip.endDefer (c : Chip) (r : Nat) : Chip :=
  let d := c.ringDefer r
  (c.modRing r (fun x => { x with deferUs := d, deferSince := none })).flag FLU_RING_STAT.DEFERRED r false

/-- The waiting token request of a ring's candidate is withdrawn. -/
def Chip.unrequest (c : Chip) (r : Nat) : Chip :=
  let c := (c.withdraw (.admission r)).endDefer r
  { c with entries := c.entries.map (fun e => if e.ring = r ∧ e.phase = .tokens then { e with phase := .fetched } else e) }

/-! ## Fetching (R217) -/

/-- Issue the next fetch of a ring: up to eight entries in one read, which does not run past the end of the queue, and at
most 16 held. -/
def Chip.fetchRing (c : Chip) (r : Nat) : Chip :=
  let x := c.ring r
  let head := c.get FLU_RING_PTR.SQ_HEAD r
  let n := min (min 8 x.arrivals.length) (min (16 - (c.unadmitted r).length) (c.sqSize r - head))
  if c.ringState r = rsRUNNING ∧ c.ringServed r ∧ x.fetching = 0 ∧ 0 < n then
    (c.setRing r { x with fetching := n }).emit (.dmaRead (c.owner r) (c.sqBase r + 64 * head) (64 * n))
  else c

/-- A ring is served again: waiting completions, then payload reads that the loss cut, then fetching (R233). -/
def Chip.serveRing (c : Chip) (r : Nat) : Chip :=
  let c := c.flushRing r
  let c := (c.ringEntries r).foldl (fun c e =>
    if e.phase = .payload ∧ !e.isInline ∧ !e.flagBit 3 then c.emit (.dmaRead (c.owner r) e.cmdAddr e.cmdLen) else c) c
  c.fetchRing r

/-! ## Doorbells (R208, R215, R216) -/

/-- The path of an access is the port that owns the ring (R208). -/
def Chip.ownerPath (c : Chip) (p : Path) (r : Nat) : Bool := decide (portOf p = some (c.owner r))

/-- A doorbell that was accepted serves a moved ring again (R233). -/
def Chip.afterBell (c : Chip) (r : Nat) : Chip :=
  if c.on FLU_RING_STAT.AWAIT_DB r then (c.flag FLU_RING_STAT.AWAIT_DB r false).serveRing r else (c.flushRing r).fetchRing r

def Chip.sqBell (c : Chip) (p : Path) (r t : Nat) : Chip :=
  if !c.ownerPath p r then c.ringEvt FLU_RING_EVT.NOT_OWNER r else
  let x := c.ring r
  let size := c.sqSize r
  let n := (t + size - x.sqTail) % size
  if size ≤ t ∨ size - 1 - x.arrivals.length - (c.unadmitted r).length < n then c.ringEvt FLU_RING_EVT.DB_ERR r
  else
    let c := c.setRing r { x with sqTail := t, arrivals := x.arrivals ++ List.replicate n (c.us, c.ringDefer r) }
    c.afterBell r

def Chip.cqBell (c : Chip) (p : Path) (r h : Nat) : Chip :=
  if !c.ownerPath p r then c.ringEvt FLU_RING_EVT.NOT_OWNER r else
  let x := c.ring r
  let size := c.cqSize r
  if size ≤ h ∨ c.cqWritten r < (h + size - x.cqHead) % size then c.ringEvt FLU_RING_EVT.DB_ERR r
  else (c.setRing r { x with cqHead := h }).afterBell r

/-! ## Entries arrive in the device (R217, R231) -/

/-- One entry of a fetch. One that arrived before a revocation of the ceremony overlay ended with it (R236). -/
def Chip.holdEntry (c : Chip) (r : Nat) (raw : List Byte) : Chip :=
  let x := c.ring r
  let head := c.get FLU_RING_PTR.SQ_HEAD r
  let a := x.arrivals.headD (c.us, c.ringDefer r)
  let raw := (List.range 64).map (fun k => raw.getD k 0)
  let e := { Entry.held0 c.nextUid r head raw a.1 with deferUs := a.2 }
  let c := c.setRing r { x with arrivals := x.arrivals.drop 1, policy := x.policy - 1 }
  let c := c.put FLU_RING_PTR.SQ_HEAD r ((head + 1) % c.sqSize r)
  let c := { c with entries := c.entries ++ [e], nextUid := c.nextUid + 1 }
  if c.deadlinePast e then c.endEntry e.uid stsTIMEOUTRING
  else if 0 < x.policy then c.endEntry e.uid stsPOLICY else c

def Chip.fetched (c : Chip) (r : Nat) (raws : List (List Byte)) : Chip :=
  let n := (c.ring r).fetching
  if n = 0 ∨ raws.length ≠ n then c
  else (raws.foldl (fun c raw => c.holdEntry r raw) (c.modRing r (fun x => { x with fetching := 0 }))).fetchRing r

/-! ## The checks of R213 -/

/-- The first row of R213: opcode, reserved parts and lengths. -/
def Entry.malformed (e : Entry) : Bool :=
  decide (4 < e.opcode) || e.flagBit 6 || e.flagBit 7 || decide (e.le 7 1 ≠ 0) || decide (4096 ≤ e.le 8 2)
    || decide (e.le 0x0E 2 ≠ 0)
    || (!e.isNop &&
        (decide (e.cmdLen < 4 ∨ 4096 < e.cmdLen) || (e.isInline && decide (32 < e.cmdLen)) || decide (4096 < e.rspMax)
          || (e.raw.drop (if e.isInline then 0x20 + e.cmdLen else 0x20)).any (fun b => decide (b ≠ 0))))

/-- A buffer lies wholly inside the host region of the SRAM (R22). -/
def inHostRegion (off len : Nat) : Bool := decide (0x400000 ≤ off) && decide (off + len ≤ 0x1000000)

/-- The second row of R213. -/
def Entry.badSram (e : Entry) : Bool :=
  !e.isNop && ((e.flagBit 3 && !e.isInline && !inHostRegion e.cmdAddr e.cmdLen)
    || (e.flagBit 4 && !inHostRegion e.rspAddr e.rspMax))

/-- What ends a candidate before it is admitted: its deadline, a check of R213, or a deferral beyond DEFER_MAX (R228,
R240). -/
def Chip.judgeEntry (c : Chip) (e : Entry) : Option Nat :=
  let r := e.ring
  let mx := c.get FLU_CLASS_CFG.DEFER_MAX (c.get FLU_RING_CFG.CLASS r)
  if c.deadlinePast e then some stsTIMEOUTRING
  else if e.malformed || e.badSram then some stsPROTOCOL
  else if e.opcode = 4 ∧ !c.on FLU_RING_CFG.RESYNC_OK r then some stsPOLICY
  else if c.on FLU_RING_CFG.CEREMONY r ∧ !c.on KLN_CER_STAT.CER_ON 0 then some stsPOLICY
  else if !c.lcRuns then some stsPOLICY
  else if mx ≠ 0 ∧ mx * 1000 < c.ringDefer r - e.deferUs then some stsBUDGET
  else none

/-! ## Admission (R224–R229) -/

/-- The tokens that an admission costs (R362). -/
def Chip.admCost (c : Chip) (e : Entry) : Nat :=
  c.cost 0 + c.cost 1 * ((e.cmdLen + e.rspMax - 512 + 1023) / 1024)

/-- A ring stalls on a MOVING route (R264). -/
def Chip.stallRing (c : Chip) (r : Nat) : Chip :=
  if (c.ring r).stalled then c
  else ((c.unrequest r).modRing r (fun x => { x with stalled := true })).incSat FLU_STACK_SCNT.STALL_CNT 0
    |>.stackEvt FLU_STACK_EVT.STALL

/-- What an admission needs besides the batch and the tokens (R225): no barrier, room under INFL_MAX, a CQ entry, a place in the
in-flight pool. -/
def Chip.admissible (c : Chip) (e : Entry) : Bool :=
  !(e.flagBit 1 && (c.ringEntries e.ring).any (fun q => !q.held)) && decide (c.inflight e.ring < c.get FLU_RING_CFG.INFL_MAX e.ring)
    && decide (0 < c.cqFree e.ring) && decide (c.poolUsed < 256)

/-- An admission waits for the in-flight pool (R244). -/
def Chip.poolNote (c : Chip) : Chip := if 256 ≤ c.poolUsed then c.flag FLU_SCHED_EVT.POOL_FULL 0 true else c

/-- The scheduler visits a ring (R213, R225): candidates that fail a check end, a NOP completes, and the first entry that
needs tokens asks for them once every other condition holds. `fuel` bounds the candidates looked at. -/
def Chip.visitRing : Nat → Chip → Nat → Chip
  | 0, c, _ => c
  | fuel + 1, c, r =>
    if c.ringState r ≠ rsRUNNING ∨ !c.ringServed r ∨ c.kln.heldRings.contains r then c else
    match (c.unadmitted r).head? with
    | none => c
    | some e =>
      if e.phase = .tokens ∨ ((c.ring r).stalled ∧ c.on FLU_STACK_ACT.MOVING e.handle) then c else
      let c := c.modRing r (fun x => { x with stalled := false })
      match c.judgeEntry e with
      | some st =>
        let c := c.endEntry e.uid st
        Chip.visitRing fuel ((if st = stsPROTOCOL then c.ringEvt FLU_RING_EVT.MALFORMED r else c).fetchRing r) r
      | none =>
        if c.get FLU_SCHED_CFG.BATCH_MAX 0 ≤ (c.ring r).batch then c
        else if !c.admissible e then c.poolNote
        else if e.isNop then
          let c := c.modRing r (fun x => { x with batch := x.batch + 1 })
          Chip.visitRing fuel (((c.modEntry e.uid (fun e => { e with cqReserved := true })).endEntry e.uid stsOK).fetchRing r) r
        else if c.on FLU_STACK_ACT.MOVING e.handle then c.stallRing r
        else
          let cls := c.get FLU_RING_CFG.CLASS r
          let c := c.modEntry e.uid (fun e => { e with phase := .tokens })
          let c := c.modRing r (fun x => { x with deferSince := some c.us })
          c.request (.admission r) cls (c.admCost e) (decide (cls = 0))

/-- The visiting order of two rings (R225): class, PRIO, then the rotating order, in which a ring not yet visited first comes
first. -/
def Chip.ringBefore (c : Chip) (p q : Nat) : Bool :=
  let key := fun (r : Nat) =>
    (c.get FLU_RING_CFG.CLASS r * 8 + c.get FLU_RING_CFG.PRIO r) * 2048
      + (if c.stack.rotate.contains r then 513 + c.stack.rotate.idxOf r else 0)
  decide (key p < key q) || (decide (key p = key q) && decide (p < q))

/-- Insert a ring into a sorted list of rings. -/
def Chip.ringInsert (c : Chip) (r : Nat) : List Nat → List Nat
  | [] => [r]
  | q :: t => if c.ringBefore r q then r :: q :: t else q :: c.ringInsert r t

/-- The rings with a candidate, in visiting order. -/
def Chip.roundOrder (c : Chip) : List Nat :=
  (((c.entries.filter Entry.held).map (·.ring)).eraseDups).foldl (fun l r => c.ringInsert r l) []

/-- The rings that are visited first among their equals. -/
def Chip.roundHeads (c : Chip) (order : List Nat) : List Nat :=
  order.filter (fun r => order.find? (fun q =>
    decide (c.get FLU_RING_CFG.CLASS q = c.get FLU_RING_CFG.CLASS r)
      && decide (c.get FLU_RING_CFG.PRIO q = c.get FLU_RING_CFG.PRIO r)) = some r)

/-- One admission round. -/
def Chip.admRound (c : Chip) : Chip :=
  let order := c.roundOrder
  let heads := c.roundHeads order
  let c := { c with stack := { c.stack with rotate := c.stack.rotate.filter (fun r => !heads.contains r) ++ heads } }
  order.foldl (fun c r => Chip.visitRing 16 (c.modRing r (fun x => { x with batch := 0 })) r) c

/-- The tokens of a ring's candidate are granted: it is admitted and its route resolved (R25 steps 3 and 4, R227, R240), and
the ring goes on with its next entry in the round. -/
def Chip.admitRing (c : Chip) (r : Nat) : Chip :=
  match (c.unadmitted r).head? with
  | none => c.withdraw (.admission r)
  | some e =>
    if c.deadlinePast e then (c.endEntry e.uid stsTIMEOUTRING).endDefer r
    else if !c.admissible e then (c.unrequest r).poolNote
    else
      let d := c.ringDefer r - e.deferUs
      let c := c.endDefer r
      let c := { c with dmp := { c.dmp with grants := c.dmp.grants.map (fun (g : Grant) =>
        if g.asker = Asker.admission r then { g with asker := Asker.entry e.uid } else g) } }
      let c := { c with nextOrder := c.nextOrder + 1 }
      let place := c.freePlace
      let c := match place with
        | some p => { c with stage := tabPut id [] c.stage p [] }
        | none => c
      let c := c.modEntry e.uid (fun e =>
        { e with order := c.nextOrder, deferUs := d, cqReserved := true, phase := .payload, place := place })
      let c := (c.modRing r (fun x => { x with batch := x.batch + 1 })).resolve e.uid
      Chip.visitRing 16 (c.fetchRing r) r

/-- A candidate that waits for tokens and meets the other conditions of R225 no longer gives its request up: its deferral stops
(R227). -/
def Chip.recheckTokens (c : Chip) : Chip :=
  (c.entries.filter (fun e => decide (e.phase = .tokens))).foldl (fun c e =>
    if c.admissible e then c else (c.unrequest e.ring).poolNote) c

/-- A request of a ring that still waits makes the ring deferred from the moment of the request (R227, R229). -/
def Chip.deferTick (c : Chip) : Chip :=
  c.dmp.reqs.foldl (fun c q =>
    match q.asker with
    | .admission r =>
      if c.on FLU_RING_STAT.DEFERRED r then c
      else
        let c := (c.flag FLU_RING_STAT.DEFERRED r true).flag FLU_SCHED_EVT.DEFER_ON 0 true
        if q.class0 then c.flag FLU_SCHED_EVT.FLOOR_HIT 0 true else c
    | _ => c) c

/-! ## Entries taken back (R228, R231, R236, R238) -/

/-- An entry that has not been sent ends: its legs are withdrawn. -/
def Chip.cancelEntry (c : Chip) (uid status : Nat) : Chip :=
  match c.entry? uid with
  | none => c
  | some e =>
    let c := c.withdrawLegs uid
    let c := if e.phase = .tokens then c.endDefer e.ring else c
    c.endEntry uid status

/-- The deadline of an entry expires (R231). A retry that has not started does not start, and the entry ends with the result of its
first attempt. -/
def Chip.deadlineHit (c : Chip) (r index : Nat) : Chip :=
  match (c.ringEntries r).find? (fun e => decide (e.index = index) && decide (e.phase ≠ .ended) && decide (e.deadline ≠ 0)) with
  | none => c
  | some e =>
    if e.anySent then
      let c := c.modEntry e.uid (fun e => { e with dlMissed := true })
      let retry := !e.prefLeg
      if e.retried ∧ (e.leg retry).st = .queued then
        ((c.takeOut e.uid retry).modEntry e.uid (fun e => { e.setLeg retry Leg.init with retried := false })).maybeFinish e.uid
      else c
    else (c.cancelEntry e.uid stsTIMEOUTRING).fetchRing r

/-- The candidate of a ring is cancelled for budget once its deferral exceeds DEFER_MAX (R228); its deadline goes first (R240). -/
def Chip.budgetOut (c : Chip) (r : Nat) : Chip :=
  match (c.unadmitted r).head? with
  | none => c
  | some e =>
    let mx := c.get FLU_CLASS_CFG.DEFER_MAX (c.get FLU_RING_CFG.CLASS r)
    if c.deadlinePast e then (c.cancelEntry e.uid stsTIMEOUTRING).fetchRing r
    else if mx = 0 ∨ c.ringDefer r - e.deferUs ≤ mx * 1000 ∨ c.ringState r ≠ rsRUNNING then c
    else (c.cancelEntry e.uid stsBUDGET).fetchRing r

/-- The ceremony overlay is revoked: every unsent entry of a ceremony ring ends with POLICY (R236), one that has arrived and is not
fetched yet as soon as it is fetched. -/
def Chip.ceremonyOut (c : Chip) : Chip :=
  let c := ((c.rings.map Prod.fst).filter (fun r => decide (r < 512) && c.on FLU_RING_CFG.CEREMONY r)).foldl (fun c r =>
    (c.modRing r (fun x => { x with policy := x.arrivals.length })).fetchRing r) c
  (c.entries.filter (fun e => decide (e.ring < 512) && c.on FLU_RING_CFG.CEREMONY e.ring && decide (e.phase ≠ .ended)
      && !e.anySent)).foldl (fun c e => c.cancelEntry e.uid stsPOLICY) c

/-! ## Ports lost and serving again (R232, R233, R235) -/

/-- A ring moves to a port and waits for its first doorbell there. -/
def Chip.moveRing (c : Chip) (r x : Nat) : Chip :=
  let c := (c.put FLU_RING_STAT.OWNER_NOW r x).flag FLU_RING_STAT.AWAIT_DB r true
  (c.modRing r (fun q => { q with fetching := 0 })).ringEvt FLU_RING_EVT.MOVED r

/-- The rings that a base image defines. -/
def Chip.definedRings (c : Chip) : List Nat := (List.range 512).filter (fun r => c.on FLU_RING_CFG.DEFINED r)

/-- A port is lost: each of its rings that runs moves to the other port, or is orphaned (R232, R237). -/
def Chip.portLost (c : Chip) (x : Nat) : Chip :=
  let c := c.setPort x { c.port x with lossRun := false }
  let c := c.flag FLU_PORT_STAT.LOST x true
  let mine := c.definedRings.filter (fun r =>
    decide (c.owner r = x) && (decide (c.ringState r = rsRUNNING) || decide (c.ringState r = rsPAUSED)))
  let step := fun (acc : Chip × Bool) (r : Nat) =>
    let c := acc.1.unrequest r
    if c.on FLU_RING_CFG.ALT_OK r && c.linkUp (1 - x) then ((c.setRingState r rsRUNNING).moveRing r (1 - x), true)
    else
      (((c.setRingState r rsORPHANED).modRing r (fun q => { q with fetching := 0 })).ringEvt FLU_RING_EVT.ORPHAN r, acc.2)
  let res := mine.foldl step (c, false)
  if res.2 then res.1.incSat FLU_PORT_STAT.MOVE_CNT x else res.1

/-- The orphaned rings of a port without a fence run again (R235). -/
def Chip.portRings (c : Chip) (x : Nat) : Chip :=
  if c.portFenced x then c else
  (c.definedRings.filter (fun r => decide (c.owner r = x) && decide (c.ringState r = rsORPHANED))).foldl (fun c r =>
    (c.setRingState r rsRUNNING).serveRing r) c

/-- HANDBACK by the current owner (R235). -/
def Chip.handBack (c : Chip) (r : Nat) : Chip :=
  let x := c.get FLU_RING_CFG.OWNER r
  if !c.linkUp x then c.ringEvt FLU_RING_EVT.CTL_REFUSED r
  else if c.owner r = x ∨ c.ringState r = rsDISABLED ∨ c.ringState r = rsRESETTING then c
  else (c.unrequest r).moveRing r x

/-! ## Control, pause and reset (R210, R237, R238) -/

def Chip.pauseRing (c : Chip) (r : Nat) : Chip :=
  if c.ringState r = rsRUNNING then (c.unrequest r).setRingState r rsPAUSED else c

def Chip.resumeRing (c : Chip) (r : Nat) : Chip :=
  if c.ringState r = rsPAUSED then (c.setRingState r rsRUNNING).fetchRing r else c

/-- The registers of a pair reset: FLU_RING_CTL to FLU_RING_DCNT, with OWNER_NOW back at OWNER (R238 step 5). -/
def Chip.ringRegs (c : Chip) (r : Nat) : Chip :=
  let c := [RegName.FLU_RING_CTL, .FLU_SQ_BASE_LO, .FLU_SQ_BASE_HI, .FLU_CQ_BASE_LO, .FLU_CQ_BASE_HI, .FLU_RING_PTR,
    .FLU_RING_STAT, .FLU_RING_EVT, .FLU_RING_CNT, .FLU_RING_DCNT].foldl (fun c g => c.resetReg g r) c
  (c.put FLU_RING_STAT.OWNER_NOW r (c.get FLU_RING_CFG.OWNER r)).setRing r RingX.init

/-- The unsent legs of an entry with a sent one are not sent, and the entry ends with the sent ones (R237, R238 step 3). -/
def Chip.cutUnsent (c : Chip) (uid status : Nat) : Chip :=
  ([false, true].foldl (fun c second =>
    if (c.entry? uid).any (fun e => decide ((e.leg second).st = .queued)) then
      (c.takeOut uid second).modEntry uid (fun q => q.setLeg second { q.leg second with st := .ended, status := status })
    else c) c).maybeFinish uid

/-- What a ring reset does to an entry of the ring: an unsent one ends without a completion, a waiting completion is
discarded, and a sent one sends no other leg (R238 steps 2 and 3). -/
def Chip.resetEntry (c : Chip) (e : Entry) : Chip :=
  if e.phase = .ended then c.leaveEntry e.uid
  else if !e.anySent then c.cancelEntry e.uid stsABORTED
  else c.cutUnsent e.uid stsABORTED

/-- RESET of a ring pair. -/
def Chip.resetRing (c : Chip) (r : Nat) : Chip :=
  if c.ringState r = rsDISABLED then c.ringRegs r
  else
    let c := (c.unrequest r).setRingState r rsRESETTING
    let c := c.modRing r (fun x => { x with fetching := 0, arrivals := [], policy := 0, stalled := false, coalRun := false })
    let c := c.flag FLU_RING_STAT.CQ_FULL r false
    (c.ringEntries r).foldl (fun c e => c.resetEntry e) c

/-- The last sent entry of a resetting ring has ended (R238 steps 4 and 5). -/
def Chip.resetDone (c : Chip) (r : Nat) : Chip :=
  if c.ringState r = rsRESETTING ∧ c.ringEntries r = [] then c.ringRegs r else c

/-- A write of FLU_RING_CTL (R208–R210, R221). Sizes and EN are held to R210; the other settings are stored in any state. -/
def Chip.ringCtl (c : Chip) (p : Path) (r v : Nat) : Chip :=
  if !c.ownerPath p r then c.ringEvt FLU_RING_EVT.NOT_OWNER r else
  let fld := fun (lo w : Nat) => v / 2 ^ lo % 2 ^ w
  let size := fun (k : Nat) => min 12 (max 4 k)
  let off := decide (c.ringState r = rsDISABLED)
  let en := decide (fld 31 1 = 1)
  let sq := size (fld 20 4)
  let cq := size (fld 24 4)
  let sizeBad := !off && (decide (sq ≠ c.get FLU_RING_CTL.SQ_SIZE r) || decide (cq ≠ c.get FLU_RING_CTL.CQ_SIZE r))
  let enBad := !off && !en
  let vecBad := decide (c.get FLU_HP_CFG.MSIX_LAST (c.owner r) < fld 8 9)
  let c := if off then (c.put FLU_RING_CTL.SQ_SIZE r sq).put FLU_RING_CTL.CQ_SIZE r cq else c
  let c := (c.put FLU_RING_CTL.INT_EN r (fld 17 1)).put FLU_RING_CTL.INT_VEC r (fld 8 9)
  let c := (c.put FLU_RING_CTL.COAL_CNT r (max 1 (fld 4 4))).put FLU_RING_CTL.COAL_TIME r (fld 0 4)
  let undef := off && en && !(c.on FLU_RING_CFG.DEFINED r && c.kln.baseOn)
  let c := if off && en && !undef then
      let c := (c.resetReg .FLU_RING_PTR r).setRing r RingX.init
      ((c.flag FLU_RING_PTR.CQ_PHASE r true).flag FLU_RING_CTL.EN r true).setRingState r rsRUNNING
    else c
  if sizeBad || enBad || vecBad || undef then c.ringEvt FLU_RING_EVT.CTL_REFUSED r else c

/-- A DMA error of a ring (R237). One on a buffer ends its entry with PROTOCOL: a sent leg of it runs to its end, its response is
not written; an entry whose completion is written already is not changed (log entry 135). -/
def Chip.dmaErr (c : Chip) (r : Nat) (t : DmaTarget) : Chip :=
  let st := c.ringState r
  match t with
  | .sqRead | .cqWrite =>
    if st = rsRUNNING ∨ st = rsPAUSED ∨ st = rsORPHANED then
      let c := ((c.unrequest r).setRingState r rsERROR).modRing r (fun x => { x with fetching := 0 })
      c.ringEvt FLU_RING_EVT.DMA_ERR r
    else c
  | .buffer index =>
    match (c.ringEntries r).find? (fun e => decide (e.index = index) && e.inFlight) with
    | none => if st = rsDISABLED then c else c.ringEvt FLU_RING_EVT.DMA_ERR r
    | some e =>
      let c := c.ringEvt FLU_RING_EVT.DMA_ERR r
      if e.phase = .ended then c.modEntry e.uid (fun e => { e with status := stsPROTOCOL, rsp := [], sw := 0 })
      else if e.anySent then (c.modEntry e.uid (fun e => { e with dmaBad := true })).cutUnsent e.uid stsPROTOCOL
      else c.cancelEntry e.uid stsPROTOCOL

/-- COAL_TIME has elapsed since the first unsignalled completion (R221). -/
def Chip.coalOut (c : Chip) (r : Nat) : Chip :=
  let x := c.ring r
  if x.coalRun then
    let c := c.setRing r { x with coalCount := 0, coalRun := false }
    if c.on FLU_RING_CTL.INT_EN r then c.sendMsix (c.owner r) (c.get FLU_RING_CTL.INT_VEC r) else c
  else c

/-! ## The command payload (R25 steps 5 and 6) -/

/-- The payload of an admitted entry is copied to staging; its legs may go. `sramBytes` is what the SRAM holds at a
CMD_SRAM offset. -/
def Chip.payloadIn (c : Chip) (r index : Nat) (payload : List Byte) (sram : Nat → Nat → List Byte) : Chip :=
  match (c.ringEntries r).find? (fun e => decide (e.index = index) && decide (e.phase = .payload)) with
  | none => c
  | some e =>
    if !c.ringServed r then c else
    let bytes :=
      if e.isInline then (e.raw.drop 0x20).take e.cmdLen
      else if e.flagBit 3 then sram e.cmdAddr e.cmdLen
      else (List.range e.cmdLen).map (fun k => payload.getD k 0)
    let c := (c.stageCopy e false bytes).modEntry e.uid (fun e => { e with apdu := bytes, phase := .active })
    let pol : Bool := match apduOf bytes with
      | some a => apduPolicy a
      | none => false
    if pol then c.cancelEntry e.uid stsPOLICY
    else
      ((c.legReady e.uid false bytes).legReady e.uid true bytes).maybeFinish e.uid

/-! ## The Stack table (R259–R264) -/

/-- The handles whose active or shadow route word is not zero. -/
def Chip.routes (c : Chip) : List Nat :=
  ((c.regs.filter (fun e => decide (e.1.fld.reg = .FLU_STACK_ACT ∨ e.1.fld.reg = .FLU_STACK_SHD))).map (fun e => e.1.idx)).eraseDups

/-- The handles with a STALE leg (R247, R267). -/
def Chip.staleHandles (c : Chip) : List Nat :=
  ((c.regs.filter (fun e => decide (e.1.fld = FLU_STACK_MARK.STALE0 ∨ e.1.fld = FLU_STACK_MARK.STALE1) && decide (e.2 ≠ 0))).map
    (fun e => e.1.idx)).eraseDups

/-- The places of the fields of a route word, the same in both banks. -/
def routeFlds : List Nat := [0, 8, 27, 28, 29, 30, 31]

/-- Copy a route word from one bank to another. -/
def Chip.copyRoute (c : Chip) (a b : RegName) (h : Nat) : Chip :=
  routeFlds.foldl (fun c lo => c.put ⟨b, lo⟩ h (c.get ⟨a, lo⟩ h)) c

/-- Swap the route words of a handle. -/
def Chip.swapRoute (c : Chip) (h : Nat) : Chip :=
  routeFlds.foldl (fun c lo =>
    (c.put ⟨.FLU_STACK_ACT, lo⟩ h (c.get ⟨.FLU_STACK_SHD, lo⟩ h)).put ⟨.FLU_STACK_SHD, lo⟩ h (c.get ⟨.FLU_STACK_ACT, lo⟩ h)) c

/-- PREF of a two-leg entry by the rules of R261. -/
def Chip.planPref (c : Chip) (h : Nat) : Chip :=
  if c.on FLU_STACK_SHD.VALID h && c.on FLU_STACK_SHD.MIRROR h then
    let u0 := c.live (c.get FLU_STACK_SHD.LEG0_SLOT h) && !c.on FLU_STACK_MARK.STALE0 h
    let u1 := c.live (c.get FLU_STACK_SHD.LEG1_SLOT h) && !c.on FLU_STACK_MARK.STALE1 h
    if u0 && !u1 then c.flag FLU_STACK_SHD.PREF h false
    else if u1 && !u0 then c.flag FLU_STACK_SHD.PREF h true
    else if u0 && u1 then c.flag FLU_STACK_SHD.PREF h (c.on FLU_STACK_SHD.SEED_PREF h)
    else c
  else c

/-- A rebuild of the shadow bank is finished and committed: a swap is pending (R261, R263). -/
def Chip.rebuildDone (c : Chip) : Chip :=
  if c.get FLU_STACK_STAT.RB_STATE 0 = 1 then
    ((c.routes).foldl (fun c h => c.planPref h) c).put FLU_STACK_STAT.RB_STATE 0 2
  else c

/-- The legs of an entry's re-pointed route that still wait are redirected (R264). -/
def Chip.moveLegs (c : Chip) (h : Nat) : Chip :=
  let es := c.entries.filter (fun e => decide (e.handle = h) && (decide (e.phase = .payload) || decide (e.phase = .active)))
  es.foldl (fun c e =>
    [false, true].foldl (fun c second =>
      let l := e.leg second
      if l.st = .queued ∧ l.slot ≠ c.get (legSlotFld second) h then
        (c.takeOut e.uid second).redirect e.uid second
      else c) c) c

/-- The banks swap (R262–R264): the epoch rises, re-pointed legs are marked STALE, waiting legs move and rings whose
candidate resolves to a MOVING entry stall. -/
def Chip.swapBanks (c : Chip) : Chip :=
  let old := fun (h : Nat) (second : Bool) => c.get (legSlotFld second) h
  let valid := fun (h : Nat) => c.on FLU_STACK_ACT.VALID h
  let c := (c.routes).foldl (fun c h => c.swapRoute h) c
  let c := ((c.incWrap FLU_STACK_EPOCH.EPOCH 0).stackEvt FLU_STACK_EVT.SWAP).put FLU_STACK_STAT.RB_STATE 0 3
  let moving := c.routes.filter (fun h => c.on FLU_STACK_ACT.MOVING h)
  let c := moving.foldl (fun c h =>
    [false, true].foldl (fun c second =>
      if valid h && decide (old h second ≠ c.get (legSlotFld second) h) then
        if c.on (staleFld second) h then c.incWrap FLU_STACK_MARK.GEN h else c.setStale h second
      else c) c) c
  let c := { c with stack := { c.stack with moving := c.stack.moving ++ moving, swapUs := c.us } }
  let c := moving.foldl (fun c h => c.moveLegs h) c
  (c.entries.filter (fun e => e.held && c.on FLU_STACK_ACT.MOVING e.handle)).foldl (fun c e =>
    if ((c.unadmitted e.ring).head?.map (·.uid)) = some e.uid ∧ e.phase = .tokens then c.stallRing e.ring else c) c

/-- The copy of the new active bank into the shadow bank has ended (R263), and a further trigger starts its rebuild (R261). -/
def Chip.copyBack (c : Chip) : Chip :=
  if c.get FLU_STACK_STAT.RB_STATE 0 = 3 then
    let c := (c.routes).foldl (fun c h => c.copyRoute .FLU_STACK_ACT .FLU_STACK_SHD h) c
    let again := c.stack.again
    ({ c with stack := { c.stack with again := false } }).put FLU_STACK_STAT.RB_STATE 0 (if again then 1 else 0)
  else c

/-- The move has ended: MOVING clears in both banks, and stalled rings go on (R264). -/
def Chip.moveDone (c : Chip) (elapsed : Nat) : Chip :=
  if c.stack.moving = [] then c else
  let c := c.stack.moving.foldl (fun c h => (c.flag FLU_STACK_ACT.MOVING h false).flag FLU_STACK_SHD.MOVING h false) c
  let rs := (c.rings.filter (fun e => e.2.stalled)).map Prod.fst
  let c := if rs = [] then c
    else c.put FLU_STACK_SMAX.STALL_MAX 0 (max (c.get FLU_STACK_SMAX.STALL_MAX 0) (min 50 elapsed))
  rs.foldl (fun c r => c.modRing r (fun x => { x with stalled := false }))
    { c with stack := { c.stack with moving := [] } }

/-- A command of FLU_STACK_CMD reports its result (R259). -/
def Chip.stackRes (c : Chip) (op result h : Nat) : Chip :=
  ((c.put FLU_STACK_RES.OP 0 op).put FLU_STACK_RES.RESULT 0 result).put FLU_STACK_RES.HANDLE 0 h

/-- CLEAR_STALE (R259). -/
def Chip.clearStale (c : Chip) (h : Nat) (second : Bool) (gen : Nat) : Chip :=
  let res :=
    if !(c.on FLU_STACK_ACT.VALID h && c.on FLU_STACK_ACT.MIRROR h) then 5
    else if !c.on (staleFld second) h then 1
    else if !c.live (c.get (legSlotFld second) h) then 3
    else if c.get FLU_STACK_MARK.WR_INFL h ≠ 0 then 4
    else if c.get FLU_STACK_MARK.GEN h ≠ gen then 2 else 0
  let c := c.stackRes 1 res h
  if res = 0 then ((c.flag (staleFld second) h false).stackEvt FLU_STACK_EVT.STALE_CLR).rebuildTrigger else c

/-- The leg-live mask as one number: the local slots of powered banks, and the slots of present peers (R249, R250). -/
def Chip.liveMask (c : Chip) : Nat :=
  let loc := (((List.range 16).filter c.domUp).flatMap slotsOf).map (fun n => 64 * c.grp.dev + n)
  let rem := (c.ash.present.filter (fun d => decide (d ≠ c.grp.dev))).flatMap (fun d => (List.range 64).map (fun n => 64 * d + n))
  (loc ++ rem).foldl (fun w g => if c.live g then w + 2 ^ g else w) 0

/-- A change of the leg-live mask triggers a rebuild (R261). -/
def Chip.watchLive (c : Chip) : Chip :=
  let m := c.liveMask
  if m = c.stack.liveSeen then c
  else { c with stack := { c.stack with liveSeen := m } }.rebuildTrigger

end Sys2Proof.Machine
end

