-- ==== Sys2Proof/Machine/Power.lean ====
section
/-! DEFINITION. Draught's sequencer: rails, domains, power-up, shutdown and failures (R327–R346), PMBus and the bellows
(R347–R351), and the group's sequencing (R352–R357). -/

namespace Sys2Proof.Machine

/-! ## States and facts -/

def sqOFF : Nat := 0
def sqCORE : Nat := 1
def sqWAITIMAGE : Nat := 2
def sqPLAN : Nat := 3
def sqRUNNING : Nat := 4
def sqQUIESCE : Nat := 5
def sqRAILSOFF : Nat := 6
def sqTOFFWAIT : Nat := 7
def sqREDUCED : Nat := 8
def sqWAITSTART : Nat := 9

def Chip.seqState (c : Chip) : Nat := c.get DRG_SEQ_STAT.STATE 0
def Chip.setSeqState (c : Chip) (st : Nat) : Chip := (c.put DRG_SEQ_STAT.STATE 0 st).put DRG_SEQ_STAT.STATE_MS 0 0

/-- A shutdown is under way. -/
def Chip.inDown (c : Chip) : Bool := decide (c.seqState = sqQUIESCE ∨ c.seqState = sqRAILSOFF)

/-- The states that a shutdown starts from (R345). -/
def Chip.canDown (c : Chip) : Bool := decide ((1 ≤ c.seqState ∧ c.seqState ≤ 4) ∨ c.seqState = sqREDUCED)

def Chip.railEn (c : Chip) (i : Nat) : Bool := c.bit DRG_RAIL_EN.RAIL 0 i
def Chip.railPg (c : Chip) (i : Nat) : Bool := c.bit DRG_RAIL_PG.RAIL 0 i

/-- PG_MAIN after filtering; always good with PG_MAIN_EN = 0 (R329). -/
def Chip.mainOk (c : Chip) : Bool := !c.on DRG_SEQ_CFG.PG_MAIN_EN 0 || c.on DRG_RAIL_PG.MAIN 0

def Chip.orphan (c : Chip) : Bool := c.on DRG_GRP_STAT.ORPHAN 0

/-- A device that sets its own common starts: standalone or orphan (R331). -/
def Chip.alone (c : Chip) : Bool := decide (c.grp.size = 0) || c.orphan

/-- A rail is sequenced: a core rail always, a bank by BANK_EN, an AUX rail by IN_PLAN (R332, R333). -/
def Chip.inPlan (c : Chip) (i : Nat) : Bool :=
  if i < 4 then true else if i < 20 then c.on HTH_BANK_CFG.BANK_EN (i - 4) else decide (i < 24) && c.on DRG_SEQ_SLOT.IN_PLAN i

/-- Failed retries of a rail (R343). -/
def Chip.railTries (c : Chip) (i : Nat) : Nat := tabGet 0 c.seq.retries i

/-- DETAIL of the rail sources (R396). -/
def Chip.railDetail (c : Chip) (i : Nat) : Nat := min 255 (c.railTries i) * 256 + i

/-- The source of a rail that fails to come up or is lost; a bank has its own for each (R379). -/
def railSource (i : Nat) (lost : Bool) : Nat :=
  if i < 2 then 0x28 else if i = 2 then 0x2A else if i = 3 then 0x29
  else if i < 20 then (if lost then 0x21 else 0x22) else 0x2B

/-- The UNIT of a rail's source (R379). -/
def railUnit (i : Nat) : Nat := if 4 ≤ i ∧ i < 20 then i - 4 else i

/-! ## Frames of the group (R353, R474) -/

/-- Send a sequencing frame on every port of a group. -/
def Chip.seqFrame (c : Chip) (code : Nat) (payload : List Nat) : Chip :=
  if c.grp.size = 0 then c else c.kzAll .seq code (payload.map (BitVec.ofNat 8))

/-- STAGE_DONE with the image bit and the failed rails. -/
def Chip.stageDone (c : Chip) (stage : Nat) : Chip :=
  let f := c.get DRG_RAIL_FAIL.RAIL 0
  c.seqFrame 0x03 [stage, c.kln.baseOn.toNat, f / 65536, f / 256 % 256, f % 256]

/-- A group device in OFF with a power-up pending waits for its strobe (R345). -/
def Chip.seqWake (c : Chip) : Chip :=
  if c.seqState = sqOFF ∧ c.on DRG_SEQ_STAT.UP_PEND 0 ∧ c.mainOk ∧ !c.alone then c.setSeqState sqWAITSTART else c

/-! ## The bellows (R349–R351) and AVS (R369, R370) -/

/-- A derate level rises to at least `k`; a rise is a corrected event (R41, R370). -/
def Chip.derateUp (c : Chip) (dom17 : Bool) (k : Nat) : Chip :=
  let f := if dom17 then DRG_AVS_STAT.DER17 else DRG_AVS_STAT.DER16
  if c.get f 0 < k then (c.put f 0 k).raise 0x0C (if dom17 then 17 else 16) else c

/-- A margin on VCORE suspends AVS and derates both domains by at least one level (R369, R370). -/
def Chip.avsSuspend (c : Chip) : Chip :=
  ((c.flag DRG_AVS_STAT.SUSPENDED 0 true).derateUp false 1).derateUp true 1

/-- An overlay of a mode is applied: 1 operational, 2 ceremony, 3 maintenance, 4 drill (R403, R415). -/
def Chip.modeApplied (c : Chip) (mode : Nat) : Bool :=
  (List.range 8).any (fun i => (decide (c.get KLN_OVL_STAT.STATE i = 2) || decide (c.get KLN_OVL_STAT.STATE i = 3))
    && decide (c.get KLN_OVL_STAT.MODE i = mode))

/-! ### Transactions (R347, R348) -/

/-- What the master sends of a transaction, without the PEC of a write: for a read it ends with the address to read from. -/
def Chip.pmbHead (c : Chip) (t : PmbTx) : List Byte :=
  let a := 2 * c.get DRG_PMB_MAP.ADDR t.entry
  [BitVec.ofNat 8 a, BitVec.ofNat 8 t.cmd] ++ (if t.read = 0 then t.data else [BitVec.ofNat 8 (a + 1)])

/-- The packet error code of PMBus: the CRC-8 of R468 over every byte of the transaction (PRESUMED from PMBus 1.3, log entry 16). -/
def pmbPec (b : List Byte) : Byte := BitVec.ofNat 8 (crc8 b)

/-- A transaction on the bus: a write with its PEC, a read with the number of bytes that follow, PEC included. -/
def Chip.pmbOut (c : Chip) (t : PmbTx) : Out :=
  let h := c.pmbHead t
  if t.read = 0 then .pmbus (h ++ [pmbPec h]) 0 else .pmbus h (t.read + 1)

/-- The first transaction goes on the bus. The master runs from CK_LINK and waits for its lock (R34). -/
def Chip.pmbGo (c : Chip) : Chip :=
  match c.pmb.txs with
  | [] => c
  | t :: _ => if c.seq.linkLock then c.emit (c.pmbOut t) else c

/-- A transaction, with its PAGE first where the entry has one. -/
def Chip.pmbPaged (c : Chip) (t : PmbTx) : List PmbTx :=
  let p := c.get DRG_PMB_MAP.PAGE t.entry
  if p = 0xFF then [t] else [⟨t.entry, 0x00, [BitVec.ofNat 8 p], 0, none⟩, t]

/-- Accesses to an entry wait for the bus. -/
def Chip.pmbAsk (c : Chip) (ts : List PmbTx) : Chip :=
  let d := { c with pmb := { c.pmb with txs := c.pmb.txs ++ ts.flatMap c.pmbPaged } }
  if c.pmb.txs = [] then d.pmbGo else d

/-- A write of a command of an entry, and a read. -/
def pmbPut (j cmd : Nat) (data : List Byte) : PmbTx := ⟨j, cmd, data, 0, none⟩
def pmbGet (j cmd len : Nat) : PmbTx := ⟨j, cmd, [], len, none⟩

/-- OPERATION of an entry (R347). -/
def Chip.pmbOperation (c : Chip) (j value : Nat) : Chip := c.pmbAsk [pmbPut j 0x01 [BitVec.ofNat 8 value]]

/-- The transactions that satisfy `p` leave the list; where the first of them was on the bus, the next one goes. -/
def Chip.pmbDrop (c : Chip) (p : PmbTx → Bool) : Chip :=
  let d := { c with pmb := { c.pmb with txs := c.pmb.txs.filter (fun t => !p t) } }
  if c.pmb.txs.head? = d.pmb.txs.head? then d else { d with pmb := { d.pmb with fails := 0 } }.pmbGo

/-! ### Margins -/

/-- The voltage that a word of VOUT_MODE's linear format stands for, as a fraction of mV; none in another format (PRESUMED from PMBus
1.3, log entry 16). -/
def voutMv (mode word : Nat) : Option (Nat × Nat) :=
  if mode / 32 % 8 ≠ 0 then none
  else if mode % 32 < 16 then some (word * 1000 * 2 ^ (mode % 32), 1) else some (word * 1000, 2 ^ (32 - mode % 32))

/-- The word of VOUT_MODE's linear format that is nearest to a voltage in mV; none in another format. -/
def voutWord (mode mv : Nat) : Option Nat :=
  if mode / 32 % 8 ≠ 0 then none
  else
    let num := if mode % 32 < 16 then mv else mv * 2 ^ (32 - mode % 32)
    let den := if mode % 32 < 16 then 1000 * 2 ^ (mode % 32) else 1000
    some ((2 * num + den) / (2 * den) % 65536)

/-- The margin target from VOUT_COMMAND (R349): MARGIN × 0.5 % up or down, to the nearest step (log entry 24). -/
def marginTarget (word margin dir : Nat) : Nat :=
  (word * (if dir = 2 then 200 + margin else 200 - margin) + 100) / 200 % 65536

/-- The monitor of a rail (R186, R189). -/
def railMon (i : Nat) : Option MonId :=
  if i = 0 then some (.rmon 2) else if i = 1 then some (.rmon 1) else if i = 2 then some (.rmon 4) else if i = 3 then some (.rmon 3)
  else if h : 4 ≤ i ∧ i < 20 then some (.bmon ⟨i - 4, by omega⟩) else none

/-- A voltage, as a fraction of mV, lies inside the release thresholds of a rail's monitor (R187, R349). -/
def Chip.insideRail (c : Chip) (i num den : Nat) : Bool :=
  match railMon i with
  | none => true
  | some m =>
    let w := c.monWindow m ⟨0, 0⟩
    let v : Int := num * 1000
    let d : Int := den
    decide (v ≤ (w.high - w.hyst) * d) && (match w.low with | some l => decide ((l + w.hyst) * d ≤ v) | none => true)

/-- The margin in progress is over: AVS resumes. -/
def Chip.bellowsFree (c : Chip) : Chip :=
  let c := if c.pmb.bel.rail = 1 then c.flag DRG_AVS_STAT.SUSPENDED 0 false else c
  { c with pmb := { c.pmb with bel := { c.pmb.bel with phase := .none } } }

/-- A margin ends early (R351): what it still had to send is dropped, and OPERATION 0x80 is written unless the rail goes off in a
shutdown, or no margin was set yet. -/
def Chip.bellowsAbort (c : Chip) (reason : Nat) : Chip :=
  let b := c.pmb.bel
  if b.phase = .none then c else
  let c := c.pmbDrop (fun t => decide (t.entry = b.entry))
  let c := if reason = 0xB ∨ b.phase = .reading then c else c.pmbOperation b.entry 0x80
  ((c.bellowsFree).put DRG_BEL_STAT.STATE 0 6).put DRG_BEL_STAT.REASON 0 reason

/-- The first of the conditions 1 to 5 of R349 that a request fails, 0 for none. -/
def Chip.bellowsReason (c : Chip) (dir entry : Nat) : Nat :=
  let rail := c.get DRG_PMB_MAP.RAIL entry
  if !(decide (c.lcState = lcTest) || decide (c.lcState = lcAnalysis) || c.modeApplied 3 || c.modeApplied 4) then 1
  else if c.seqState ≠ sqRUNNING then 2
  else if 24 ≤ entry ∨ !c.on DRG_PMB_MAP.VALID entry ∨ !c.on DRG_PMB_MAP.MARGIN_OK entry ∨ c.bit DRG_PMB_STAT.ENTRY 0 entry
      ∨ (dir ≠ 1 ∧ dir ≠ 2) then 3
  else if !c.railPg rail then 4
  else if c.pmb.bel.phase ≠ .none then 5
  else 0

/-- A margin is refused (R349). -/
def Chip.bellowsRefuse (c : Chip) (reason : Nat) : Chip := (c.put DRG_BEL_STAT.STATE 0 5).put DRG_BEL_STAT.REASON 0 reason

/-- GO of the bellows (R349, R350): VOUT_MODE and VOUT_COMMAND are read, from which the target and the sixth condition follow. STATE
reads SETTING from here on (log entry 24). -/
def Chip.bellowsStart (c : Chip) (dir entry dwell : Nat) : Chip :=
  let reason := c.bellowsReason dir entry
  if reason ≠ 0 then c.bellowsRefuse reason
  else
    let rail := c.get DRG_PMB_MAP.RAIL entry
    let dwell := min 60000 (max 1 dwell)
    let c := { c with pmb := { c.pmb with bel := ⟨.reading, entry, rail, dwell, dir⟩ } }
    let c := (c.put DRG_BEL_STAT.STATE 0 1).put DRG_BEL_STAT.REASON 0 0
    let c := ((c.put DRG_BEL_STAT.ENTRY 0 entry).put DRG_BEL_STAT.REMAIN 0 dwell).put DRG_BEL_RES.MON_EVT 0 0
    let c := c.pmbAsk [pmbGet entry 0x20 1, pmbGet entry 0x21 2]
    if rail = 1 then c.avsSuspend else c

/-- VOUT_COMMAND has been read for a margin: the sixth condition of R349 is judged, and the target and OPERATION are written (R350
step 1). In a format other than the linear one a free value decides and is the target (log entry 24). -/
def Chip.bellowsTarget (c : Chip) (word : Nat) : Chip :=
  let b := c.pmb.bel
  if b.phase ≠ .reading then c else
  let linear := marginTarget word (c.get DRG_PMB_MAP.MARGIN b.entry) b.dir
  let mv := voutMv (tabGet 0 c.pmb.modes b.entry) linear
  let inside := match mv with
    | some (num, den) => c.insideRail b.rail num den
    | none => decide (c.freeVal % 2 = 0)
  let target := if mv.isSome then linear else c.freeVal / 2 % 65536
  let c := if mv.isSome then c else c.draw
  if !inside then c.bellowsFree.bellowsRefuse 6
  else
    let c := { c with pmb := { c.pmb with bel := { b with phase := .setting } } }
    c.pmbAsk [pmbPut b.entry (if b.dir = 2 then 0x25 else 0x26) (leBytes 2 target),
              pmbPut b.entry 0x01 [if b.dir = 2 then 0xA8 else 0x98]]

/-! ## Domains going off (R43, R87) -/

/-- The bank that an instance of a Hearth register belongs to. -/
def hthBank (r : RegName) (i : Nat) : Option Nat :=
  match r with
  | .HTH_SLOT_CMD | .HTH_SLOT_CTL | .HTH_SLOT_STAT | .HTH_SLOT_EVT | .HTH_SLOT_CAUSE | .HTH_SLOT_RCV | .HTH_SLOT_RCNT
  | .HTH_SLOT_ATRLEN | .HTH_PROT_CFG | .HTH_PROT_LIM | .HTH_PROT_STAT | .HTH_PROT_WT | .HTH_PROT_CLKDIV | .HTH_PROT_EVT
  | .HTH_PROT_CNT | .HTH_PROT_LAST | .HTH_TURF_CFG | .HTH_TURF_STAT | .HTH_TURF_EVT | .HTH_TURF_CNT | .HTH_TURF_LAST
  | .HTH_SLOT_ELEC | .HTH_SLOT_ESTAT | .HTH_LEG_STAT | .HTH_LEG_CMD => some (i / 4)
  | .HTH_SLOT_ATR => some (i / 36)
  | .HTH_LEG_RON => some (i / 48)
  | .HTH_MON_CFG | .HTH_MON_THR | .HTH_MON_STAT => some (i / 16)
  | .HTH_BANK_CFG | .HTH_BANK_RICK | .HTH_BANK_LEGLIM | .HTH_BANK_ESTAT | .HTH_BANK_LCNT | .HTH_BMON_CFG | .HTH_BMON_THR
  | .HTH_BMON_STAT => some i
  | _ => none

/-- A field that no reset but a cold one, and no power cycle of its domain, returns to its Reset value: a ROS field (R9), or one
whose table says that it is kept, cleared at cold reset, or counts since cold reset (R10, R87). -/
def coldOnly (k : Key) : Bool :=
  (match k.fld.accAt k.idx with
    | .ROS => true
    | _ => false)
  || [RegName.HTH_LEG_STAT, .HTH_LEG_RON, .HTH_BANK_RICK, .HTH_BANK_LCNT, .HTH_PROT_CNT, .HTH_TURF_CNT, .FLU_STACK_CNT,
      .FLU_STACK_SCNT, .FLU_STACK_SMAX, .FLU_HP_ERR, .CRD_DRBG_CNT, .EMB_CNT, .EMB_COLMAP].contains k.fld.reg

/-- The fields of a bank that AON restores at a power-up (R87); the monitors' status is set when their power comes up (R197,
R205). -/
def hthKept (k : Key) : Bool :=
  (match k.fld.accAt k.idx with
    | .RW | .RWL => true
    | _ => false)
    || coldOnly k || [RegName.HTH_BANK_LEGLIM, .HTH_MON_STAT, .HTH_BMON_STAT].contains k.fld.reg

/-- Registers that lie in PD16 and PD17 and start at their reset values when power returns (log entry 25); the retired lanes
and columns, which the wear record keeps, stay. -/
def pd16Reg (r : RegName) : Bool :=
  [RegName.STK_MBX_DATA, .STK_MBX_CMD, .STK_MBX_STAT, .FLU_RING_CFG, .FLU_RING_CTL, .FLU_SQ_BASE_LO, .FLU_SQ_BASE_HI,
    .FLU_CQ_BASE_LO, .FLU_CQ_BASE_HI, .FLU_RING_PTR, .FLU_RING_STAT, .FLU_RING_EVT, .FLU_RING_CNT, .FLU_RING_DCNT,
    .FLU_STACK_ACT, .FLU_STACK_SHD, .FLU_STACK_MARK, .FLU_LIVE, .FLU_STACK_STAT, .FLU_STACK_EPOCH, .FLU_STACK_RES,
    .FLU_STACK_EVT, .FLU_STACK_CNT, .FLU_STACK_SCNT, .FLU_STACK_SMAX, .FLU_SCHED_CFG, .FLU_CLASS_CFG, .FLU_SCHED_STAT,
    .FLU_SCHED_EVT, .FLU_PORT_CFG, .FLU_PORT_STAT, .FLU_HP_CFG, .FLU_HP_ID, .FLU_HP_STAT, .FLU_HP_ERR, .HTH_MON_GSTAT,
    .CRD_CFG, .CRD_STAT, .CRD_EVT, .CRD_ZSTAT, .CRD_GEN_FLOOR, .CRD_DRBG_CNT, .CRD_SESS_STAT, .CRD_SESS_CNT,
    .CRD_SESS_AGE, .CRD_SESS_CERT, .EMB_CFG, .EMB_EVT, .EMB_CNT, .EMB_JOBCNT, .EMB_JOB, .EMB_DST, .EMB_SCR, .EMB_CSTAT,
    .EMB_BEATS, .EMB_WAIT, .EMB_LERR].contains r

/-- A bank domain goes off: its kill line is asserted and every slot is cut (R43, R57, R106). -/
def Chip.bankOff (c : Chip) (b : Nat) : Chip :=
  let c := (c.putBit DRG_DOM_STAT.UP 0 b false).flag HTH_BANK_ESTAT.KILL b true
  let c := { c with seq := { c.seq with powered := c.seq.powered.filter (fun k => decide (k ≠ b)) } }
  (slotsOf b).foldl (fun c n => c.cutSlot n .kill) c

/-- PD16 and PD17 lose their contents. -/
def Chip.coreLost (c : Chip) : Chip :=
  let c := c.keepRegs (fun k => !pd16Reg k.fld.reg || coldOnly k)
  let c := { c with rings := [], entries := [], stage := [], stack := StackX.init, sess := [], cord := CordX.init, ctxs := [],
                    ember := EmberX.init, dmp := { c.dmp with main := 0, floor := 0, reqs := [], grants := [], lastC0Us := none },
                    seq := { c.seq with cardLock := false }, kln := { c.kln with mbx := WinX.init, nonce := none, xfer := none } }
  let c := c.forN 64 (fun c n => c.modSlot n (fun x => { x with queue := [], wait := none, cur := none }))
  ((c.mem .sramClear).mem (.wipeOp 0 0x10000)).mem (.wipeList 0 0x8000)

/-- The link of a port is gone: data link down, no bus master (R459). -/
def Chip.linkGone (c : Chip) (x : Nat) : Chip :=
  c.resetReg .FLU_HP_STAT x

/-- A Kuzagan link is gone: INIT_OK and KEYED end and sequence numbers start over (R471, R476). The remote legs that ran on
it end with the peer's loss. -/
def Chip.kzGone (c : Chip) (k : Nat) : Chip :=
  let x := c.kzOf k
  let c := (c.flag DRG_KZ_STAT.INIT_OK k false).flag DRG_KZ_STAT.KEYED k false
  c.setKz k { KzX.init with fwds := x.fwds, nextTag := x.nextTag }

/-- A domain goes off. An ageing measurement that runs is abandoned with PD16 or PD17 (R371). -/
def Chip.domOff (c : Chip) (k : Nat) : Chip :=
  if !c.domUp k then c
  else if k < 16 then c.bankOff k
  else
    let c := c.putBit DRG_DOM_STAT.UP 0 k false
    let c := if k = 16 ∨ k = 17 then
        { c.flag DRG_AGE_STAT.MEAS_BUSY 0 false with wear := { c.wear with measRun := false } }
      else c
    if k = 16 then c.coreLost
    else if k = 18 then c.forN 2 (fun c x => c.linkGone x)
    else c

/-! ## Enables -/

/-- An enable drops: the rail is no longer judged, and a bank has no power (R328). -/
def Chip.enLow (c : Chip) (i : Nat) : Chip :=
  let c := { c with seq := { c.seq with powered := c.seq.powered.filter (fun b => decide (4 + b ≠ i)) } }
  if c.railEn i then ((c.putBit DRG_RAIL_EN.RAIL 0 i false).putBit DRG_RAIL_PG.RAIL 0 i false).emit (.rail i false) else c

/-- Every enable drops at once, every switched domain is off, and TOFF runs (R341). -/
def Chip.allDrop (c : Chip) : Chip :=
  let c := c.forN 16 (fun c b => (c.flag HTH_BANK_ESTAT.KILL b true).domOff b)
  let c := [19, 18, 17, 16].foldl (fun c k => c.domOff k) c
  let c := (c.forN 24 (fun c i => c.enLow i)).bellowsAbort 0xB
  { c.setSeqState sqTOFFWAIT with seq := { c.seq with retryWait := [], retrying := [], coreOff := false } }

/-! ## The stages (R331–R333, R345) -/

/-- The common start of the core stage. -/
def Chip.coreStart (c : Chip) : Chip :=
  if (c.seqState = sqOFF ∨ c.seqState = sqWAITSTART) ∧ c.on DRG_SEQ_STAT.UP_PEND 0 ∧ c.mainOk then
    let c := (c.setSeqState sqCORE).flag DRG_SEQ_STAT.UP_PEND 0 false
    let c := [0, 1, 2, 3, 4].foldl (fun c r => if h : r < 5 then c.monPeriod (.rmon ⟨r, h⟩) else c) c
    { c with seq := { c.seq with judged := [], planRails := [], retryWait := [], retrying := [], bmonLate := [] },
             wear := { c.wear with warned := false }, kln := { c.kln with baseOn := false } }
  else c

/-- A stage ends when its rails have all been judged; the core stage holds while a transition is resumed (R445). Entering WAIT_IMAGE starts the selection of a base image (R410) in a
life-cycle state that applies one (R429). -/
def Chip.stageEnd (c : Chip) : Chip :=
  if c.seqState = sqCORE then
    if [0, 1, 2, 3].all (fun i => c.seq.judged.contains i) ∧ c.kln.lc.isNone then
      if c.railPg 0 && c.railPg 1 then
        let c := c.setSeqState sqWAITIMAGE
        if c.lcRuns then { c with kln := { c.kln with img := some ⟨.select, []⟩ } } else c
      else (c.setSeqState sqREDUCED).seqEvt DRG_SEQ_EVT.REDUCED_IN
    else c
  else if c.seqState = sqPLAN then
    if c.seq.planRails.all (fun i => c.seq.judged.contains i) then
      let c := (c.setSeqState sqRUNNING).seqEvt DRG_SEQ_EVT.UP_DONE
      if c.alone then c else (c.putBit DRG_GRP_STAT.JOINED 0 c.grp.dev true).stageDone 2
    else c
  else c

/-- The common start of the plan stage (R333). -/
def Chip.planStart (c : Chip) : Chip :=
  if c.seqState = sqWAITIMAGE ∧ c.kln.baseOn then
    let rails := (List.range 24).filter (fun i => decide (4 ≤ i) && c.inPlan i)
    { c.setSeqState sqPLAN with seq := { c.seq with planRails := rails } }.stageEnd
  else c

/-- A base image has been applied: a device alone starts its plan stage, a group device reports stage 1 (R333, R354). -/
def Chip.imageOn (c : Chip) : Chip :=
  if c.seqState ≠ sqWAITIMAGE then c
  else if c.alone then c.planStart
  else
    let g := c.grp
    { c with grp := { g with ready := if g.ready.contains g.dev then g.ready else g.ready ++ [g.dev] } }.stageDone 1

/-- An enable rises; OPERATION 0x80 goes to the rail's regulator first once a base image has been applied (R335). -/
def Chip.enHigh (c : Chip) (i : Nat) : Chip :=
  let c := if c.seq.imaged then
      (List.range 24).foldl (fun c j =>
        if c.on DRG_PMB_MAP.VALID j && decide (c.get DRG_PMB_MAP.RAIL j = i) then c.pmbOperation j 0x80 else c) c
    else c
  (c.putBit DRG_RAIL_EN.RAIL 0 i true).emit (.rail i true)

/-- ON_DLY of a rail has passed in its stage (R331). -/
def Chip.onDelay (c : Chip) (i : Nat) : Chip :=
  let mine := (decide (c.seqState = sqCORE) && decide (i < 4)) || (decide (c.seqState = sqPLAN) && c.seq.planRails.contains i)
  if mine && !c.railEn i && !c.seq.judged.contains i then c.enHigh i else c

/-- A rail is judged in its stage. Kiln reads the life-cycle words when the core stage has judged VNVS (R445). -/
def Chip.judge (c : Chip) (i : Nat) : Chip :=
  if c.seq.judged.contains i then c
  else
    let c := { c with seq := { c.seq with judged := c.seq.judged ++ [i] } }
    if i = 2 ∧ c.seqState = sqCORE then c.lcStart (c.railPg 2) else c

/-! ## Rails that fail (R341–R343) -/

/-- The retry account of a failed rail: a failed attempt counts, and the rail is locked out or waits for its retry. -/
def Chip.railRetry (c : Chip) (i : Nat) (attempt : Bool) : Chip :=
  let n := c.railTries i + attempt.toNat
  let c := { c with seq := { c.seq with retries := tabPut id 0 c.seq.retries i n,
                                        retrying := c.seq.retrying.filter (fun r => decide (r ≠ i)),
                                        retryWait := c.seq.retryWait.filter (fun r => decide (r ≠ i)) } }
  if i < 2 then c
  else if c.get DRG_SEQ_CFG.RAIL_RETRY_LIM 0 ≤ n then
    let was := c.bit DRG_RAIL_LOCKOUT.RAIL 0 i
    let c := c.putBit DRG_RAIL_LOCKOUT.RAIL 0 i true
    if !was ∧ 4 ≤ i ∧ i < 20 then c.raise 0x23 (i - 4) (c.railDetail i) else c
  else { c with seq := { c.seq with retryWait := c.seq.retryWait ++ [i] } }

/-- A rail is not good by PG_TMO, or its bank monitor missed its settle time (R199, R336, R341). -/
def Chip.noPg (c : Chip) (i : Nat) (forced : Bool := false) : Chip :=
  let attempt := c.seq.retrying.contains i
  let c := ((c.enLow i).putBit DRG_RAIL_FAIL.RAIL 0 i true).seqEvt DRG_SEQ_EVT.NO_PG
  let c := c.railRetry i attempt
  ((c.raise (railSource i false) (railUnit i) (c.railDetail i) forced).judge i).stageEnd

/-- A bank rail is lost after it was good (R341): `report` says that source 0x21 is to be raised. -/
def Chip.bankLost (c : Chip) (b : Nat) (report forced : Bool) : Chip :=
  let i := 4 + b
  let attempt := c.seq.retrying.contains i
  let c := (c.flag HTH_BANK_ESTAT.KILL b true).domOff b
  let c := (((c.enLow i).putBit DRG_RAIL_FAIL.RAIL 0 i true).flag DRG_SEQ_EVT.RAIL_LOST 0 true).railRetry i attempt
  let c := if c.pmb.bel.rail = i then c.bellowsAbort 0xA else c
  let c := if report then c.raise 0x21 b (c.railDetail i) forced else c
  (c.judge i).stageEnd

/-- A rail fails during a shutdown (R341): all enables drop at once, all kill lines are asserted. -/
def Chip.failInDown (c : Chip) (i : Nat) : Chip :=
  ((c.putBit DRG_RAIL_FAIL.RAIL 0 i true).seqEvt DRG_SEQ_EVT.FAIL_IN_DOWN).allDrop

/-- A bank monitor moves to its alarm side after the release of isolation: the bank's rail has failed (R200, R341, R345). -/
def Chip.bankAlarm (c : Chip) (b : Nat) : Chip := if c.inDown then c.failInDown (4 + b) else c.bankLost b false false

/-- A rail that was good is lost (R341); a failed rail is reported in a shutdown too. -/
def Chip.railGone (c : Chip) (i : Nat) (forced : Bool := false) : Chip :=
  if !c.railPg i then c
  else if c.inDown then (c.raise (railSource i true) (railUnit i) (c.railDetail i) forced).failInDown i
  else if i < 2 then
    let c := (c.putBit DRG_RAIL_FAIL.RAIL 0 i true).flag DRG_SEQ_EVT.RAIL_LOST 0 true
    let c := c.raise 0x28 i (c.railDetail i) forced
    if c.seqState = sqREDUCED then c.enLow i
    else
      let c := (c.seqFrame 0x04 [4]).allDrop
      if c.get DRG_SEQ_STAT.RESTARTS 0 < c.get DRG_SEQ_CFG.RESTART_LIM 0 then
        ((c.flag DRG_SEQ_STAT.UP_PEND 0 true).incSat DRG_SEQ_STAT.RESTARTS 0).seqEvt DRG_SEQ_EVT.RESTART
      else
        let c := c.flag DRG_SEQ_STAT.UP_PEND 0 false
        { c with seq := { c.seq with reducedNext := true } }
  else if 4 ≤ i ∧ i < 20 then c.bankLost (i - 4) true forced
  else
    let attempt := c.seq.retrying.contains i
    let c := if i = 3 then ((c.domOff 18).forN 2 (fun c x => c.portLost x)) else if i = 2 then c.domOff 19 else c
    let c := ((c.enLow i).putBit DRG_RAIL_FAIL.RAIL 0 i true).flag DRG_SEQ_EVT.RAIL_LOST 0 true
    let c := if c.pmb.bel.rail = i then c.bellowsAbort 0xA else c
    let c := c.railRetry i attempt
    ((c.raise (railSource i true) (railUnit i) (c.railDetail i) forced).judge i).stageEnd

/-- The port fences that a successful retry of VPHY lifts (R381). -/
def Chip.liftPorts (c : Chip) : Chip :=
  let c := { c with ash := { c.ash with fences := c.ash.fences.filter (fun f => match f.unit with
    | .port _ => decide (f.src ≠ 0x29)
    | _ => true) } }
  c.forN 2 (fun c x => c.portRings x)

/-- The legs of a slot that are retired and not replaced. -/
def Chip.missingLegs (c : Chip) (n : Nat) : List Nat :=
  (List.range 12).filter (fun k => c.bit HTH_LEG_STAT.LEG_RET n k && !c.bit HTH_LEG_STAT.RICK_SUB n k)

/-- A bank domain gets power: its registers are restored (R87), its monitors start (R197), and it stays cut off until isolation is
released. -/
def Chip.bankPower (c : Chip) (b : Nat) : Chip :=
  let c := (slotsOf b).foldl (fun c n => c.untrigger n) c
  let c := c.keepRegs (fun k => hthBank k.fld.reg k.idx ≠ some b || hthKept k)
  let c := { c.flag HTH_BANK_ESTAT.KILL b true with
    seq := { c.seq with powered := c.seq.powered ++ [b], bmonLate := c.seq.bmonLate.filter (fun k => decide (k ≠ b)) } }
  let c := (slotsOf b).foldl (fun c n =>
    if (c.slot n).clinker || c.on HTH_LEG_STAT.CLINKER_LEG n then c.setSlotState n stCLINKER else c) c
  (domMons b).foldl (fun c m => c.monStart m) c

/-- A rail is judged good, whenever its enable is high (R328, R343). A retry of a bank has succeeded once the bank's monitor has decided
(R199, Chip.bankOn). -/
def Chip.railUp (c : Chip) (i : Nat) : Chip :=
  if c.railEn i && !c.railPg i then
    let again := c.seq.retrying.contains i
    let c := (c.putBit DRG_RAIL_PG.RAIL 0 i true).putBit DRG_RAIL_FAIL.RAIL 0 i false
    let c := { c with seq := { c.seq with retryWait := c.seq.retryWait.filter (fun r => decide (r ≠ i)) } }
    let c := if 4 ≤ i ∧ i < 20 then c.bankPower (i - 4)
      else
        let c := { c with seq := { c.seq with retrying := c.seq.retrying.filter (fun r => decide (r ≠ i)) } }
        if again ∧ i = 3 then c.liftPorts else c
    (c.judge i).stageEnd
  else c

/-- DRG_MON_SETTLE has expired in a domain (R198, R199); the rail monitors, which lie in AON, go with PD16 to PD19 here. -/
def Chip.settleOut (c : Chip) (k : Nat) : Chip :=
  if k < 16 then
    if !c.bankPow k then c else
    let c := (domMons k).foldl (fun c m => c.monSettle m) c
    let good := c.on HTH_BMON_STAT.DECIDED k && !c.on HTH_BMON_STAT.STATE k
    if good || c.domUp k then c
    else { c with seq := { c.seq with bmonLate := c.seq.bmonLate ++ [k] } }.noPg (4 + k)
  else
    [0, 1, 2, 3, 4].foldl (fun c r => if h : r < 5 then c.monSettle (.rmon ⟨r, h⟩) else c) c

/-- A rail retry starts (R343). -/
def Chip.retryGo (c : Chip) (i : Nat) : Chip :=
  if c.seq.retryWait.contains i ∧ !c.railEn i ∧ 1 ≤ c.seqState ∧ c.seqState ≤ 4 then
    let c := { c with seq := { c.seq with retryWait := c.seq.retryWait.filter (fun r => decide (r ≠ i)),
                                          retrying := c.seq.retrying ++ [i] } }
    c.enHigh i
  else c

/-- RETRY names a rail (R343, R346). -/
def Chip.retryCmd (c : Chip) (i : Nat) : Chip :=
  if 24 ≤ i ∨ c.railPg i ∨ !c.inPlan i ∨ c.seqState = sqOFF ∨ sqQUIESCE ≤ c.seqState then c.seqEvt DRG_SEQ_EVT.CMD_REFUSED
  else if c.railEn i ∨ !c.bit DRG_RAIL_FAIL.RAIL 0 i then c
  else
    { c with seq := { c.seq with retryWait := c.seq.retryWait.filter (fun r => decide (r ≠ i)) ++ [i] } }.retryGo i

/-! ## Shutdown (R337–R340) -/

/-- A shutdown starts: quiesce (R338 step 1). The trigger is that of DOWN_NOTICE (R474). -/
def Chip.shutdown (c : Chip) (trigger : Nat) : Chip :=
  let c := (c.setSeqState sqQUIESCE).seqFrame 0x04 [trigger]
  let c := c.bellowsAbort 0xB
  let c := c.forN 64 (fun c n => c.startDeact n .commanded cauWARMDEV)
  let c := c.definedRings.foldl (fun c r => c.resetRing r) c
  { c with seq := { c.seq with retryWait := [], retrying := [] } }

/-- The loss of PG_MAIN as the sequencer reads it: a shutdown starts (R337, R339). -/
def Chip.mainFall (c : Chip) : Chip :=
  if c.mainOk ∨ !c.canDown then c
  else
    let c := if c.on DRG_SEQ_CFG.AUTO_UP 0 then c.flag DRG_SEQ_STAT.UP_PEND 0 true else c
    c.shutdown 1

/-- The filtered PG_MAIN is low (R329). -/
def Chip.mainLost (c : Chip) : Chip :=
  if !c.on DRG_RAIL_PG.MAIN 0 then c else (c.flag DRG_RAIL_PG.MAIN 0 false).mainFall

/-- PG_MAIN is good (R339). -/
def Chip.mainBack (c : Chip) : Chip :=
  let was := c.mainOk
  let c := c.flag DRG_RAIL_PG.MAIN 0 true
  (if c.inDown && !was then c.seqEvt DRG_SEQ_EVT.MAIN_RETURN else c).seqWake

/-- DOWN (R337, R345). -/
def Chip.downCmd (c : Chip) : Chip :=
  let c := c.flag DRG_SEQ_STAT.UP_PEND 0 false
  if c.seqState = sqWAITSTART then c.setSeqState sqOFF else if c.canDown then c.shutdown 2 else c

/-- UP (R339, R342). -/
def Chip.upCmd (c : Chip) : Chip :=
  if c.seqState = sqRUNNING then c
  else
    let c := c.flag DRG_SEQ_STAT.UP_PEND 0 true
    if c.seqState = sqREDUCED then c.shutdown 2 else c.seqWake

/-- The shutdown ends when the last enable has dropped after the core off start (R338 step 4). -/
def Chip.downEnd (c : Chip) : Chip :=
  if c.seqState = sqRAILSOFF ∧ c.seq.coreOff ∧ c.get DRG_RAIL_EN.RAIL 0 = 0 then
    (c.setSeqState sqTOFFWAIT).seqEvt DRG_SEQ_EVT.DOWN_DONE
  else c

/-- The off start: the plan domains are isolated (R338 step 2). -/
def Chip.offStart (c : Chip) : Chip :=
  if c.seqState = sqQUIESCE then
    let c := c.forN 16 (fun c b => c.domOff b)
    { c.setSeqState sqRAILSOFF with seq := { c.seq with coreOff := false } }
  else c

/-- The core off start: PD16 to PD19 are isolated (R338 step 3). -/
def Chip.coreOffStart (c : Chip) : Chip :=
  if c.seqState = sqRAILSOFF ∧ !c.seq.coreOff then
    let c := [19, 18, 17, 16].foldl (fun c k => c.domOff k) c
    { c with seq := { c.seq with coreOff := true } }.downEnd
  else c

/-- OFF_DLY of a rail has passed (R338). -/
def Chip.offDelay (c : Chip) (i : Nat) : Chip :=
  if c.seqState = sqRAILSOFF ∧ (4 ≤ i ∨ c.seq.coreOff) then (c.enLow i).downEnd else c

/-- TOFF has elapsed, in the cases that are no cold reset (R339, R345). -/
def Chip.toffOver (c : Chip) : Chip :=
  if c.seq.reducedNext then
    { (c.setSeqState sqREDUCED).seqEvt DRG_SEQ_EVT.REDUCED_IN with seq := { c.seq with reducedNext := false } }
  else (c.setSeqState sqOFF).seqWake

/-! ## Domains coming up (R76, R83, R87, R334) -/

/-- The conditions of R334. -/
def Chip.domReady (c : Chip) (k : Nat) : Bool :=
  !c.domUp k && c.railPg 0 && c.railPg 1 && !c.inDown &&
    (if k = 16 then true
     else c.domUp 16 &&
      (if k = 17 then true else if k = 18 then c.railPg 3 else if k = 19 then c.railPg 2
       else c.railPg (4 + k) && c.on HTH_BMON_STAT.DECIDED k && !c.on HTH_BMON_STAT.STATE k && !c.seq.bmonLate.contains k))

/-- The cell kinds of a bank (R73). -/
def cellKinds (b : Nat) : List Nat := if b = 0 then [0, 1] else [0, 1, 2]

/-- The sides of a kind of cell among the readings of a bank. -/
def sidesOf (cells : List CellReading) (kind : Nat) : List (Int × CellSide) :=
  (cells.filter (fun r => decide (r.kind.val = kind))).map (fun r => (r.tj, r.side))

/-- The free cells of a bank are measured: one outside its window is retired (R76, R79); in the Test state the first values are the
baselines (R74). RICK_TESTED says that both sides of every free cell were measured. -/
def Chip.testCells (c : Chip) (b : Nat) (cells : List CellReading) : Chip :=
  let free := (cellKinds b).filter (fun k => c.cellFree b k)
  let learned := (cells.filter (fun r => c.learns (64 + b, r.kind.val, r.side.lowSide))).foldl (fun c r =>
    match r.side.raws with
    | v :: _ => if c.learns (64 + b, r.kind.val, r.side.lowSide) then c.learn (64 + b, r.kind.val, r.side.lowSide) (ron25 r.tj v) else c
    | [] => c) c
  let verdict := fun (kind : Nat) => learned.cellJudge b kind (c.get HTH_BANK_LEGLIM.LO_FACTOR b) (c.get HTH_BANK_LEGLIM.HI_FACTOR b)
    (sidesOf cells kind)
  let c := free.foldl (fun c kind =>
    match verdict kind with
    | some (false, _) =>
      let c := (c.put (cellFld kind) b 128).incSat HTH_BANK_LCNT.RETIRE_CNT b
      { c with wear := { c.wear with writePend := true } }.raise 0x15 (4 * b)
    | _ => c) learned
  c.flag HTH_BANK_ESTAT.RICK_TESTED b (free.all (fun k => (verdict k).isSome))

/-- A leg clinker is looked at again at the first power-up of its bank after a cold reset (R83). Where two legs of one kind are missing
and one cell is free, the first leg claims it although the slot stays a clinker: R83 does not say whether it does (DESIGN CHOICE, log
entry 132). -/
def Chip.reviewLegs (c : Chip) (n : Nat) (cells : List CellReading) : Chip :=
  let b := bankOf n
  (c.missingLegs n).foldl (fun c k =>
    let kind := legKind k
    if c.cellFree b kind then
      match c.cellJudge b kind (c.get HTH_BANK_LEGLIM.LO_FACTOR b) (c.get HTH_BANK_LEGLIM.HI_FACTOR b) (sidesOf cells kind) with
      | some (true, vals) => (c.claimCell n k vals).legEvent n k false true ((vals.head?.map Prod.snd).getD 0)
      | _ => c
    else c) c

/-- A slot starts at a power-up of its bank (R83, R87, R108, R118): a leg clinker is looked at again at the first one after a cold
reset; any other clinker stays one. A presence that reads 1 by then acts as its rise (log entry 133). -/
def Chip.slotUp (c : Chip) (n : Nat) (first : Bool) (cells : List CellReading) : Chip :=
  let leg := c.on HTH_LEG_STAT.CLINKER_LEG n
  let c := if first && leg then c.reviewLegs n cells else c
  let leg' := leg && (!first || !(c.missingLegs n).isEmpty)
  let c := c.flag HTH_LEG_STAT.CLINKER_LEG n leg'
  let cl := leg' || ((c.slot n).clinker && !leg)
  let c := c.setSlot n { (c.slot n).restarted with clinker := cl }
  if cl then c.setSlotState n stCLINKER
  else if isOperator n then
    let c := c.setSlotState n stABSENT
    if c.pres n then c.inserted n else c
  else
    let c := c.setSlotState n stOFF
    if c.on HTH_SLOT_CTL.AUTO_ACT n && !c.slotFenced n then c.trigger n else c

/-- A bank domain leaves isolation (R75, R76, R83, R87, R334). A retry of its rail has succeeded (R343). -/
def Chip.bankOn (c : Chip) (b : Nat) (calOk : Bool) (cells : List CellReading) : Chip :=
  let first := !c.seq.banksUp.contains b
  let again := c.seq.retrying.contains (4 + b)
  let c := ((c.putBit DRG_DOM_STAT.UP 0 b true).flag HTH_BANK_ESTAT.KILL b false).flag HTH_BANK_ESTAT.CAL_OK b calOk
  let c := { c with ash := { c.ash with fences := c.ash.fences.filter (fun f => match f.unit with
    | .bank m => decide (m.val ≠ b)
    | _ => true) } }
  let c := { c with seq := { c.seq with banksUp := if first then c.seq.banksUp ++ [b] else c.seq.banksUp,
                                        retrying := c.seq.retrying.filter (fun r => decide (r ≠ 4 + b)) } }
  let c := if again then c.raise 0x24 b (c.railDetail (4 + b)) else c
  let c := if calOk then c.testCells b cells else c.raise 0x16 b
  (slotsOf b).foldl (fun c n => c.slotUp n first (if calOk then cells else [])) c

/-- An ageing measurement starts, and a request for one is met (R371). -/
def Chip.measStart (c : Chip) : Chip :=
  { (c.flag DRG_AGE_STAT.MEAS_BUSY 0 true).flag DRG_AGE_STAT.MEAS_REQ 0 false with wear := { c.wear with measRun := true } }

/-- A domain comes up. The start of an ageing measurement goes with PD16 and PD17 (R371). -/
def Chip.domOn (c : Chip) (k : Nat) (calOk : Bool) (cells : List CellReading) : Chip :=
  if !c.domReady k then c
  else if k < 16 then c.bankOn k calOk cells
  else
    let c := c.putBit DRG_DOM_STAT.UP 0 k true
    let c := if k = 16 then { c.zeroStore 0 with cord := { (c.zeroStore 0).cord with esTest := true } } else c
    if k = 16 ∨ k = 17 then
      c.measStart
    else c

/-! ## PMBus (R347, R348) -/

/-- Poll every mapped regulator; one whose poll still waits for the bus is not asked twice. -/
def Chip.pmbPoll (c : Chip) : Chip :=
  c.pmbAsk (((List.range 24).filter (fun j => c.on DRG_PMB_MAP.VALID j
    && !c.pmb.txs.any (fun t => decide (t.entry = j) && decide (t.cmd = 0x79)))).map (fun j => pmbGet j 0x79 2))

/-- What a regulator answered: the data where its length and PEC are right, and for a write nothing (R347, R348). -/
def Chip.pmbAnswer (c : Chip) (t : PmbTx) (res : PmbResult) : Option (List Byte) :=
  match res with
  | .nack => none
  | .ack bytes =>
    let data := bytes.take t.read
    if t.read = 0 then some []
    else if bytes.length = t.read + 1 ∧ bytes.getD t.read 0 = pmbPec (c.pmbHead t ++ data) then some data else none

/-- A transaction of an entry succeeded: a poll clears UNREACH and may raise WARN (R348), VOUT_MODE is remembered, VOUT_COMMAND serves
a margin (R349). -/
def Chip.pmbDone (c : Chip) (t : PmbTx) (data : List Byte) : Chip :=
  let v := leNat data
  if t.cmd = 0x79 then
    let c := c.putBit DRG_PMB_STAT.ENTRY 0 t.entry false
    if v - (if v.testBit 7 then 128 else 0) ≠ 0 then
      let c := c.putBit DRG_PMB_WARN.ENTRY 0 t.entry true
      c.raise 0x2F t.entry (c.get DRG_PMB_WARN.ENTRY 0)
    else c
  else if t.cmd = 0x20 then { c with pmb := { c.pmb with modes := tabPut id 0 c.pmb.modes t.entry v } }
  else if t.cmd = 0x21 ∧ t.read = 2 then c.bellowsTarget v
  else c

/-- The fourth failure of a transaction (R30, R348): what else waits for the entry is dropped, UNREACH is set, a setpoint of AVS that
was not taken leaves the previous one in force, and a margin on the entry ends. -/
def Chip.pmbUnreach (c : Chip) (j : Nat) : Chip :=
  let undo := (c.pmb.txs.filterMap (fun t => if t.entry = j then t.undo else none)).head?
  let c := c.pmbDrop (fun t => decide (t.entry = j))
  let c := match undo with
    | some v => { c.put DRG_AVS_STAT.VSET 0 v with wear := { c.wear with writePend := true, vset := v } }
    | none => c
  let c := if c.bit DRG_PMB_STAT.ENTRY 0 j then c
    else
      let c := c.putBit DRG_PMB_STAT.ENTRY 0 j true
      c.raise 0x2F j (c.get DRG_PMB_STAT.ENTRY 0)
  if c.pmb.bel.phase ≠ .none ∧ c.pmb.bel.entry = j then c.bellowsAbort 9 else c

/-- The transaction on the bus ends, if it is one of the entry (R348): its data is used, or it is sent again up to three times. -/
def Chip.pmbEnd (c : Chip) (j : Nat) (res : PmbResult) : Chip :=
  match c.pmb.txs with
  | [] => c
  | t :: rest =>
    if t.entry ≠ j then c else
    match c.pmbAnswer t res with
    | some data => ({ c with pmb := { c.pmb with txs := rest, fails := 0 } }.pmbGo).pmbDone t data
    | none =>
      if c.pmb.fails < 3 then { c with pmb := { c.pmb with fails := c.pmb.fails + 1 } }.pmbGo else c.pmbUnreach j

/-! ## The group (R352–R356) -/

/-- This device supervises the group. -/
def Chip.isSup (c : Chip) : Bool :=
  !c.alone && decide (c.get DRG_GRP_STAT.SUP_DEV 0 = c.grp.dev)

/-- Announce a START and make its strobe due. -/
def Chip.sendStart (c : Chip) (stage mask : Nat) (join : Bool) : Chip :=
  let c := c.seqFrame 0x02 [stage, mask]
  { c with grp := { c.grp with startStage := stage, startMask := mask, strobeDue := true, startJoin := join,
                               stage1Sent := c.grp.stage1Sent || (!join && decide (stage = 1)),
                               stage2Sent := c.grp.stage2Sent || (!join && decide (stage = 2)),
                               named := if stage = 1 then c.grp.named ||| mask else c.grp.named } }

/-- The mask of this device and the devices heard. -/
def Chip.heardMask (c : Chip) : Nat := 2 ^ c.grp.dev ||| c.get DRG_GRP_STAT.PRESENT 0

/-- Stage 1 of a cold start, once every declared device is heard or the wait is over (R354). -/
def Chip.startOne (c : Chip) (waitOver : Bool) : Chip :=
  if c.isSup && !c.grp.stage1Sent && decide (c.seqState = sqWAITSTART)
      && (waitOver || decide (c.heardMask = 2 ^ (c.grp.size + 1) - 1)) then c.sendStart 1 c.heardMask false
  else c

/-- Stage 2, once every device named in stage 1 is ready or the wait is over: those of them that are ready are named (R354). -/
def Chip.startTwo (c : Chip) (waitOver : Bool) : Chip :=
  let named := (List.range 4).filter (fun d => c.grp.named.testBit d)
  if c.isSup && c.grp.stage1Sent && !c.grp.stage2Sent && !c.grp.strobeDue
      && (waitOver || named.all (fun d => c.grp.ready.contains d)) then
    c.sendStart 2 ((named.filter (fun d => c.grp.ready.contains d)).foldl (fun m d => m ||| 2 ^ d) 0) false
  else c

/-- A common start from the strobe, for a device that its START names (R345, R352). -/
def Chip.strobe (c : Chip) (stage mask : Nat) : Chip :=
  if !mask.testBit c.grp.dev then c
  else if stage = 1 then (if c.seqState = sqWAITSTART then c.coreStart else c)
  else if stage = 2 then c.planStart
  else c

/-- The supervisor drives SEQ_SYNC (R352); joins that wait follow. -/
def Chip.syncDrive (c : Chip) : Chip :=
  if !c.isSup || !c.grp.strobeDue then c else
  let g := c.grp
  let c := ((c.emit .seqSync).flag DRG_GRP_EVT.STROBE_TX 0 true)
  let c := if g.startJoin then c.flag DRG_GRP_EVT.LATE_JOIN 0 true else c
  let c := { c with grp := { g with strobeDue := false, startJoin := false } }
  let c := c.strobe g.startStage g.startMask
  match c.grp.joins with
  | [] => c
  | (d, st) :: rest => { c with grp := { c.grp with joins := rest } }.sendStart st (2 ^ d) true

/-- A falling edge of SEQ_SYNC (R352). A device that the last START does not name only learns that the stage has started, which it
needs to know should it come to supervise (R356). -/
def Chip.syncEdge (c : Chip) (elapsed : Nat) : Chip :=
  if c.alone || c.isSup || decide (elapsed < 100) || decide (2000 < elapsed) || decide (c.grp.rxMask = 0) then c
  else
    let g := { c.grp with stage1Sent := c.grp.stage1Sent || decide (c.grp.rxStage = 1),
                          stage2Sent := c.grp.stage2Sent || decide (c.grp.rxStage = 2) }
    if !g.rxMask.testBit g.dev then { c with grp := { g with rxMask := 0 } } else
    let c := { c with grp := { g with rxMask := 0, joinAsked := false } }
    let c := c.flag DRG_GRP_EVT.STROBE_RX 0 true
    (if g.joinAsked then c.flag DRG_GRP_EVT.LATE_JOIN 0 true else c).strobe g.rxStage g.rxMask

/-- A frame from a device of the group: it is heard, and a frame of device 0 keeps a slave from becoming an orphan (R355). -/
def Chip.hear (c : Chip) (d : Nat) : Chip :=
  let c := if d ≤ c.grp.size ∧ d ≠ c.grp.dev then c.putBit DRG_GRP_STAT.PRESENT 0 d true else c
  if d = 0 then { c with grp := { c.grp with heardMaster := true } } else c

/-- JOIN_REQ at the supervisor (R354). -/
def Chip.joinReq (c : Chip) (d st : Nat) : Chip :=
  let c := c.hear d
  if !c.isSup ∨ (st ≠ 1 ∧ st ≠ 2) then c
  else if c.grp.strobeDue then
    if c.grp.joins.contains (d, st) || (decide (c.grp.startStage = st) && c.grp.startMask.testBit d) then c
    else { c with grp := { c.grp with joins := c.grp.joins ++ [(d, st)] } }
  else c.sendStart st (2 ^ d) true

/-- The orphan timer expires (R355). -/
def Chip.orphanOut (c : Chip) : Chip :=
  if c.grp.size = 0 ∨ c.grp.dev = 0 ∨ c.orphan ∨ c.grp.heardMaster then c
  else
    let c := (c.flag DRG_GRP_STAT.ORPHAN 0 true).flag DRG_GRP_EVT.ORPHAN_IN 0 true
    let c := c.raise 0x4B c.grp.dev (c.word .DRG_GRP_EVT 0)
    if c.seqState = sqWAITSTART then c.coreStart
    else if c.seqState = sqWAITIMAGE then c.planStart else c

/-- A device supervises from now on (R356). -/
def Chip.supervise (c : Chip) (d : Nat) : Chip :=
  let c := (c.put DRG_GRP_STAT.SUP_DEV 0 d).flag DRG_GRP_EVT.SUP_TAKEN 0 true
  c.raise 0x4B d (c.word .DRG_GRP_EVT 0)

/-- The supervisor was lost: the lowest-numbered present slave takes over, and issues a stage strobe that was still due (R356). -/
def Chip.supLost (c : Chip) (d : Nat) : Chip :=
  if c.alone ∨ c.get DRG_GRP_STAT.SUP_DEV 0 ≠ d then c
  else
    let cand := (List.range 4).filter (fun k => decide (k ≠ 0) && decide (k ≠ d) && (decide (k = c.grp.dev) || c.ash.present.contains k))
    match cand with
    | k :: _ =>
      if k = c.grp.dev then (((c.supervise k).seqFrame 0x06 [k]).startOne false).startTwo false else c
    | [] => c

end Sys2Proof.Machine
end

