-- ==== Sys2Proof/Machine/Wear.lean ====
section
/-! DEFINITION. The damper's clock, AVS, the ageing monitor and its planner, spares and the wear record (R359–R375). -/

namespace Sys2Proof.Machine

/-! ## The damper's timebase (R360, R361, R366, R367) -/

/-- Class 0 has demand (R360). -/
def Chip.classZero (c : Chip) : Bool :=
  (List.range 512).any (fun r => c.on FLU_RING_CFG.DEFINED r && decide (c.get FLU_RING_CFG.CLASS r = 0)
      && decide (c.ringState r = rsRUNNING) && !(c.unadmitted r).isEmpty)
    || c.dmp.reqs.any (fun q => q.class0 && (match q.asker with | .mcmd _ => true | _ => false))
    || (match c.dmp.lastC0Us with | some t => decide (c.us - t ≤ 1000) | none => false)

/-- One refill (R360). -/
def Chip.refill (c : Chip) : Chip :=
  if !c.domUp 16 then c
  else
    let w := c.dmp.pWork
    let f := if c.classZero then w * c.get FLU_SCHED_CFG.CL0_FLOOR 0 / 100 else 0
    (c.fill true f).fill false (w - f)

/-- Degrees by which a temperature exceeds a limit. -/
def above (t : Int) (k : Nat) : Nat := (t - (k : Int)).toNat

/-- The 1 ms computation (R361, R367). Powers are in 0.1 mW. -/
def Chip.recompute (c : Chip) (sensors : List Int) : Chip :=
  let tj := sensors.foldl max (sensors.headD 0)
  let cap := c.get DRG_DMP_CFG.CAP 0 * 5000
  let pEff := max 100000 (cap - c.get DRG_DMP_CFG.SLOPE 0 * 2500 * above tj (c.get DRG_DMP_CFG.KNEE 0))
  let pStat := c.get DRG_DMP_STATIC.STATIC_W 0 * 100 + c.get DRG_DMP_STATIC.STATIC_SLOPE 0 * above tj 25
  let pStand := (List.range 64).foldl (fun w n => w + c.standOf n) 0
  let thin := decide (pEff ≤ pStat + pStand)
  let thermal := decide (pEff < cap)
  let hotNow := decide ((c.get DRG_DMP_CFG2.TJ_HOT 0 : Int) ≤ tj)
  let was := c.dmp
  let c := c.put DRG_DMP_STAT.TJ_MAX 0 (min 255 tj.toNat)
  let c := { c with dmp := { c.dmp with pWork := pEff - pStat - pStand, pEff := pEff, pStat := pStat, pStand := pStand,
                                        thin := thin, thermal := thermal, hot := was.hot || hotNow } }
  let c := if thermal && !was.thermal then c.dmpEvt DRG_DMP_EVT.THERMAL else c
  let c := if thin && !was.thin then c.dmpEvt DRG_DMP_EVT.THIN else c
  if hotNow && !was.hot then c.dmpEvt DRG_DMP_EVT.HOT_IN else c

/-- A request as it stands after the promotion of a context's job. -/
def Req.promoted (k : Nat) (r : Req) : Req := if r.asker = .ember k ∧ r.tier = 5 then { r with tier := 1 } else r

/-- A long job that waits is promoted (R366). It keeps its place among the requests by age. -/
def Chip.promote (c : Chip) (k : Nat) : Chip :=
  if c.dmp.reqs.any (fun r => decide (r.asker = .ember k ∧ r.tier = 5)) then
    { c with dmp := { c.dmp with reqs := c.dmp.reqs.map (Req.promoted k) } }.dmpEvt DRG_DMP_EVT.PROMOTED
  else c

/-! ## AVS (R368–R370) -/

/-- The map entry through which AVS moves VCORE (R347, R368). -/
def Chip.avsEntry (c : Chip) : Option Nat :=
  (List.range 24).find? (fun j => c.on DRG_PMB_MAP.VALID j && c.on DRG_PMB_MAP.AVS j && decide (c.get DRG_PMB_MAP.RAIL j = 1))

/-- The loop is stopped by an UNREACH on rail 1 (R348, R369). -/
def Chip.avsUnreach (c : Chip) : Bool :=
  (List.range 24).any (fun j => c.on DRG_PMB_MAP.VALID j && decide (c.get DRG_PMB_MAP.RAIL j = 1) && c.bit DRG_PMB_STAT.ENTRY 0 j)

/-- The thresholds of R368 and R370 in units of 0.1 %. -/
def Chip.avsTgt (c : Chip) : Int := (c.get DRG_PLAN_STAT.TGT 0 : Int)
def Chip.avsLow (c : Chip) : Int := c.avsTgt - (10 * c.get DRG_AVS_CFG.LOW_OFS 0 : Nat)
def Chip.avsCrit (c : Chip) : Int := c.avsTgt - (10 * c.get DRG_AVS_CFG.CRIT_OFS 0 : Nat)

/-- The derate level that a domain's margin demands (R370). -/
def Chip.derateNeed (c : Chip) (m : Int) : Nat :=
  if m < c.avsCrit then 2
  else if m < c.avsLow ∧ (c.on DRG_AVS_STAT.AT_VMAX 0 ∨ c.on DRG_AVS_STAT.SUSPENDED 0 ∨ c.avsUnreach) then 1
  else 0

/-- The loop moves the setpoint from `cur`, never beyond VMAX (R368). The word written is in the regulator's VOUT_MODE format; where that has not been read,
or is not the linear one, it is a free value (log entry 26). -/
def Chip.avsMove (c : Chip) (j cur : Nat) (m : Int) : Chip :=
  let vmax := c.get DRG_AVS_CFG.VMAX 0
  let next := if m < c.avsLow then min vmax (cur + 2)
    else if m < c.avsTgt then min vmax (cur + 1)
    else if c.avsTgt + 20 < m then min vmax (max (min 130 cur) (cur - 1))
    else min vmax cur
  let raise := decide (m < c.avsTgt)
  let c := c.flag DRG_AVS_STAT.AT_VMAX 0 (raise && decide (vmax ≤ cur))
  if next = cur then c
  else
    let mode := tabFind c.pmb.modes j
    let word := (mode.bind (fun m => voutWord m (5 * next))).getD (c.freeVal % 65536)
    let old := c.get DRG_AVS_STAT.VSET 0
    let c := ((c.draw).pmbAsk [⟨j, 0x21, leBytes 2 word, 0, some old⟩]).put DRG_AVS_STAT.VSET 0 next
    { c with wear := { c.wear with writePend := true, vset := next } }

/-- A step of the loop. Where no setpoint has been written yet, the one in force is a free value within R368's limits (log
entry 26). -/
def Chip.avsStep (c : Chip) (m16 m17 : Int) : Chip :=
  let m := min m16 m17
  let enc := fun (v : Int) => min 255 v.toNat
  let c := (c.put DRG_AVS_STAT.MARGIN16 0 (enc m16)).put DRG_AVS_STAT.MARGIN17 0 (enc m17)
  let c := match c.avsEntry with
    | some j =>
      if c.on DRG_AVS_CFG.AVS_EN 0 && !c.on DRG_AVS_STAT.SUSPENDED 0 && !c.avsUnreach then
        let c := { c with wear := { c.wear with fast := decide (m < c.avsLow) || (c.wear.fast && decide (m < c.avsTgt)) } }
        let v := c.get DRG_AVS_STAT.VSET 0
        if v ≠ 0 then c.avsMove j v m
        else (c.draw).avsMove j (130 + c.freeVal % (c.get DRG_AVS_CFG.VMAX 0 - 129)) m
      else c
    | none => c
  (c.derateUp false (c.derateNeed m16)).derateUp true (c.derateNeed m17)

/-- A derate level falls by one; a margin on VCORE holds level 1 (R370). -/
def Chip.derateFall (c : Chip) (dom17 : Bool) : Chip :=
  let f := if dom17 then DRG_AVS_STAT.DER17 else DRG_AVS_STAT.DER16
  let least := if c.on DRG_AVS_STAT.SUSPENDED 0 then 1 else 0
  if least < c.get f 0 then c.put f 0 (c.get f 0 - 1) else c

/-! ## The planner (R372) -/

/-- On-resistances of a bank with their baselines: each side of each leg in service, or of the cell that serves it, that has
been measured. -/
def Chip.legRatios (c : Chip) (b : Nat) : List (Nat × Nat) :=
  (slotsOf b).flatMap (fun n => (List.range 12).flatMap (fun k =>
    let sub := c.bit HTH_LEG_STAT.RICK_SUB n k
    if c.bit HTH_LEG_STAT.LEG_RET n k && !sub then []
    else [true, false].filterMap (fun low =>
      let v := c.get (if low then HTH_LEG_RON.LO_RON else HTH_LEG_RON.HI_RON) (12 * n + k)
      let base := c.baseline (if sub then (64 + b, legKind k, low) else (n, k, low))
      if v = 0xFFFF ∨ base = 0 then none else some (v, base))))

/-- Insert a fraction into a rising list. -/
def fracInsert (x : Nat × Nat) : List (Nat × Nat) → List (Nat × Nat)
  | [] => [x]
  | y :: ys => if x.1 * y.2 ≤ y.1 * x.2 then x :: y :: ys else y :: fracInsert x ys

/-- The median of fractions: the middle one, or the mean of the two in the middle. -/
def fracMedian (l : List (Nat × Nat)) : Option (Nat × Nat) :=
  let s := l.foldl (fun acc x => fracInsert x acc) []
  match s[(s.length - 1) / 2]?, s[s.length / 2]? with
  | some (a, b), some (x, y) => some (a * y + x * b, 2 * b * y)
  | _, _ => none

def clampNat (lo hi v : Nat) : Nat := max lo (min hi v)

/-- The leg factors of a bank whose domain is up; halves round up (log entry 27). A bank with nothing measured keeps its
factors. -/
def Chip.planBank (c : Chip) (b : Nat) : Chip :=
  if !c.domUp b then c
  else match fracMedian (c.legRatios b) with
    | none => c
    | some (p, q) =>
      let hi := clampNat 20 32 ((32 * p + 16 * q + q) / (2 * q))
      let lo := clampNat 4 12 ((16 * p + q) / (2 * q))
      (c.put HTH_BANK_LEGLIM.HI_FACTOR b hi).put HTH_BANK_LEGLIM.LO_FACTOR b lo

/-- A re-plan (R372). Half a unit of TGT rounds as a free value decides (log entry 27); a timeout that PD16 cannot take is an
output not applied. -/
def Chip.replan (c : Chip) : Chip :=
  let d16 := c.get DRG_AGE_STAT.DRIFT16 0
  let d17 := c.get DRG_AGE_STAT.DRIFT17 0
  let d := max d16 d17
  let half := if d % 2 = 1 then c.freeVal % 2 else 0
  let c := if d % 2 = 1 then c.draw else c
  let c := c.put DRG_PLAN_STAT.TGT 0 (min 255 (c.get DRG_AVS_CFG.TGT_BASE 0 + d / 2 + half))
  let tmo := min 255 ((c.get DRG_AGE_CFG.TMO_BASE 0 * 5 * (1000 + d16) + 3999) / 4000)
  let c := if c.domUp 16 then c.put FLU_LANE_TMO.TMO 0 tmo
    else (c.incSat DRG_PLAN_STAT.PLAN_FAIL 0).raise 0x0C 16
  let c := c.forN 16 (fun c b => c.planBank b)
  { c.incWrap DRG_PLAN_STAT.REPLANS 0 with wear := { c.wear with lastPlan16 := d16, lastPlan17 := d17 } }

/-- WEAR_WARN follows the drifts; it is reported once in a power-up. -/
def Chip.wearWarn (c : Chip) : Chip :=
  let lim := c.get DRG_AGE_CFG.DRIFT_MAX 0
  let w16 := decide (lim < c.get DRG_AGE_STAT.DRIFT16 0)
  let w := w16 || decide (lim < c.get DRG_AGE_STAT.DRIFT17 0)
  let c := c.flag DRG_WEAR_STAT.WEAR_WARN 0 w
  if w && !c.wear.warned then { c with wear := { c.wear with warned := true } }.raise 0x0C (if w16 then 16 else 17) else c

/-- An ageing measurement ends (R371, R372). -/
def Chip.measDone (c : Chip) (d16 d17 : Int) (worst : Nat) : Chip :=
  if !c.wear.measRun then c
  else
    let enc := fun (v : Int) => min 255 v.toNat
    let c := ((c.put DRG_AGE_STAT.DRIFT16 0 (enc d16)).put DRG_AGE_STAT.DRIFT17 0 (enc d17)).put DRG_AGE_STAT.WORST_DM 0 worst
    let c := c.flag DRG_AGE_STAT.MEAS_BUSY 0 false
    let c := { c with wear := { c.wear with measRun := false, writePend := true } }
    let far := fun (a b : Nat) => decide (a + 5 ≤ b) || decide (b + 5 ≤ a)
    let c := if far (enc d16) c.wear.lastPlan16 || far (enc d17) c.wear.lastPlan17 then c.replan else c
    let c := c.wearWarn
    if c.on DRG_AGE_STAT.MEAS_REQ 0 && c.domUp 16 then c.measStart else c

/-- A measurement is asked for: it starts unless one runs or PD16 is off. -/
def Chip.measAsk (c : Chip) : Chip := if c.wear.measRun || !c.domUp 16 then c else c.measStart

/-! ## Spares (R39, R373) -/

/-- Fabric lanes in service: neither a spare nor out of service. -/
def Chip.lanesUp (c : Chip) : Nat :=
  20 - c.get FLU_LANE_STAT.SPARES 0 - ((List.range 20).filter (fun l => c.bit FLU_LANE_STAT.RETIRED 0 l)).length

/-- A lane goes out of service for good. -/
def Chip.laneOut (c : Chip) (l : Nat) : Chip :=
  { c.putBit FLU_LANE_STAT.RETIRED 0 l true with wear := { c.wear with writePend := true } }

/-- A handshake of a lane times out. -/
def Chip.laneTimeout (c : Chip) (l : Nat) : Chip :=
  if !c.domUp 16 || c.bit FLU_LANE_STAT.RETIRED 0 l then c
  else if c.get FLU_LANE_STAT.SPARES 0 ≠ 0 then
    ((c.laneOut l).put FLU_LANE_STAT.SPARES 0 (c.get FLU_LANE_STAT.SPARES 0 - 1)).raise 0x30 l
  else c.raise 0x31 l

/-- A lane leaves the group that holds the most lanes, the higher-numbered of equal ones (R406). -/
def xbarTake (x : List (Nat × Nat)) : List (Nat × Nat) :=
  let most := (x.map Prod.snd).foldl max 0
  let pick := ((x.filter (fun e => decide (e.2 = most))).map Prod.fst).foldl max 0
  x.map (fun e => if e.1 = pick then (e.1, e.2 - 1) else e)

/-- A traffic group loses a lane to one that is fenced without a spare (R406). -/
def Chip.laneTaken (c : Chip) : Chip := { c with kln := { c.kln with xbar := xbarTake c.kln.xbar } }

/-- A lane is fenced; with fewer than 8 in service the event is fatal. -/
def Chip.laneFence (c : Chip) (l : Nat) : Chip :=
  if c.bit FLU_LANE_STAT.RETIRED 0 l then c
  else
    let c := (c.laneOut l).laneTaken
    if c.lanesUp < 8 then c.raise 0x05 l else c

/-- The row group that a fenced group takes out of the host region: itself, or for a group of the device region the
highest-numbered good group of the host region, which takes its place (R22, R373). -/
def Chip.groupVictim (c : Chip) (g : Nat) : Option Nat :=
  if 64 ≤ g then (if c.wear.groupsOut.contains g then none else some g)
  else ((List.range 192).map (fun k => 255 - k)).find? (fun h => !c.wear.groupsOut.contains h)

/-- A row group is fenced. -/
def Chip.groupFence (c : Chip) (g : Nat) : Chip :=
  match c.groupVictim g with
  | none => c
  | some h =>
    let c := { c with wear := { c.wear with groupsOut := c.wear.groupsOut ++ [h] } }
    c.incSat DRG_SRAM_STAT.GROUPS_OUT 0

/-- Corrected errors of a row in the last 24 hours. -/
def Chip.rowErrors (c : Chip) (g row : Nat) : Nat :=
  (c.wear.rowCe.filter (fun e => decide (e.1 = (g, row)) && decide (c.wear.minutes < e.2 + 1440))).length

/-- An SRAM error (R373). -/
def Chip.sramError (c : Chip) (g : Nat) (kind : EccKind) : Chip :=
  if !c.domUp 16 || c.wear.groupsOut.contains g then c
  else match kind with
    | .uncorrectable => c.raise 0x34 g
    | .corrected row =>
      let c := c.raise 0x32 g
      let c := { c with wear := { c.wear with rowCe := c.wear.rowCe ++ [((g, row), c.wear.minutes)] } }
      if c.rowErrors g row < c.get DRG_AGE_CFG.ROW_CE_LIM 0 then c
      else
        let c := { c with wear := { c.wear with rowCe := c.wear.rowCe.filter (fun e => decide (e.1 ≠ (g, row))) } }
        let used := tabGet 0 c.wear.rows g
        if used < 4 then
          let c := { c with wear := { c.wear with rows := tabPut id 0 c.wear.rows g (used + 1), writePend := true } }
          (c.incSat DRG_SRAM_STAT.ROWS_USED 0).raise 0x33 g
        else c.raise 0x34 g

/-! ## The wear record (R374, R375) -/

/-- What the wear record holds now. -/
def Chip.wearRec (c : Chip) : WearRec :=
  { hours := c.get DRG_WEAR_HRS.EQ_HOURS 0
    drift16 := c.get DRG_AGE_STAT.DRIFT16 0
    drift17 := c.get DRG_AGE_STAT.DRIFT17 0
    vset := c.wear.vset
    legs := (List.range 64).flatMap (fun n =>
      [((n, 0), c.get HTH_LEG_STAT.LEG_RET n), ((n, 1), c.get HTH_LEG_STAT.RICK_SUB n)].filter (fun e => decide (e.2 ≠ 0)))
    cells := (List.range 16).flatMap (fun b => [0, 1, 2].filterMap (fun kind =>
      let v := c.get (cellFld kind) b
      if v = (cellFld kind).resetAt b then none else some (4 * b + kind, v)))
    clinkers := (List.range 64).filter (fun n => c.on HTH_LEG_STAT.CLINKER_LEG n)
    retirements := ((List.range 16).map (fun b => (b, c.get HTH_BANK_LCNT.RETIRE_CNT b))).filter (fun e => decide (e.2 ≠ 0))
    columns := c.get EMB_COLMAP.RETIRED 0
    lanes := c.get FLU_LANE_STAT.RETIRED 0
    lanesFenced := (List.range 20).filter (fun l => c.ash.fences.any (fun f =>
      match f.unit with | .lane m => decide (m.val = l) | _ => false))
    rows := c.wear.rows }

/-- Bits set in a word of `n` bits. -/
def bitCount (n w : Nat) : Nat := ((List.range n).filter (fun k => w.testBit k)).length

/-- The wear record is put into force at a cold reset: VSET reads 0 until the first write, and the spare lanes and the spare column
are those that R2 leaves (R2, R374, R377). -/
def Chip.loadWear (c : Chip) (w : WearRec) : Chip :=
  let c := (c.put DRG_WEAR_HRS.EQ_HOURS 0 w.hours).put DRG_AGE_STAT.DRIFT16 0 w.drift16
  let c := c.put DRG_AGE_STAT.DRIFT17 0 w.drift17
  let c := w.legs.foldl (fun c e =>
    c.put (if e.1.2 = 0 then HTH_LEG_STAT.LEG_RET else HTH_LEG_STAT.RICK_SUB) e.1.1 e.2) c
  let c := w.cells.foldl (fun c e => c.put (cellFld (e.1 % 4)) (e.1 / 4) e.2) c
  let c := (c.put EMB_COLMAP.RETIRED 0 w.columns).put FLU_LANE_STAT.RETIRED 0 w.lanes
  let c := w.clinkers.foldl (fun c n => c.flag HTH_LEG_STAT.CLINKER_LEG n true) c
  let c := w.retirements.foldl (fun c e => c.put HTH_BANK_LCNT.RETIRE_CNT e.1 e.2) c
  let c := (c.put FLU_LANE_STAT.SPARES 0 (2 - bitCount 20 w.lanes)).put EMB_STAT.SPARE_COL 0 (if w.columns = 0 then 16 else 0x1F)
  let lanes := w.lanesFenced.filterMap (fun l => if h : l < 20 then some (FenceRec.mk (.lane ⟨l, h⟩) 0x31 false) else none)
  let c := { c with ash := { c.ash with fences := c.ash.fences ++ lanes } }
  let c := c.put DRG_SRAM_STAT.ROWS_USED 0 (w.rows.foldl (fun n e => n + e.2) 0)
  { c with wear := { c.wear with rows := w.rows, vset := w.vset } }

/-- The wear record is written, or waits for PD19. -/
def Chip.wearWrite (c : Chip) : Chip :=
  if c.domUp 19 then
    { (c.flag DRG_WEAR_STAT.NVS_PEND 0 false).mem (.nvsWear c.wearRec) with wear := { c.wear with writePend := false } }
  else c.flag DRG_WEAR_STAT.NVS_PEND 0 true

/-- 2^(r/10) in units of 2^-32, for r below 10 (log entry 28). -/
def tenthPow (r : Nat) : Nat :=
  [4294967296, 4603231970, 4933621868, 5287724992, 5667243324, 6074001000, 6509953083, 6977194957, 7477972398,
    8014692369].getD r 0

/-- The growth of EQ_HOURS in a minute, in 2^-48 of its unit of 1/16 h (R375). -/
def eqGrowth (tj : Nat) : Nat :=
  let k := tj + 15
  16 * tenthPow (k % 10) * 2 ^ (k / 10) * 2 ^ 6 / 60

/-- A minute passes for the wear of the device. -/
def Chip.eqMinute (c : Chip) : Chip :=
  let c := { c with wear := { c.wear with minutes := c.wear.minutes + 1 } }
  if !c.domUp 16 then c
  else
    let t := c.wear.hrsFrac + eqGrowth (c.get DRG_DMP_STAT.TJ_MAX 0)
    let c := c.put DRG_WEAR_HRS.EQ_HOURS 0 (min 0xFFFFFFFF (c.get DRG_WEAR_HRS.EQ_HOURS 0 + t / 2 ^ 48))
    { c with wear := { c.wear with hrsFrac := t % 2 ^ 48 } }

end Sys2Proof.Machine
end

