-- ==== Sys2Proof/Machine/AshOps.lean ====
section
/-! DEFINITION. Ash: classification, consequence windows, fences and lifts, ALERT_N, the journal, the safe state, warm reset,
force, injection and the group heartbeat (R378–R401). -/

namespace Sys2Proof.Machine

/-! ## The sources (R379) -/

/-- Class (1 CE, 2 UC, 3 FA) and default reaction (the code of R395) of each source. -/
def srcTable : List (Nat × Nat × Nat) :=
  [(0x00, 3, 9), (0x01, 3, 9), (0x02, 3, 9), (0x03, 3, 9), (0x04, 3, 9), (0x05, 3, 9), (0x06, 2, 2), (0x07, 1, 0xA),
    (0x08, 2, 7), (0x09, 1, 0), (0x0A, 1, 0), (0x0B, 2, 0), (0x0C, 1, 1), (0x0D, 1, 0)]
  ++ [(0x10, 1, 1), (0x11, 1, 1), (0x12, 1, 1), (0x13, 1, 1), (0x14, 1, 0), (0x15, 1, 1), (0x16, 1, 0), (0x17, 1, 1),
    (0x18, 2, 2), (0x19, 1, 0), (0x1A, 1, 1), (0x1B, 1, 1), (0x1C, 1, 0)]
  ++ [(0x20, 2, 3), (0x21, 2, 3), (0x22, 2, 3), (0x23, 2, 0), (0x24, 1, 0xA), (0x28, 2, 1), (0x29, 2, 6), (0x2A, 2, 1),
    (0x2B, 1, 1), (0x2C, 1, 0), (0x2D, 1, 0), (0x2E, 2, 0), (0x2F, 1, 0)]
  ++ [(0x30, 1, 1), (0x31, 2, 5), (0x32, 1, 0), (0x33, 1, 1), (0x34, 2, 8), (0x35, 1, 0), (0x36, 1, 0)]
  ++ [(0x40, 1, 0), (0x41, 2, 6), (0x42, 1, 0), (0x43, 1, 1), (0x44, 2, 6), (0x45, 1, 0xA), (0x48, 1, 0), (0x49, 2, 7),
    (0x4A, 1, 0xA), (0x4B, 1, 0)]
  ++ [(0x50, 1, 1), (0x51, 2, 4), (0x52, 1, 0), (0x53, 2, 4), (0x54, 2, 4), (0x55, 1, 0), (0x58, 1, 1), (0x59, 1, 0),
    (0x70, 1, 0), (0x71, 1, 0)]

def srcRow (s : Nat) : Option (Nat × Nat) := tabFind srcTable s

/-- Sources whose reaction names every unit of the kind (R379). -/
def srcAll (s : Nat) : Bool := [0x06, 0x08, 0x29, 0x51].contains s

/-- A UNIT lies in the unit range of a source (R379, R396); 0xFF stands for every unit of the kind. -/
def unitOk (s u : Nat) : Bool :=
  decide (u = 0xFF) ||
  (if s = 0x04 then decide (u < 8)
   else if s = 0x05 ∨ s = 0x30 ∨ s = 0x31 then decide (u < 20)
   else if s = 0x09 ∨ s = 0x1C then decide (u < (if s = 0x09 then 10 else 8))
   else if s = 0x0A then decide (u < 256)
   else if s = 0x0C then decide (u = 16 ∨ u = 17)
   else if s = 0x13 then decide (u < 4)
   else if s = 0x16 ∨ (0x20 ≤ s ∧ s ≤ 0x24) then decide (u < 16)
   else if 0x10 ≤ s ∧ s ≤ 0x1B then decide (u < 64)
   else if s = 0x28 then decide (u < 2)
   else if s = 0x29 then decide (u = 3)
   else if s = 0x2A then decide (u = 2)
   else if s = 0x2B then decide (20 ≤ u ∧ u < 24)
   else if s = 0x2C then decide (u < 5)
   else if s = 0x2F then decide (u < 24)
   else if 0x32 ≤ s ∧ s ≤ 0x34 then decide (u < 256)
   else if s = 0x35 ∨ (0x40 ≤ s ∧ s ≤ 0x45) then decide (u < 2)
   else if s = 0x48 then decide (u < 3)
   else if 0x49 ≤ s ∧ s ≤ 0x4B then decide (u < 4)
   else if s = 0x50 ∨ s = 0x51 then decide (u < 17)
   else if 0x52 ≤ s ∧ s ≤ 0x55 then decide (u < 8)
   else if s = 0x70 ∨ s = 0x71 then decide (u < 16 ∨ u = 0xF0)
   else decide (u = 0))

/-! ## Units -/

/-- The unit of a kind (0 slot, 1 bank, 2 context, 3 lane, 4 row group, 5 port, 6 peer) with a number. -/
def unitOf (kind u : Nat) : Option FUnit :=
  match kind with
  | 0 => if h : u < 64 then some (.slot ⟨u, h⟩) else none
  | 1 => if h : u < 16 then some (.bank ⟨u, h⟩) else none
  | 2 => if h : u < 8 then some (.ctx ⟨u, h⟩) else none
  | 3 => if h : u < 20 then some (.lane ⟨u, h⟩) else none
  | 4 => if h : u < 256 then some (.group ⟨u, h⟩) else none
  | 5 => if h : u < 2 then some (.port ⟨u, h⟩) else none
  | _ => if h : u < 4 then some (.peer ⟨u, h⟩) else none

/-- Every unit of a kind, or the one named. Devices beyond the group and the device itself are no peers. -/
def Chip.unitsOf (c : Chip) (kind u : Nat) (all : Bool) : List FUnit :=
  let us := if all || decide (u = 0xFF) then List.range 256 else [u]
  us.filterMap (fun k => if kind = 6 ∧ (k = c.grp.dev ∨ c.grp.size < k) then none else unitOf kind k)

/-! ## Consequence windows (R383–R385) -/

/-- An open window on `w` banks an event (R384). A ring notice belongs to the window of the port that owns the ring, now or
by the image (log entry 29). -/
def Chip.banks (c : Chip) (w : FUnit) (e : AshEv) : Bool :=
  let slotSrc := [0x10, 0x11, 0x12, 0x14, 0x15, 0x17, 0x19, 0x1A, 0x1B].contains e.src
  match w with
  | .slot n => slotSrc && decide (e.unit = n.val)
  | .bank b => (slotSrc && decide (e.unit / 4 = b.val)) || ([0x16, 0x20, 0x21, 0x22].contains e.src && decide (e.unit = b.val))
  | .ctx k => decide (0x52 ≤ e.src ∧ e.src ≤ 0x55) && decide (e.unit = k.val)
  | .lane l => decide (e.src = 0x30 ∨ e.src = 0x31) && decide (e.unit = l.val)
  | .group g => decide (0x32 ≤ e.src ∧ e.src ≤ 0x34) && decide (e.unit = g.val)
  | .port x => (decide (0x40 ≤ e.src ∧ e.src ≤ 0x44) && decide (e.unit = x.val))
      || (decide (e.src = 0x35) && (decide (e.unit = x.val) || decide (c.get FLU_RING_CFG.OWNER (e.detail % 512) = x.val)))
  | .peer d => (decide (e.src = 0x48) && decide (e.unit = c.kzFor d.val))
      || (decide (e.src = 0x49 ∨ e.src = 0x4B) && decide (e.unit = d.val))

/-- An event is banked; sources 0x00 to 0x05 never are (R385). -/
def Chip.banked (c : Chip) (e : AshEv) : Bool := decide (6 ≤ e.src) && c.ash.windows.any (fun w => c.banks w e)

/-- A window opens on a unit. -/
def Chip.openWindow (c : Chip) (u : FUnit) : Chip :=
  if c.ash.windows.contains u then c else { c with ash := { c.ash with windows := c.ash.windows ++ [u] } }

/-! ## Peers (R250, R399) -/

/-- The live bits of a peer are cleared (R250). -/
def Chip.peerDark (c : Chip) (d : Nat) : Chip :=
  ((c.put FLU_LIVE.LIVE (2 * d) 0).put FLU_LIVE.LIVE (2 * d + 1) 0).stackEvt FLU_STACK_EVT.PEER_DROP

/-- The remote legs of a peer end FENCED (R265, R381); one whose frame has not left is redirected (R254). -/
def Chip.peerLegs (c : Chip) (d : Nat) : Chip :=
  let k := c.kzFor d
  let fw := (c.kzOf k).fwds
  let c := c.setKz k { c.kzOf k with fwds := [], inbound := [], txq := (c.kzOf k).txq.filter (fun f => decide (f.cls ≠ .traffic)) }
  fw.foldl (fun (c : Chip) (f : Fwd) =>
    match f.src with
    | .entry uid second =>
      if (c.entry? uid).any (fun e => decide ((e.leg second).st = .queued)) then c.redirect uid second
      else c.legEnd uid second stsFENCED [] 0 0
    | .peer _ _ => c) c

/-- A peer is lost (R356, R399, R476, R477). Where a force of KIND 0x4 applies it, its sequencing and fault classes keep running
(R398): only its traffic frames are discarded. -/
def Chip.peerLost (c : Chip) (d : Nat) (drill : Bool) : Chip :=
  let k := c.kzFor d
  let c := { c with ash := { c.ash with present := c.ash.present.filter (fun p => decide (p ≠ d)),
                                        hbRun := tabPut id 0 c.ash.hbRun d 0 } }
  let stays := fun (f : KzFrame) => drill && decide (f.cls ≠ .traffic)
  let x := c.kzOf k
  let c := (c.setKz k { x with unacked := x.unacked.filter stays, txq := x.txq.filter stays }).kzUnkey k
  ((c.peerDark d).peerLegs d).supLost d

/-! ## Fences (R381, R382) -/

/-- The effect of a fence on its unit. An injected source 0x49 loses its peer as the real event does (R397). -/
def Chip.fenceEffect (c : Chip) (u : FUnit) (src : Nat) : Chip :=
  match u with
  | .slot n => c.cutSlot n .fence
  | .bank b => ((c.flag HTH_BANK_ESTAT.KILL b true).domOff b).enLow (4 + b)
  | .ctx k => if src = 0x51 then c.jobFence k 2 else c.ctxFence k (if src = 0x53 then 4 else 3)
  | .lane l => c.laneFence l
  | .group g => c.groupFence g
  | .port x => c.portLost x
  | .peer d => if src = 0x49 ∧ c.ash.present.contains d.val then c.peerLost d false else (c.peerDark d).peerLegs d

/-- Ash fences a unit; a fence of a fenced unit changes nothing and opens no window (R382). -/
def Chip.fence (c : Chip) (u : FUnit) (src : Nat) (forced : Bool) : Chip :=
  if c.fencedU u then c
  else
    let c := { c with ash := { c.ash with fences := c.ash.fences ++ [FenceRec.mk u src forced] } }
    (c.openWindow u).fenceEffect u src

/-- A port that serves and has no fence is lost no longer, and its orphaned rings run again (R235). -/
def Chip.portServed (c : Chip) (x : Nat) : Chip :=
  if c.serving x && !c.portFenced x then (c.flag FLU_PORT_STAT.LOST x false).portRings x else c

/-- What follows once a unit is fenced no longer. -/
def Chip.unfenced (c : Chip) (u : FUnit) : Chip :=
  match u with
  | .slot n => c.liftSlot n
  | .port x => c.portServed x
  | _ => c

/-- Ash lifts the fences that a predicate picks. -/
def Chip.lift (c : Chip) (p : FenceRec → Bool) : Chip :=
  let gone := (c.ash.fences.filter p).map (fun f => f.unit)
  let c := { c with ash := { c.ash with fences := c.ash.fences.filter (fun f => !p f) } }
  gone.foldl (fun c u => c.unfenced u) c

/-- The lift that a source brings (R379, R381); a forced fence stays (R398, R401). -/
def liftPick (src unit : Nat) (f : FenceRec) : Bool :=
  !f.forced &&
  (match f.unit with
   | .slot _ => decide (src = 0x07) && decide (f.src = 0x06)
   | .bank b => decide (src = 0x24) && (decide (unit = b.val) || decide (unit = 0xFF))
   | .port x => decide (src = 0x45) && decide (f.src = 0x41) && (decide (unit = x.val) || decide (unit = 0xFF))
   | .peer d => decide (src = 0x4A) && (decide (unit = d.val) || decide (unit = 0xFF))
   | _ => false)

/-- The lift of a forced fence of KIND 0x4 (peer) or 0x5 (port), of the unit named or of all (R398). -/
def forcedPick (kind : Nat) (unit : Option Nat) (f : FenceRec) : Bool :=
  f.forced &&
  (match f.unit with
   | .peer d => decide (kind = 4) && (decide (unit = none) || decide (unit = some d.val))
   | .port x => decide (kind = 5) && (decide (unit = none) || decide (unit = some x.val))
   | _ => false)

/-- Removal of the drill overlay lifts every forced fence (R398). -/
def Chip.drillGone (c : Chip) : Chip := (c.lift (forcedPick 4 none)).lift (forcedPick 5 none)

/-! ## ALERT_N and messages (R391, R392) -/

/-- ALERT_N is driven low. -/
def Chip.alertLow (c : Chip) : Bool := c.ash.pulse || c.ash.fatal || c.on ASH_PIN_CTL.HOLD 0

/-- Act, and drive ALERT_N as it then is. -/
def Chip.withAlert (c : Chip) (f : Chip → Chip) : Chip :=
  let d := f c
  if d.alertLow = c.alertLow then d else d.emit (.alertN d.alertLow)

/-- The pulse and HOLD of an event of class `cls`. -/
def Chip.alert (c : Chip) (cls : Nat) (forced : Bool) : Chip :=
  c.withAlert (fun c =>
    let c := if cls = 2 ∧ c.on ASH_PIN_CTL.AUTO_HOLD 0 then c.flag ASH_PIN_CTL.HOLD 0 true else c
    if cls = 1 ∨ (forced ∧ c.on ASH_PIN_CTL.DRILL_MUTE 0) then c
    else { c with ash := { c.ash with pulse := true } })

/-- Ash's message on a port: one covers all events within 4 µs (R392). -/
def Chip.ashMessage (c : Chip) (x : Nat) : Chip :=
  let t := tabGet 0 c.ash.irqUs x
  if !c.on ASH_IRQ_CFG.EN x || !c.portOpen x || (decide (t ≠ 0) && decide (c.us < t + 3)) then c
  else { c with ash := { c.ash with irqUs := tabPut id 0 c.ash.irqUs x (c.us + 1) } }.sendMsix x (c.get ASH_IRQ_CFG.VEC x)

/-- Ash's message on each port (R392). -/
def Chip.ashIrq (c : Chip) : Chip := c.forN 2 Chip.ashMessage

/-! ## The journal (R380, R393–R395) -/

/-- The record of an event (R395). -/
def Chip.record (c : Chip) (e : AshEv) (cls react : Nat) (conseq : Bool) : JrnRec :=
  ⟨c.get ASH_JRN_HEAD.SEQ_NEXT 0 * 2 ^ 16 + e.src % 256 * 2 ^ 8 + cls * 2 ^ 6 + conseq.toNat * 2 ^ 5 + e.forced.toNat * 2 ^ 4
      + c.safe.toNat * 2 ^ 3,
    c.tick % 2 ^ 32, c.tick / 2 ^ 32 % 2 ^ 16 * 2 ^ 16 + e.unit % 256 * 2 ^ 8 + react, e.detail % 2 ^ 32⟩

/-- A CE event within 1 ms of the last journalled event of its source and UNIT is not journalled (R380). -/
def Chip.repeated (c : Chip) (e : AshEv) : Bool :=
  let t := tabGet 0 c.ash.lastJrn (e.src, e.unit)
  decide (t ≠ 0) && decide (c.tick + 1 ≤ t + 1024)

/-- Journal an event; a UC or FA record goes to the persistent journal too (R394). -/
def Chip.journal (c : Chip) (e : AshEv) (cls react : Nat) (conseq : Bool) : Chip :=
  if cls = 1 ∧ c.repeated e then c
  else
    let r := c.record e cls react conseq
    let at_ := c.get ASH_JRN_HEAD.SEQ_NEXT 0 % 512
    let c := if (tabFind c.ash.journal at_).isSome then c.incSat ASH_CNT2.OVERRUN_CNT 0 else c
    let a := c.ash
    let c := { c with ash := { a with
      journal := tabPut id ⟨0, 0, 0, 0⟩ a.journal at_ r
      lastJrn := tabPut (fun p => p.1 * 256 + p.2) 0 a.lastJrn (e.src, e.unit) (c.tick + 1) } }
    let c := c.incWrap ASH_JRN_HEAD.SEQ_NEXT 0
    if cls = 1 then c
    else if !c.domUp 19 && decide (64 ≤ c.ash.nvsPend.length) then c.incSat ASH_JRN_PEND.NVS_LOST 0
    else { c with ash := { c.ash with nvsPend := c.ash.nvsPend ++ [r] } }

/-- The waiting records go to the persistent journal (R394). -/
def Chip.journalCopy (c : Chip) : Chip :=
  if !c.domUp 19 then c
  else
    let c := c.ash.nvsPend.foldl (fun c r => (c.mem (.nvsJournal r)).incWrap ASH_JRN_HEAD.NVS_NEXT 0) c
    { c with ash := { c.ash with nvsPend := [] } }

/-! ## The safe state (R388–R390) -/

/-- Enter the safe state for a source. TAMPER_N has zeroised the key store by itself (R291). -/
def Chip.enterSafe (c : Chip) (src : Nat) : Chip :=
  if c.safe then c
  else
    let c := if c.ash.everSafe then c else c.put ASH_STAT.FIRST_FA 0 src
    let c := { c with ash := { c.ash with safe := true, everSafe := true, fatal := true } }
    let c := c.forN 64 (fun c n => (c.cutSlot n .kill).cutSlot n .fence)
    let c := if (decide (src ≠ 3) || !c.ash.tamper) && c.domUp 16 then c.zeroStore 2 else c
    let c := if c.domUp 17 then c.emberZeroise else c
    let c := c.forN 2 (fun c x => if c.linkUp x then c.emit (.errFatal x) else c)
    c.kzAll .fault 0x02 (List.replicate 8 0)

/-! ## Classification and reaction (R378–R385) -/

/-- The kind of unit that a reaction code fences (R395). -/
def reactKind (react : Nat) : Option Nat :=
  [none, none, some 0, some 1, some 2, some 3, some 5, some 6, some 4].getD react none

/-- Ash's reaction to an event. -/
def Chip.react (c : Chip) (e : AshEv) (react : Nat) : Chip :=
  match reactKind react with
  | some kind =>
    let c := if e.src = 0x06 then c.stopJobs stsFENCED 6 else c
    (c.unitsOf kind e.unit (srcAll e.src)).foldl (fun c u => c.fence u e.src (e.forced && c.ash.drilled.contains u)) c
  | none =>
    if react = 0xA then
      let c := c.lift (liftPick e.src e.unit)
      if e.src = 0x45 then c.forN 2 (fun c x => if e.unit = x ∨ e.unit = 0xFF then c.portServed x else c) else c
    else if react = 9 then c.withAlert (fun c => c.enterSafe e.src)
    else if e.src = 0x28 then (c.unitsOf 1 0 true).foldl (fun c u => c.openWindow u) c
    else c

/-- The reaction that a source has now: 0x4A has none on an orphan (R399). -/
def Chip.reactNow (c : Chip) (e : AshEv) (react : Nat) : Nat := if e.src = 0x4A ∧ c.orphan then 0 else react

/-- Count an event that is not banked (R402). -/
def Chip.classCount (c : Chip) (e : AshEv) (cls : Nat) : Chip :=
  let c := c.incSat (if cls = 1 then ASH_CNT.CE_CNT else if cls = 2 then ASH_CNT.UC_CNT else ASH_CNT.FA_CNT) 0
  if cls = 2 then c.put ASH_STAT.LAST_UC 0 e.src else c

/-- Ash judges an event. -/
def Chip.ashJudge (c : Chip) (e : AshEv) : Chip :=
  match srcRow e.src with
  | none => c
  | some (cls, react) =>
    let c := c.incSat ASH_SRC_CNT.CNT e.src
    if c.safe then (c.classCount e cls).journal e cls 0 false
    else if c.banked e then (c.incSat ASH_CNT2.CONSEQ_CNT 0).journal e cls 0 true
    else
      let react := c.reactNow e react
      let c := ((c.classCount e cls).journal e cls react false).alert cls e.forced
      let c := if cls = 2 ∨ (cls = 1 ∧ c.on ASH_SRC_CFG.IRQ_EN e.src) then c.ashIrq else c
      let c := if cls = 1 then c else c.bellowsAbort 9
      c.react e react

/-- The event of a force of KIND 0x4 or 0x5 has been judged: the fence it raised, if any, is held (R398). -/
def Chip.drillJudged (c : Chip) (e : AshEv) : Chip :=
  if e.forced then
    { c with ash := { c.ash with drilled := c.ash.drilled.filter (fun u => !(match u with
        | .peer d => decide (e.src = 0x49) && decide (e.unit = d.val)
        | .port x => decide (e.src = 0x41) && decide (e.unit = x.val)
        | _ => false)) } }
  else c

/-- The oldest event on its way arrives at Ash. -/
def Chip.ashNext (c : Chip) : Chip :=
  match c.ash.inbox with
  | [] => c
  | e :: rest => ({ c with ash := { c.ash with inbox := rest } }.ashJudge e).drillJudged e

/-! ## Force and injection (R397, R398) -/

/-- A debug grant is held (R451, R452): bits of the grant mask in the order of R450. -/
def Chip.granted (c : Chip) (k : Nat) : Bool :=
  if c.lcState = lcBlank then [0, 1, 2, 6].contains k else (c.get KLN_DBG_STAT.HELD 0).testBit k

/-- The injection grant INJ. -/
def grantINJ : Nat := 3

/-- ASH_FORCE or ASH_INJ is available (R397). -/
def Chip.forceAllowed (c : Chip) (inj : Bool) : Bool :=
  let st := c.lcState
  decide (st = lcTest) || (decide (st = lcAnalysis) && c.granted grantINJ)
    || (decide (st = lcProduction) && !inj && c.modeApplied 4)

/-- A forced fence is held on a unit of KIND 0x4 or 0x5. -/
def Chip.forcedHeld (c : Chip) (kind unit : Nat) : Bool := c.ash.fences.any (forcedPick kind (some unit))

/-- UNIT_IDLE of a force (R398). -/
def Chip.forceIdle (c : Chip) (kind u : Nat) : Bool :=
  if kind = 1 then !c.on HTH_SLOT_ESTAT.SW_CLOSED u
  else if kind = 2 then [stOFF, stABSENT, stCLINKER].contains (c.slotState u)
  else if kind = 3 then !c.domUp u
  else if kind = 4 then !c.peerOk u
  else if kind = 5 then c.on FLU_PORT_STAT.LOST u || c.portFenced u
  else [esIDLE, esDONE, esFENCED].contains (c.ctxState u)

/-- The units of a KIND. -/
def forceUnits (kind : Nat) : Nat := [0, 64, 64, 16, 4, 2, 8].getD kind 0

/-- RESULT of a write to ASH_FORCE (R398, R402). -/
def Chip.forceResult (c : Chip) (lift : Bool) (kind u : Nat) : Nat :=
  if !c.forceAllowed false then 1
  else if lift && decide (kind ≠ 4 ∧ kind ≠ 5) then 2
  else if kind = 0 ∨ 6 < kind then 2
  else if forceUnits kind ≤ u then 3
  else if lift then (if c.forcedHeld kind u then 0 else 4)
  else if c.forceIdle kind u then 4
  else if c.forcedHeld kind u then 5
  else 0

/-- A force of KIND 0x4 or 0x5 marks its unit: the fence of its event is held until LIFT or the removal of the drill overlay (R398). -/
def Chip.drill (c : Chip) (kind u : Nat) : Chip :=
  match unitOf kind u with
  | some w => { c with ash := { c.ash with drilled := c.ash.drilled.filter (fun v => decide (v ≠ w)) ++ [w] } }
  | none => c

/-- The effect of a force (R397, R398). The monitors' status keeps its value (R202). -/
def Chip.forceApply (c : Chip) (kind u : Nat) : Chip :=
  let mon := fun (k : Nat) => match (slotMons u)[k]? with | some m => c.monWord m | none => 0
  if kind = 1 then (c.raise 0x10 u (mon 1) true).startDeact u .fault cauSHORT
  else if kind = 2 then
    ((c.raise 0x13 u (mon 3) true).modSlot u (fun x =>
      { x with forcedRemoval := true, forcedAbsent := x.forcedAbsent || isOperator u })).removed u
  else if kind = 3 then c.railGone (4 + u) true
  else if kind = 4 then ((c.peerLost u true).drill 6 u).raise 0x49 u 0 true
  else if kind = 5 then ((c.portLost u).drill 5 u).raise 0x41 u 0 true
  else (c.jobFence u 7).embEvt EMB_EVT.WDOG u true

/-- A write of GO or LIFT to ASH_FORCE. -/
def Chip.forceWrite (c : Chip) (lift : Bool) (kind u : Nat) : Chip :=
  let word := (if lift then 2 ^ 30 else 2 ^ 31) + kind % 16 * 2 ^ 24 + u % 256
  let res := c.forceResult lift kind u
  let c := ((c.put ASH_FORCE_STAT.RESULT 0 res).put ASH_FORCE_STAT.KIND 0 kind).put ASH_FORCE_STAT.UNIT 0 u
  if res ≠ 0 then c.raise 0x71 (kind % 16) (word % 2 ^ 28 + res * 2 ^ 28)
  else
    let c := c.raise 0x70 (kind % 16) word
    if lift then c.lift (forcedPick kind (some u)) else c.forceApply kind u

/-- Act without sending events of a source. -/
def Chip.muted (c : Chip) (src : Nat) (f : Chip → Chip) : Chip :=
  let d := f c
  let k := c.ash.inbox.length
  { d with ash := { d.ash with
    inbox := d.ash.inbox.take k ++ (d.ash.inbox.drop k).filter (fun e => decide (e.src ≠ src)) } }

/-- A health test of the entropy source fails (R293). -/
def Chip.esFail (c : Chip) : Chip :=
  ((c.flag CRD_STAT.ES_OK 0 false).flag CRD_STAT.DRBG_READY 0 false).crdEvt CRD_EVT.ES_FAIL

/-- What the block that owns a detector does for an injected event (R397): the sources that report a detector output, and
the loss of a bank rail or bank monitor (log entry 30). -/
def Chip.injectEffect (c : Chip) (src u : Nat) : Chip :=
  if src = 0x10 then c.startDeact u .fault cauSHORT
  else if src = 0x11 then c.startDeact u .fault cauVCC
  else if src = 0x12 then c.startDeact u .fault cauIO
  else if src = 0x13 then
    (if c.pres u && !(c.slot u).forcedAbsent then (c.modSlot u (fun x => { x with forcedAbsent := true })).removed u else c.inserted u)
  else if src = 0x20 ∨ src = 0x21 then (if c.railPg (4 + u) ∧ c.domUp u then c.bankLost u false true else c)
  else if src = 0x28 ∨ src = 0x2A ∨ src = 0x2B then c.railGone u true
  else if src = 0x58 then c.esFail
  else c

/-- GO of ASH_INJ (R396, R397). -/
def Chip.injectWrite (c : Chip) (src u : Nat) : Chip :=
  let word := 2 ^ 31 + src % 256 * 2 ^ 16 + u % 256
  let res := if !c.forceAllowed true then 1 else if (srcRow src).isNone then 2 else if !unitOk src u then 3 else 0
  if res ≠ 0 then c.raise 0x71 0xF0 (word % 2 ^ 28 + res * 2 ^ 28)
  else
    let c := (c.raise 0x70 0xF0 word).raise src u (c.get ASH_INJ_DETAIL.DETAIL 0) true
    let us := if u = 0xFF then (List.range 64).filter (fun k => unitOk src k) else [u]
    c.muted src (fun c => us.foldl (fun c k => c.injectEffect src k) c)

/-! ## The heartbeat (R399) -/

/-- A 1 ms period ends and the next heartbeat goes out: a peer that sent nothing starts its count again. -/
def Chip.heartTick (c : Chip) : Chip :=
  let a := c.ash
  let c := { c with ash := { a with hbRun := a.hbRun.filter (fun p => a.hbSeen.contains p.1), hbSeen := [] } }
  c.kzAll .fault 0x01 [BitVec.ofNat 8 c.grp.dev, BitVec.ofNat 8 (c.safe.toNat + 2 * c.orphan.toNat)]

/-- A valid frame arrives from a device: after three periods in a row it is present again, unless a forced fence is held. The
same lifts the fence that a loss of CK_LINK lock raised (log entry 32). -/
def Chip.heartBeat (c : Chip) (d : Nat) : Chip :=
  if d = c.grp.dev ∨ c.grp.size < d ∨ c.ash.hbSeen.contains d then c
  else
    let n := tabGet 0 c.ash.hbRun d + 1
    let c := { c with ash := { c.ash with hbSeen := c.ash.hbSeen ++ [d], hbRun := tabPut id 0 c.ash.hbRun d n } }
    let unlocked := c.ash.fences.any (fun f => decide (f.src = 8) && (match f.unit with | .peer m => decide (m.val = d) | _ => false))
    if c.forcedHeld 4 d then c
    else if 3 ≤ n ∧ !c.ash.present.contains d then
      { c with ash := { c.ash with present := c.ash.present ++ [d] } }.raise 0x4A d
    else if n = 3 ∧ unlocked then c.raise 0x4A d
    else c

/-- CK_LINK loses lock (R379): the Kuzagan links are gone, and source 0x08 fences every peer. A peer so fenced is present again
under R399 as one that was lost (log entry 32). -/
def Chip.linkLost (c : Chip) : Chip :=
  if !c.seq.linkLock then c
  else
    let c := { c with seq := { c.seq with linkLock := false }, ash := { c.ash with hbRun := [] } }
    (c.forN 3 (fun c k => if c.kzUsed k then ((c.kzUnkey k).kzGone k).flag DRG_KZ_STAT.SYM_LOCK k false else c)).raise 0x08 0

/-- A peer has been declared lost, and its fence holds (R399): its frames only count toward its return (R492). The sequencing and fault
classes of a peer whose loss is forced keep running (R398). -/
def Chip.peerDeclared (c : Chip) (d : Nat) : Bool :=
  c.ash.fences.any (fun f => decide (f.src = 0x49) && !f.forced && (match f.unit with | .peer m => decide (m.val = d) | _ => false))

/-- A valid frame of the sequencing or fault class arrives from a device: on a link that is up it is acknowledged and counts as a
heartbeat, and then has its effect (R399, R471, R477). -/
def Chip.frameIn (c : Chip) (d : Nat) (cls : KzClass) (f : Chip → Chip) : Chip :=
  let k := c.kzFor d
  if d = c.grp.dev ∨ c.grp.size < d ∨ !c.on DRG_KZ_STAT.INIT_OK k then c
  else if c.peerDeclared d then (c.kzAccept k cls).heartBeat d
  else f ((c.kzAccept k cls).heartBeat d)

/-- A peer is declared lost. -/
def Chip.peerGone (c : Chip) (d : Nat) : Chip :=
  if c.ash.present.contains d then (c.peerLost d false).raise 0x49 d else c

/-! ## Warm reset (R10, R11, R112, R390, R414) -/

/-- Registers whose read-only fields show what a warm reset does not stop: rails and sequencer, presence and monitors, life cycle,
stores, ageing and wear, links, and the live mask (R11, log entry 31). -/
def warmShown (r : RegName) : Bool :=
  [RegName.DRG_SEQ_STAT, .DRG_RAIL_EN, .DRG_RAIL_PG, .DRG_RAIL_FAIL, .DRG_RAIL_LOCKOUT, .DRG_DOM_STAT, .DRG_GRP_STAT,
    .DRG_PMB_STAT, .DRG_KZ_STAT, .KLN_LC_STAT, .KLN_LC_WORD, .KLN_LC_MARK, .KLN_ID_STAT, .KLN_ROOT_STAT, .KLN_NV_STAT,
    .KLN_DBG_STAT, .KLN_TLOCK, .KLN_ID_PUB, .KLN_VER_FLOOR, .KLN_CER_SEQ, .ASH_JRN_HEAD,
    .HTH_SLOT_ESTAT, .HTH_BANK_ESTAT, .HTH_MON_STAT, .HTH_BMON_STAT, .DRG_RMON_STAT, .FLU_HP_STAT, .DRG_AVS_STAT, .DRG_AGE_STAT,
    .DRG_PLAN_STAT, .DRG_WEAR_HRS, .DRG_WEAR_STAT, .DRG_SRAM_STAT, .DRG_DMP_STAT, .DRG_DMP_STATIC, .FLU_LANE_STAT,
    .EMB_STAT, .FLU_LIVE].contains r

/-- What a warm reset keeps (R11): fields that only a cold reset returns, slot states with REACT_WAIT, the STALE marks (R247),
and what goes on. -/
def warmKept (k : Key) : Bool :=
  coldOnly k
  || (warmShown k.fld.reg && (match k.fld.accAt k.idx with
    | .RO => true
    | _ => false))
  || (decide (k.fld.reg = .HTH_SLOT_STAT) && decide (k.fld.lo = 0 ∨ k.fld.lo = 12))
  || (decide (k.fld.reg = .FLU_STACK_MARK) && decide (k.fld ≠ FLU_STACK_MARK.WR_INFL))

/-- Every slot is inactive. -/
def Chip.allInactive (c : Chip) : Bool :=
  (List.range 64).all (fun n => [stOFF, stABSENT, stCLINKER].contains (c.slotState n))

/-- A warm reset starts: every active slot deactivates (R112). -/
def Chip.warmStart (c : Chip) : Chip :=
  let c := { c with ash := { c.ash with warmPend := true } }
  c.forN 64 (fun c n => c.startDeact n .commanded cauWARMDEV)

/-- WARM of ASH_CMD (R390, R401, R445). -/
def Chip.warmCmd (c : Chip) : Chip :=
  if c.ash.tamper then c.refuse blkASH
  else if c.kln.lc.isSome ∧ 1 < c.get KLN_LC_STAT.PHASE 0 then c
  else c.warmStart

/-- A fence that a warm reset leaves: clinkers, banks, lanes, row groups and peers (R381, R390). The forced loss of a peer ends with the
drill overlay (R398, R414). -/
def Chip.warmFence (c : Chip) (f : FenceRec) : Bool :=
  match f.unit with
  | .slot n => (c.slot n).clinker
  | .ctx _ => false
  | .port _ => false
  | .peer _ => !(f.forced && c.modeApplied 4)
  | _ => true

/-- The units after a warm reset: rings, contexts, sessions, overlays and work are gone. -/
def Chip.warmUnits (c : Chip) : Chip :=
  let c := c.forN 64 (fun c n => c.modSlot n (SlotX.restarted))
  let c := c.dmp.grants.foldl (fun c g => c.fill g.floor (g.cost * tok)) c
  { c with rings := [], entries := [], stack := StackX.init, sess := [], cord := { c.cord with esTest := true }, ctxs := [], ember := EmberX.init,
           dmp := { c.dmp with reqs := [], grants := [] }, blanked := [],
           kln := { c.kln with img := none, ovls := [], job := none, heldRings := [], heldSlots := [], removals := [], baseOn := false, nonce := none, xfer := none,
                               mbx := WinX.init } }

/-- The reset proceeds once every slot is inactive. -/
def Chip.warmGo (c : Chip) : Chip :=
  if !c.ash.warmPend || !c.allInactive then c
  else
    let c := c.bellowsAbort 8
    let c := if c.domUp 16 then c.zeroStore 3 else c
    let lost := (List.range 2).filter (fun x => c.on FLU_PORT_STAT.LOST x && !c.serving x)
    let keep := c.warmFence
    let c := c.withAlert (fun c =>
      let c := c.warmUnits.keepRegs warmKept
      { c with ash := { c.ash with fences := c.ash.fences.filter keep, windows := [], pulse := false, fatal := false, drilled := [],
                                   safe := false, warmPend := false } })
    let c := lost.foldl (fun c x => c.flag FLU_PORT_STAT.LOST x true) c
    let c := if c.get KLN_LC_STAT.PHASE 0 = 1 then c.lcDrop else c
    let c := ((c.mem (.wipeOp 0 0x10000)).mem (.wipeList 0 0x8000))
    if (c.seqState = sqWAITIMAGE ∨ c.seqState = sqPLAN ∨ c.seqState = sqRUNNING) ∧ c.lcRuns then
      { c with kln := { c.kln with img := some ⟨.select, []⟩ } }
    else c

/-- LIFT_PORT of ASH_CMD (R381). -/
def Chip.liftPorts44 (c : Chip) (ports : Nat) : Chip :=
  c.lift (fun f => match f.unit with | .port x => decide (f.src = 0x44) && !f.forced && ports.testBit x.val | _ => false)

end Sys2Proof.Machine
end

