-- ==== Sys2Proof/Machine/Access.lean ====
section
/-! DEFINITION. The register space: which register lies at an address (R494–R497), what a write stores in a field (R5, R9)
and what else the write of a setting does. -/

namespace Sys2Proof.Machine

/-! ## Addresses -/

/-- The instance of a range that lies at an address. -/
def RegRange.index (r : RegRange) (a : Nat) : Option Nat :=
  if a < r.base then none
  else
    let d := a - r.base
    let o := if r.outerCount ≤ 1 then 0 else d / r.outerStride
    let rest := d - o * r.outerStride
    let i := if r.innerCount ≤ 1 then 0 else rest / r.innerStride
    if o < r.outerCount ∧ i < r.innerCount ∧ rest = i * r.innerStride then some (o * r.innerCount + i) else none

/-- The register at an address and its instance. A slot monitor with k = 3 on a module slot holds none (R206). -/
def regAt (a : Nat) : Option (RegName × Nat) :=
  match regRanges.findSome? (fun e => (e.2.index a).map (fun i => (e.1, i))) with
  | some (r, i) =>
    if (r = .HTH_MON_CFG ∨ r = .HTH_MON_THR ∨ r = .HTH_MON_STAT) ∧ i % 4 = 3 ∧ 16 ≤ i then none else some (r, i)
  | none => none

/-- The range of an address, as the UNIT of source 0x09 names it (R379, R494). -/
def blkOf (a : Nat) : Nat :=
  if a < 0x400000 then a / 0x100000
  else if a < 0x800000 then blkFLU
  else if a < 0xC00000 then blkHTH
  else if a < 0xD00000 then blkCRD
  else if a < 0xE00000 then blkEMB
  else if a < 0x1000000 then 0x09
  else if a < 0x2000000 then 0x08
  else 0xFF

/-- The switched domain that a register lies in, none for AON (R42, R206, R267, R296, R326, R428, R493). -/
def regDom (r : RegName) (i a : Nat) : Option Nat :=
  match hthBank r i with
  | some b => some b
  | none => if aonBlock (blkOf a) then none else if blkOf a = blkEMB then some 17 else some 16

/-- The register's domain is on; a bank's registers are reached from the rise of its rail (R206). -/
def Chip.regUp (c : Chip) (r : RegName) (i a : Nat) : Bool :=
  match regDom r i a with
  | none => true
  | some k => if k < 16 then c.bankPow k else c.domUp k

/-! ## Stored values -/

/-- A value brought within the limits of its field: outside them the nearer limit is stored. -/
def Fld.within (f : Fld) (i v : Nat) : Nat := max (f.limitsAt i).1 (min (f.limitsAt i).2 v)

/-- The fields of a monitor's configuration, whichever the kind. -/
def monCfgReg (r : RegName) : Bool := [RegName.HTH_MON_CFG, .HTH_BMON_CFG, .DRG_RMON_CFG].contains r

/-- A number of samples needed, brought within floor(M/2) + 1 to M (R192). -/
def samplesOk (m n : Nat) : Nat := clampNat (m / 2 + 1) m n

/-- Store a field as its chapter lays down. -/
def Chip.setField (c : Chip) (f : Fld) (i v : Nat) : Chip :=
  let w := f.within i v
  if f = HTH_BANK_CFG.CLASS then (if v = 0 ∧ i ≠ 0 then c else c.put f i w)
  else if f = DRG_DMP_CFG.CAP then (if w = v then c.put f i w else (c.put f i w).dmpEvt DRG_DMP_EVT.CAP_STORED)
  else if f = DRG_PMB_CFG.SPEED then c.put f i (if v = 3 then 2 else v)
  else if f = FLU_SQ_BASE_LO.ADDR_LO then c.put f i (v / 2 * 2)
  else c.put f i w

/-- Fields whose stored value depends on another field of the register. -/
def Chip.fixReg (c : Chip) (r : RegName) (i : Nat) : Chip :=
  if monCfgReg r then c.put ⟨r, 4⟩ i (samplesOk (c.get ⟨r, 8⟩ i) (c.get ⟨r, 4⟩ i))
  else if r = .DRG_AVS_CFG then c.put DRG_AVS_CFG.CRIT_OFS 0 (max (c.get DRG_AVS_CFG.LOW_OFS 0) (c.get DRG_AVS_CFG.CRIT_OFS 0))
  else if r = .DRG_PMB_MAP then
    (if c.get DRG_PMB_MAP.RAIL i = 1 then c else c.flag DRG_PMB_MAP.AVS i false)
  else if r = .FLU_RING_CFG ∧ c.ringState i = rsDISABLED then c.put FLU_RING_STAT.OWNER_NOW i (c.get FLU_RING_CFG.OWNER i)
  else c

/-! ## What a written setting does -/

/-- The monitor of an instance of a monitor register. -/
def monOf (r : RegName) (i : Nat) : Option MonId :=
  if r = .HTH_MON_CFG then
    (if h : i / 4 < 64 then
      (if i % 4 = 0 then some (.vmon ⟨i / 4, h⟩) else if i % 4 = 1 then some (.imon ⟨i / 4, h⟩)
       else if i % 4 = 2 then some (.iomon ⟨i / 4, h⟩)
       else if h : i / 4 < 4 then some (.pmon ⟨i / 4, h⟩) else none)
     else none)
  else if r = .HTH_BMON_CFG then (if h : i < 16 then some (.bmon ⟨i, h⟩) else none)
  else if r = .DRG_RMON_CFG then (if h : i < 5 then some (.rmon ⟨i, h⟩) else none)
  else none

/-- The monitor of an instance of a status register. -/
def monOfStat (r : RegName) (i : Nat) : Option MonId :=
  match r with
  | .HTH_MON_STAT => monOf .HTH_MON_CFG i
  | .HTH_BMON_STAT => monOf .HTH_BMON_CFG i
  | .DRG_RMON_STAT => monOf .DRG_RMON_CFG i
  | _ => none

/-- Settings of the protocol engines that what runs keeps using: those of the register that differ from before (R153, R183). -/
def heldFields (r : RegName) : List Fld :=
  if r = .HTH_PROT_CFG then [HTH_PROT_CFG.T0_AUTO, HTH_PROT_CFG.IFSD]
  else if r = .HTH_PROT_LIM then [HTH_PROT_LIM.PAR_RETRY, HTH_PROT_LIM.T1_RETRY, HTH_PROT_LIM.RESYNCH_LIM]
  else if r = .HTH_TURF_CFG then [HTH_TURF_CFG.TURF_RETRY, HTH_TURF_CFG.WAIT_LIM, HTH_TURF_CFG.DOZE_IDLE]
  else []

/-- Remember the values that still hold for what runs on a slot. -/
def Chip.holdSettings (c old : Chip) (r : RegName) (n : Nat) : Chip :=
  let busy := if r = .HTH_PROT_CFG then decide (c.slotState n = stREADY ∨ c.slotState n = stBUSY)
    else if r = .HTH_TURF_CFG then (c.slot n).cur.isSome || decide (c.get HTH_TURF_STAT.LANE n = 3)
    else (c.slot n).cur.isSome
  if !busy then c
  else (heldFields r).foldl (fun c f =>
    if (tabFind (c.slot n).held f).isSome then c else c.modSlot n (fun x => { x with held := x.held ++ [(f, old.get f n)] })) c

/-- SLOT_EN of a bank changed (R84, R88, R89, R108, R418): a slot disabled deactivates with cause DISABLED, and a pending activation
of it waits; one enabled is treated as at a fence lift. -/
def Chip.slotEnEffect (c old : Chip) (b : Nat) : Chip :=
  (slotsOf b).foldl (fun c n =>
    if old.slotEn n && !c.slotEn n then
      (c.startDeact n .commanded cauDISABLED).evict n
    else if !old.slotEn n && c.slotEn n then c.liftSlot n else c) c

/-- What a write of a register does beside storing its fields; `old` is the chip before it. -/
def Chip.regEffect (c old : Chip) (r : RegName) (i : Nat) : Chip :=
  match monOf r i with
  | some m => c.monCfgEffect old m
  | none =>
    if r = .HTH_BANK_CFG then c.slotEnEffect old i
    else if r = .HTH_PROT_CFG ∨ r = .HTH_PROT_LIM ∨ r = .HTH_TURF_CFG then c.holdSettings old r i
    else if r = .DRG_SEQ_CFG then (if old.mainOk && !c.mainOk then c.mainFall else c.seqWake)
    else if r = .ASH_PIN_CTL then (if c.alertLow = old.alertLow then c else c.emit (.alertN c.alertLow))
    else c

/-! ## Writes of whole registers -/

/-- The part of a word that a field takes. -/
def fieldOf (f : FieldSpec) (w : Nat) : Nat := w / 2 ^ f.lo % 2 ^ f.width

/-- Change the fields of a register that a mask touches and `ok` admits. -/
def Chip.maskedWrite (c : Chip) (r : RegName) (i value mask : Nat) (ok : Fld → Bool) : Chip :=
  let c' := (regFields r).foldl (fun c f =>
    let fld : Fld := ⟨r, f.lo⟩
    let m := fieldOf f mask
    if m = 0 || !ok fld then c
    else
      let old := c.get fld i % 2 ^ f.width
      c.setField fld i (old - (old &&& m) + (fieldOf f value &&& m))) c
  (c'.fixReg r i).regEffect c r i

/-- A setting written by an image: RW and RWL fields, whatever the lock (R407, R418). -/
def Chip.cfgWrite (c : Chip) (r : RegName) (i value mask : Nat) : Chip :=
  c.maskedWrite r i value mask (fun f => decide (f.accAt i = .RW ∨ f.accAt i = .RWL))

/-- The write-one-to-clear and write-one-to-set fields of a register (R9). A latch stays set while its monitor is on the alarm
side (R203). -/
def Chip.onesWrite (c : Chip) (r : RegName) (i value : Nat) : Chip :=
  (regFields r).foldl (fun c f =>
    let fld : Fld := ⟨r, f.lo⟩
    let v := fieldOf f value
    if fld.accAt i = .W1C then
      if decide (f.lo = mLATCHED) && (match monOfStat r i with | some m => c.latchHeld m | none => false) then c
      else c.put fld i (c.get fld i - (c.get fld i &&& v))
    else if fld.accAt i = .W1S then c.put fld i (c.get fld i ||| v)
    else c) c

/-- A write of host software to a register that no command of its own covers (R9). -/
def Chip.plainWrite (c : Chip) (r : RegName) (i value : Nat) : Chip :=
  let lock := c.on KLN_CFG_STAT.LOCK 0
  let c := c.onesWrite r i value
  let some_ := (regFields r).any (fun f => (⟨r, f.lo⟩ : Fld).accAt i = .RW || ((⟨r, f.lo⟩ : Fld).accAt i = .RWL && !lock))
  if some_ then
    c.maskedWrite r i value 0xFFFFFFFF (fun f => decide (f.accAt i = .RW) || (decide (f.accAt i = .RWL) && !lock))
  else c

end Sys2Proof.Machine
end

