-- ==== Sys2Proof/Machine/Image.lean ====
section
/-! DEFINITION. Configuration images (R403–R419): their format, the checks of R409, the application of a base image, and
the overlays with their holds, commit and removal. -/

namespace Sys2Proof.Machine

/-! ## Format (R403–R405) -/

/-- An entry of the section table. -/
structure ImgSec where
  typ : Nat
  count : Nat
  off : Nat
  len : Nat
  deriving DecidableEq, Repr

/-- An image taken apart. -/
structure Img where
  isBase : Bool
  mode : Nat
  version : Nat
  family : Nat
  baseMin : Nat
  seq : Nat
  devId : List Byte
  roleX : Nat
  roleY : Nat
  lifetime : Nat
  persist : Bool
  recs : List RegRec
  routes : List (Nat × Nat)
  xbar : List (Nat × Nat)
  cert : List Byte
  marks : List OvlMark
  signer : List Byte
  sig : List Byte
  signed : List Byte
  deriving DecidableEq, Repr

/-- A little-endian number of an image. -/
def imgLe (b : List Byte) (off len : Nat) : Nat := leNat ((b.drop off).take len)

/-- The section table (R404). -/
def imgSecs (b : List Byte) : List ImgSec :=
  (List.range (imgLe b 7 1)).map (fun i =>
    ⟨imgLe b (64 + 12 * i) 2, imgLe b (66 + 12 * i) 2, imgLe b (68 + 12 * i) 4, imgLe b (72 + 12 * i) 4⟩)

/-- The record size of a section type. -/
def secSize (typ : Nat) : Nat := [0, 12, 8, 2, 233, 12].getD typ 0

/-- The records of a section. -/
def secRecs (b : List Byte) (s : ImgSec) : List (List Byte) :=
  (List.range s.count).map (fun k => (b.drop (s.off + secSize s.typ * k)).take (secSize s.typ))

/-- The reserved parts of a record are zero; a route word has PREF and MOVING zero. -/
def recClean (typ : Nat) (r : List Byte) : Bool :=
  if typ = 2 then decide (imgLe r 0 2 < 4096) && decide (imgLe r 2 2 = 0) && decide (imgLe r 4 4 / 2 ^ 16 % 2 ^ 12 = 0)
    && !(imgLe r 4 4).testBit 29
  else if typ = 5 then decide (imgLe r 8 1 < 16) && decide (imgLe r 9 3 = 0)
  else true

/-- A section meets R404 by itself. -/
def secOk (b : List Byte) (isBase : Bool) (s : ImgSec) : Bool :=
  decide (1 ≤ s.typ) && decide (s.typ ≤ (if isBase then 5 else 2)) && decide (s.len = s.count * secSize s.typ)
    && decide (64 + 12 * imgLe b 7 1 ≤ s.off) && decide (s.off + s.len + 193 ≤ b.length)
    && (secRecs b s).all (recClean s.typ)

/-- Two sections overlap. -/
def secMeet (s t : ImgSec) : Bool := decide (s.off < t.off + t.len) && decide (t.off < s.off + s.len)

/-- The first section that breaks R404. -/
def secBad (b : List Byte) (isBase : Bool) : Option Nat :=
  let ss := imgSecs b
  (List.range ss.length).find? (fun i =>
    match ss[i]? with
    | some s => !secOk b isBase s || (ss.take i).any (fun t => secMeet s t)
    | none => false)

/-- The records of every section of a type, in image order. -/
def imgRecs (b : List Byte) (typ : Nat) : List (List Byte) :=
  ((imgSecs b).filter (fun s => decide (s.typ = typ))).flatMap (secRecs b)

/-- The header meets R403, for a command that takes a base image or an overlay. -/
def hdrOk (b : List Byte) (isBase : Bool) : Bool :=
  let mode := imgLe b 6 1
  let ns := imgLe b 7 1
  let rx := imgLe b 0x30 1
  let ry := imgLe b 0x31 1
  decide (b.take 5 = [0x4E, 0x44, 0x53, 0x48, 0x01]) && decide (imgLe b 5 1 = if isBase then 1 else 2)
    && (if isBase then decide (mode = 0) else decide (1 ≤ mode ∧ mode ≤ 4)) && decide (1 ≤ ns ∧ ns ≤ 32)
    && decide (imgLe b 8 4 = b.length) && decide (b.length ≤ if isBase then 262144 else 16384)
    && decide (64 + 12 * ns + 193 ≤ b.length)
    && (if mode = 2 then decide (1 ≤ rx ∧ rx ≤ 0xFE ∧ 1 ≤ ry ∧ ry ≤ 0xFE ∧ rx ≠ ry) else decide (rx = 0 ∧ ry = 0))
    && decide (imgLe b 0x34 2 < 2) && decide (imgLe b 0x36 10 = 0)
    && (if isBase then decide (imgLe b 0x18 4 = 0 ∧ imgLe b 0x32 2 = 0) else decide (mode = 2 ∨ imgLe b 0x1C 4 = 0))

/-- Take an image apart, or name the section that breaks the format (0 for the header). -/
def imgForm (isBase : Bool) (b : List Byte) : Sum Nat Img :=
  if !hdrOk b isBase then .inl 0
  else match secBad b isBase with
    | some i => .inl i
    | none =>
      let once := fun (t : Nat) => decide (((imgSecs b).filter (fun s => decide (s.typ = t))).length = 1)
      if isBase && !(once 3 && once 4 && decide ((imgRecs b 4).length = 1)) then .inl 0
      else
        let n := b.length
        .inr { isBase := isBase, mode := imgLe b 6 1, version := imgLe b 0x0C 4, family := imgLe b 0x10 8,
               baseMin := imgLe b 0x18 4, seq := imgLe b 0x1C 4, devId := (b.drop 0x20).take 16, roleX := imgLe b 0x30 1,
               roleY := imgLe b 0x31 1, lifetime := imgLe b 0x32 2, persist := decide (imgLe b 0x34 2 % 2 = 1),
               recs := (imgRecs b 1).map (fun r => ⟨imgLe r 0 4, imgLe r 4 4, imgLe r 8 4⟩),
               routes := (imgRecs b 2).map (fun r => (imgLe r 0 2, imgLe r 4 4)),
               xbar := (imgRecs b 3).map (fun r => (imgLe r 0 1, imgLe r 1 1)), cert := (imgRecs b 4).headD [],
               marks := (imgRecs b 5).map (fun r => ⟨imgLe r 0 4, imgLe r 4 4, imgLe r 8 1⟩),
               signer := (b.drop (n - 193)).take 97, sig := b.drop (n - 96), signed := b.take (n - 96) }

/-- The bytes of the image at an SRAM offset: TOTAL_LEN of them, or the header alone where they do not lie wholly in the host
region (R413). -/
def imgBytes (sram : List Host.Cell) (off : Nat) : List Byte :=
  let total := leNat (memReadBytes sram (off + 8) 4)
  if 64 ≤ total ∧ total ≤ 262144 ∧ inHostRegion off total then memReadBytes sram off total else memReadBytes sram off 64

/-! ## Voted values (R447, R448) -/

/-- The value of a valid copy. -/
def VoteCopy.value : VoteCopy → Option Nat
  | .val v => some v
  | _ => none

/-- The copies of a voted value. -/
def voteCopies (nvs : Nvs) (i : Nat) : List VoteCopy := [0, 1, 2].map (fun k => tabGet .unwritten nvs.votes (i, k))

/-- The majority of the copies: none where no two valid copies agree; the initial value of each is 0. -/
def voteMajority (nvs : Nvs) (i : Nat) : Option Nat :=
  let cs := voteCopies nvs i
  if cs.all (fun v => decide (v = .unwritten)) then some 0
  else ((cs.filterMap VoteCopy.value).find? (fun v => decide (2 ≤ cs.count (.val v))))

/-- The most restrictive value (R448). -/
def voteStrict (i : Nat) : Nat := if i < 2 then 0xFFFFFFFF else if i = 2 then 0 else 2 ^ 64 - 1

/-- The value in force. -/
def voteValue (nvs : Nvs) (i : Nat) : Nat := (voteMajority nvs i).getD (voteStrict i)

/-- The code of KLN_NV_STAT: all agree, two agree, no majority. -/
def voteStat (nvs : Nvs) (i : Nat) : Nat :=
  let cs := voteCopies nvs i
  if (voteMajority nvs i).isNone then 2 else if cs.all (fun v => decide (v = cs.headD .unwritten)) then 0 else 1

/-! ## The checks (R405–R409, R415) -/

/-- DEV_ID of this device (R438). -/
def devIdOf (otp : List (Nat × Nat)) : Option (List Byte) := (idPub otp).map (fun p => (sha384 p).take 16)

/-- A key may sign images in the life-cycle state (R405, R429, R435, R436). -/
def Chip.signerOk (c : Chip) (otp : List (Nat × Nat)) (key : List Byte) : Bool :=
  let st := c.lcState
  if st = lcProduction then (rootSlotOf otp key).isSome
  else decide (st = lcTest ∨ st = lcAnalysis) && decide (key = Config.vendorRoot)

/-- The registers that a base image sets (R407) beside those that have an RWL field. -/
def baseReg (r : RegName) : Bool :=
  (regFields r).any (fun f => decide (f.acc = .RWL))
    || [RegName.HTH_BANK_CFG, .HTH_SLOT_ELEC, .HTH_SLOT_CTL, .HTH_SLOT_RCV, .HTH_PROT_CFG, .HTH_TURF_CFG, .HTH_MON_CFG,
        .HTH_MON_THR, .HTH_BMON_CFG, .HTH_BMON_THR, .DRG_RMON_CFG, .DRG_RMON_THR, .DRG_MON_SETTLE, .FLU_RING_CFG, .FLU_SCHED_CFG,
        .FLU_CLASS_CFG, .FLU_PORT_CFG, .DRG_SEQ_CFG, .DRG_SEQ_SLOT, .DRG_PMB_MAP, .DRG_PMB_CFG, .DRG_GRP_CFG, .DRG_DMP_CFG,
        .DRG_DMP_CFG2, .DRG_DMP_COST, .DRG_AVS_CFG, .DRG_AGE_CFG, .CRD_CFG, .CRD_GEN_FLOOR, .KLN_PIN, .EMB_CFG,
        .ASH_HB_CFG].contains r

/-- The bits of an instance of a register that a predicate on its fields picks. -/
def fieldBits (r : RegName) (p : Fld → Bool) : Nat :=
  (regFields r).foldl (fun w f => if p ⟨r, f.lo⟩ then w ||| (2 ^ f.width - 1) * 2 ^ f.lo else w) 0

/-- A mask lies within other bits. -/
def maskIn (m bits : Nat) : Bool := decide (m &&& bits = m)

/-- A REG record of a base image meets R407. -/
def baseRecOk (r : RegRec) : Bool :=
  match regAt r.addr with
  | some (g, i) => baseReg g && maskIn r.mask (fieldBits g (fun f => decide (f.accAt i = .RW ∨ f.accAt i = .RWL)))
  | none => false

/-- Fields that no overlay may touch (R408). -/
def neverMark (f : Fld) : Bool :=
  [RegName.DRG_SEQ_SLOT, .DRG_PMB_MAP, .DRG_SEQ_CFG, .ASH_HB_CFG].contains f.reg
    || [HTH_BANK_CFG.CLASS, HTH_BANK_CFG.BANK_EN, FLU_RING_CFG.DEFINED, FLU_RING_CFG.OWNER, EMB_CFG.CTX_HOST].contains f

/-- What a mark for a route word may cover (R408). -/
def routeMarkBits : Nat := 0xD000FFFF

/-- An OVLMARK record meets R408. -/
def markOk (m : OvlMark) : Bool :=
  match regAt m.addr with
  | some (g, _) =>
    if g = .FLU_STACK_ACT then maskIn m.mask routeMarkBits
    else if g = .FLU_STACK_SHD then decide (m.mask = 0)
    else decide (m.mask &&& fieldBits g neverMark = 0)
  | none => true

/-- The XBAR section meets R406. -/
def xbarOk (x : List (Nat × Nat)) : Bool :=
  decide (x.length = 5) && [0, 1, 2, 3, 4].all (fun g => x.any (fun e => decide (e.1 = g))) && x.all (fun e => decide (2 ≤ e.2))
    && decide ((x.map Prod.snd).sum = 18)

/-- The bits of an address that an overlay of a mode may touch. -/
def markBits (marks : List OvlMark) (mode addr : Nat) : Nat :=
  marks.foldl (fun w m => if m.addr = addr ∧ m.modes.testBit (mode - 1) then w ||| m.mask else w) 0

/-- The address of the active route word of a handle. -/
def routeAddr (h : Nat) : Nat := 0x600000 + 4 * h

/-- The first element of a list that fails, by index. -/
def firstBad {α : Type} (l : List α) (ok : α → Bool) : Option Nat :=
  (List.range l.length).find? (fun i => match l[i]? with
    | some a => !ok a
    | none => false)

/-- The record that makes an image BAD_RECORD. -/
def Chip.badRecord (c : Chip) (otp : List (Nat × Nat)) (m : Img) : Option Nat :=
  if m.isBase then
    (firstBad m.recs baseRecOk).or <| (firstBad m.marks markOk).or <|
      (if xbarOk m.xbar then none else some 0).or <|
        if certForm m.cert && decide (certKind m.cert = 3) && decide (some (certPub m.cert) = idPub otp) then none else some 0
  else
    (firstBad m.recs (fun r => maskIn r.mask (markBits c.kln.marks m.mode r.addr))).or
      (firstBad m.routes (fun p => decide (markBits c.kln.marks m.mode (routeAddr p.1) ≠ 0)))

/-- The record that touches a bit of an applied overlay. -/
def Chip.conflict (c : Chip) (m : Img) : Option Nat :=
  (firstBad m.recs (fun r => !c.kln.ovls.any (fun o =>
    o.recs.any (fun q => decide (q.addr = r.addr) && decide (q.mask &&& r.mask ≠ 0))))).or
  (firstBad m.routes (fun p => !c.kln.ovls.any (fun o =>
    o.routes.any (fun q => decide (q.1 = p.1)
      && decide (markBits c.kln.marks o.mode (routeAddr p.1) &&& markBits c.kln.marks m.mode (routeAddr p.1) ≠ 0)))))

/-- Life-cycle state, MODE, LIFETIME and PERSIST meet R415. -/
def Chip.modeAllowed (c : Chip) (m : Img) : Bool :=
  let st := c.lcState
  if m.isBase then c.lcRuns
  else if m.mode = 1 then c.lcRuns
  else !m.persist && !c.modeApplied m.mode &&
    (if m.mode = 2 then decide (st = lcProduction) && decide (m.lifetime ≤ 240)
     else decide (1 ≤ m.lifetime ∧ m.lifetime ≤ 1440)
      && (if m.mode = 3 then c.lcRuns else decide (st = lcTest ∨ st = lcProduction)))

/-- A slot counts for the quorum with a role (R421). -/
def Chip.inQuorum (c : Chip) (n role : Nat) : Bool :=
  decide (c.slotState n = stREADY ∨ c.slotState n = stBUSY) && decide (c.get CRD_SESS_STAT.KIND n = 2)
    && [ssACTIVE, ssREKEYING, ssOVERLAP].contains (c.get CRD_SESS_STAT.SESS n) && decide (c.get CRD_SESS_STAT.ROLE n = role)

/-- The pair of slots that holds the quorum of two roles (R421). -/
def Chip.quorumOf (c : Chip) (rx ry : Nat) : Option (Nat × Nat) :=
  (([0, 1, 2, 3].flatMap (fun x => [0, 1, 2, 3].map (fun y => (x, y)))).find? (fun p => c.inQuorum p.1 rx && c.inQuorum p.2 ry))

/-- The quorum of the roles of the last ceremony overlay checked. -/
def Chip.quorum (c : Chip) : Bool :=
  decide (c.get KLN_CER_STAT.ROLE_X 0 ≠ 0) && (c.quorumOf (c.get KLN_CER_STAT.ROLE_X 0) (c.get KLN_CER_STAT.ROLE_Y 0)).isSome

/-- Persistent overlays stored. -/
def ovlStored (nvs : Nvs) : List Nat := (List.range 16).filter (fun k => (tabFind nvs.ovl k).isSome)

/-- The lowest free overlay index. -/
def Chip.ovlFree (c : Chip) : Option Nat := (List.range 8).find? (fun i => decide (c.get KLN_OVL_STAT.STATE i = 0))

/-- The checks of R409 in their order: the RESULT and REC of the first that fails, or the image. `stored` says that the image
comes out of the overlay store, where it has its place. -/
def Chip.imgCheck (c : Chip) (otp : List (Nat × Nat)) (nvs : Nvs) (isBase stored : Bool) (b : List Byte) : Sum (Nat × Nat) Img :=
  match imgForm isBase b with
  | .inl i => .inl (1, i)
  | .inr m =>
    if !c.signerOk otp m.signer then .inl (2, 0)
    else if !ecdsa384Verify m.signer m.signed m.sig then .inl (3, 0)
    else if !(decide (some m.devId = devIdOf otp) || (!isBase && m.devId.all (fun x => decide (x = 0)))) then .inl (4, 0)
    else if isBase && (decide (m.version < voteValue nvs 0) || (voteMajority nvs 0).isNone) then .inl (5, 0)
    else if !isBase && !(c.kln.baseOn && decide (m.family = c.kln.family) && decide (m.baseMin ≤ c.get KLN_BASE_VER.VALUE 0)) then
      .inl (6, 0)
    else if !c.modeAllowed m then .inl (8, 0)
    else match c.badRecord otp m with
      | some k => .inl (7, min 255 k)
      | none =>
        if isBase then .inr m
        else match c.conflict m with
          | some k => .inl (9, min 255 k)
          | none =>
            if c.ovlFree.isNone || (m.persist && !stored && decide (16 ≤ (ovlStored nvs).length)) then .inl (0xD, 0)
            else if m.mode = 2 && decide (m.seq ≤ voteValue nvs 1) then .inl (0xB, 0)
            else if m.mode = 2 && (c.quorumOf m.roleX m.roleY).isNone then .inl (0xA, 0)
            else .inr m

/-! ## Route words -/

/-- A route word of a bank. -/
def Chip.routeWord (c : Chip) (bank : RegName) (h : Nat) : Nat :=
  routeFlds.foldl (fun w lo => w + c.get ⟨bank, lo⟩ h * 2 ^ lo) 0

/-- Store a route word in a bank. -/
def Chip.setRoute (c : Chip) (bank : RegName) (h w : Nat) : Chip :=
  routeFlds.foldl (fun c lo => c.put ⟨bank, lo⟩ h (w / 2 ^ lo)) c

/-- A word with some bits replaced. -/
def mixBits (old new mask : Nat) : Nat := old - (old &&& mask) + (new &&& mask)

/-- Stoker stages route words in the shadow bank and Flue swaps the banks (R261–R264): MOVING is set where a leg of an existing
route is re-pointed. -/
def Chip.swapRoutes (c : Chip) (routes : List (Nat × Nat)) : Chip :=
  if routes = [] then c else
  let c := c.routes.foldl (fun c h => c.copyRoute .FLU_STACK_ACT .FLU_STACK_SHD h) c
  let c := routes.foldl (fun c p =>
    let c := c.setRoute .FLU_STACK_SHD p.1 p.2
    let moved := c.on FLU_STACK_ACT.VALID p.1
      && (decide (c.get FLU_STACK_ACT.LEG0_SLOT p.1 ≠ c.get FLU_STACK_SHD.LEG0_SLOT p.1)
        || decide (c.get FLU_STACK_ACT.LEG1_SLOT p.1 ≠ c.get FLU_STACK_SHD.LEG1_SLOT p.1))
    c.flag FLU_STACK_SHD.MOVING p.1 moved) c
  (c.routes.foldl (fun c h => c.planPref h) c).swapBanks

/-! ## Overlays (R415–R419, R423) -/

/-- A ring whose registers a record changes, and the slots whose registers it does. -/
def recRings (r : RegRec) : List Nat :=
  match regAt r.addr with
  | some (g, i) => if [RegName.FLU_RING_CFG, .FLU_RING_CTL].contains g then [i] else []
  | none => []
def recSlots (r : RegRec) : List Nat :=
  match regAt r.addr with
  | some (g, i) =>
    match hthBank g i with
    | none => []
    | some b =>
      if [RegName.HTH_BANK_CFG, .HTH_BANK_RICK, .HTH_BANK_LEGLIM, .HTH_BMON_CFG, .HTH_BMON_THR].contains g then slotsOf b
      else if [RegName.HTH_MON_CFG, .HTH_MON_THR].contains g then [i / 4] else [i]
  | none => []

/-- The holds of an application or removal (R418 step 3). -/
def Chip.hold (c : Chip) (o : OvlX) : Chip :=
  { c with kln := { c.kln with heldRings := (o.recs.flatMap recRings).eraseDups, heldSlots := (o.recs.flatMap recSlots).eraseDups } }

def Chip.unhold (c : Chip) : Chip := { c with kln := { c.kln with job := none, heldRings := [], heldSlots := [] } }

/-- Write the records of an overlay, and return with each the word it replaces, the latest first. -/
def Chip.writeRecs (c : Chip) (recs : List RegRec) : Chip × List RegRec :=
  recs.foldl (fun (acc : Chip × List RegRec) r =>
    match regAt r.addr with
    | some (g, i) => (acc.1.cfgWrite g i r.value r.mask, ⟨r.addr, acc.1.word g i, r.mask⟩ :: acc.2)
    | none => acc) (c, [])

/-- A record changes what the next ESTABLISH is checked against: the cache of Zss is cleared (R277, R418). -/
def recPins (r : RegRec) : Bool :=
  match regAt r.addr with
  | some (g, _) => decide (g = .KLN_PIN ∨ g = .CRD_GEN_FLOOR)
  | none => false

def Chip.clearCaches (c : Chip) : Chip := (c.sess.map Prod.fst).foldl (fun c n => c.modSess n (fun s => { s with cache := none })) c

/-- What every commit and removal does beside its fields: the epoch, the regime of R191, the caches. -/
def Chip.afterFields (c : Chip) (o : OvlX) : Chip :=
  let c := (c.incWrap KLN_OVL_EPOCH.EPOCH 0).takeRegime
  if o.recs.any recPins then c.clearCaches else c

/-- Change an overlay. -/
def Chip.modOvl (c : Chip) (i : Nat) (f : OvlX → OvlX) : Chip :=
  { c with kln := { c.kln with ovls := c.kln.ovls.map (fun o => if o.index = i then f o else o) } }

def Chip.ovl? (c : Chip) (i : Nat) : Option OvlX := c.kln.ovls.find? (fun o => decide (o.index = i))

/-- An image gets an index (R418): the overlay is being applied. -/
def Chip.ovlTake (c : Chip) (m : Img) (b : List Byte) : Chip × OvlX :=
  let i := c.ovlFree.getD 0
  let o : OvlX := ⟨i, m.mode, m.recs, m.routes, [], [], m.persist, b⟩
  let c := (c.resetReg .KLN_OVL_STAT i).put KLN_OVL_STAT.STATE i 1
  let c := (c.put KLN_OVL_STAT.MODE i m.mode).put KLN_OVL_STAT.REMAIN i m.lifetime
  ({ c with kln := { c.kln with ovls := c.kln.ovls ++ [o] } }, o)

/-- The commit of an overlay (R418 step 5). -/
def Chip.ovlLand (c : Chip) (o : OvlX) : Chip :=
  let (c, saved) := c.writeRecs o.recs
  let bits := fun (h : Nat) => markBits c.kln.marks o.mode (routeAddr h)
  let savedRoutes := o.routes.map (fun p => (p.1, c.routeWord .FLU_STACK_ACT p.1))
  let c := c.swapRoutes (o.routes.map (fun p => (p.1, mixBits (c.routeWord .FLU_STACK_ACT p.1) p.2 (bits p.1))))
  let c := (c.modOvl o.index (fun q => { q with saved := saved, savedRoutes := savedRoutes })).afterFields o
  let c := if o.mode = 2 then c.flag KLN_CER_STAT.CER_ON 0 true else c
  c.put KLN_OVL_STAT.STATE o.index 2

/-- Store a persistent overlay in a free slot of the NVS (R417). -/
def Chip.ovlStore (c : Chip) (nvs : Nvs) (o : OvlX) : Chip :=
  if !o.persist then c else
  match (List.range 16).find? (fun k => (tabFind nvs.ovl k).isNone) with
  | some k => ((c.mem (.nvsOvl k o.image)).put KLN_OVL_STAT.STORE o.index k).incSat KLN_CFG_STAT.STORED 0
  | none => c

/-- A key transfer ends: its result (R426) is posted by the mailbox. -/
def Chip.xferEnd (c : Chip) (status : Nat) (w1 : Nat) : Chip :=
  match c.kln.xfer with
  | none => c
  | some x =>
    let words := [x.relSw % 2 ^ 16 * 2 ^ 16 + x.relStatus * 2 ^ 8, w1]
    let c := c.flag STK_MBX_STAT.BUSY 0 false
    { c with kln := { c.kln with xfer := none, mbx := ⟨words, status, false, true, false⟩ } }

/-- The ceremony overlay is no longer in force: unsent entries of ceremony rings end with POLICY (R236), and so does a key
transfer with no leg of its load sent (R423, R427). -/
def Chip.cerStop (c : Chip) : Chip :=
  let c := (c.flag KLN_CER_STAT.CER_ON 0 false).ceremonyOut
  match c.kln.xfer with
  | none => c
  | some x =>
    let mine := c.entries.filter (fun e => decide (512 ≤ e.ring))
    if x.phase = .load ∧ mine.any (fun e => e.anySent) then mine.foldl (fun c e => (c.withdrawLegs e.uid).maybeFinish e.uid) c
    else mine.foldl (fun c e => (c.withdrawLegs e.uid).leaveEntry e.uid) (c.xferEnd stsPOLICY 0)

/-- What ends with an overlay of a mode: a drill's forces (R398), and a margin that no mode allows any more (R351). -/
def Chip.modeEnds (c : Chip) (mode : Nat) : Chip :=
  let c := if mode = 4 then c.drillGone else c
  if (mode = 3 ∨ mode = 4)
      ∧ !(decide (c.lcState = lcTest) || decide (c.lcState = lcAnalysis) || c.modeApplied 3 || c.modeApplied 4) then
    c.bellowsAbort 8 else c

/-- The replaced values return, and the index is free (R419). -/
def Chip.ovlUndo (c : Chip) (o : OvlX) : Chip :=
  let c := o.saved.foldl (fun c r =>
    match regAt r.addr with
    | some (g, i) => c.cfgWrite g i r.value r.mask
    | none => c) c
  let bits := fun (h : Nat) => markBits c.kln.marks o.mode (routeAddr h)
  let c := c.swapRoutes (o.savedRoutes.map (fun p => (p.1, mixBits (c.routeWord .FLU_STACK_ACT p.1) p.2 (bits p.1))))
  let k := c.get KLN_OVL_STAT.STORE o.index
  let c := if k < 16 then (c.mem (.nvsOvl k [])).put KLN_CFG_STAT.STORED 0 (c.get KLN_CFG_STAT.STORED 0 - 1) else c
  let c := { c.resetReg .KLN_OVL_STAT o.index with kln := { c.kln with ovls := c.kln.ovls.filter (fun q => decide (q.index ≠ o.index)) } }
  (c.afterFields o).modeEnds o.mode

/-- Every affected slot is out of BUSY, and no rebuild, swap or copy of the Stack table is under way where route words change
(R418 step 4, R427). -/
def Chip.quiet (c : Chip) (o : OvlX) : Bool :=
  c.kln.heldSlots.all (fun n => decide (c.slotState n ≠ stBUSY))
    && (decide (o.routes = []) || decide (c.get FLU_STACK_STAT.RB_STATE 0 = 0))

/-- The image command that runs ends with a RESULT. -/
def Chip.imgResult (c : Chip) (result : Nat) (rec : Nat := 0) : Chip :=
  if !c.on KLN_IMG_RES.BUSY 0 then c
  else ((c.put KLN_IMG_RES.RESULT 0 result).put KLN_IMG_RES.REC 0 (min 255 rec)).flag KLN_IMG_RES.BUSY 0 false

/-- Removal of an applied overlay starts: its holds are in effect (R419); a ceremony overlay is no longer in force at once
(R423). -/
def Chip.ovlRemove (c : Chip) (i : Nat) : Chip :=
  match c.ovl? i with
  | none => c
  | some o =>
    if c.get KLN_OVL_STAT.STATE i ≠ 2 then c
    else if c.kln.job.isSome ∨ c.kln.img.isSome then
      if c.kln.removals.contains i then c else { c with kln := { c.kln with removals := c.kln.removals ++ [i] } }
    else
      let c := if o.mode = 2 then c.cerStop else c
      { (c.put KLN_OVL_STAT.STATE i 3).hold o with kln := { (c.hold o).kln with job := some ⟨i, true, true⟩ } }

/-- The next removal that waits starts (R427). -/
def Chip.nextRemoval (c : Chip) : Chip :=
  match c.kln.removals with
  | [] => c
  | i :: rest =>
    if c.kln.job.isSome ∨ c.kln.img.isSome then c
    else { c with kln := { c.kln with removals := rest } }.ovlRemove i

/-- An application ends without a commit (R418): nothing changes. -/
def Chip.ovlFail (c : Chip) (o : OvlX) (result : Nat) : Chip :=
  let c := { c.resetReg .KLN_OVL_STAT o.index with kln := { c.kln with ovls := c.kln.ovls.filter (fun q => decide (q.index ≠ o.index)) } }
  c.unhold.imgResult result

/-- The commit of the overlay in work (R418, R419). -/
def Chip.ovlCommit (c : Chip) (nvs : Nvs) : Chip :=
  match c.kln.job with
  | none => c
  | some j =>
    match c.ovl? j.index with
    | none => c
    | some o =>
      if !c.quiet o then c
      else if j.removing then ((c.ovlUndo o).unhold.imgResult 0).nextRemoval
      else (((c.ovlLand o).ovlStore nvs o).unhold.imgResult 0).nextRemoval

/-- 50 ms of holds pass without the commit (R418). -/
def Chip.quietOut (c : Chip) : Chip :=
  match c.kln.job with
  | none => c
  | some j =>
    if j.removing then c
    else match c.ovl? j.index with
      | none => c
      | some o => (c.ovlFail o 0xC).nextRemoval

/-- Every overlay is removed at once (R443 step 2). -/
def Chip.ovlClear (c : Chip) : Chip :=
  let c := if c.on KLN_CER_STAT.CER_ON 0 then c.cerStop else c
  let c := c.kln.ovls.foldl (fun c o => if c.get KLN_OVL_STAT.STATE o.index = 1 then c.ovlFail o 0xC else c.ovlUndo o) c
  { c.unhold with kln := { c.unhold.kln with removals := [] } }

/-! ## The quorum (R420–R423, R427) -/

/-- The quorum is watched: a ceremony overlay in force without it is revoked, one in work ends with NO_QUORUM. -/
def Chip.watchQuorum (c : Chip) : Chip :=
  let ceremony := c.kln.ovls.find? (fun o => decide (o.mode = 2))
  match ceremony with
  | none => c
  | some o =>
    if (c.quorumOf (imgLe o.image 0x30 1) (imgLe o.image 0x31 1)).isSome then c
    else if c.get KLN_OVL_STAT.STATE o.index = 1 then (c.ovlFail o 0xA).nextRemoval
    else if c.on KLN_CER_STAT.CER_ON 0 then
      let c := (c.cerStop.flag KLN_CER_STAT.REVOKED 0 true).incWrap KLN_OVL_EPOCH.EPOCH 0
      c.ovlRemove o.index
    else c

/-! ## The base image (R410–R414) -/

/-- A persistent overlay is applied again (R417). -/
def Chip.reapply (c : Chip) (otp : List (Nat × Nat)) (nvs : Nvs) (k : Nat) (b : List Byte) : Chip :=
  match c.imgCheck otp nvs false true b with
  | .inl (res, rec) =>
    let c := (c.mem (.nvsOvl k [])).put KLN_CFG_STAT.STORED 0 (c.get KLN_CFG_STAT.STORED 0 - 1)
    (c.put KLN_IMG_RES.RESULT 0 res).put KLN_IMG_RES.REC 0 rec
  | .inr m =>
    let (c, o) := c.ovlTake m b
    let c := (c.ovlLand o).put KLN_OVL_STAT.STORE o.index k
    if o.routes = [] then c else c.copyBack

/-- A base image is applied (R407, R411, R412, R436); a PG_MAIN that it no longer ignores, and that is low, is lost (R329). -/
def Chip.applyBase (c : Chip) (otp : List (Nat × Nat)) (nvs : Nvs) (m : Img) (slot : Nat) : Chip :=
  let c := c.keepRegs (fun k => decide (k.fld.accAt k.idx ≠ .RWL))
  let c := (c.writeRecs m.recs).1
  let c := (List.range 512).foldl (fun c r => c.put FLU_RING_STAT.OWNER_NOW r (c.get FLU_RING_CFG.OWNER r)) c
  let c := c.keepRegs (fun k => decide (k.fld.reg ≠ .FLU_STACK_ACT ∧ k.fld.reg ≠ .FLU_STACK_SHD))
  let c := m.routes.foldl (fun c p =>
    let w := p.2 + (if p.2.testBit 28 then 2 ^ 29 else 0)
    (c.setRoute .FLU_STACK_ACT p.1 w).setRoute .FLU_STACK_SHD p.1 w) c
  let c := (c.put FLU_STACK_EPOCH.EPOCH 0 1).put FLU_STACK_STAT.RB_STATE 0 0
  let c := { c with stack := { c.stack with again := false, moving := [] }, seq := { c.seq with imaged := true },
                    kln := { c.kln with xbar := m.xbar, devcert := m.cert, marks := m.marks, family := m.family, baseOn := true } }
  let c := c.forN (18 - c.lanesUp) (fun c _ => c.laneTaken)
  let c := c.clearCaches.takeRegime
  let c := (c.flag KLN_CFG_STAT.LOCK 0 true).put KLN_OVL_EPOCH.EPOCH 0 0
  let c := ((c.flag KLN_CFG_STAT.NO_BASE 0 false).put KLN_CFG_STAT.BASE_SLOT 0 slot).put KLN_BASE_VER.VALUE 0 m.version
  let c := if voteValue nvs 0 < m.seq then (c.put KLN_VER_FLOOR.VALUE 0 m.seq).mem (.nvsVote 0 m.seq) else c
  let c := match rootSlotOf otp m.signer with
    | some k => if c.lcState = lcProduction then c.mem (.nvsKey k m.signer) else c
    | none => c
  let c := (ovlStored nvs).foldl (fun c k => c.reapply otp nvs k (tabGet [] nvs.ovl k)) c
  let c := c.forN 64 (fun c n => c.liftSlot n)
  if c.mainOk then c.imageOn else c.mainFall

/-- The store slots are checked, and the newer valid one is applied (R410). A store that has no power holds nothing. -/
def Chip.selectBase (c : Chip) (otp : List (Nat × Nat)) (nvs : Nvs) : Chip :=
  let c := { c with kln := { c.kln with img := none } }
  let chk := fun (k : Nat) => if c.domUp 19 then (match c.imgCheck otp nvs true false (tabGet [] nvs.base k) with
    | .inr m => some m
    | .inl _ => none) else none
  let c0 := (c.flag KLN_CFG_STAT.SLOT0_OK 0 (chk 0).isSome).flag KLN_CFG_STAT.SLOT1_OK 0 (chk 1).isSome
  match chk 0, chk 1 with
  | some a, some b => if a.version < b.version then c0.applyBase otp nvs b 1 else c0.applyBase otp nvs a 0
  | some a, none => c0.applyBase otp nvs a 0
  | none, some b => c0.applyBase otp nvs b 1
  | none, none => c0.flag KLN_CFG_STAT.NO_BASE 0 true

/-! ## Image commands (R413, R418) -/

/-- The code of an image command. -/
def ImgOp.code : ImgOp → Nat
  | .select => 0
  | .applyBase => 1
  | .storeBase => 2
  | .applyOvl => 3

/-- A command of KLN_IMG_CMD that cannot start ends at once. -/
def Chip.imgRefuse (c : Chip) (op result : Nat) : Chip :=
  ((c.put KLN_IMG_RES.OP 0 op).put KLN_IMG_RES.RESULT 0 result).put KLN_IMG_RES.REC 0 0

/-- Kiln works on an image or an overlay. -/
def Chip.imgBusy (c : Chip) : Bool := c.kln.img.isSome || c.kln.job.isSome || c.on KLN_IMG_RES.BUSY 0

/-- A command starts. -/
def Chip.imgRun (c : Chip) (op : Nat) : Chip := ((c.imgRefuse op 0).put KLN_IMG_RES.OVL 0 0).flag KLN_IMG_RES.BUSY 0 true

/-- A command that takes an image; those that write the NVS need PD19. -/
def Chip.imgStart (c : Chip) (op : ImgOp) (bytes : List Byte) : Chip :=
  let ok := match op with
    | .applyBase => !c.kln.baseOn && c.domUp 19
    | .storeBase => c.domUp 19
    | _ => c.kln.baseOn
  if c.imgBusy then c.imgRefuse op.code 0xE
  else if !ok then c.imgRefuse op.code 0xF
  else { c.imgRun op.code with kln := { c.kln with img := some ⟨op, bytes⟩ } }

/-- REMOVE_OVL. -/
def Chip.removeCmd (c : Chip) (i : Nat) : Chip :=
  if c.imgBusy then c.imgRefuse 4 0xE
  else if 8 ≤ i ∨ c.get KLN_OVL_STAT.STATE i ≠ 2 then c.imgRefuse 4 0xF
  else (c.imgRun 4).ovlRemove i

/-- The checks of an image have ended (R409, R410, R413, R418). -/
def Chip.imgChecked (c : Chip) (otp : List (Nat × Nat)) (nvs : Nvs) : Chip :=
  match c.kln.img with
  | none => c
  | some j =>
    let c := { c with kln := { c.kln with img := none } }
    match j.op with
    | .select => (c.selectBase otp nvs).nextRemoval
    | .applyBase =>
      match c.imgCheck otp nvs true false j.bytes with
      | .inl (res, rec) => (c.imgResult res rec).nextRemoval
      | .inr m =>
        let slot := if c.on KLN_CFG_STAT.SLOT1_OK 0 && !c.on KLN_CFG_STAT.SLOT0_OK 0 then 0 else 1
        let c := (c.mem (.nvsBase slot j.bytes)).flag (if slot = 0 then KLN_CFG_STAT.SLOT0_OK else KLN_CFG_STAT.SLOT1_OK) 0 true
        (c.applyBase otp nvs m slot).imgResult 0
    | .storeBase =>
      match c.imgCheck otp nvs true false j.bytes with
      | .inl (res, rec) => (c.imgResult res rec).nextRemoval
      | .inr _ =>
        let slot := if c.kln.baseOn then 1 - c.get KLN_CFG_STAT.BASE_SLOT 0
          else if c.on KLN_CFG_STAT.SLOT1_OK 0 && !c.on KLN_CFG_STAT.SLOT0_OK 0 then 0 else 1
        let c := (c.mem (.nvsBase slot j.bytes)).flag (if slot = 0 then KLN_CFG_STAT.SLOT0_OK else KLN_CFG_STAT.SLOT1_OK) 0 true
        (c.imgResult 0).nextRemoval
    | .applyOvl =>
      let c := match imgForm false j.bytes with
        | .inr m => if m.mode = 2 then (c.put KLN_CER_STAT.ROLE_X 0 m.roleX).put KLN_CER_STAT.ROLE_Y 0 m.roleY else c
        | .inl _ => c
      match c.imgCheck otp nvs false false j.bytes with
      | .inl (res, rec) => (c.imgResult res rec).nextRemoval
      | .inr m =>
        if (m.persist || decide (m.mode = 2)) && !c.domUp 19 then (c.imgResult 0xF).nextRemoval
        else
          let c := if m.mode = 2 then (c.put KLN_CER_SEQ.COUNTER 0 m.seq).mem (.nvsVote 1 m.seq) else c
          let (c, o) := c.ovlTake m j.bytes
          let c := (c.put KLN_IMG_RES.OVL 0 o.index).hold o
          { c with kln := { c.kln with job := some ⟨o.index, false, true⟩ } }

end Sys2Proof.Machine
end

