-- ==== Sys2Proof/Machine/Life.lean ====
section
/-! DEFINITION. Stoker's mailbox: challenges, tokens, debug grants, locks and roots, attestation, the life-cycle transition
and its steps, and the key transfer (R424–R426, R429–R455). -/

namespace Sys2Proof.Machine

/-! ## The mailbox (R424, R441, R442) -/

/-- A request byte. -/
def Chip.mbxByte (c : Chip) (k : Nat) : Byte := BitVec.ofNat 8 (c.get STK_MBX_DATA.DATA (k / 4) / 2 ^ (8 * (k % 4)))

/-- Request bytes. -/
def Chip.mbxBytes (c : Chip) (off len : Nat) : List Byte := (List.range len).map (fun k => c.mbxByte (off + k))

/-- The request that runs ends with a status and data words. -/
def Chip.mbxPost (c : Chip) (status : Nat) (words : List Nat) (oneShot : Bool) : Chip :=
  let c := c.flag STK_MBX_STAT.BUSY 0 false
  { c with kln := { c.kln with mbx := ⟨words, status, oneShot, true, false⟩ } }

/-- It ends with a status and LC_ERR in data word 0 (R441). -/
def Chip.mbxLc (c : Chip) (status err : Nat) : Chip :=
  (c.put KLN_LC_STAT.LC_ERR 0 err).mbxPost status [c.get STK_MBX_STAT.OP 0 * 256 + err] false

/-- The STATUS that goes with an LC_ERR of R441. -/
def lcErrStatus (err : Nat) : Nat := if err = 0 then stsOK else if err = 1 then stsPROTOCOL else stsPOLICY

/-- It ends as the checks of R441 say. -/
def Chip.mbxErr (c : Chip) (err : Nat) : Chip := c.mbxLc (lcErrStatus err) err

/-- A GO of the mailbox: refused while a request or a transition runs (R427, R455), and for an OP that names nothing. -/
def Chip.mbxGo (c : Chip) (p : Path) (op : Nat) (known : Bool) (f : Chip → Chip) : Chip :=
  c.hostWrite p blkSTK (c.domUp 16) (fun c =>
    if !known ∨ c.on STK_MBX_STAT.BUSY 0 ∨ c.kln.lc.isSome then (c.flag STK_MBX_STAT.CMD_REFUSED 0 true).refuse blkSTK
    else
      let c := (c.put STK_MBX_STAT.OP 0 op).flag STK_MBX_STAT.BUSY 0 true
      f { c with kln := { c.kln with mbx := WinX.init } })

/-! ## Debug grants (R450–R452) -/

/-- The grants a state allows (R451). -/
def grantsAllowed (st : Nat) : Nat :=
  if st = lcTest then 0x7F else if st = lcProduction then 0x03 else if st = lcAnalysis then 0x3F
  else if st = lcBlank then 0x47 else 0

/-- The grants held and BOOTS change: BSCAN fences every bank and both host ports while it is held (R450). -/
def Chip.setGrants (c : Chip) (mask boots : Nat) : Chip :=
  let was := c.bscan
  let c := (c.put KLN_DBG_STAT.HELD 0 mask).put KLN_DBG_STAT.BOOTS 0 boots
  if c.bscan && !was then
    let c := (c.unitsOf 1 0 true).foldl (fun c u => c.fenceEffect u 0) c
    (c.unitsOf 5 0 true).foldl (fun c u => c.fenceEffect u 0) c
  else if was && !c.bscan then (c.unitsOf 5 0 true).foldl (fun c u => if c.fencedU u then c else c.unfenced u) c
  else c

/-- The vote value of grants: the mask, with BOOTS above it. -/
def grantVote (mask boots : Nat) : Nat := mask + boots * 2 ^ 32

/-- The grants end (R452); the vote in the NVS follows where it has power. -/
def Chip.clearGrants (c : Chip) : Chip :=
  let c := c.setGrants 0 0
  if c.domUp 19 then c.mem (.nvsVote 2 0) else c

/-! ## Challenges and tokens (R439–R441) -/

/-- The nonce ends. -/
def Chip.dropNonce (c : Chip) : Chip :=
  { c.flag KLN_DBG_STAT.CHAL_LIVE 0 false with kln := { c.kln with nonce := none } }

/-- CHALLENGE answers once the DRBG generates. -/
def Chip.challengeStep (c : Chip) : Chip :=
  if c.on STK_MBX_STAT.BUSY 0 ∧ c.get STK_MBX_STAT.OP 0 = 1 ∧ c.on CRD_STAT.DRBG_READY 0 then
    let (n, c) := c.random 32
    let c := { c.flag KLN_DBG_STAT.CHAL_LIVE 0 true with kln := { c.kln with nonce := some n } }
    c.mbxPost stsOK (bytesWords n) true
  else c

/-- The states in which a mailbox operation acts (R442). -/
def Chip.opActs (c : Chip) (op : Nat) : Bool :=
  let st := c.lcState
  if op = 1 ∨ op = 2 then decide (2 ≤ st ∧ st ≤ 5)
  else if op = 3 ∨ op = 4 then c.lcRuns
  else if op = 6 ∨ op = 7 ∨ op = 8 then decide (st = lcProduction)
  else if op = 9 then decide (st = lcTest ∨ st = lcProduction)
  else true

def Chip.challenge (c : Chip) : Chip :=
  if !c.opActs 1 then c.mbxErr 6 else c.dropNonce.challengeStep

/-- A token taken apart (R440). -/
structure Token where
  tag : Nat
  signer : Nat
  arg0 : Nat
  reserved : Nat
  arg1 : List Byte
  nonce : List Byte
  devId : List Byte
  signed : List Byte
  sig : List Byte
  deriving DecidableEq, Repr

def tokenOf (b : List Byte) : Token :=
  ⟨(b.getD 0 0).toNat, (b.getD 1 0).toNat, (b.getD 2 0).toNat, (b.getD 3 0).toNat, (b.drop 4).take 12, (b.drop 16).take 32,
    (b.drop 48).take 16, b.take 64, (b.drop 64).take 96⟩

/-- The tokens of a request. -/
def Chip.mbxTokens (c : Chip) : List Token :=
  (List.range (min 2 (c.mbxByte 0).toNat)).map (fun k => tokenOf (c.mbxBytes (4 + 160 * k) 160))

/-- TAG of an operation. -/
def opTag (op : Nat) : Nat := if op = 3 then 0xD1 else if op = 5 then 0xD2 else if op = 6 then 0xD3 else if op = 8 then 0xD4 else 0xD5

/-- The number in the first bytes of ARG1 (log entry 36). -/
def Token.num (t : Token) (n : Nat) : Nat := beNat (t.arg1.take n)

/-- The layout of a token fits its operation (R440): parts an operation does not use are zero. -/
def Token.fits (t : Token) (op : Nat) : Bool :=
  let rest := fun (n : Nat) => (t.arg1.drop n).all (fun b => decide (b = 0))
  decide (t.tag = opTag op) && decide (t.reserved = 0) && (decide (t.signer < 4) || decide (t.signer = 0x80)) &&
    (if op = 3 then decide (1 ≤ t.arg0 ∧ t.arg0 ≤ 15) && rest 4
     else if op = 5 then decide (t.arg0 = lcProduction) || rest 0
     else if op = 6 then decide (t.arg0 = 0) && rest 8
     else if op = 8 then rest 0
     else rest 4)

/-- The root hashes that a transition to Production carries (R443). -/
def Chip.rootList (c : Chip) : List (List Byte) :=
  (List.range (min 4 (c.mbxByte 164).toNat)).map (fun k => c.mbxBytes (168 + 48 * k) 48)

/-- The target of a TRANSITION request. -/
def Chip.lcTarget (c : Chip) (ts : List Token) : Nat :=
  match ts with
  | [] => (c.mbxByte 4).toNat
  | t :: _ => t.arg0

/-- A permitted transition (R430). -/
def lcPermitted (st target : Nat) : Bool :=
  [(lcBlank, lcTest), (lcTest, lcProduction), (lcProduction, lcAnalysis), (lcTest, lcEnd), (lcAnalysis, lcEnd),
    (lcProduction, lcEnd)].contains (st, target)

/-- The first check of R441. -/
def Chip.requestForm (c : Chip) (op : Nat) : Bool :=
  let ntok := (c.mbxByte 0).toNat
  let ts := c.mbxTokens
  let st := c.lcState
  let target := c.lcTarget ts
  let need := if op = 5 ∧ st = lcBlank ∧ target = lcTest then 0
    else if op = 5 ∧ st = lcProduction ∧ target = lcAnalysis then 2 else 1
  decide (ntok = need) && (c.mbxBytes 1 3).all (fun b => decide (b = 0)) && ts.all (fun t => t.fits op)
    && ts.all (fun t => decide (t.arg0 = target) || decide (op ≠ 5))
    && (decide (need ≠ 0) || (c.mbxBytes 5 3).all (fun b => decide (b = 0)))
    && (if op = 5 ∧ st = lcTest ∧ target = lcProduction then
          decide (1 ≤ (c.mbxByte 164).toNat ∧ (c.mbxByte 164).toNat ≤ 4) && (c.mbxBytes 165 3).all (fun b => decide (b = 0))
        else true)

/-- The key that SIGNER_IDX names, where it is present. -/
def tokenKey (otp : List (Nat × Nat)) (nvs : Nvs) (signer : Nat) : Option (List Byte) :=
  if signer = 0x80 then some Config.vendorRoot
  else ((ownerKeys otp nvs).find? (fun e => decide (e.1 = signer))).map Prod.snd

/-- The state and R430 allow the signers of a request (R430, R435, R437, R449, R451, R453). An operation that the state does not
allow at all is left to its own check. -/
def Chip.signersAllowed (c : Chip) (op : Nat) (ts : List Token) : Bool :=
  let st := c.lcState
  let vendor := ts.all (fun t => decide (t.signer = 0x80))
  let owner := ts.all (fun t => decide (t.signer < 4))
  if op = 5 then
    let target := c.lcTarget ts
    if !lcPermitted st target then true
    else if st = lcProduction ∧ target = lcAnalysis then
      ts.any (fun t => decide (t.signer = 0x80)) && ts.any (fun t => decide (t.signer < 4))
    else if st = lcProduction then owner else vendor
  else if op = 3 ∨ op = 9 then (if st = lcProduction then owner else vendor)
  else if st = lcProduction then owner && (decide (op ≠ 8) || ts.all (fun t => decide (t.signer ≠ t.arg0)))
  else true

/-- The operation and its arguments are allowed in the state (R430, R437, R443, R449, R451, R453). -/
def Chip.argsAllowed (c : Chip) (otp : List (Nat × Nat)) (nvs : Nvs) (op : Nat) (ts : List Token) : Bool :=
  let st := c.lcState
  match ts.head? with
  | none => lcPermitted st (c.lcTarget ts)
  | some t =>
    if op = 5 then
      lcPermitted st t.arg0 && (decide (t.arg0 ≠ lcProduction) ||
        (decide ((sha384 c.rootList.flatten).take 12 = t.arg1) &&
          (List.range c.rootList.length).all (fun k =>
            let ws := otpWords otp (otpRoot k) 12
            allZero ws || decide (wordsBytes ws = c.rootList.getD k []))))
    else c.opActs op &&
      (if op = 3 then maskIn (t.num 4) (grantsAllowed st)
       else if op = 8 then decide (t.arg0 < 4) && [0, 1, 2, 3].any (fun k => decide (k ≠ t.arg0) && decide (rootStat otp k = 1))
       else if op = 9 then decide (t.arg0 < 2) && ((voteCopies nvs t.arg0).filterMap VoteCopy.value).all (fun v => decide (v ≤ t.num 4))
       else true)

/-- A tenant lock is set; bits 0–3 are ignored (R453). -/
def Chip.tenantLocked (c : Chip) : Bool :=
  decide (c.get KLN_TLOCK.LOCK 0 / 16 ≠ 0) || decide (c.get KLN_TLOCK.LOCK 1 ≠ 0)

/-- The checks of R441 in their order: the LC_ERR of the first that fails, or 0. -/
def Chip.requestErr (c : Chip) (otp : List (Nat × Nat)) (nvs : Nvs) (op : Nat) : Nat :=
  let ts := c.mbxTokens
  if !c.requestForm op then 1
  else if !ts.all (fun t => decide (some t.nonce = c.kln.nonce)) then 2
  else if !(c.signersAllowed op ts && ts.all (fun t => (tokenKey otp nvs t.signer).isSome)) then 3
  else if !ts.all (fun t => ecdsa384Verify ((tokenKey otp nvs t.signer).getD []) t.signed t.sig) then 4
  else if !ts.all (fun t => decide (some t.devId = devIdOf otp)) then 5
  else if !c.argsAllowed otp nvs op ts then 6
  else if !c.domUp 19 then 7
  else if op = 5 ∧ c.lcState = lcProduction ∧ c.lcTarget ts = lcAnalysis ∧ c.tenantLocked then 8
  else 0

/-- A token-bearing request: the nonce is used up by it, and it ends with the first check that fails or has its effect
(R439, R441). -/
def Chip.tokenOp (c : Chip) (otp : List (Nat × Nat)) (nvs : Nvs) (op : Nat) (f : Chip → Token → Chip) : Chip :=
  let err := c.requestErr otp nvs op
  let ts := c.mbxTokens
  let c := if ts = [] then c else c.dropNonce
  if err ≠ 0 then c.mbxErr err else f c (ts.headD (tokenOf []))

/-! ## Operations on grants, locks and roots -/

/-- GRANT (R452). -/
def Chip.grantOp (c : Chip) (otp : List (Nat × Nat)) (nvs : Nvs) : Chip :=
  c.tokenOp otp nvs 3 (fun c t =>
    ((c.mem (.nvsVote 2 (grantVote (t.num 4) t.arg0))).setGrants (t.num 4) t.arg0).mbxErr 0)

/-- REVOKE_GRANTS (R442, R452). -/
def Chip.revokeOp (c : Chip) : Chip :=
  if !c.opActs 4 then c.mbxErr 6 else if !c.domUp 19 then c.mbxErr 7 else c.clearGrants.mbxErr 0

/-- TENANT_LOCK (R453). -/
def Chip.tlockOp (c : Chip) (otp : List (Nat × Nat)) (nvs : Nvs) : Chip :=
  c.tokenOp otp nvs 6 (fun c t =>
    let m := t.num 8
    (((c.mem (.nvsVote 3 m)).put KLN_TLOCK.LOCK 0 m).put KLN_TLOCK.LOCK 1 (m / 2 ^ 32)).mbxErr 0)

/-- ROOT_LOAD (R436, R442). -/
def Chip.rootLoadOp (c : Chip) (otp : List (Nat × Nat)) : Chip :=
  let k := (c.mbxByte 0).toNat
  let key := c.mbxBytes 4 97
  if 4 ≤ k ∨ (c.mbxBytes 1 3).any (fun b => decide (b ≠ 0)) then c.mbxErr 1
  else if !c.opActs 7 then c.mbxErr 6
  else if !c.domUp 19 then c.mbxErr 7
  else if rootStat otp k = 1 ∧ wordsBytes (otpWords otp (otpRoot k) 12) = sha384 key then (c.mem (.nvsKey k key)).mbxErr 0
  else c.mbxLc stsPOLICY 9

/-- ROOT_REVOKE (R437). -/
def Chip.rootRevokeOp (c : Chip) (otp : List (Nat × Nat)) (nvs : Nvs) : Chip :=
  c.tokenOp otp nvs 8 (fun c t => (c.mem (.burn otpRootCtl (3 * 2 ^ (16 + 4 * t.arg0)))).mbxErr 0)

/-- VOTE_REPAIR (R449). -/
def Chip.voteRepairOp (c : Chip) (otp : List (Nat × Nat)) (nvs : Nvs) : Chip :=
  c.tokenOp otp nvs 9 (fun c t =>
    let v := t.num 4
    ((c.mem (.nvsVote t.arg0 v)).put (if t.arg0 = 0 then KLN_VER_FLOOR.VALUE else KLN_CER_SEQ.COUNTER) 0 v).mbxErr 0)

/-- ATTEST (R454): Ember signs the statement in a sealed context (R303). -/
def Chip.attestOp (c : Chip) (otp : List (Nat × Nat)) : Chip :=
  if !c.opActs 2 then c.mbxErr 6
  else match idPriv otp, devIdOf otp with
    | some d, some dev =>
      let st := [0xA7, BitVec.ofNat 8 c.lcState, 0, 0] ++ beBytes 4 (c.get KLN_LC_MARK.VALUE 0) ++ c.mbxBytes 0 32 ++ dev
      c.stokerJob (.attest st) 0x23 (leBytes 48 d ++ limbBytes (sha384 st))
    | _, _ => c.mbxLc stsPOLICY 0

/-- The signature of an ATTEST has been made; a job that ended without one gives the request its status (log entry 13). -/
def Chip.attestEnd (c : Chip) (statement : List Byte) (status : Nat) (bytes : List Byte) : Chip :=
  if !c.on STK_MBX_STAT.BUSY 0 then c
  else if status ≠ stsOK then c.mbxPost status [] false
  else c.mbxPost stsOK (bytesWords (statement ++ dstBe bytes 0 ++ dstBe bytes 1)) false

/-! ## The life-cycle transition (R443–R445) -/

/-- The steps of R444 that a target needs. -/
def lcSteps (target : Nat) : List Nat :=
  if target = lcTest then [1, 4, 6] else if target = lcProduction then [1, 4, 5]
  else if target = lcAnalysis then [1, 2, 3, 4, 6] else [1, 2, 4]

/-- What follows a phase. -/
def lcNext (target : Nat) : LcPh → LcPh
  | .quiesce => .step 1
  | .step k => match (lcSteps target).find? (fun j => decide (k < j)) with
    | some j => .step j
    | none => .doneMark
  | .doneMark => .stateBurn
  | .stateBurn => .coldReset
  | .coldReset => .coldReset

/-- The cold reset that ends a transition is requested: it runs through a shutdown (R337, R443 step 7). -/
def Chip.lcRestart (c : Chip) (j : LcJob) : Chip :=
  let c := (c.lcEnter { j with phase := .coldReset }).flag DRG_SEQ_STAT.COLD_PEND 0 true
  if c.canDown then c.shutdown 3 else c

/-- Burn bits of LC_MARK. -/
def Chip.burnMark (c : Chip) (v : Nat) : Chip :=
  (c.put KLN_LC_MARK.VALUE 0 (c.get KLN_LC_MARK.VALUE 0 ||| v)).mem (.burn otpLcMark v)

/-- TRANSITION (R443): staging and the start of the quiesce. -/
def Chip.transitionOp (c : Chip) (p : Path) (otp : List (Nat × Nat)) (nvs : Nvs) : Chip :=
  if c.lcState = lcBlank ∧ p ≠ .spi then c.mbxErr 6 else
  let roots := c.rootList
  let target := c.lcTarget c.mbxTokens
  c.tokenOp otp nvs 5 (fun c _ =>
    let c := if target = lcProduction then
        (List.range roots.length).foldl (fun c k =>
          (bytesWords (roots.getD k [])).zipIdx.foldl (fun c w => c.mem (.burn (otpRoot k + w.2) w.1)) c) c
      else c
    let c := c.lcEnter ⟨target, .quiesce, false, false, false⟩
    let c := c.forN 64 (fun c n => c.startDeact n .commanded cauWARMDEV)
    let c := c.definedRings.foldl (fun c r => c.resetRing r) c
    c.ovlClear)

/-- The quiesce has ended: the intent is burned and the result posted (R443 step 3). -/
def Chip.lcIntent (c : Chip) : Chip :=
  match c.kln.lc with
  | some j =>
    if j.phase = .quiesce ∧ c.allInactive ∧ c.domUp 19 ∧ c.definedRings.all (fun r => decide (c.ringState r ≠ rsRESETTING)) then
      let c := c.burnMark (0xF * 2 ^ (8 * (j.target - 2)))
      (c.lcEnter { j with phase := .step 1, posted := true }).mbxErr 0
    else c
  | none => c

/-- Step 6 has a key pair made for a blank slot (R438 step 1), as soon as Ember and the DRBG can make it; a job that ends without
one is followed by another. -/
def Chip.identityJob (c : Chip) (env : Env) : Chip :=
  match c.kln.lc with
  | some j =>
    if j.phase = .step 6 ∧ env.blankId ∧ c.kln.idGen = none ∧ !c.safe ∧ !c.arrayFenced ∧ c.on CRD_STAT.DRBG_READY 0
        ∧ !c.hasJob .identity then c.stokerJob .identity 0x21 []
    else c
  | none => c

/-- The key pair is read out of its context before the wipe (R303): private words, then public words. -/
def Chip.identityMade (c : Chip) (status : Nat) (bytes : List Byte) : Chip :=
  if status = stsOK then
    { c with kln := { c.kln with idGen := some (dstBe bytes 0 ++ dstBe bytes 1 ++ dstBe bytes 2) } }
  else c

/-- Identity generation ends (R438 steps 2 and 3): spoiled slots are burned to all ones, and the pair goes into the first blank
slot. -/
def Chip.identityBurn (c : Chip) (otp : List (Nat × Nat)) : Chip :=
  let ones := fun (c : Chip) (s : Nat) => (List.range 12).foldl (fun c i => c.mem (.burn (otpId s + i) 0xFFFFFFFF)) c
  let c := ([0, 1, 2].filter (fun s => decide (idStat otp s = 3))).foldl ones c
  let pair := c.kln.idGen
  let c := { c with kln := { c.kln with idGen := none } }
  match [0, 1, 2].find? (fun s => decide (idStat otp s = 0)), pair with
  | some s, some p =>
    let c := (bytesWords p).zipIdx.foldl (fun c w => c.mem (.burn (otpId s + w.2) w.1)) c
    c.mem (.burn (otpId s + 36) 0xF)
  | _, _ => c

/-- The registers that show what an NVS erase takes. -/
def Chip.nvsErased (c : Chip) : Chip :=
  let c := (c.put KLN_VER_FLOOR.VALUE 0 0).put KLN_CER_SEQ.COUNTER 0 0
  let c := ((c.put KLN_TLOCK.LOCK 0 0).put KLN_TLOCK.LOCK 1 0).setGrants 0 0
  (c.put KLN_CFG_STAT.STORED 0 0).put ASH_JRN_HEAD.NVS_NEXT 0 0

/-- A step of R444 is carried out. -/
def Chip.lcStep (c : Chip) (otp : List (Nat × Nat)) (target k : Nat) : Chip :=
  if k = 1 then (if c.domUp 16 then c.zeroStore 4 else c)
  else if k = 2 then
    (List.range 48).foldl (fun c i => c.mem (.burn (otpRoot (i / 12) + i % 12) 0xFFFFFFFF)) (c.mem (.burn otpRootCtl 0xFFFFFFFF))
  else if k = 3 then
    (if idInUse otp < 3 then (List.range 12).foldl (fun c i => c.mem (.burn (otpId (idInUse otp) + i) 0xFFFFFFFF)) c else c)
  else if k = 4 then
    let c := (c.mem (.nvsErase (decide (target = lcProduction)))).nvsErased
    if target = lcAnalysis ∨ target = lcEnd then c.mem (.nvsWear c.wearRec) else c
  else if k = 5 then
    [0, 1, 2, 3].foldl (fun c k =>
      let ws := otpWords otp (otpRoot k) 12
      if allZero ws || allOnes ws then c else c.mem (.burn otpRootCtl (3 * 2 ^ (4 * k)))) c
  else c.identityBurn otp

/-- A wipe, write or burn of a transition completes (R443–R445, R455). Burns and NVS writes wait for PD19, and identity
generation for the key pair that Ember makes; in the safe state a transition that needs them stops before it. -/
def Chip.lcStepEnd (c : Chip) (otp : List (Nat × Nat)) : Chip :=
  match c.kln.lc with
  | none => c
  | some j =>
    match j.phase with
    | .quiesce => c
    | .coldReset => c
    | .step k =>
      if k ≠ 1 ∧ !c.domUp 19 then c
      else if k = 6 ∧ c.safe then c.lcRestart { j with halted := true }
      else if k = 6 ∧ c.kln.idGen = none ∧ [0, 1, 2].any (fun i => decide (idStat otp i = 0)) then c
      else (c.lcStep otp j.target k).lcEnter { j with phase := lcNext j.target j.phase }
    | .doneMark =>
      if !c.domUp 19 then c
      else (c.burnMark (0xF * 2 ^ (8 * (j.target - 2) + 4))).lcEnter { j with phase := .stateBurn }
    | .stateBurn =>
      if !c.domUp 19 then c
      else
        let v := lcPattern j.target
        let c := (c.put KLN_LC_WORD.VALUE 0 (c.get KLN_LC_WORD.VALUE 0 ||| v)).mem (.burn otpLcWord v)
        c.lcRestart j

/-- TAMPER_N before the intent mark abandons a transition (R455). -/
def Chip.lcAbandon (c : Chip) : Chip :=
  match c.kln.lc with
  | some j => if j.phase = .quiesce then c.lcDrop.mbxLc stsPOLICY 0xC else c
  | none => c

/-! ## Key transfer (R424–R427) -/

/-- The entry that carries a leg of a transfer: opcode, route handle and command. It belongs to no ring; CMD_SRAM keeps a
payload read from being asked for. -/
def Chip.xferEntry (c : Chip) (opcode handle : Nat) (apdu : List Byte) (leg0 : Leg) (phase : EntryPh) : Chip :=
  let raw := [BitVec.ofNat 8 opcode, 8] ++ List.replicate 6 0 ++ leBytes 2 handle ++ leBytes 2 apdu.length ++ leBytes 2 4096
    ++ List.replicate 50 0
  let e := { Entry.held0 c.nextUid 512 0 raw c.us with phase := phase, order := c.nextOrder + 1, leg0 := leg0, apdu := apdu }
  { c with entries := c.entries ++ [e], nextUid := c.nextUid + 1, nextOrder := c.nextOrder + 1 }

/-- KEY_XFER (R424, R425 steps 1 and 2). -/
def Chip.xferStart (c : Chip) : Chip :=
  let src := (c.mbxByte 0).toNat
  let route := leNat (c.mbxBytes 2 2)
  let len := leNat (c.mbxBytes 4 2)
  let hdr := c.mbxBytes 6 4
  let rel := c.mbxBytes 10 len
  let c := { c with kln := { c.kln with xfer := some ⟨src, route, hdr, .release, 0, 0, none⟩ } }
  let inForce := c.on KLN_CER_STAT.CER_ON 0
  let member := c.inQuorum src (c.get KLN_CER_STAT.ROLE_X 0) || c.inQuorum src (c.get KLN_CER_STAT.ROLE_Y 0)
  let broken := decide (4 ≤ src) || decide ((c.mbxByte 1).toNat ≠ 0) || decide (4096 ≤ route) || decide (len < 4 ∨ 255 < len)
    || (match apduOf rel with
      | some a => apduPolicy a
      | none => true)
    || (match apduOf (hdr ++ [1, 0]) with
      | some a => apduPolicy a
      | none => true)
  if !inForce ∨ (src < 4 ∧ !member) then c.xferEnd stsPOLICY 0
  else if broken then c.xferEnd stsPROTOCOL 0
  else
    let uid := c.nextUid
    (c.xferEntry 4 0 rel (Leg.toSlot (64 * c.grp.dev + src) false) .active).placeLeg uid false

/-- The component under the DEK of a target leg (R425 steps 3 and 4). The DEK of a slot of a peer is not in this device: the
component is then a free value (log entry 37). -/
def Chip.xferLoadLeg (c : Chip) (uid : Nat) (second : Bool) (hdr plain : List Byte) : Chip :=
  match c.entry? uid with
  | none => c
  | some e =>
    let l := e.leg second
    if l.st ≠ .queued then c
    else
      let local_ := decide (l.slot / 64 = c.grp.dev)
      let key := if local_ then (c.sessOf (l.slot % 64)).cur.map (fun k => k.dek) else none
      let c := if local_ then c else c.draw
      let enc := match key with
        | some d => cbcEnc d (List.replicate 16 0) plain
        | none => Config.freeBytes c.free plain.length
      let apdu := hdr ++ beBytes 1 enc.length ++ enc
      if local_ && key.isNone then (c.takeOut uid second).closeLeg uid second (c.unsentStatus e.handle second l.slot)
      else (c.modEntry uid (fun e => { e with apdu := apdu })).legReady uid second apdu

/-- The load of a transfer: its legs are selected as for a WRITE. -/
def Chip.xferLoad (c : Chip) (x : XferX) (plain : List Byte) : Chip :=
  let c := { c with kln := { c.kln with xfer := some { x with phase := .load, ended := none } } }
  let uid := c.nextUid
  let c := (c.xferEntry 2 x.route [] Leg.init .active).resolve uid
  let c := c.modEntry uid (fun e => { e with phase := .active })
  ((c.xferLoadLeg uid false x.hdr plain).xferLoadLeg uid true x.hdr plain).maybeFinish uid

/-- An exchange of the transfer has ended (R425, R426). -/
def Chip.xferStep (c : Chip) : Chip :=
  match c.kln.xfer with
  | none => c
  | some x =>
    match x.ended with
    | none => c
    | some e =>
      match x.phase with
      | .release =>
        let x := { x with relStatus := e.status, relSw := e.sw }
        let c := { c with kln := { c.kln with xfer := some { x with ended := none } } }
        if e.status ≠ stsOK then c.xferEnd e.status 0
        else if !c.on KLN_CER_STAT.CER_ON 0 then c.xferEnd stsPOLICY 0
        else if e.sw ≠ 0x9000 ∨ e.rsp.length < 16 ∨ 64 < e.rsp.length ∨ e.rsp.length % 16 ≠ 0 then c.xferEnd stsPROTOCOL 0
        else match (c.sessOf x.src).cur with
          | some k => c.xferLoad x (cbcDec k.dek (List.replicate 16 0) e.rsp)
          | none => c.xferEnd stsPROTOCOL 0
      | _ =>
        let l := fun (g : Leg) => if g.st = .unused then 0 else g.status
        c.xferEnd e.status (e.sw % 2 ^ 16 * 2 ^ 16 + l e.leg1 * 2 ^ 8 + l e.leg0)

end Sys2Proof.Machine
end

