-- ==== Sys2Proof/Machine/Settle.lean ====
section
/-! DEFINITION. What follows an action by itself (R23, R25, R223, R226, R261, R302, R423): work that can go on does, in
rounds; and the cold reset of the block (R10, R11, R118, R247, R374, R445, R447, R452). -/

namespace Sys2Proof.Machine

/-! ## Work that goes on -/

/-- A job whose tokens are granted is queued, once the DRBG has filled its buffer where it draws (R308, R316). `rand` says
that it draws: filling the buffer is one request to the DRBG (log entry 137). -/
def Chip.jobQueue (c : Chip) (k : Nat) (rand : Bool) : Chip :=
  if c.ctxState k = esTOKENS ∧ (c.ctx k).hasTokens ∧ (!rand || c.on CRD_STAT.DRBG_READY 0) then
    (if rand then c.drbgRequest else c).setCtxState k esQUEUED
  else c

/-- The unit that gave an Ember job takes its result. -/
def Chip.takeResult (c : Chip) (env : Env) (u : EmbUse) (status : Nat) (bytes : List Byte) : Chip :=
  match u with
  | .host => c
  | .cinderGen _ | .cinderVerify _ | .cinderZss _ | .cinderZee _ => c.cinJob env u status bytes
  | .kzGen _ | .kzVerify _ | .kzZss _ | .kzZee _ => c.keyJob env u status bytes
  | .attest st => c.attestEnd st status bytes
  | .identity => c.identityMade status bytes

/-- The results of the jobs that ended are taken, in their order. -/
def Chip.takeResults (c : Chip) (env : Env) : Chip :=
  let fs := c.ember.finished
  let c := { c with ember := { c.ember with finished := [] } }
  fs.foldl (fun c f => c.takeResult env f.1 f.2.1 f.2.2) c

/-- Pending activations whose budget is granted enter RAMP when they may, the lowest slot number first (R90). -/
def Chip.rampAll (c : Chip) : Chip :=
  let ns := c.dmp.grants.filterMap (fun g => match g.asker with
    | .activation n => some n
    | _ => none)
  if ns = [] then c else (List.range 64).foldl (fun c n => if ns.contains n then c.tryRamp n else c) c

/-- A command that waits for the lane takes another path once the lane is gone (R177, R180). -/
def Chip.repath (c : Chip) (n : Nat) : Chip :=
  match (c.slot n).wait with
  | some ex =>
    if ex.path = .turf ∧ c.get HTH_TURF_STAT.LANE n ≠ lnUP then
      let c := (c.withdraw (.mcmd n)).modSlot n (fun x => { x with wait := none })
      c.askMcmd n { ex with path := c.pathFor n ex.wire.length }
    else c
  | none => c

/-- What waits for budget on a slot is taken out: a leg is given back unsent (R110, R253), the rest ends with the session or the
lane it was for. -/
def Chip.loseWait (c : Chip) (n : Nat) : Chip :=
  match (c.slot n).wait with
  | none => c
  | some ex =>
    let c := (c.withdraw (.mcmd n)).modSlot n (fun x => { x with wait := none })
    let c := if c.slotState n = stOFF then c else c.flag HTH_SLOT_STAT.BUDGET_WAIT n false
    match ex.use with
    | .leg src => c.giveBack n src
    | .dozeResume src => c.giveBack n src
    | _ => c

/-- An exchange whose budget is granted goes to the card, unless an overlay in work holds the slot (R418). A grant that comes after
the slot has left READY is returned, and its leg taken out (R110). -/
def Chip.trySend (c : Chip) (n : Nat) : Chip :=
  if c.dmp.grants.any (fun g => decide (g.asker = .mcmd n)) && (c.slot n).wait.isSome then
    if (c.slot n).leftReady then c.loseWait n else if c.kln.heldSlots.contains n then c else c.sendExch n
  else c

/-- A slot that has left the states in which what waits for budget may go out: a leg waits on while its slot still takes legs
(R253), everything else is taken out. -/
def Chip.dropWait (c : Chip) (n : Nat) : Chip :=
  let st := c.slotState n
  match (c.slot n).wait with
  | some ex =>
    if st = stREADY ∨ st = stBUSY then c
    else if !ex.use.isLeg then (if st = stNEGOTIATE then c else c.loseWait n)
    else if c.slotTakes n then c.modSlot n (fun x => { x with leftReady := true })
    else c.loseWait n
  | none => c

/-- A link whose traffic frames in one direction have used up the counter is keyed no longer (R476). -/
def Chip.kzWorn (c : Chip) : Chip :=
  c.forN 3 (fun c k => if 2 ^ 32 ≤ (c.kzOf k).txCtr ∨ 2 ^ 32 ≤ (c.kzOf k).rxCtr then c.kzUnkey k else c)

/-- One round. `rand` says which contexts' jobs draw random words. -/
def Chip.settle1 (c : Chip) (env : Env) (rand : Nat → Bool) : Chip :=
  let c := if c.ember.finished = [] then c else c.takeResults env
  let c := (c.sess.map Prod.fst).foldl (fun c n => (c.cinTake n env).cinStep n) c
  let c := c.identityJob env
  let c := if c.ember.stokerQ = [] then c else c.stokerStart
  let c := (c.ctxs.map Prod.fst).foldl (fun c k => c.jobQueue k (rand k)) c
  let c := (c.watchLive.evictRemote).rampAll.recheckTokens
  let c := (c.slots.map Prod.fst).foldl (fun c n =>
    let c := if (c.slot n).queue = [] then c else c.evict n
    ((((c.openLane n).dropWait n).repath n).trySend n).kick n) c
  let c := ((c.lcIntent.xferStep).challengeStep).watchQuorum.kzWorn
  c.nextRemoval

/-- The command words of a context's raw list: its slice of list memory, and the next one for a pair (R305). -/
def State.listWords (s : State) (k : Nat) : List Nat :=
  (List.range (if s.chip.on EMB_JOB.PAIR k then 1024 else 512)).map (fun i => leNat (memReadBytes s.listmem (0x1000 * k + 8 * i) 8))

/-- A job draws random words: an operation of R319 that does, or a raw list with RAND (R307, R308). -/
def State.jobDraws (s : State) (k : Nat) : Bool :=
  let op := s.chip.get EMB_JOB.OP k
  if op = 0xFF then
    ((s.listWords k).takeWhile (fun w => decide (w / 2 ^ 58 ≠ 0))).any (fun w => decide (w / 2 ^ 58 % 64 = 0x10))
  else libRand op

/-- One round over the state. -/
def State.settle1 (s : State) : State := s.act (fun c => c.settle1 s.env s.jobDraws)

/-- What follows an action: four rounds, enough for the longest chain of R25 to R30 in one step. -/
def State.settle (s : State) : State := s.settle1.settle1.settle1.settle1

/-! ## Cold reset -/

/-- The wear record that a cold reset loads: the newest valid copy (R374). -/
def Nvs.newestWear (v : Nvs) : Option WearRec :=
  match v.wear0, v.wear1 with
  | some (p, a), some (q, b) => if p < q then some b else some a
  | some (_, a), none => some a
  | none, some (_, b) => some b
  | none, none => none

/-- A single copy that differs from the other two is rewritten (R447). -/
def Nvs.repairVotes (v : Nvs) : Nvs :=
  [0, 1, 2, 3].foldl (fun v i => match voteMajority v i with
    | some x => if voteStat v i = 1 then v.putVote i x else v
    | none => v) v

/-- The chip after a cold reset, from what the OTP and the NVS hold; the record of what went out and the count of free values
drawn are no part of the block; `base` is the OTP's baseline area (R74). -/
def Chip.coldInit (out : List Out) (free : Nat) (base : List ((Nat × Nat × Bool) × Nat)) (otp : List (Nat × Nat)) (nvs : Nvs) : Chip :=
  let c := { Chip.init with out := out, free := free, base := base }
  let c := (c.put KLN_LC_WORD.VALUE 0 (otpWord otp otpLcWord)).put KLN_LC_MARK.VALUE 0 (otpWord otp otpLcMark)
  let c := { c with kln := { c.kln with locked := (lcOfWord (otpWord otp otpLcWord)).isNone } }
  let c := (c.put KLN_VER_FLOOR.VALUE 0 (voteValue nvs 0)).put KLN_CER_SEQ.COUNTER 0 (voteValue nvs 1)
  let c := (c.put KLN_TLOCK.LOCK 0 (voteValue nvs 3)).put KLN_TLOCK.LOCK 1 (voteValue nvs 3 / 2 ^ 32)
  let c := (c.put KLN_CFG_STAT.STORED 0 (ovlStored nvs).length).put ASH_JRN_HEAD.NVS_NEXT 0 nvs.journalNext
  let g := voteValue nvs 2
  let boots := g / 2 ^ 32 - 1
  let c := if g = 0 then c
    else if boots = 0 then c.mem (.nvsVote 2 0)
    else (c.mem (.nvsVote 2 (grantVote (g % 2 ^ 32) boots))).setGrants (g % 2 ^ 32) boots
  match nvs.newestWear with
  | some w => c.loadWear w
  | none => (c.flag DRG_WEAR_STAT.WEAR_LOST 0 true).raise 0x0B 0

/-- COLD_RESET (R11): every register and memory at its reset value; OTP and NVS are kept. The commands that wait stay. -/
def State.coldReset (s : State) : State :=
  let nvs := s.nvs.repairVotes
  State.flush { s with chip := Chip.coldInit s.chip.out s.chip.free s.chip.base s.otp nvs, sram := [], opmem := [], listmem := [], nvs := nvs }

/-- A cold reset that is pending takes place once the sequencer is off (R337, R339, R443 step 7). -/
def State.coldDue (s : State) : State :=
  if s.chip.on DRG_SEQ_STAT.COLD_PEND 0 ∧ (s.chip.seqState = sqOFF ∨ s.chip.seqState = sqWAITSTART) then s.coldReset else s

/-- Act on the chip, then let what follows go on. -/
def State.run (s : State) (f : Chip → Chip) : State := (s.act f).settle.coldDue

end Sys2Proof.Machine
end

