-- ==== Sys2Proof/Machine/Slots.lean ====
section
/-! DEFINITION. The commands of the slot channels: their host commands, presence and monitors, activation, ATR, PPS, the
character protocols and the Turf lane (R82–R206). -/

namespace Sys2Proof.Machine

/-- What happens at a slot needs its bank domain (R42, R43, R87). -/
def Chip.atSlot (c : Chip) (n : Nat) (f : Chip → Chip) : Chip := if c.domUp (bankOf n) then f c else c

/-! ## HTH_SLOT_CMD and HTH_LEG_CMD (R82, R89, R100–R102, R110, R111) -/

/-- ACTIVATE (R89, R110). -/
def Chip.activateCmd (c : Chip) (n : Nat) : Chip :=
  if c.slotState n = stOFF ∧ !c.slotFenced n then c.trigger n else c.slotEvt HTH_SLOT_EVT.CMD_REFUSED n

/-- The command waits in EXCH_WAIT for the exchange in BUSY (R88). -/
def Chip.exchHold (c : Chip) (n : Nat) (w : WaitCmd) : Chip :=
  (c.modSlot n (fun x => { x with exchWait := some w })).flag HTH_SLOT_STAT.EXCH_WAIT n true

/-- WARM_RESET, in BUSY with FORCE at once: the exchange is cut (R100, R107, R110). -/
def Chip.warmResetCmd (c : Chip) (n : Nat) (force : Bool) : Chip :=
  let st := c.slotState n
  if st = stREADY then c.warmCard n
  else if st = stBUSY ∧ (c.slot n).exchWait ≠ some .deactivate then
    if force then (c.cutExchange n stsABORTED).warmCard n else c.exchHold n .warmReset
  else c.slotEvt HTH_SLOT_EVT.CMD_REFUSED n

/-- DEACTIVATE (R101, R102, R110). One that withdraws a pending next attempt of a class trial in OFF leaves TRIAL_CLASS as it is, so
that the next ACTIVATE goes on there: R98 does not say whether such a withdrawal ends the trial (DESIGN CHOICE, log entry 131). -/
def Chip.deactivateCmd (c : Chip) (n : Nat) (force : Bool) : Chip :=
  let st := c.slotState n
  if st = stOFF then c.untrigger n
  else if st = stBUSY ∧ !force then c.exchHold n .deactivate
  else c.startDeact n .commanded cauHOST

/-- FORCE alone runs the command that waits in EXCH_WAIT; the exchange ends as in R107 (R110). -/
def Chip.forceCmd (c : Chip) (n : Nat) : Chip :=
  match (c.slot n).exchWait with
  | some .deactivate => c.startDeact n .commanded cauHOST
  | some .warmReset => (c.cutExchange n stsABORTED).warmCard n
  | none => c

/-- MEAS_REQ (R82); where the bank's calibration source failed its check a request ends at once (R75). -/
def Chip.measReq (c : Chip) (n : Nat) : Chip :=
  let st := c.slotState n
  if st ≠ stOFF ∧ st ≠ stABSENT then c.flag HTH_LEG_CMD.MEAS_REFUSED n true
  else if (c.slot n).measuring then c
  else if !c.on HTH_BANK_ESTAT.CAL_OK (bankOf n) then c.flag HTH_LEG_CMD.MEAS_DONE n true
  else
    (c.flag HTH_LEG_CMD.MEAS_REQ n true).startMeas n false

/-- ACTIVATE (R89). -/
def execActivate (p : Path) (n : SlotId) (s : State) : Host.Outcome State Fault Refusal :=
  .next (s.run fun c => c.slotWrite p n.val fun c => c.activateCmd n.val)

/-- WARM_RESET (R100). -/
def execWarmReset (p : Path) (n : SlotId) (force : Bool) (s : State) : Host.Outcome State Fault Refusal :=
  .next (s.run fun c => c.slotWrite p n.val fun c => c.warmResetCmd n.val force)

/-- DEACTIVATE (R101). -/
def execDeactivate (p : Path) (n : SlotId) (force : Bool) (s : State) : Host.Outcome State Fault Refusal :=
  .next (s.run fun c => c.slotWrite p n.val fun c => c.deactivateCmd n.val force)

/-- SLOT_RESET (R111). -/
def execSlotReset (p : Path) (n : SlotId) (s : State) : Host.Outcome State Fault Refusal :=
  .next (s.run fun c => c.slotWrite p n.val fun c => c.slotReset n.val)

/-- FORCE (R110). -/
def execForce (p : Path) (n : SlotId) (s : State) : Host.Outcome State Fault Refusal :=
  .next (s.run fun c => c.slotWrite p n.val fun c => c.forceCmd n.val)

/-- LEG_MEAS_REQ (R82). -/
def execLegMeasReq (p : Path) (n : SlotId) (s : State) : Host.Outcome State Fault Refusal :=
  .next (s.run fun c => c.slotWrite p n.val fun c => c.measReq n.val)

/-! ## Presence and monitors (R88, R103, R192–R206) -/

/-- What a move of a monitor's filtered state drives while it is armed (R88, R199, R200). -/
def Chip.monReact (c : Chip) (m : MonId) (alarm : Bool) : Chip :=
  match m, alarm with
  | .imon n, true =>
    if c.on HTH_SLOT_ESTAT.SW_CLOSED n.val || (c.slot n.val).opening then c.startDeact n.val .fault cauSHORT else c
  | .vmon n, true => if (c.slot n.val).armed then c.startDeact n.val .fault cauVCC else c
  | .iomon n, true => if (c.slot n.val).armed then c.startDeact n.val .fault cauIO else c
  | .pmon n, true => if c.domUp (bankOf n.val) then c.removed n.val else c
  | .bmon b, true => if c.domUp b.val then c.bankAlarm b.val else c
  | .vmon n, false => c.vccTry n.val
  | .pmon n, false => if c.domUp (bankOf n.val) then c.inserted n.val else c
  | _, _ => c

/-- Samples of a monitor at successive ticks, and what each move of its filtered state drives. -/
def Chip.monFeed (c : Chip) (m : MonId) (xs : List Sample) : Chip :=
  xs.foldl (fun c x =>
    let r := c.monSample m x
    match r.2 with
    | some alarm => r.1.monReact m alarm
    | none => r.1) c

/-- A comparator excursion between samples (R204). -/
def Chip.rawIn (c : Chip) (m : MonId) (x : Sample) : Chip :=
  if !c.monUp m || c.blanked.contains m || !(c.monClass m x).out then c else c.rawTrip m

/-- The presence monitor of a slot; only operator slots have one (R186). -/
def pmonOf (n : SlotId) : Option MonId := if h : n.val < 4 then some (.pmon ⟨n.val, h⟩) else none

/-- The block whose registers hold a monitor, and whether its domain is on (R206). -/
def monBlk (m : MonId) : Nat := match m with | .rmon _ => blkDRG | _ => blkHTH

def Chip.monWriteUp (c : Chip) (m : MonId) : Bool :=
  match m with
  | .vmon n | .imon n | .iomon n => c.bankPow (bankOf n.val)
  | .pmon n => c.bankPow (bankOf n.val)
  | .bmon b => c.bankPow b.val
  | .rmon _ => true

/-- A write of MODE: the stored value, and blanking (R196). -/
def Chip.modeWrite (c : Chip) (m : MonId) (mode : Nat) : Chip := (c.put (monCfg m mMODE) (monIdx m) mode).monBlank m

/-- A W1C write of LATCHED (R203): refused on the alarm side, and without effect where only a period clears the latch. -/
def Chip.latchClear (c : Chip) (m : MonId) : Chip :=
  if c.latchHeld m then c else c.flag (monStat m mLATCHED) (monIdx m) false

/-- PRES_RISE (R88): samples of PMON, whose move to the good side is the rise of PRES. -/
def execPresRise (x : SlotSamples) (s : State) : Host.Outcome State Fault Refusal :=
  .next (s.run fun c => match pmonOf x.n with
    | some m => c.monFeed m x.samples
    | none => c)

/-- REMOVAL (R103): samples of PMON, whose move to the alarm side is the fall of PRES. -/
def execRemoval (x : SlotSamples) (s : State) : Host.Outcome State Fault Refusal :=
  .next (s.run fun c => match pmonOf x.n with
    | some m => c.monFeed m x.samples
    | none => c)

/-- IMON_HIGH (R105): samples of IMON. -/
def execImonHigh (x : SlotSamples) (s : State) : Host.Outcome State Fault Refusal :=
  .next (s.run fun c => c.monFeed (.imon x.n) x.samples)

/-- VMON_FAULT (R200): samples of VMON. -/
def execVmonFault (n : SlotId) (samples : List Sample) (s : State) : Host.Outcome State Fault Refusal :=
  .next (s.run fun c => c.monFeed (.vmon n) samples)

/-- IOMON_FAULT (R200): samples of IOMON. -/
def execIomonFault (n : SlotId) (samples : List Sample) (s : State) : Host.Outcome State Fault Refusal :=
  .next (s.run fun c => c.monFeed (.iomon n) samples)

/-- BMON_FAULT (R200): samples of a bank monitor. After the release of the bank's isolation a move to the alarm side is a rail failure
of the bank; before it, R199 acts when DRG_MON_SETTLE expires. -/
def execBmonFault (b : BankId) (samples : List Sample) (s : State) : Host.Outcome State Fault Refusal :=
  .next (s.run fun c => c.monFeed (.bmon b) samples)

/-- RMON_ALARM (R200): samples of a rail monitor. -/
def execRmonAlarm (r : Fin 5) (samples : List Sample) (s : State) : Host.Outcome State Fault Refusal :=
  .next (s.run fun c => c.monFeed (.rmon r) samples)

/-- MONITOR_GOOD (R192): samples of any monitor. -/
def execMonitorGood (x : MonSamples) (s : State) : Host.Outcome State Fault Refusal :=
  .next (s.run fun c => c.monFeed x.m x.samples)

/-- RAW_SEEN (R204). -/
def execRawSeen (x : MonInput) (s : State) : Host.Outcome State Fault Refusal :=
  .next (s.run fun c => c.rawIn x.m x.input)

/-- MON_SETTLE_EXPIRY (R198, R199). -/
def execMonSettleExpiry (dom : Fin 20) (s : State) : Host.Outcome State Fault Refusal :=
  .next (s.run fun c => c.settleOut dom.val)

/-- MONITOR_MODE_WRITE (R196). -/
def execMonitorModeWrite (p : Path) (m : MonId) (mode : Nat) (s : State) : Host.Outcome State Fault Refusal :=
  .next (s.run fun c => c.hostWrite p (monBlk m) (c.monWriteUp m) fun c => c.modeWrite m mode)

/-- MONITOR_BLANK_END (R196). -/
def execMonitorBlankEnd (m : MonId) (s : State) : Host.Outcome State Fault Refusal :=
  .next (s.run fun c => { c with blanked := c.blanked.filter (fun q => decide (q ≠ m)) })

/-- LATCHED_CLEAR (R203). -/
def execLatchedClear (p : Path) (m : MonId) (s : State) : Host.Outcome State Fault Refusal :=
  .next (s.run fun c => c.hostWrite p (monBlk m) (c.monWriteUp m) fun c => c.latchClear m)

/-- LIMITING (R56). -/
def execLimiting (n : SlotId) (s : State) : Host.Outcome State Fault Refusal :=
  .next (s.run fun c => c.atSlot n.val fun c =>
    if c.on HTH_SLOT_ESTAT.SW_CLOSED n.val then
      (c.flag HTH_SLOT_ESTAT.LIMITING n.val true).flag HTH_SLOT_ESTAT.LIMIT_SEEN n.val true
    else c)

/-! ## Activation and deactivation (R76–R119) -/

/-- The damper grants the inrush budget that a slot waits for (R30, R91). -/
def Chip.inrushGrant (c : Chip) (n : Nat) : Chip :=
  match c.canGrant (.activation n) with
  | some (r, b) => ((c.grantReq r b).flag HTH_SLOT_STAT.BUDGET_WAIT n false).tryRamp n
  | none => c

/-- Stoker's decision on a complete ATR (R95). -/
def Chip.policyIn (c : Chip) (n : Nat) (d : Policy) : Chip :=
  if c.slotState n = stATRWAIT ∧ (c.slot n).atrDone then
    match d with
    | .accept => c.atrAccept n
    | .reject => c.startDeact n .commanded cauPOLREJ
  else c

/-- No decision within 5 ms (R95). -/
def Chip.policyLate (c : Chip) (n : Nat) : Chip :=
  if c.slotState n = stATRWAIT ∧ (c.slot n).atrDone then c.startDeact n .commanded cauPOLTMO else c

/-- VCC is not good in time (R92). -/
def Chip.vccLate (c : Chip) (n : Nat) : Chip :=
  if c.slotState n = stRAMP ∧ c.on HTH_SLOT_ESTAT.SW_CLOSED n then c.startDeact n .fault cauVCC else c

/-- INSERTION_TIMER_EXPIRY (R88). -/
def execInsertionTimerExpiry (n : SlotId) (s : State) : Host.Outcome State Fault Refusal :=
  .next (s.run fun c => c.atSlot n.val fun c => c.insExpire n.val)

/-- INRUSH_BUDGET_GRANT (R91). -/
def execInrushBudgetGrant (n : SlotId) (s : State) : Host.Outcome State Fault Refusal :=
  .next (s.run fun c => c.inrushGrant n.val)

/-- LEG_MEASUREMENT_END (R77). -/
def execLegMeasurementEnd (n : SlotId) (readings : List LegReading) (s : State) : Host.Outcome State Fault Refusal :=
  .next (s.run fun c => c.atSlot n.val fun c => c.measEnd n.val readings)

/-- VCC_GOOD (R201): samples of VMON, and the ramp controller at its final value. -/
def execVccGood (x : SlotSamples) (s : State) : Host.Outcome State Fault Refusal :=
  .next (s.run fun c => c.atSlot x.n.val fun c => (c.monFeed (.vmon x.n) x.samples).rampEnd x.n.val)

/-- VCC_TMO (R92). -/
def execVccTmo (n : SlotId) (s : State) : Host.Outcome State Fault Refusal :=
  .next (s.run fun c => c.atSlot n.val fun c => c.vccLate n.val)

/-- RST_RISE (R88). -/
def execRstRise (n : SlotId) (s : State) : Host.Outcome State Fault Refusal :=
  .next (s.run fun c => c.atSlot n.val fun c => c.rstUp n.val)

/-- ATR_CHAR_RECEIVED (R128). -/
def execAtrCharReceived (n : SlotId) (byte : Byte) (parityOk inWindow : Bool) (s : State) : Host.Outcome State Fault Refusal :=
  .next (s.run fun c => c.atSlot n.val fun c => c.atrChar n.val byte parityOk inWindow)

/-- ATR_WINDOW_CLOSE (R93). -/
def execAtrWindowClose (n : SlotId) (s : State) : Host.Outcome State Fault Refusal :=
  .next (s.run fun c => c.atSlot n.val fun c => c.atrClose n.val)

/-- INITIAL_WT_EXPIRY (R137). -/
def execInitialWtExpiry (n : SlotId) (s : State) : Host.Outcome State Fault Refusal :=
  .next (s.run fun c => c.atSlot n.val fun c => c.initialWt n.val)

/-- POLICY_DECISION (R95). -/
def execPolicyDecision (n : SlotId) (decision : Policy) (s : State) : Host.Outcome State Fault Refusal :=
  .next (s.run fun c => c.atSlot n.val fun c => c.policyIn n.val decision)

/-- POLICY_TIMEOUT (R95). -/
def execPolicyTimeout (n : SlotId) (s : State) : Host.Outcome State Fault Refusal :=
  .next (s.run fun c => c.atSlot n.val fun c => c.policyLate n.val)

/-- NEG_TMO (R96). -/
def execNegTmo (n : SlotId) (s : State) : Host.Outcome State Fault Refusal :=
  .next (s.run fun c => c.atSlot n.val fun c => c.negExpire n.val)

/-- INACTIVE_RISE (R108). The discharge of a slot whose bank goes off completes too (R57), so the row needs no bank domain. -/
def execInactiveRise (n : SlotId) (s : State) : Host.Outcome State Fault Refusal :=
  .next (s.run fun c => c.inactive n.val)

/-- REACT_MIN_EXPIRY (R89). -/
def execReactMinExpiry (n : SlotId) (s : State) : Host.Outcome State Fault Refusal :=
  .next (s.run fun c => c.atSlot n.val fun c => c.reactExpire n.val)

/-- CLOCK_CHANGE (R127). -/
def execClockChange (n : SlotId) (s : State) : Host.Outcome State Fault Refusal :=
  .next (s.run fun c => c.atSlot n.val fun c => c.clkChange n.val)

/-- PPS_RESPONSE_RECEIVED (R134). -/
def execPpsResponseReceived (n : SlotId) (bytes : List Byte) (parityOk : Bool) (s : State) : Host.Outcome State Fault Refusal :=
  .next (s.run fun c => c.atSlot n.val fun c => c.ppsRsp n.val bytes parityOk)

/-! ## The character protocols (R137–R151) -/

/-- The card signals a parity error on a character of the run that the device sent last (R143). -/
def Chip.t0Signalled (c : Chip) (n index : Nat) : Chip :=
  let t := (c.slot n).t0
  if t.wait ≠ .idle ∧ t.sending ∧ index < t.run then c.t0Parity n (some index) (.t0Repeat n) else c

/-- WT expires under T=0 (R137). -/
def Chip.wtOut (c : Chip) (n : Nat) : Chip :=
  if (c.slot n).t0.wait = .idle then c
  else ((c.protLast n (c.errPhase n) kWT).protEvt HTH_PROT_EVT.CARD_TMO n).exchDone n stsTIMEOUTCARD [] false

/-- CWT expires within a block of the card, or BWT before it (R137, R145, R149). -/
def Chip.blockLate (c : Chip) (n kind : Nat) (heard : Bool) : Chip :=
  if c.t1Waits n then (c.protEvt HTH_PROT_EVT.CARD_TMO n).t1Bad n 2 kind heard else c

/-- T0_CHAR_RECEIVED (R141). -/
def execT0CharReceived (n : SlotId) (byte : Byte) (parityOk : Bool) (s : State) : Host.Outcome State Fault Refusal :=
  .next (s.run fun c => c.atSlot n.val fun c => c.t0Char n.val byte parityOk)

/-- T0_ERROR_SIGNAL (R143). -/
def execT0ErrorSignal (x : CharSignal) (s : State) : Host.Outcome State Fault Refusal :=
  .next (s.run fun c => c.atSlot x.n.val fun c => c.t0Signalled x.n.val x.index)

/-- WT_EXPIRY (R137). -/
def execWtExpiry (n : SlotId) (s : State) : Host.Outcome State Fault Refusal :=
  .next (s.run fun c => c.atSlot n.val fun c => c.wtOut n.val)

/-- T1_BLOCK_RECEIVED (R149). -/
def execT1BlockReceived (n : SlotId) (bytes : List Byte) (parityOk : Bool) (s : State) : Host.Outcome State Fault Refusal :=
  .next (s.run fun c => c.atSlot n.val fun c => if c.t1Waits n.val then c.t1Block n.val bytes parityOk else c.strayChar n.val)

/-- CWT_EXPIRY (R145). -/
def execCwtExpiry (n : SlotId) (s : State) : Host.Outcome State Fault Refusal :=
  .next (s.run fun c => c.atSlot n.val fun c => c.blockLate n.val kCWT true)

/-- BWT_EXPIRY (R149). -/
def execBwtExpiry (n : SlotId) (s : State) : Host.Outcome State Fault Refusal :=
  .next (s.run fun c => c.atSlot n.val fun c => c.blockLate n.val kBWT false)

/-! ## The Turf lane (R161–R183) -/

/-- A frame that is invalid or not expected (R173): where LINK_UP_ACK was due the training attempt fails (R164), on a lane
that is UP the exchange, if any, sends its command again (R176). -/
def Chip.turfStray (c : Chip) (n : Nat) : Chip :=
  if (c.slot n).tf.phase = .linkUp then (c.turfInvalid n).trainFail n 3
  else if c.laneHears n then c.turfBadFrame n else c

/-- An answer of the module is due on the lane. -/
def Chip.turfDue (c : Chip) (n : Nat) : Bool := c.onLane n && !(c.slot n).tf.retxDue

/-- A DATA frame of the module (R174, R176): the response of the exchange, after which the lane is parked; a frame of the other SEQ
is discarded. -/
def Chip.turfData (c : Chip) (n : Nat) (seq : Bool) (payload : List Byte) : Chip :=
  if !c.turfDue n then c.turfStray n
  else if seq.toNat ≠ c.get HTH_TURF_STAT.SEQ n then c
  else ((c.flag HTH_TURF_STAT.SEQ n (!seq)).lanePark n).exchDone n stsOK payload false

/-- NAK (R176). -/
def Chip.turfNak (c : Chip) (n : Nat) : Chip :=
  if !c.turfDue n then c.turfStray n else (c.turfEvt HTH_TURF_EVT.NAK_RX n).turfAgain n false

/-- WAIT (R175): the timeout restarts at most WAIT_LIM times. -/
def Chip.turfWait (c : Chip) (n : Nat) : Chip :=
  if !c.turfDue n then c.turfStray n
  else
    let c := c.turfEvt HTH_TURF_EVT.WAIT_RX n
    if (c.slot n).tf.waits < c.cfg HTH_TURF_CFG.WAIT_LIM n then c.tfSet n (fun t => { t with waits := t.waits + 1 }) else c

/-- LINK_DOWN of the module (R178, R179). -/
def Chip.turfDown (c : Chip) (n : Nat) : Chip :=
  if !c.laneHears n then c.turfStray n
  else
    let had := c.onLane n
    let c := (c.turfEvt HTH_TURF_EVT.LINK_DOWN_RX n).turfLoss n 0x08
    if had then c.exchDone n stsPROTOCOL [] false else c

/-- LINK_UP_ACK of the module (R162); anywhere but at step 6 it is not expected (R173). -/
def Chip.turfAck (c : Chip) (n : Nat) : Chip := if (c.slot n).tf.phase = .linkUp then c.trainUp n else c.turfStray n

/-- Bits arrive from the module on the lane: what they hold decides (R169–R173, R176). -/
def Chip.laneRx (c : Chip) (n : Nat) (bits : List Bool) : Chip :=
  match turfParse bits with
  | .quiet => c
  | .bad => c.turfStray n
  | .data seq payload => c.turfData n seq payload
  | .nak _ => c.turfNak n
  | .ctrl code => if code = 2 then c.turfAck n else if code = 3 then c.turfWait n else c.turfDown n

/-- TFTO expires (R175, R176). -/
def Chip.turfTimeout (c : Chip) (n : Nat) : Chip :=
  if c.turfDue n then (c.turfEvt HTH_TURF_EVT.FTO n).turfAgain n true else c

/-- A retransmission starts (R176). -/
def Chip.turfResend (c : Chip) (n : Nat) : Chip :=
  if c.onLane n ∧ (c.slot n).tf.retxDue then
    let c := c.tfSet n (fun t => { t with retxDue := false, attempts := t.attempts + 1 })
    ((c.turfEvt HTH_TURF_EVT.RETX n).incSat HTH_TURF_CNT.RETX_CNT n).turfSend n
  else c

/-- 100 ms have passed since a loss (R180). -/
def Chip.retrainTime (c : Chip) (n : Nat) : Chip :=
  if (c.slot n).tf.retrainDue then c.tfSet n (fun t => { t with retrainDue := false, retrainNow := true }) else c

/-- The lane has been idle for DOZE_IDLE ms (R181). -/
def Chip.dozeIn (c : Chip) (n : Nat) : Chip :=
  if c.get HTH_TURF_STAT.LANE n = lnUP ∧ c.slotIdle n ∧ c.cfg HTH_TURF_CFG.DOZE_IDLE n ≠ 0 then
    let c := (c.laneDrive n (c.get HTH_TURF_STAT.RATE n) (turfFrame 2 false [0x04])).lanePark n
    (c.put HTH_TURF_STAT.LANE n lnDOZE).turfEvt HTH_TURF_EVT.DOZE_IN n
  else c

/-- PHASE_A_START (R162). -/
def execPhaseAStart (n : SlotId) (s : State) : Host.Outcome State Fault Refusal :=
  .next (s.run fun c => c.atSlot n.val fun c => c.trainStart n.val)

/-- PHASE_B_RECEIVED (R163): the bits that the receiver has. -/
def execPhaseBReceived (n : SlotId) (bits : List Bool) (s : State) : Host.Outcome State Fault Refusal :=
  .next (s.run fun c => c.atSlot n.val fun c => c.trainB n.val bits)

/-- PHASE_B_TIMEOUT (R164). -/
def execPhaseBTimeout (n : SlotId) (s : State) : Host.Outcome State Fault Refusal :=
  .next (s.run fun c => c.atSlot n.val fun c => if (c.slot n.val).tf.phase = .phaseB then c.trainFail n.val 1 else c)

/-- LINK_UP_ACK_RX (R162): the bits that arrive. -/
def execLinkUpAckRx (x : SlotBits) (s : State) : Host.Outcome State Fault Refusal :=
  .next (s.run fun c => c.atSlot x.n.val fun c => c.laneRx x.n.val x.bits)

/-- LINK_UP_ACK_TIMEOUT (R164). -/
def execLinkUpAckTimeout (n : SlotId) (s : State) : Host.Outcome State Fault Refusal :=
  .next (s.run fun c => c.atSlot n.val fun c => if (c.slot n.val).tf.phase = .linkUp then c.trainFail n.val 3 else c)

/-- TURF_DATA_RX (R176): the bits that arrive, those of preamble and SFD and those from the header on. -/
def execTurfDataRx (n : SlotId) (lead frame : List Bool) (s : State) : Host.Outcome State Fault Refusal :=
  .next (s.run fun c => c.atSlot n.val fun c => c.laneRx n.val (lead ++ frame))

/-- TURF_NAK_RX (R176): the bits that arrive. -/
def execTurfNakRx (n : SlotId) (bits : List Bool) (s : State) : Host.Outcome State Fault Refusal :=
  .next (s.run fun c => c.atSlot n.val fun c => c.laneRx n.val bits)

/-- TURF_WAIT_RX (R175): the bits that arrive. -/
def execTurfWaitRx (n : SlotId) (bits : List Bool) (s : State) : Host.Outcome State Fault Refusal :=
  .next (s.run fun c => c.atSlot n.val fun c => c.laneRx n.val bits)

/-- TURF_LINK_DOWN_RX (R179): the bits that arrive. -/
def execTurfLinkDownRx (x : SlotBits) (s : State) : Host.Outcome State Fault Refusal :=
  .next (s.run fun c => c.atSlot x.n.val fun c => c.laneRx x.n.val x.bits)

/-- TURF_INVALID_FRAME (R173): the bits that arrive. -/
def execTurfInvalidFrame (n : SlotId) (bits : List Bool) (s : State) : Host.Outcome State Fault Refusal :=
  .next (s.run fun c => c.atSlot n.val fun c => c.laneRx n.val bits)

/-- FRAME_TIMEOUT (R175). -/
def execFrameTimeout (n : SlotId) (s : State) : Host.Outcome State Fault Refusal :=
  .next (s.run fun c => c.atSlot n.val fun c => c.turfTimeout n.val)

/-- TURF_RETX (R176). -/
def execTurfRetx (n : SlotId) (s : State) : Host.Outcome State Fault Refusal :=
  .next (s.run fun c => c.atSlot n.val fun c => c.turfResend n.val)

/-- RETRAIN (R180). -/
def execRetrain (n : SlotId) (s : State) : Host.Outcome State Fault Refusal :=
  .next (s.run fun c => c.atSlot n.val fun c => c.retrainTime n.val)

/-- DOZE_IDLE_EXPIRY (R181). -/
def execDozeIdleExpiry (n : SlotId) (s : State) : Host.Outcome State Fault Refusal :=
  .next (s.run fun c => c.atSlot n.val fun c => c.dozeIn n.val)

end Sys2Proof.Machine
end

