-- ==== Sys2Proof/Machine/Rings.lean ====
section
/-! DEFINITION. The commands of Flue and of the damper's grants: doorbells, entries, admission, port loss, ring control, and
the Stack table (R30, R207–R267, R363). -/

namespace Sys2Proof.Machine

/-- A write to a register of a block that lies in PD16. -/
def Chip.coreWrite (c : Chip) (p : Path) (blk : Nat) (f : Chip → Chip) : Chip := c.hostWrite p blk (c.domUp 16) f

/-- A command of FLU_RING_CMD: only the owning port may give it (R208). -/
def Chip.ringCmd (c : Chip) (p : Path) (r : Nat) (f : Chip → Chip) : Chip :=
  c.coreWrite p blkFLU fun c => if c.ownerPath p r then f c else c.ringEvt FLU_RING_EVT.NOT_OWNER r

/-- What happens in Flue needs PD16. -/
def Chip.inCore (c : Chip) (f : Chip → Chip) : Chip := if c.domUp 16 then f c else c

/-- SQ_DOORBELL (R215). -/
def execSqDoorbell (p : Path) (r : RingId) (value : Nat) (s : State) : Host.Outcome State Fault Refusal :=
  .next (s.run fun c => c.coreWrite p blkFLU fun c => c.sqBell p r.val value)

/-- CQ_DOORBELL (R215). -/
def execCqDoorbell (p : Path) (r : RingId) (value : Nat) (s : State) : Host.Outcome State Fault Refusal :=
  .next (s.run fun c => c.coreWrite p blkFLU fun c => c.cqBell p r.val value)

/-- ENTRY_RECEIVED (R217). -/
def execEntryReceived (r : RingId) (entries : List (List Byte)) (s : State) : Host.Outcome State Fault Refusal :=
  .next (s.run fun c => c.inCore fun c => c.fetched r.val entries)

/-- ADMISSION_ROUND (R225). -/
def execAdmissionRound (s : State) : Host.Outcome State Fault Refusal :=
  .next (s.run fun c => c.inCore Chip.admRound)

/-- The damper grants the request that is next in its order, and the work it was for goes on (R363, R364). -/
def Chip.damperStep (c : Chip) : Chip :=
  match c.nextGrant (fun _ => true) with
  | none => c
  | some (q, fromFloor) =>
    match q.asker with
    | .admission r => (c.grantReq q fromFloor).admitRing r
    | .activation n => ((c.grantReq q fromFloor).flag HTH_SLOT_STAT.BUDGET_WAIT n false).tryRamp n
    | .mcmd n => (c.grantReq q fromFloor).trySend n
    | .ember k =>
      let c := c.grantReq q fromFloor
      c.setCtx k { c.ctx k with hasTokens := true }
    | .cordJob n =>
      let c := (c.grantReq q fromFloor).spend (.cordJob n)
      if n < 64 then c.cordRun n else c.keyDerive (n - 64)
    | .entry _ => c.grantReq q fromFloor

/-- DAMPER_GRANT (R363). -/
def execDamperGrant (s : State) : Host.Outcome State Fault Refusal :=
  .next (s.run fun c => c.inCore Chip.damperStep)

/-- COMMAND_PAYLOAD_RECEIVED (R25). -/
def execCommandPayloadReceived (r : RingId) (index : Nat) (payload : List Byte) (s : State) : Host.Outcome State Fault Refusal :=
  .next (s.run fun c => c.inCore fun c => c.payloadIn r.val index payload (fun off len => memReadBytes s.sram off len))

/-- Module-command budget for what a slot waits to send (R30, R110). -/
def Chip.mcmdGrant (c : Chip) (n : Nat) : Chip :=
  match c.canGrant (.mcmd n) with
  | some (q, b) => (c.grantReq q b).trySend n
  | none => c

/-- MCMD_BUDGET_GRANT (R30). -/
def execMcmdBudgetGrant (n : SlotId) (s : State) : Host.Outcome State Fault Refusal :=
  .next (s.run fun c => c.atSlot n.val fun c => c.mcmdGrant n.val)

/-- DEADLINE_EXPIRY (R231). -/
def execDeadlineExpiry (r : RingId) (index : Nat) (s : State) : Host.Outcome State Fault Refusal :=
  .next (s.run fun c => c.inCore fun c => c.deadlineHit r.val index)

/-- BUDGET_CANCEL (R228). -/
def execBudgetCancel (r : RingId) (s : State) : Host.Outcome State Fault Refusal :=
  .next (s.run fun c => c.inCore fun c => c.budgetOut r.val)

/-- COAL_TIME_EXPIRY (R221). -/
def execCoalTimeExpiry (r : RingId) (s : State) : Host.Outcome State Fault Refusal :=
  .next (s.run fun c => c.inCore fun c => c.coalOut r.val)

/-- LOSS_TMO expires on a link that is still down (R232). -/
def Chip.lossOut (c : Chip) (x : Nat) : Chip :=
  if (c.port x).lossRun && !c.serving x && !c.on FLU_PORT_STAT.LOST x then (c.portLost x).raise 0x41 x else c

/-- A lost port serves again (R235). -/
def Chip.portAgain (c : Chip) (x : Nat) : Chip :=
  if c.on FLU_PORT_STAT.LOST x && c.serving x then c.raise 0x45 x else c

/-- PORT_LOSS (R232). -/
def execPortLoss (x : PortId) (s : State) : Host.Outcome State Fault Refusal :=
  .next (s.run fun c => c.inCore fun c => c.lossOut x.val)

/-- PORT_SERVING_AGAIN (R235). -/
def execPortServingAgain (x : PortId) (s : State) : Host.Outcome State Fault Refusal :=
  .next (s.run fun c => c.inCore fun c => c.portAgain x.val)

/-- RING_EN (R210). The operand is the word written to FLU_RING_CTL. -/
def execRingEn (p : Path) (r : RingId) (ctl : Nat) (s : State) : Host.Outcome State Fault Refusal :=
  .next (s.run fun c => c.coreWrite p blkFLU fun c => c.ringCtl p r.val ctl)

/-- PAUSE (R237). -/
def execPause (p : Path) (r : RingId) (s : State) : Host.Outcome State Fault Refusal :=
  .next (s.run fun c => c.ringCmd p r.val fun c => c.pauseRing r.val)

/-- RESUME (R237). -/
def execResume (p : Path) (r : RingId) (s : State) : Host.Outcome State Fault Refusal :=
  .next (s.run fun c => c.ringCmd p r.val fun c => c.resumeRing r.val)

/-- RESET (R238). -/
def execReset (p : Path) (r : RingId) (s : State) : Host.Outcome State Fault Refusal :=
  .next (s.run fun c => c.ringCmd p r.val fun c => c.resetRing r.val)

/-- HANDBACK (R235). -/
def execHandback (p : Path) (r : RingId) (s : State) : Host.Outcome State Fault Refusal :=
  .next (s.run fun c => c.ringCmd p r.val fun c => c.handBack r.val)

/-- RING_RESET_DONE (R238). -/
def execRingResetDone (r : RingId) (s : State) : Host.Outcome State Fault Refusal :=
  .next (s.run fun c => c.inCore fun c => c.resetDone r.val)

/-- DMA_ERROR (R237). -/
def execDmaError (r : RingId) (target : DmaTarget) (s : State) : Host.Outcome State Fault Refusal :=
  .next (s.run fun c => c.inCore fun c => c.dmaErr r.val target)

/-- CLEAR_STALE (R259). -/
def execClearStale (p : Path) (handle : Nat) (leg : Bool) (gen : Nat) (s : State) : Host.Outcome State Fault Refusal :=
  .next (s.run fun c => c.coreWrite p blkFLU fun c => c.clearStale (handle % 4096) leg (gen % 256))

/-- REBUILD (R261). -/
def execRebuild (p : Path) (s : State) : Host.Outcome State Fault Refusal :=
  .next (s.run fun c => c.coreWrite p blkFLU fun c => (c.stackRes 2 0 0).rebuildTrigger)

/-- REBUILD_COMMIT (R261). -/
def execRebuildCommit (s : State) : Host.Outcome State Fault Refusal :=
  .next (s.run fun c => c.inCore Chip.rebuildDone)

/-- EPOCH_SWAP (R263). -/
def execEpochSwap (s : State) : Host.Outcome State Fault Refusal :=
  .next (s.run fun c => c.inCore fun c => if c.get FLU_STACK_STAT.RB_STATE 0 = 2 then c.swapBanks else c)

/-- COPYBACK_END (R263). -/
def execCopybackEnd (s : State) : Host.Outcome State Fault Refusal :=
  .next (s.run fun c => c.inCore Chip.copyBack)

/-- MOVE_END (R264). -/
def execMoveEnd (elapsedUs : Nat) (s : State) : Host.Outcome State Fault Refusal :=
  .next (s.run fun c => c.inCore fun c => c.moveDone elapsedUs)

/-- A LIVE_NOTICE of a peer (R250, R473): its bits are taken while its link is keyed, and by an orphan not at all. -/
def Chip.liveNotice (c : Chip) (d mask : Nat) : Chip :=
  let k := c.kzFor d
  if d = c.grp.dev ∨ c.grp.size < d ∨ c.orphan ∨ !c.on DRG_KZ_STAT.KEYED k ∨ !c.peerOk d then c
  else (c.put FLU_LIVE.LIVE (2 * d) mask).put FLU_LIVE.LIVE (2 * d + 1) (mask / 2 ^ 32)

/-- LIVE_NOTICE_RX (R250). -/
def execLiveNoticeRx (d : DevId) (mask : Nat) (s : State) : Host.Outcome State Fault Refusal :=
  .next (s.run fun c => c.frameIn d.val .fault fun c => c.inCore fun c => c.liveNotice d.val mask)

end Sys2Proof.Machine
end

