-- ==== Sys2Proof/Machine/Keys.lean ====
section
/-! DEFINITION. The commands of Cord: rekeying, the entropy source and the DRBG, TAMPER_N (R285, R287, R291–R293). -/

namespace Sys2Proof.Machine

/-- A slot holds a session: SESS reads ACTIVE, REKEYING or OVERLAP (R285, R296). -/
def Chip.sessHeld (c : Chip) (n : Nat) : Bool := [ssACTIVE, ssREKEYING, ssOVERLAP].contains (c.get CRD_SESS_STAT.SESS n)

/-- AGE_MIN of a session at which it is due for rekey (R285). -/
def Chip.ageLimit (c : Chip) : Nat := c.get CRD_CFG.REKEY_HOURS 0 * 60

/-- AGE_MIN reaches REKEY_HOURS × 60 (R285). -/
def Chip.ageDue (c : Chip) (n : Nat) : Chip :=
  if c.sessHeld n then
    (c.put CRD_SESS_AGE.AGE_MIN n (max (c.get CRD_SESS_AGE.AGE_MIN n) c.ageLimit)).flag CRD_SESS_STAT.REKEY_DUE n true
  else c

/-- REKEY_RETRY seconds after a failed REKEY it may be tried again (R287). -/
def Chip.retryDue (c : Chip) (n : Nat) : Chip :=
  if (c.sessOf n).rekeyRetry then c.modSess n (fun s => { s with rekeyRetry := false }) else c

/-- The entropy source has passed a test: the DRBG is fully seeded and generates, and after a failure ES_RECOVERED sets
(R292, R293). -/
def Chip.esPass (c : Chip) (recovered : Bool) : Chip :=
  let c := (c.reseed.flag CRD_STAT.DRBG_READY 0 true).flag CRD_STAT.ES_OK 0 true
  if recovered then c.crdEvt CRD_EVT.ES_RECOVERED else c

/-- The start-up test that follows a power-up of PD16 ends (R292); a test that fails is a failed health test (R293). -/
def Chip.esStart (c : Chip) (pass : Bool) : Chip :=
  if !c.cord.esTest then c
  else
    let c := { c with cord := { c.cord with esTest := false } }
    if pass then c.esPass false else c.esFail

/-- The start-up test is repeated while the source has failed (R293). -/
def Chip.esAgain (c : Chip) (pass : Bool) : Chip :=
  if c.on CRD_STAT.ES_OK 0 || c.cord.esTest || !pass then c else c.esPass true

/-- The DRBG is reseeded after 2^16 requests or 10 s (R292), as long as its source is good. -/
def Chip.drbgAgain (c : Chip) : Chip :=
  if c.on CRD_STAT.ES_OK 0 then c.reseed.flag CRD_STAT.DRBG_READY 0 true else c

/-- TAMPER_N is asserted (R291, R324, R452, R455): the key store and operand memory are zeroised at once, debug grants and a
transition before its intent mark are dropped, and the fatal event goes to Ash. -/
def Chip.tamperOn (c : Chip) : Chip :=
  if c.ash.tamper then c
  else
    let c := { c with ash := { c.ash with tamper := true } }
    let c := if c.domUp 16 then c.zeroStore 1 else c
    let c := if c.domUp 17 then c.emberZeroise else c
    c.clearGrants.lcAbandon.raise 0x03 0

/-- REKEY_AGE_EXPIRY (R285). -/
def execRekeyAgeExpiry (n : SlotId) (s : State) : Host.Outcome State Fault Refusal :=
  .next (s.run fun c => c.inCore fun c => c.ageDue n.val)

/-- REKEY_START (R285). -/
def execRekeyStart (n : SlotId) (s : State) : Host.Outcome State Fault Refusal :=
  .next (s.run fun c => c.inCore fun c => c.rekeyGo n.val)

/-- REKEY_RETRY_EXPIRY (R287). -/
def execRekeyRetryExpiry (n : SlotId) (s : State) : Host.Outcome State Fault Refusal :=
  .next (s.run fun c => c.inCore fun c => c.retryDue n.val)

/-- ES_HEALTH_FAIL (R293). -/
def execEsHealthFail (s : State) : Host.Outcome State Fault Refusal :=
  .next (s.run fun c => c.inCore Chip.esFail)

/-- ES_STARTUP_RETEST (R293). -/
def execEsStartupRetest (pass : Bool) (s : State) : Host.Outcome State Fault Refusal :=
  .next (s.run fun c => c.inCore fun c => c.esAgain pass)

/-- ES_STARTUP_TEST_END (R292). -/
def execEsStartupTestEnd (pass : Bool) (s : State) : Host.Outcome State Fault Refusal :=
  .next (s.run fun c => c.inCore fun c => c.esStart pass)

/-- DRBG_RESEED (R292). -/
def execDrbgReseed (s : State) : Host.Outcome State Fault Refusal :=
  .next (s.run fun c => c.inCore Chip.drbgAgain)

/-- TAMPER_N (R291). -/
def execTamperN (s : State) : Host.Outcome State Fault Refusal := .next (s.run Chip.tamperOn)

end Sys2Proof.Machine
end

