-- ==== Sys2Proof/Machine/EmberCmds.lean ====
section
/-! DEFINITION. The commands of Ember: jobs, the list check, the array, failures of the array and its memory (R300–R325). -/

namespace Sys2Proof.Machine

/-- A write of EMB_CMD: a context of Stoker is invisible, and the write is discarded with the access-error event (R302). -/
def Chip.ctxWrite (c : Chip) (p : Path) (k : Nat) (f : Chip → Chip) : Chip :=
  c.hostWrite p blkEMB (c.domUp 17) fun c => if c.ctxHost k then f c else c.raise 0x09 blkEMB

/-- What happens in Ember needs PD17. -/
def Chip.inEmber (c : Chip) (f : Chip → Chip) : Chip := if c.domUp 17 then f c else c

/-! ## The list check (R309) -/

/-- The check of a raw list of `len` commands. -/
def Chip.listVerdict (c : Chip) (k : Nat) (words : List Nat) : Sum (Nat × Nat) Nat :=
  let len := c.get EMB_JOB.LIST_LEN k
  if words.length < len then .inl (1, 0) else checkList (words.take len) (c.regionsOf k) words.length

/-- The check of a raw list ends (R309, R316). -/
def Chip.listChecked (c : Chip) (k : Nat) (words : List Nat) : Chip :=
  if c.ctxState k ≠ esCHECKING then c
  else
    match c.listVerdict k words with
    | .inr b => c.jobTokens k b
    | .inl (rule, word) =>
      let c := (c.put EMB_LERR.RULE k rule).put EMB_LERR.WORD k word
      ((c.jobFail k stsPROTOCOL 1).jobReport k stsPROTOCOL []).embEvt EMB_EVT.LIST_ERR k

/-! ## What a job computes -/

/-- What a job leaves: flags F0 to F3 as a number, the bytes of its destination before the END pass, whether the result
check of R320 failed, and the free values it took. -/
structure JobEnd where
  flags : Nat
  bytes : List Byte
  checkFail : Bool
  draws : Nat
  deriving DecidableEq, Repr

/-- A raw list as it has run to its END (R307). -/
def Chip.rawRun (c : Chip) (k : Nat) (words : List Nat) (opmem : List Host.Cell) : EVm :=
  runList words (ctxBase k) (listFuel words) (EVm.start opmem c.free)

/-- The outcome of the job of a context (R307, R317–R320). -/
def Chip.jobResult (c : Chip) (k : Nat) (words : List Nat) (opmem : List Host.Cell) : JobEnd :=
  let g := c.regionsOf k
  let op := c.get EMB_JOB.OP k
  if op = 0xFF then
    let v := c.rawRun k words opmem
    ⟨v.flags, memReadBytes v.mem (ctxBase k + 8 * g.dst) (8 * g.dlen), false, v.draws - c.free⟩
  else
    let r := libRun op (fun o n => limbs opmem (ctxBase k) o n) c.free
    ⟨r.f0.toNat + 2 * r.f1.toNat + 4 * r.f2.toNat, leBytes (8 * g.dlen) r.value, r.f2, 1⟩

/-- The status that the flags give (R308). -/
def flagStatus (flags : Nat) : Nat :=
  if flags.testBit 0 || flags.testBit 2 || flags.testBit 3 then stsINPUTRANGE
  else if flags.testBit 1 then stsNOTONCURVE else stsOK

/-- The running job reaches END (R308, R310, R316, R321, R322). -/
def Chip.arrayEnd (c : Chip) (words : Nat → List Nat) (opmem : List Host.Cell) : Chip :=
  match c.ember.running with
  | none => c
  | some k =>
    let g := c.regionsOf k
    let r := c.jobResult k (words k) opmem
    let bytes := if r.flags = 0 then r.bytes else r.bytes.map (fun _ => 0)
    let status := flagStatus r.flags
    let c := { c with free := c.free + r.draws }
    let c := (c.mem (.opWrite (ctxBase k + 8 * g.dst) bytes)).mem (.wipeOp (ctxBase k + 8 * g.scr) (8 * g.slen))
    let c := if c.on EMB_CSTAT.ABORT_PEND k then c.embEvt EMB_EVT.ABORT_LATE k else c
    let c := if r.checkFail then (c.put EMB_CSTAT.FAIL_CAUSE k 5).embEvt EMB_EVT.CHECK_FAIL k else c
    (c.jobDone k status (bytesWords bytes)).jobReport k status bytes

/-- Beats that the running job still has to run after its next yield point; none where its list has no further one. -/
def Chip.remAfterYield (c : Chip) (k : Nat) (words : List Nat) (opmem : List Host.Cell) : Option Nat :=
  let b := c.get EMB_BEATS.BEATS k
  let y := (c.ctx k).yields
  if c.get EMB_JOB.OP k = 0xFF then
    ((c.rawRun k words opmem).yields[y]?).map (fun n => b - (40 + n))
  else (libYield (c.get EMB_JOB.OP k) b y).map (fun n => b - n)

/-- The running job reaches a YIELD (R313). -/
def Chip.yieldStep (c : Chip) (words : Nat → List Nat) (opmem : List Host.Cell) : Chip :=
  match c.ember.running with
  | none => c
  | some k =>
    match c.remAfterYield k (words k) opmem with
    | some rem => c.arrayYield rem
    | none => c

/-! ## Waiting, wipes and failures -/

/-- The wipe of an aborted job ends: ABORTED with all-zero data (R316, R322). -/
def Chip.wipeEnd (c : Chip) (k : Nat) : Chip :=
  if c.ctxState k ≠ esWIPING then c
  else
    let zeros := List.replicate (2 * c.get EMB_DST.LEN k) 0
    (((c.countAbort).put EMB_CSTAT.FAIL_CAUSE k 0).jobDone k stsABORTED zeros).jobReport k stsABORTED []

/-- A job has waited AGE_MAX in QUEUED or SUSPENDED (R313). -/
def Chip.ageJob (c : Chip) (k : Nat) : Chip :=
  if (c.ctxState k = esQUEUED ∨ c.ctxState k = esSUSPENDED) ∧ (c.ctx k).aged = none then
    let c := (c.setCtx k { c.ctx k with aged := some c.ember.nextAged }).flag EMB_CSTAT.AGED k true
    { c with ember := { c.ember with nextAged := c.ember.nextAged + 1 } }
  else c

/-- The wipe of a sealed context ends: inputs, destination and scratch are zero, and the context is released (R303). -/
def Chip.sealedEnd (c : Chip) (k : Nat) : Chip :=
  if (c.ctx k).isSealed ∧ !c.ctxJob k then
    let g := c.regionsOf k
    let c := c.mem (.wipeOp (ctxBase k) (8 * max (g.dst + g.dlen) (g.scr + g.slen)))
    c.setCtx k { c.ctx k with isSealed := false }
  else c

/-- A column in service fails its residue check while a job runs (R299, R323). -/
def Chip.columnBad (c : Chip) (col : Nat) : Chip :=
  if c.bit EMB_COLMAP.RETIRED 0 col ∨ c.get EMB_STAT.SPARE_COL 0 = col then c else c.columnFaultAt col

/-- An uncorrectable memory error fences its context and ends the job in it (R323). -/
def Chip.memoryBad (c : Chip) (k : Nat) : Chip := (c.ctxFence k 4).embEvt EMB_EVT.ECC_UE k

/-- The watchdog of the running job expires (R323). -/
def Chip.watchdogOut (c : Chip) (k : Nat) : Chip :=
  if c.ember.running = some k then (c.jobFence k 3).embEvt EMB_EVT.WDOG k else c

/-! ## The commands -/

/-- GO (R316). -/
def execGo (p : Path) (c : CtxId) (s : State) : Host.Outcome State Fault Refusal :=
  .next (s.run fun d => d.ctxWrite p c.val fun d => d.jobGo c.val)

/-- ABORT (R322). -/
def execAbort (p : Path) (c : CtxId) (s : State) : Host.Outcome State Fault Refusal :=
  .next (s.run fun d => d.ctxWrite p c.val fun d => d.jobAbort c.val)

/-- LIST_CHECK_DONE (R309). -/
def execListCheckDone (c : CtxId) (s : State) : Host.Outcome State Fault Refusal :=
  .next (s.run fun d => d.inEmber fun d => d.listChecked c.val (s.listWords c.val))

/-- ARRAY_DISPATCH (R313). -/
def execArrayDispatch (s : State) : Host.Outcome State Fault Refusal := .next (s.run fun c => c.inEmber Chip.arrayNext)

/-- YIELD (R313). -/
def execYield (s : State) : Host.Outcome State Fault Refusal :=
  .next (s.run fun c => c.inEmber fun c => c.yieldStep s.listWords s.opmem)

/-- END (R308). -/
def execJobEnd (s : State) : Host.Outcome State Fault Refusal :=
  .next (s.run fun c => c.inEmber fun c => c.arrayEnd s.listWords s.opmem)

/-- WIPE_DONE (R322). -/
def execWipeDone (c : CtxId) (s : State) : Host.Outcome State Fault Refusal :=
  .next (s.run fun d => d.inEmber fun d => d.wipeEnd c.val)

/-- AGED (R313). -/
def execAged (c : CtxId) (s : State) : Host.Outcome State Fault Refusal :=
  .next (s.run fun d => d.inEmber fun d => d.ageJob c.val)

/-- COLUMN_FAULT (R323). -/
def execColumnFault (col : Fin 17) (s : State) : Host.Outcome State Fault Refusal :=
  .next (s.run fun c => c.inEmber fun c => c.columnBad col.val)

/-- ECC_UE (R323). -/
def execEccUe (c : CtxId) (s : State) : Host.Outcome State Fault Refusal :=
  .next (s.run fun d => d.inEmber fun d => d.memoryBad c.val)

/-- EMBER_WATCHDOG (R323). -/
def execEmberWatchdog (c : CtxId) (s : State) : Host.Outcome State Fault Refusal :=
  .next (s.run fun d => d.inEmber fun d => d.watchdogOut c.val)

/-- ECC_CE (R300). -/
def execEccCe (c : CtxId) (s : State) : Host.Outcome State Fault Refusal :=
  .next (s.run fun d => d.inEmber fun d => d.embEvt EMB_EVT.ECC_CE c.val)

/-- SEALED_WIPE_END (R303). -/
def execSealedWipeEnd (c : CtxId) (s : State) : Host.Outcome State Fault Refusal :=
  .next (s.run fun d => d.inEmber fun d => d.sealedEnd c.val)

end Sys2Proof.Machine
end

