-- ==== Sys2Proof/Machine/Draught.lean ====
section
/-! DEFINITION. The commands of Draught's sequencer, its PMBus master, the bellows and the group (R36, R327–R358). -/

namespace Sys2Proof.Machine

/-- A write to a register of Draught, which lies in AON. -/
def Chip.drgWrite (c : Chip) (p : Path) (f : Chip → Chip) : Chip := c.hostWrite p blkDRG true f

/-! ## DRG_SEQ_CMD (R337, R339, R343, R345, R346) -/

/-- COLD: over the management SPI a shutdown starts, if one can, and a cold reset follows it; from a host port it is refused
(R337, R345, R346). -/
def Chip.coldCmd (c : Chip) (p : Path) : Chip :=
  if p ≠ .spi then c.seqEvt DRG_SEQ_EVT.CMD_REFUSED
  else
    let c := c.flag DRG_SEQ_STAT.COLD_PEND 0 true
    if c.canDown then c.shutdown 3 else c

/-- DOWN (R337). -/
def execDown (p : Path) (s : State) : Host.Outcome State Fault Refusal := .next (s.run fun c => c.drgWrite p Chip.downCmd)

/-- UP (R339). -/
def execUp (p : Path) (s : State) : Host.Outcome State Fault Refusal := .next (s.run fun c => c.drgWrite p Chip.upCmd)

/-- COLD (R337). -/
def execCold (p : Path) (s : State) : Host.Outcome State Fault Refusal :=
  .next (s.run fun c => c.drgWrite p fun c => c.coldCmd p)

/-- RETRY (R343). -/
def execRetry (p : Path) (i : Fin 32) (s : State) : Host.Outcome State Fault Refusal :=
  .next (s.run fun c => c.drgWrite p fun c => c.retryCmd i.val)

/-! ## Rails and domains (R327–R345) -/

/-- PG_MAIN_LOST (R329). -/
def execPgMainLost (s : State) : Host.Outcome State Fault Refusal := .next (s.run Chip.mainLost)

/-- PG_MAIN_GOOD (R339). -/
def execPgMainGood (s : State) : Host.Outcome State Fault Refusal := .next (s.run Chip.mainBack)

/-- CORE_COMMON_START (R331): of a device alone; in a group the strobe is the common start. -/
def execCoreCommonStart (s : State) : Host.Outcome State Fault Refusal :=
  .next (s.run fun c => if c.alone then c.coreStart else c)

/-- EN_RISE (R336). -/
def execEnRise (i : RailId) (s : State) : Host.Outcome State Fault Refusal := .next (s.run fun c => c.onDelay i.val)

/-- RAIL_GOOD (R328). -/
def execRailGood (i : RailId) (s : State) : Host.Outcome State Fault Refusal := .next (s.run fun c => c.railUp i.val)

/-- PG_TMO of a rail whose enable is high and that is not good (R336). -/
def Chip.tmoOut (c : Chip) (i : Nat) : Chip := if c.railEn i && !c.railPg i && !c.inDown then c.noPg i else c

/-- PG_TMO (R336). -/
def execPgTmo (i : RailId) (s : State) : Host.Outcome State Fault Refusal := .next (s.run fun c => c.tmoOut i.val)

/-- RAIL_LOST (R341). -/
def execRailLost (i : RailId) (s : State) : Host.Outcome State Fault Refusal := .next (s.run fun c => c.railGone i.val)

/-- A domain comes up; the planner re-plans at a power-up and after a bank's measurement, and a bank whose cells could not be
measured receives the factors of the plan in force (R334, R372). -/
def Chip.domainOn (c : Chip) (k : Nat) (calOk : Bool) (cells : List CellReading) : Chip :=
  let d := c.domOn k calOk cells
  if c.domUp k || !d.domUp k then d
  else if k = 16 ∨ (k < 16 ∧ calOk) then d.replan
  else if k < 16 then d.planBank k else d

/-- DOMAIN_UP (R334). -/
def execDomainUp (k : Fin 20) (calOk : Bool) (cells : List CellReading) (s : State) :
    Host.Outcome State Fault Refusal :=
  .next (s.run fun c => c.domainOn k.val calOk cells)

/-- The first lock of the CK_CARD PLL after PD16 came up (R36). -/
def Chip.pllUp (c : Chip) : Chip := { c with seq := { c.seq with cardLock := true } }

/-- PLL_LOCK (R36). -/
def execPllLock (s : State) : Host.Outcome State Fault Refusal := .next (s.run fun c => c.inCore Chip.pllUp)

/-- OFF_START (R338). -/
def execOffStart (s : State) : Host.Outcome State Fault Refusal := .next (s.run Chip.offStart)

/-- EN_DROP (R338). -/
def execEnDrop (i : RailId) (s : State) : Host.Outcome State Fault Refusal := .next (s.run fun c => c.offDelay i.val)

/-- CORE_OFF_START (R338). -/
def execCoreOffStart (s : State) : Host.Outcome State Fault Refusal := .next (s.run Chip.coreOffStart)

/-- STUCK_ON (R338): the PG of a rail whose enable is low is still high. -/
def execStuckOn (i : RailId) (s : State) : Host.Outcome State Fault Refusal :=
  .next (s.run fun c => if c.railEn i.val then c else c.seqEvt DRG_SEQ_EVT.STUCK_ON)

/-- TOFF has elapsed (R339). A cold reset that is pending takes place as the sequencer leaves TOFF_WAIT. -/
def Chip.toffEnd (c : Chip) : Chip :=
  if c.seqState ≠ sqTOFFWAIT then c
  else if c.on DRG_SEQ_STAT.COLD_PEND 0 then c.setSeqState sqOFF else c.toffOver

/-- TOFF_EXPIRY (R339). -/
def execToffExpiry (s : State) : Host.Outcome State Fault Refusal := .next (s.run Chip.toffEnd)

/-- RAIL_RETRY_START (R343). -/
def execRailRetryStart (i : RailId) (s : State) : Host.Outcome State Fault Refusal := .next (s.run fun c => c.retryGo i.val)

/-- PG_UNEXP (R344). -/
def execPgUnexp (i : RailId) (s : State) : Host.Outcome State Fault Refusal :=
  .next (s.run fun c => if c.railEn i.val then c else c.seqEvt DRG_SEQ_EVT.PG_UNEXP)

/-! ## PMBus and the bellows (R347–R351) -/

/-- PMBUS_POLL (R347). -/
def execPmbusPoll (s : State) : Host.Outcome State Fault Refusal :=
  .next (s.run fun c => if c.seq.linkLock then c.pmbPoll else c)

/-- PMBUS_TRANSACTION_END (R348). -/
def execPmbusTransactionEnd (j : RailId) (result : PmbResult) (s : State) : Host.Outcome State Fault Refusal :=
  .next (s.run fun c => c.pmbEnd j.val result)

/-- BELLOWS_GO (R349). -/
def execBellowsGo (p : Path) (dir entry dwell : Nat) (s : State) : Host.Outcome State Fault Refusal :=
  .next (s.run fun c => c.drgWrite p fun c => c.bellowsStart (dir % 4) (entry % 32) (dwell % 65536))

/-- BELLOWS_STOP (R351). -/
def execBellowsStop (p : Path) (s : State) : Host.Outcome State Fault Refusal :=
  .next (s.run fun c => c.drgWrite p fun c => c.bellowsAbort 7)

/-- The phase of a margin. -/
def Chip.belPhase (c : Chip) (ph : BelPh) (code : Nat) : Chip :=
  { c.put DRG_BEL_STAT.STATE 0 code with pmb := { c.pmb with bel := { c.pmb.bel with phase := ph } } }

/-- The transactions of the margin's entry are complete. -/
def Chip.belSent (c : Chip) : Chip := c.pmbDrop (fun t => decide (t.entry = c.pmb.bel.entry))

/-- The target and OPERATION are written, and the dwell starts (R350 step 2). -/
def Chip.belSet (c : Chip) : Chip := if c.pmb.bel.phase = .setting then c.belSent.belPhase .dwell 2 else c

/-- The dwell ends: READ_VOUT is taken, and OPERATION 0x80 goes out (R350 steps 3 and 4). -/
def Chip.belDwell (c : Chip) (vout : Nat) : Chip :=
  if c.pmb.bel.phase = .dwell then
    let j := c.pmb.bel.entry
    let c := (c.put DRG_BEL_RES.VOUT_RAW 0 vout).put DRG_BEL_STAT.REMAIN 0 0
    (c.pmbAsk [pmbGet j 0x8B 2, pmbPut j 0x01 [0x80]]).belPhase .restoring 3
  else c

/-- The restoring write completes: AVS resumes, and the margin is DONE (R350 step 4). -/
def Chip.belDone (c : Chip) : Chip :=
  if c.pmb.bel.phase = .restoring then c.belSent.bellowsFree.put DRG_BEL_STAT.STATE 0 4 else c

/-- MARGIN_SET (R350). -/
def execMarginSet (s : State) : Host.Outcome State Fault Refusal := .next (s.run Chip.belSet)

/-- DWELL_END (R350). -/
def execDwellEnd (vout : Nat) (s : State) : Host.Outcome State Fault Refusal := .next (s.run fun c => c.belDwell vout)

/-- MARGIN_RESTORED (R350). -/
def execMarginRestored (s : State) : Host.Outcome State Fault Refusal := .next (s.run Chip.belDone)

/-! ## The group (R352–R357) -/

/-- SEQ_SYNC_DRIVE (R352). -/
def execSeqSyncDrive (s : State) : Host.Outcome State Fault Refusal := .next (s.run Chip.syncDrive)

/-- SEQ_SYNC_EDGE (R352). -/
def execSeqSyncEdge (elapsedUs : Nat) (s : State) : Host.Outcome State Fault Refusal :=
  .next (s.run fun c => c.syncEdge elapsedUs)

/-- HELLO of a device in OFF or WAIT_START (R353, R474). -/
def Chip.helloOut (c : Chip) : Chip :=
  if c.seqState = sqOFF ∨ c.seqState = sqWAITSTART then c.seqFrame 0x01 [c.grp.dev, c.seqState, c.kln.baseOn.toNat] else c

/-- JOIN_REQ of a device that waits for a stage while the group runs (R353, R354): stage 1 in WAIT_START, stage 2 in
WAIT_IMAGE with its image applied. A supervisor that has missed the strobe of its own START asks itself. -/
def Chip.joinOut (c : Chip) : Chip :=
  if c.alone then c
  else if c.isSup then
    if c.seqState = sqWAITSTART ∧ c.grp.stage1Sent then c.joinReq c.grp.dev 1
    else if c.seqState = sqWAITIMAGE ∧ c.kln.baseOn ∧ c.grp.stage2Sent then c.joinReq c.grp.dev 2
    else c
  else
    let ask := fun (c : Chip) (stage : Nat) =>
      { c.seqFrame 0x05 [stage] with grp := { (c.seqFrame 0x05 [stage]).grp with joinAsked := true } }
    if c.seqState = sqWAITSTART then ask c 1 else if c.seqState = sqWAITIMAGE ∧ c.kln.baseOn then ask c 2 else c

/-- HELLO_TX (R353). -/
def execHelloTx (s : State) : Host.Outcome State Fault Refusal := .next (s.run Chip.helloOut)

/-- JOIN_REQ_TX (R353). -/
def execJoinReqTx (s : State) : Host.Outcome State Fault Refusal := .next (s.run Chip.joinOut)

/-- HELLO_RX (R354). -/
def execHelloRx (d : DevId) (s : State) : Host.Outcome State Fault Refusal :=
  .next (s.run fun c => c.frameIn d.val .seq fun c => (c.hear d.val).startOne false)

/-- A START arrives from the supervisor (R352). -/
def Chip.startIn (c : Chip) (stage mask : Nat) : Chip :=
  let d := c.get DRG_GRP_STAT.SUP_DEV 0
  c.frameIn d .seq fun c =>
    let c := c.hear d
    { c with grp := { c.grp with rxStage := stage % 256, rxMask := mask % 16,
                                 named := if stage % 256 = 1 then c.grp.named ||| mask % 16 else c.grp.named } }

/-- START_RX (R352). -/
def execStartRx (stage : Nat) (mask : Nat) (s : State) : Host.Outcome State Fault Refusal :=
  .next (s.run fun c => c.startIn stage mask)

/-- STAGE_DONE of a device (R353, R354): stage 1 with the image applied makes it ready for stage 2, stage 2 completes its
start in the group. -/
def Chip.stageIn (c : Chip) (d stage : Nat) (image : Bool) : Chip :=
  let c := c.hear d
  if stage = 1 then
    if image then
      { c with grp := { c.grp with ready := if c.grp.ready.contains d then c.grp.ready else c.grp.ready ++ [d] } }.startTwo false
    else c
  else if stage = 2 then c.putBit DRG_GRP_STAT.JOINED 0 d true else c

/-- STAGE_DONE_RX (R354). -/
def execStageDoneRx (d : DevId) (stage : Nat) (image : Bool) (s : State) : Host.Outcome State Fault Refusal :=
  .next (s.run fun c => c.frameIn d.val .seq fun c => c.stageIn d.val stage image)

/-- DOWN_NOTICE_RX (R399). -/
def execDownNoticeRx (d : DevId) (_trigger : Nat) (s : State) : Host.Outcome State Fault Refusal :=
  .next (s.run fun c => c.frameIn d.val .seq fun c => (c.hear d.val).peerGone d.val)

/-- JOIN_REQ_RX (R354). -/
def execJoinReqRx (d : DevId) (stage : Nat) (s : State) : Host.Outcome State Fault Refusal :=
  .next (s.run fun c => c.frameIn d.val .seq fun c => c.joinReq d.val stage)

/-- SUPERVISE_RX (R356). -/
def execSuperviseRx (d : DevId) (s : State) : Host.Outcome State Fault Refusal :=
  .next (s.run fun c => c.frameIn d.val .seq fun c => if c.orphan then c.hear d.val else (c.hear d.val).supervise d.val)

/-- GRP_WAIT_EXPIRY (R354). -/
def execGrpWaitExpiry (s : State) : Host.Outcome State Fault Refusal := .next (s.run fun c => c.startOne true)

/-- STAGE2_WAIT_EXPIRY (R354). -/
def execStage2WaitExpiry (s : State) : Host.Outcome State Fault Refusal := .next (s.run fun c => c.startTwo true)

/-- ORPHAN_TIMER (R355). -/
def execOrphanTimer (s : State) : Host.Outcome State Fault Refusal := .next (s.run Chip.orphanOut)

end Sys2Proof.Machine
end

