-- ==== Sys2Proof/Machine/Ageing.lean ====
section
/-! DEFINITION. The commands of the damper's clock, AVS, the ageing monitor, the spares and the wear record (R39, R359–R376). -/

namespace Sys2Proof.Machine

/-- 1 µs of the timebase passes (R216, R227, R360). -/
def Chip.microsecond (c : Chip) : Chip :=
  let c := { c with us := c.us + 1 }
  c.refill.deferTick

/-- DAMPER_REFILL (R360). -/
def execDamperRefill (s : State) : Host.Outcome State Fault Refusal := .next (s.run Chip.microsecond)

/-- 1 ms of Draught passes: the damper's computation (R361), the time in the sequencer's state, and a dwell that runs (R358). -/
def Chip.millisecond (c : Chip) (sensors : List Int) : Chip :=
  let c := (c.recompute sensors).incSat DRG_SEQ_STAT.STATE_MS 0
  if c.pmb.bel.phase = .dwell then c.put DRG_BEL_STAT.REMAIN 0 (c.get DRG_BEL_STAT.REMAIN 0 - 1) else c

/-- DAMPER_RECOMPUTE (R361). -/
def execDamperRecompute (sensors : List Int) (s : State) : Host.Outcome State Fault Refusal :=
  .next (s.run fun c => c.millisecond sensors)

/-- TJ_MAX has stayed below TJ_HOT − 5 °C for 100 ms (R367). -/
def Chip.coolAgain (c : Chip) : Chip :=
  if c.dmp.hot ∧ c.get DRG_DMP_STAT.TJ_MAX 0 + 5 < c.get DRG_DMP_CFG2.TJ_HOT 0 then { c with dmp := { c.dmp with hot := false } } else c

/-- HOT_RELEASE (R367). -/
def execHotRelease (s : State) : Host.Outcome State Fault Refusal := .next (s.run Chip.coolAgain)

/-- LONG_STARVE_EXPIRY (R366). -/
def execLongStarveExpiry (c : CtxId) (s : State) : Host.Outcome State Fault Refusal := .next (s.run fun d => d.promote c.val)

/-- AVS_STEP (R368): the delay monitors lie in PD16 and PD17. -/
def execAvsStep (m16 m17 : Int) (s : State) : Host.Outcome State Fault Refusal :=
  .next (s.run fun c => if c.domUp 16 && c.domUp 17 then c.avsStep m16 m17 else c)

/-- DERATE_FALL (R370): of PD17, or of PD16. -/
def execDerateFall (dom : Bool) (s : State) : Host.Outcome State Fault Refusal := .next (s.run fun c => c.derateFall dom)

/-- AGE_PERIOD has passed: a measurement starts (R371). -/
def Chip.measDue (c : Chip) : Chip := if c.wear.measRun || !c.domUp 16 then c else c.measStart

/-- AGE_PERIOD_EXPIRY (R371). -/
def execAgePeriodExpiry (s : State) : Host.Outcome State Fault Refusal := .next (s.run Chip.measDue)

/-- MEAS_REQ is written (R371, R377). -/
def Chip.measWrite (c : Chip) : Chip := (c.flag DRG_AGE_STAT.MEAS_REQ 0 true).measAsk

/-- AGE_MEAS_REQ (R371). -/
def execAgeMeasReq (p : Path) (s : State) : Host.Outcome State Fault Refusal := .next (s.run fun c => c.drgWrite p Chip.measWrite)

/-- AGE_MEAS_END (R372). -/
def execAgeMeasEnd (drift16 drift17 : Int) (worst : Fin 24) (s : State) : Host.Outcome State Fault Refusal :=
  .next (s.run fun c => c.measDone drift16 drift17 worst.val)

/-- A pass of the patrol has read every word (R373). What it finds is an SRAM_ECC_ERROR of its own; errors older than
24 hours no longer count against their row. -/
def Chip.patrolled (c : Chip) : Chip :=
  let c := c.incWrap DRG_SRAM_STAT.PATROL_CNT 0
  { c with wear := { c.wear with rowCe := c.wear.rowCe.filter (fun e => decide (c.wear.minutes < e.2 + 1440)) } }

/-- PATROL_PASS (R373). -/
def execPatrolPass (s : State) : Host.Outcome State Fault Refusal := .next (s.run fun c => c.inCore Chip.patrolled)

/-- SRAM_ECC_ERROR (R373). -/
def execSramEccError (row : Fin 256) (kind : EccKind) (s : State) : Host.Outcome State Fault Refusal :=
  .next (s.run fun c => c.sramError row.val kind)

/-- WEAR_RECORD_WRITE (R374). -/
def execWearRecordWrite (s : State) : Host.Outcome State Fault Refusal := .next (s.run Chip.wearWrite)

/-- A minute of a session's age passes (R285, R296). -/
def Chip.ageMinute (c : Chip) (n : Nat) : Chip :=
  if !c.sessHeld n then c
  else
    let c := c.incSat CRD_SESS_AGE.AGE_MIN n
    if c.ageLimit ≤ c.get CRD_SESS_AGE.AGE_MIN n then c.flag CRD_SESS_STAT.REKEY_DUE n true else c

/-- A minute passes: EQ_HOURS (R375), the age of the sessions (R285, R296), and the time left to overlays with a lifetime (R416). -/
def Chip.minute (c : Chip) : Chip :=
  let c := c.eqMinute
  let c := c.forN 64 Chip.ageMinute
  c.forN 8 (fun c i => c.put KLN_OVL_STAT.REMAIN i (c.get KLN_OVL_STAT.REMAIN i - 1))

/-- EQ_HOURS_UPDATE (R375). -/
def execEqHoursUpdate (s : State) : Host.Outcome State Fault Refusal := .next (s.run Chip.minute)

/-- LANE_HANDSHAKE_TIMEOUT (R39). -/
def execLaneHandshakeTimeout (l : LaneId) (s : State) : Host.Outcome State Fault Refusal :=
  .next (s.run fun c => c.laneTimeout l.val)

end Sys2Proof.Machine
end

