-- ==== Sys2Proof/Machine/AshCmds.lean ====
section
/-! DEFINITION. The commands of Ash: events, the pulse, windows, the journal, the safe state, warm reset, clock losses, forces,
injection and the heartbeat (R11, R24, R36, R112, R378–R402). -/

namespace Sys2Proof.Machine

/-- A write to a register of Ash, which lies in AON. -/
def Chip.ashWrite (c : Chip) (p : Path) (f : Chip → Chip) : Chip := c.hostWrite p blkASH true f

/-- A write of ASH_CMD, which the ports keep in the safe state (R389); a wrong KEY discards it with source 0x1C (R402). -/
def Chip.ashCmd (c : Chip) (p : Path) (key : Nat) (f : Chip → Chip) : Chip :=
  if !c.served p blkASH true true then c else if key ≠ 0x5A then c.refuse blkASH else f c

/-! ## Ash at work -/

/-- ASH_EVENT (R379). -/
def execAshEvent (s : State) : Host.Outcome State Fault Refusal := .next (s.run Chip.ashNext)

/-- The pulse ends (R391). -/
def Chip.pulseEnd (c : Chip) : Chip := c.withAlert fun c => { c with ash := { c.ash with pulse := false } }

/-- ALERT_PULSE_END (R391). -/
def execAlertPulseEnd (s : State) : Host.Outcome State Fault Refusal := .next (s.run Chip.pulseEnd)

/-- A window ends (R383). -/
def Chip.windowEnd (c : Chip) (u : FUnit) : Chip :=
  { c with ash := { c.ash with windows := c.ash.windows.filter (fun w => decide (w ≠ u)) } }

/-- CONSEQUENCE_WINDOW_END (R383). -/
def execConsequenceWindowEnd (u : FUnit) (s : State) : Host.Outcome State Fault Refusal := .next (s.run fun c => c.windowEnd u)

/-- NVS_JOURNAL_COPY (R394). -/
def execNvsJournalCopy (s : State) : Host.Outcome State Fault Refusal := .next (s.run Chip.journalCopy)

/-- A period of CK_AON passes, and Ash compares its two copies: a mismatch is source 0x00 and enters the safe state directly
(R387). -/
def Chip.selfCheck (c : Chip) (mismatch : Bool) : Chip :=
  let c := { c with tick := c.tick + 1 }
  if mismatch then c.ashJudge ⟨0x00, 0, 0, false⟩ else c

/-- ASH_SELF_CHECK (R387). -/
def execAshSelfCheck (mismatch : Bool) (s : State) : Host.Outcome State Fault Refusal := .next (s.run fun c => c.selfCheck mismatch)

/-! ## Detectors of the device -/

/-- STOKER_WATCHDOG (R379). -/
def execStokerWatchdog (s : State) : Host.Outcome State Fault Refusal := .next (s.run fun c => c.inCore fun c => c.raise 0x02 0)

/-- LOCKSTEP_MISMATCH (R24). -/
def execLockstepMismatch (s : State) : Host.Outcome State Fault Refusal := .next (s.run fun c => c.inCore fun c => c.raise 0x01 0)

/-- THERMAL_TRIP (R379). -/
def execThermalTrip (sensor : Fin 8) (s : State) : Host.Outcome State Fault Refusal :=
  .next (s.run fun c => c.raise 0x04 sensor.val)

/-- CK_CARD loses lock: the array stops at once, and source 0x06 fences every slot (R36, R323, R379). -/
def Chip.cardLost (c : Chip) : Chip :=
  if !c.seq.cardLock then c
  else ({ c with seq := { c.seq with cardLock := false } }.stopJobs stsFENCED 6).raise 0x06 0

/-- CK_CARD locks again (R379). -/
def Chip.cardBack (c : Chip) : Chip :=
  if c.seq.cardLock || !c.domUp 16 then c else { c with seq := { c.seq with cardLock := true } }.raise 0x07 0

/-- CK_CARD_LOCK_LOST (R36). -/
def execCkCardLockLost (s : State) : Host.Outcome State Fault Refusal := .next (s.run Chip.cardLost)

/-- CK_CARD_RELOCK (R379). -/
def execCkCardRelock (s : State) : Host.Outcome State Fault Refusal := .next (s.run Chip.cardBack)

/-- CK_LINK_LOCK_LOST (R379). -/
def execCkLinkLockLost (s : State) : Host.Outcome State Fault Refusal := .next (s.run Chip.linkLost)

/-- CK_LINK locks again: the PMBus master goes on with the transaction that waits (R34, R379). -/
def Chip.linkBack (c : Chip) : Chip :=
  if c.seq.linkLock then c else { c with seq := { c.seq with linkLock := true } }.pmbGo

/-- CK_LINK_RELOCK (R379). -/
def execCkLinkRelock (s : State) : Host.Outcome State Fault Refusal := .next (s.run Chip.linkBack)

/-- TAMPER_N_RELEASE (R390). -/
def execTamperNRelease (s : State) : Host.Outcome State Fault Refusal :=
  .next (s.run fun c => { c with ash := { c.ash with tamper := false } })

/-! ## ASH_CMD (R112, R381, R390) -/

/-- WARM (R390). -/
def execWarm (p : Path) (key : Nat) (s : State) : Host.Outcome State Fault Refusal :=
  .next (s.run fun c => c.ashCmd p key Chip.warmCmd)

/-- WARM_RESET_PROCEED (R112). -/
def execWarmResetProceed (s : State) : Host.Outcome State Fault Refusal := .next (s.run Chip.warmGo)

/-- LIFT_PORT (R381). -/
def execLiftPort (p : Path) (key : Nat) (ports : Nat) (s : State) : Host.Outcome State Fault Refusal :=
  .next (s.run fun c => c.ashCmd p key fun c => c.liftPorts44 ports)

/-! ## ASH_FORCE and ASH_INJ (R397, R398) -/

/-- FORCE_SLOT_SHORT (R398). -/
def execForceSlotShort (p : Path) (u : Nat) (s : State) : Host.Outcome State Fault Refusal :=
  .next (s.run fun c => c.ashWrite p fun c => c.forceWrite false 1 u)

/-- FORCE_SLOT_REMOVAL (R104). -/
def execForceSlotRemoval (p : Path) (u : Nat) (s : State) : Host.Outcome State Fault Refusal :=
  .next (s.run fun c => c.ashWrite p fun c => c.forceWrite false 2 u)

/-- FORCE_BANK_RAIL_FAULT (R398). -/
def execForceBankRailFault (p : Path) (u : Nat) (s : State) : Host.Outcome State Fault Refusal :=
  .next (s.run fun c => c.ashWrite p fun c => c.forceWrite false 3 u)

/-- FORCE_PEER_LOSS (R398). -/
def execForcePeerLoss (p : Path) (u : Nat) (s : State) : Host.Outcome State Fault Refusal :=
  .next (s.run fun c => c.ashWrite p fun c => c.forceWrite false 4 u)

/-- FORCE_PORT_LOSS (R398). -/
def execForcePortLoss (p : Path) (u : Nat) (s : State) : Host.Outcome State Fault Refusal :=
  .next (s.run fun c => c.ashWrite p fun c => c.forceWrite false 5 u)

/-- FORCE_EMBER_JOB_FAILURE (R398). -/
def execForceEmberJobFailure (p : Path) (u : Nat) (s : State) : Host.Outcome State Fault Refusal :=
  .next (s.run fun c => c.ashWrite p fun c => c.forceWrite false 6 u)

/-- FORCE_LIFT (R398). -/
def execForceLift (p : Path) (kind u : Nat) (s : State) : Host.Outcome State Fault Refusal :=
  .next (s.run fun c => c.ashWrite p fun c => c.forceWrite true kind u)

/-- INJECT (R397). -/
def execInject (p : Path) (src u : Nat) (s : State) : Host.Outcome State Fault Refusal :=
  .next (s.run fun c => c.ashWrite p fun c => c.injectWrite src u)

/-! ## The heartbeat (R399) -/

/-- HEARTBEAT_TX (R399). -/
def execHeartbeatTx (s : State) : Host.Outcome State Fault Refusal := .next (s.run Chip.heartTick)

/-- HEARTBEAT_RX (R399). -/
def execHeartbeatRx (d : DevId) (s : State) : Host.Outcome State Fault Refusal :=
  .next (s.run fun c => c.frameIn d.val .fault id)

/-- HEARTBEAT_MISS (R399). -/
def execHeartbeatMiss (d : DevId) (s : State) : Host.Outcome State Fault Refusal := .next (s.run fun c => c.peerGone d.val)

end Sys2Proof.Machine
end

