-- ==== Sys2Proof/Machine/Kiln.lean ====
section
/-! DEFINITION. The commands of Kiln and of Stoker's mailbox: images and overlays, challenges, grants, transitions, locks, roots
and the key transfer (R403–R455). -/

namespace Sys2Proof.Machine

/-! ## Images and overlays (R409–R419) -/

/-- A write to a register of Kiln, which lies in AON. -/
def Chip.klnWrite (c : Chip) (p : Path) (f : Chip → Chip) : Chip := c.hostWrite p blkKLN true f

/-- A command of KLN_IMG_CMD that takes the image KLN_IMG_ADDR names (R413). -/
def Chip.imgCmd (c : Chip) (p : Path) (op : ImgOp) (sram : List Host.Cell) : Chip :=
  c.klnWrite p fun c => c.imgStart op (imgBytes sram (c.get KLN_IMG_ADDR.OFFSET 0 * 64))

/-- APPLY_BASE (R413). -/
def execApplyBase (p : Path) (s : State) : Host.Outcome State Fault Refusal := .next (s.run fun c => c.imgCmd p .applyBase s.sram)

/-- STORE_BASE (R413). -/
def execStoreBase (p : Path) (s : State) : Host.Outcome State Fault Refusal := .next (s.run fun c => c.imgCmd p .storeBase s.sram)

/-- APPLY_OVL (R418). -/
def execApplyOvl (p : Path) (s : State) : Host.Outcome State Fault Refusal := .next (s.run fun c => c.imgCmd p .applyOvl s.sram)

/-- REMOVE_OVL (R419). -/
def execRemoveOvl (p : Path) (i : Nat) (s : State) : Host.Outcome State Fault Refusal :=
  .next (s.run fun c => c.klnWrite p fun c => c.removeCmd (i % 16))

/-- IMAGE_CHECK_END (R409). -/
def execImageCheckEnd (s : State) : Host.Outcome State Fault Refusal := .next (s.run fun c => c.imgChecked s.otp s.nvs)

/-- OVERLAY_COMMIT (R418). -/
def execOverlayCommit (s : State) : Host.Outcome State Fault Refusal := .next (s.run fun c => c.ovlCommit s.nvs)

/-- QUIET_TIMEOUT (R418). -/
def execQuietTimeout (s : State) : Host.Outcome State Fault Refusal := .next (s.run Chip.quietOut)

/-- LIFETIME_EXPIRY (R416). -/
def execLifetimeExpiry (i : Fin 8) (s : State) : Host.Outcome State Fault Refusal := .next (s.run fun c => c.ovlRemove i.val)

/-! ## The mailbox (R424, R425, R436–R456) -/

/-- KEY_XFER (R425). -/
def execKeyXfer (p : Path) (s : State) : Host.Outcome State Fault Refusal :=
  .next (s.run fun c => c.mbxGo p 0x21 true Chip.xferStart)

/-- CHALLENGE (R439). -/
def execChallenge (p : Path) (s : State) : Host.Outcome State Fault Refusal :=
  .next (s.run fun c => c.mbxGo p 1 true Chip.challenge)

/-- NONCE_EXPIRY (R439). -/
def execNonceExpiry (s : State) : Host.Outcome State Fault Refusal := .next (s.run Chip.dropNonce)

/-- ATTEST (R454). -/
def execAttest (p : Path) (s : State) : Host.Outcome State Fault Refusal :=
  .next (s.run fun c => c.mbxGo p 2 true fun c => c.attestOp s.otp)

/-- GRANT (R452). -/
def execGrant (p : Path) (s : State) : Host.Outcome State Fault Refusal :=
  .next (s.run fun c => c.mbxGo p 3 true fun c => c.grantOp s.otp s.nvs)

/-- REVOKE_GRANTS (R452). -/
def execRevokeGrants (p : Path) (s : State) : Host.Outcome State Fault Refusal :=
  .next (s.run fun c => c.mbxGo p 4 true Chip.revokeOp)

/-- TRANSITION (R443). -/
def execTransition (p : Path) (s : State) : Host.Outcome State Fault Refusal :=
  .next (s.run fun c => c.mbxGo p 5 true fun c => c.transitionOp p s.otp s.nvs)

/-- TRANSITION_STEP_END (R444). -/
def execTransitionStepEnd (s : State) : Host.Outcome State Fault Refusal := .next (s.run fun c => c.lcStepEnd s.otp)

/-- TENANT_LOCK (R453). -/
def execTenantLock (p : Path) (s : State) : Host.Outcome State Fault Refusal :=
  .next (s.run fun c => c.mbxGo p 6 true fun c => c.tlockOp s.otp s.nvs)

/-- ROOT_LOAD (R436). -/
def execRootLoad (p : Path) (s : State) : Host.Outcome State Fault Refusal :=
  .next (s.run fun c => c.mbxGo p 7 true fun c => c.rootLoadOp s.otp)

/-- ROOT_REVOKE (R437). -/
def execRootRevoke (p : Path) (s : State) : Host.Outcome State Fault Refusal :=
  .next (s.run fun c => c.mbxGo p 8 true fun c => c.rootRevokeOp s.otp s.nvs)

/-- VOTE_REPAIR (R449). -/
def execVoteRepair (p : Path) (s : State) : Host.Outcome State Fault Refusal :=
  .next (s.run fun c => c.mbxGo p 9 true fun c => c.voteRepairOp s.otp s.nvs)

end Sys2Proof.Machine
end

