-- ==== Sys2Proof/Machine/Bus.lean ====
section
/-! DEFINITION. Accesses of the host ports and the management SPI: what a register reads as (R6, R9), what a write does (R5–R9),
the memories (R7, R22, R302, R303), the register windows (R241–R243), the MSI-X structures (R460, R461), SPI frames
(R465–R469), and the cold reset (R11). -/

namespace Sys2Proof.Machine

/-! ## What an access meets -/

/-- Entries of the MSI-X table of a port (R460). -/
def Chip.msixCount (c : Chip) (x : Nat) : Nat := c.get FLU_HP_CFG.MSIX_LAST x + 1

/-- The UNIT of the access-error event of an access that meets no register and no memory, or a domain that is off (R6, R44, R379,
R460, R495); none where it meets one. -/
def Chip.holdsNothing (c : Chip) (p : Path) (a : Nat) : Option Nat :=
  if 0x2000000 ≤ a then some 0xFF
  else if 0x1000000 ≤ a then (if c.domUp 16 then none else some 0x08)
  else if 0xE00000 ≤ a then
    match portOf p with
    | none => some 0x09
    | some x => if a < 0xE00000 + 16 * c.msixCount x ∨ (0xE08000 ≤ a ∧ a < 0xE08040) then none else some 0x09
  else if 0xD80000 ≤ a then
    if (a < 0xD90000 ∨ (0xDC0000 ≤ a ∧ a < 0xDC8000)) ∧ c.domUp 17 then none else some blkEMB
  else
    match regAt (a / 4 * 4) with
    | some (r, i) => if c.regUp r i a then none else some (blkOf a)
    | none => some (blkOf a)

/-- A write that is served but meets nothing is discarded with the access-error event (R6). -/
def Chip.unmapped (c : Chip) (p : Path) (a : Nat) : Chip :=
  if !c.served p (blkOf a) true (decide (a = 0x200004)) then c
  else
    match c.holdsNothing p a with
    | some u => c.raise 0x09 u
    | none => c

/-! ## What a register reads as -/

/-- A word with one field replaced. -/
def withField (w lo width v : Nat) : Nat := w - w / 2 ^ lo % 2 ^ width * 2 ^ lo + v % 2 ^ width * 2 ^ lo

/-- The word with bit k set where `p k` holds. -/
def bitsOf (n : Nat) (p : Nat → Bool) : Nat := (List.range n).foldl (fun w k => if p k then w + 2 ^ k else w) 0

/-- A source can be forced or injected now (R397, R398): by injection, or by the KIND that raises it. -/
def Chip.forceOk (c : Chip) (s : Nat) : Bool :=
  (srcRow s).isSome && (c.forceAllowed true || (c.forceAllowed false && [0x10, 0x13, 0x21, 0x49, 0x41, 0x54].contains s))

/-- The record that ASH_JRN_SEL selects (R393–R395); the persistent journal reads 0 while PD19 is off (log entry 40). -/
def Chip.jrnSelected (c : Chip) (nvs : Nvs) : JrnRec :=
  let k := c.get ASH_JRN_SEL.INDEX 0
  if c.on ASH_JRN_SEL.NVS 0 then
    (if c.domUp 19 then tabGet ⟨0, 0, 0, 0⟩ nvs.journal k else ⟨0, 0, 0, 0⟩)
  else tabGet ⟨0, 0, 0, 0⟩ c.ash.journal (k % 512)

/-- The header word of a register window (R241–R243). -/
def WinX.header (w : WinX) : Nat :=
  if w.ready then w.words.length * 2 ^ 16 + w.oneShot.toNat * 2 ^ 9 + 2 ^ 8 + w.status
  else if w.consumed then stsCONSUMED else stsNOTREADY

/-- Data word j of a register window. -/
def WinX.data (w : WinX) (j : Nat) : Nat := if w.ready then w.words.getD j 0 else 0

/-- Word m of a register window: the header, then the data words. -/
def WinX.word (w : WinX) (m : Nat) : Nat := if m = 0 then w.header else w.data (m - 1)

/-- Host paths see a context: it is theirs, or the grant MEMREAD is held for reads (R302, R450). A sealed context reads zero
(R303). -/
def Chip.ctxSeen (c : Chip) (k : Nat) : Bool := c.ctxHost k || c.granted 4

/-- Fields that show other parts of the state: place, width and value of each. -/
def State.shown (s : State) (r : RegName) (i : Nat) : List (Nat × Nat × Nat) :=
  let c := s.chip
  match r with
  | .KLN_LC_STAT => [(28, 4, c.lcState)]
  | .KLN_ID_STAT => [(30, 2, idInUse s.otp), (4, 2, idStat s.otp 2), (2, 2, idStat s.otp 1), (0, 2, idStat s.otp 0)]
  | .KLN_ROOT_STAT =>
    [(8, 4, bitsOf 4 (fun k => (ownerKeys s.otp s.nvs).any (fun e => decide (e.1 = k)))),
     (0, 8, rootStat s.otp 0 + 4 * rootStat s.otp 1 + 16 * rootStat s.otp 2 + 64 * rootStat s.otp 3)]
  | .KLN_DBG_STAT =>
    let allowed := grantsAllowed c.lcState
    [(24, 8, allowed), (16, 8, if c.lcState = lcBlank then allowed else c.get KLN_DBG_STAT.HELD 0 &&& allowed)]
  | .KLN_NV_STAT => [(6, 2, voteStat s.nvs 3), (4, 2, voteStat s.nvs 2), (2, 2, voteStat s.nvs 1), (0, 2, voteStat s.nvs 0)]
  | .KLN_ID_PUB =>
    [(0, 32, match idPub s.otp with
      | some pub => leNat ((pub.drop (1 + 4 * i)).take 4)
      | none => 0)]
  | .KLN_CER_STAT =>
    match (if c.quorum then c.quorumOf (c.get KLN_CER_STAT.ROLE_X 0) (c.get KLN_CER_STAT.ROLE_Y 0) else none) with
    | some (x, y) => [(31, 1, 1), (18, 2, x), (16, 2, y)]
    | none => [(31, 1, 0), (18, 2, 0), (16, 2, 0)]
  | .DRG_RAIL_PG => [(31, 1, c.mainOk.toNat)]
  | .DRG_SEQ_SLOT => if 4 ≤ i ∧ i < 20 then [(31, 1, (c.inPlan i).toNat)] else []
  | .DRG_GRP_STAT => [(30, 2, c.grp.dev), (28, 2, c.grp.size), (26, 1, c.isSup.toNat)]
  | .DRG_KZ_STAT => [(6, 2, c.peerOf i), (1, 1, (!c.kzUsed i).toNat)]
  | .DRG_DMP_STAT =>
    [(24, 8, c.dmp.main * 100 / c.mainDepth), (16, 8, min 255 (c.dmp.pWork / 2500)), (8, 8, min 255 (c.dmp.pEff / 2500))]
  | .DRG_DMP_EVT => [(8, 6, bitsOf 6 (fun t => c.dmp.reqs.any (fun q => decide (q.tier = t))))]
  | .DRG_WEAR_STAT => [(24, 8, min 255 (c.get DRG_WEAR_HRS.EQ_HOURS 0 * 100 / (16 * 105192)))]
  | .ASH_STAT =>
    [(31, 1, c.safe.toNat), (30, 1, c.ash.tamper.toNat), (29, 1, c.alertLow.toNat),
     (28, 1, (decide (c.seqState = sqREDUCED)).toNat), (16, 8, min 255 c.ash.windows.length)]
  | .ASH_FENCE_SLOT => [(0, 32, bitsOf 32 (fun k => c.slotLine (32 * i + k)))]
  | .ASH_FENCE_UNIT =>
    [(16, 16, bitsOf 16 c.bankFenced),
     (8, 8, bitsOf 8 (fun k => c.ash.fences.any (fun f => match f.unit with | .ctx m => decide (m.val = k) | _ => false))),
     (4, 4, bitsOf 4 (fun k => c.ash.fences.any (fun f => match f.unit with | .peer m => decide (m.val = k) | _ => false))),
     (0, 2, bitsOf 2 c.portFenced)]
  | .ASH_FENCE_LANE =>
    [(0, 20, bitsOf 20 (fun k => c.ash.fences.any (fun f => match f.unit with | .lane m => decide (m.val = k) | _ => false)))]
  | .ASH_FORCE_STAT => [(8, 4, bitsOf 4 (c.forcedHeld 4))]
  | .ASH_JRN_REC => let j := c.jrnSelected s.nvs
    [(0, 32, [j.w0, j.w1, j.w2, j.w3].getD i 0)]
  | .ASH_JRN_PEND => [(0, 7, c.ash.nvsPend.length)]
  | .ASH_SRC_CFG =>
    match srcRow i with
    | some (cls, react) => [(9, 1, (c.forceOk i).toNat), (8, 1, (decide (6 ≤ i)).toNat), (4, 2, cls), (0, 4, react)]
    | none => []
  | .FLU_RING_STAT => [(16, 8, c.inflight i), (0, 12, (c.ring i).arrivals.length + (c.unadmitted i).length)]
  | .FLU_STACK_STAT =>
    [(16, 13, c.staleHandles.length),
     (0, 13, (c.routes.filter (fun h => c.on FLU_STACK_ACT.MOVING h)).length)]
  | .FLU_SCHED_STAT =>
    [(16, 9, c.poolUsed),
     (0, 4, bitsOf 4 (fun k => c.definedRings.any (fun q => c.on FLU_RING_STAT.DEFERRED q && decide (c.get FLU_RING_CFG.CLASS q = k))))]
  | .FLU_PORT_STAT =>
    [(16, 10, (c.definedRings.filter (fun q => decide (c.owner q = i))).length), (0, 1, c.get FLU_HP_STAT.DL_UP i)]
  | .FLU_LANE_STAT => [(26, 2, c.get DRG_AVS_STAT.DER16 0)]
  | .FLU_LIVE => [(0, 32, bitsOf 32 (fun k => c.live (32 * i + k)))]
  | .FLU_HP_STAT => [(1, 1, (c.serving i).toNat)]
  | .HTH_SLOT_STAT => [(18, 2, c.trialClass i), (17, 1, (c.slotFenced i).toNat)]
  | .HTH_SLOT_ATR =>
    (List.range 4).map (fun b => (8 * b, 8, ((c.slot (i / 9)).atr.getD (4 * (i % 9) + b) 0).toNat))
  | .HTH_SLOT_ESTAT => [(7, 1, (c.pres i).toNat), (6, 1, (c.killLine (bankOf i)).toNat)]
  | .HTH_BANK_ESTAT => [(0, 1, (c.killLine i).toNat)]
  | .HTH_SLOT_ELEC => if isOperator i then [] else [(10, 2, c.get HTH_BANK_CFG.CLASS (bankOf i))]
  | .HTH_BMON_THR =>
    let cls := c.get HTH_BANK_CFG.CLASS i
    if cls = 3 then [(16, 8, 100), (8, 8, 84)] else if cls = 2 then [(16, 8, 148), (8, 8, 132)] else [(16, 8, 228), (8, 8, 212)]
  | .HTH_MON_STAT => match monOf .HTH_MON_CFG i with | some m => [(18, 2, c.modeEff m)] | none => []
  | .HTH_BMON_STAT => match monOf .HTH_BMON_CFG i with | some m => [(18, 2, c.modeEff m)] | none => []
  | .DRG_RMON_STAT => match monOf .DRG_RMON_CFG i with | some m => [(18, 2, c.modeEff m)] | none => []
  | .CRD_STAT => [(8, 4, if c.get DRG_AVS_STAT.DER16 0 = 0 then 0 else 0xF)]
  | .EMB_STAT =>
    [(24, 4, c.ember.running.getD 0), (23, 1, c.ember.running.isSome.toNat), (21, 1, c.arrayFenced.toNat),
     (19, 2, c.get DRG_AVS_STAT.DER17 0),
     (0, 8, bitsOf 8 (fun k => decide (c.ctxState k = esQUEUED ∨ c.ctxState k = esSUSPENDED)))]
  | .EMB_RES => [(0, 32, (c.ctx (i / 512)).win.word (i % 512))]
  | .STK_MBX_RES => [(0, 32, c.kln.mbx.word i)]
  | _ => []

/-- What an instance of a register reads as. -/
def State.regWord (s : State) (r : RegName) (i : Nat) : Nat :=
  (s.shown r i).foldl (fun w f => withField w f.1 f.2.1 f.2.2) (s.chip.word r i)

/-- The context whose registers an instance belongs to (R302). -/
def ctxOfReg (r : RegName) (i : Nat) : Option Nat :=
  if [RegName.EMB_JOB, .EMB_DST, .EMB_SCR, .EMB_CMD, .EMB_CSTAT, .EMB_BEATS, .EMB_WAIT, .EMB_LERR].contains r then some i
  else if r = .EMB_RES then some (i / 512) else none

/-- Bytes of a memory as a little-endian number (R19). -/
def memWord (m : List Host.Cell) (a len : Nat) : Nat := leNat (memReadBytes m a len)

/-- An access that a memory accepts: 1, 2, 4 or 8 bytes, aligned (R7). -/
def memAccess (a size : Nat) : Bool := [1, 2, 4, 8].contains size && decide (a % size = 0)

/-- Addresses of a memory: Ember's operand and list memory, and the SRAM window. -/
def isMemory (a : Nat) : Bool := (decide (0xD80000 ≤ a) && decide (a < 0xE00000)) || decide (0x1000000 ≤ a)

/-- The mailbox status word: the SPI reads it whatever else is off (R44). -/
def mailboxWord (p : Path) (a : Nat) : Bool := decide (p = .spi) && decide (a / 4 * 4 = 0x301000)

/-- The operand memory or the list slice of a context is open to host paths: it is theirs, and IDLE, DONE or FENCED (R302). -/
def Chip.ctxOpen (c : Chip) (k : Nat) : Bool :=
  [esIDLE, esDONE, esFENCED].contains (c.ctxState k) && !c.ctxPaired k

/-- A word of a context in DONE lies in the destination of its one-shot result (R302); `pair` asks for that of a pair job only. -/
def Chip.oneShotAt (c : Chip) (k word : Nat) (pair : Bool) : Bool :=
  match (c.ctx k).shy with
  | some (b, l, p) => decide (c.ctxState k = esDONE) && (p || !pair) && decide (b ≤ word) && decide (word < b + l)
  | none => false

/-- An operand word that always reads zero: the destination of a one-shot result in DONE (R302), of the context's own job or of the
pair job that had it as its second half; or any word of a sealed context (R303). -/
def Chip.opHidden (c : Chip) (k word : Nat) : Bool :=
  (c.ctx k).isSealed || c.oneShotAt k word false || (decide (k % 2 = 1) && c.oneShotAt (k - 1) (word + 1024) true)

/-- An exchange staging buffer whose slot is locked by its tenant: MEMREAD does not show it. Bits 0 to 3 of the mask are ignored
(R453). -/
def State.stageHidden (s : State) (off : Nat) : Bool :=
  (tabGet [] s.chip.stage (off / stageSize)).any (fun n => decide (4 ≤ n) && s.chip.bit KLN_TLOCK.LOCK (n / 32) (n % 32))

/-- A read of `len` bytes of the SRAM window at an offset (R7, R22, R373, R450, R453). -/
def State.sramRead (s : State) (off len : Nat) : Nat × Option Nat :=
  let c := s.chip
  if !memAccess off len then (0, some 0x08)
  else if off < 0x400000 ∧ (!c.granted 4 ∨ s.stageHidden off) then (0, some 0x08)
  else if c.wear.groupsOut.contains (off / 65536) then (0, none)
  else (memWord s.sram off len, none)

/-- A read of `len` bytes of Ember's memories (R7, R302, R303, R450). -/
def State.emberRead (s : State) (a len : Nat) : Nat × Option Nat :=
  let c := s.chip
  let isList := decide (0xDC0000 ≤ a)
  let k := if isList then (a - 0xDC0000) / 0x1000 else (a - 0xD80000) / 0x2000
  if !memAccess a len || !c.ctxSeen k || (c.ctxHost k && !c.ctxOpen k) then (0, some blkEMB)
  else if isList then (if (c.ctx k).isSealed then 0 else memWord s.listmem (a - 0xDC0000) len, none)
  else if c.opHidden k ((a - 0xD80000) % 0x2000 / 8) then (0, none)
  else (memWord s.opmem (a - 0xD80000) len, none)

/-- A read of the port-local range (R460). -/
def Chip.portLocalRead (c : Chip) (p : Path) (a : Nat) : Nat :=
  match portOf p with
  | some x =>
    let y := c.port x
    if a < 0xE08000 then (let j := (a - 0xE00000) / 4; tabGet (if j % 4 = 3 then 1 else 0) y.msix j)
    else bitsOf 32 (fun k => y.pba.contains (8 * (a / 4 * 4 - 0xE08000) + k))
  | none => 0

/-- A read of one access: a 32-bit word of register space, or `len` bytes of a memory. Its value, and the UNIT of the
access-error event it raises. -/
def State.busRead (s : State) (p : Path) (a : Nat) (len : Nat := 4) : Nat × Option Nat :=
  let c := s.chip
  if mailboxWord p a ∧ !c.domUp 16 then (stsNOTREADY, none)
  else if !mailboxWord p a ∧ !c.served p (blkOf a) false false then (0, none)
  else
    match c.holdsNothing p a with
    | some u => (0, some u)
    | none =>
      if 0x1000000 ≤ a then s.sramRead (a - 0x1000000) len
      else if 0xE00000 ≤ a then (c.portLocalRead p a, none)
      else if 0xD80000 ≤ a then s.emberRead a len
      else
        match regAt (a / 4 * 4) with
        | none => (0, some (blkOf a))
        | some (r, i) =>
          match ctxOfReg r i with
          | some k =>
            if !c.ctxSeen k then (if r = .EMB_RES ∧ i % 512 = 0 then stsNOTREADY else 0, some blkEMB)
            else if r = .EMB_RES ∧ (c.ctx k).isSealed then (0, none)
            else (s.regWord r i, none)
          | none => (s.regWord r i, none)

/-- A read of the last data word of a one-shot result that is ready (R243): the result is consumed, and an Ember result is zeroed
where it lies. -/
def Chip.consume (c : Chip) (w : Window) (j : Nat) : Chip :=
  let x := match w with
    | .ember k => (c.ctx k.val).win
    | .mailbox => c.kln.mbx
  if !x.ready || !x.oneShot || decide (j + 1 ≠ x.words.length) then c
  else
    let gone := WinX.mk [] stsCONSUMED true false true
    match w with
    | .ember k =>
      let x := c.ctx k.val
      let c := c.setCtx k.val { x with win := gone }
      match x.shy with
      | some (b, l, _) => c.mem (.wipeOp (ctxBase k.val + 8 * b) (8 * l))
      | none => c
    | .mailbox => { c with kln := { c.kln with mbx := gone } }

/-- What a read does beside returning its word: a result window that lies there may be consumed. -/
def Chip.readEffect (c : Chip) (a : Nat) : Chip :=
  match regAt (a / 4 * 4) with
  | some (.EMB_RES, i) =>
    if h : i / 512 < 8 then
      (if i % 512 = 0 || !c.ctxHost (i / 512) then c else c.consume (.ember ⟨i / 512, h⟩) (i % 512 - 1))
    else c
  | some (.STK_MBX_RES, i) => if i = 0 then c else c.consume .mailbox (i - 1)
  | _ => c

/-- What one access that reads leaves behind: the access-error event for the UNIT it answered, or the effect of a read that is
served. -/
def Chip.readDone (c : Chip) (p : Path) (a : Nat) (err : Option Nat) : Chip :=
  match err with
  | some u => c.raise 0x09 u
  | none => if (c.served p (blkOf a) false false ∨ mailboxWord p a) ∧ (c.holdsNothing p a).isNone then c.readEffect a else c

/-- One access that reads: its value, and the state after it. -/
def State.read (s : State) (p : Path) (a : Nat) : Nat × State :=
  let r := s.busRead p a
  (r.1, s.run fun c => c.readDone p a r.2)

/-- The parts of a request of `size` bytes: what it covers of each unit of `unit` bytes, as address and length. -/
def unitParts (unit a size : Nat) : List (Nat × Nat) :=
  if size = 0 then []
  else (List.range ((a + size - 1) / unit - a / unit + 1)).map (fun k =>
    let lo := max a ((a / unit + k) * unit)
    (lo, min (a + size) ((a / unit + k + 1) * unit) - lo))

/-- The accesses a request makes, in ascending order: one for each 32-bit word of register space, one for each aligned 8-byte
unit of a memory (R462). -/
def accessParts (a size : Nat) : List (Nat × Nat) :=
  (unitParts 8 a size).flatMap (fun e => if isMemory e.1 then [e] else unitParts 4 e.1 e.2)

/-- A read request of a path: what each of its accesses returns is sent back. A narrower read of register space returns the bytes
it addresses of the whole word (R6, R462). -/
def State.hostRead (s : State) (p : Path) (a size : Nat) : State :=
  (accessParts a size).foldl (fun s e =>
    let r := s.busRead p (if isMemory e.1 then e.1 else e.1 / 4 * 4) e.2
    let v := if isMemory e.1 ∨ e.2 = 4 then r.1 else r.1 / 256 ^ (e.1 % 4) % 256 ^ e.2
    s.run fun c => (c.readDone p e.1 r.2).emit (.value p e.1 v)) s

/-! ## Writes of registers -/

/-- FLU_RING_CMD: RESET wins, then HANDBACK, PAUSE, RESUME (R240). -/
def Chip.ringCmdWord (c : Chip) (r v : Nat) : Chip :=
  if v.testBit 0 then c.resetRing r
  else if v.testBit 3 then c.handBack r
  else if v.testBit 1 then c.pauseRing r
  else if v.testBit 2 then c.resumeRing r
  else c

/-- A queue base: writable in DISABLED only (R210). -/
def Chip.ringBase (c : Chip) (reg : RegName) (r v : Nat) : Chip :=
  if c.ringState r = rsDISABLED then c.plainWrite reg r v else c.ringEvt FLU_RING_EVT.CTL_REFUSED r

/-- A register of a ring pair that only its owner writes (R208). -/
def Chip.ownerWrite (c : Chip) (p : Path) (reg : RegName) (r v : Nat) : Chip :=
  if !c.ownerPath p r then c.ringEvt FLU_RING_EVT.NOT_OWNER r
  else
    match reg with
    | .FLU_SQ_DB => c.sqBell p r (v % 4096)
    | .FLU_CQ_DB => c.cqBell p r (v % 4096)
    | .FLU_RING_CTL => c.ringCtl p r v
    | .FLU_RING_CMD => c.ringCmdWord r v
    | _ => c.ringBase reg r v

/-- HTH_SLOT_CMD (R84, R110). -/
def Chip.slotCmdWord (c : Chip) (n v : Nat) : Chip :=
  let force := v.testBit 4
  match v % 8 with
  | 0 => if force then c.forceCmd n else c
  | 1 => c.activateCmd n
  | 2 => c.warmResetCmd n force
  | 3 => c.deactivateCmd n force
  | 4 => c.slotReset n
  | _ => c.slotEvt HTH_SLOT_EVT.CMD_REFUSED n

/-- DRG_SEQ_CMD. DOWN and UP together are a shutdown and then a power-up (R346). -/
def Chip.seqCmdWord (c : Chip) (p : Path) (v : Nat) : Chip :=
  let c := if v.testBit 3 then c.coldCmd p else c
  let c := if v.testBit 0 then c.downCmd else c
  let c := if v.testBit 1 then c.upCmd else c
  if v.testBit 2 then c.retryCmd (v / 2 ^ 24 % 32) else c

/-- DRG_BEL_CMD: STOP wins over GO. -/
def Chip.belCmdWord (c : Chip) (v : Nat) : Chip :=
  if v.testBit 30 then c.bellowsAbort 7
  else if v.testBit 31 then c.bellowsStart (v / 2 ^ 24 % 4) (v / 2 ^ 16 % 32) (v % 65536) else c

/-- ASH_CMD (R402): a write whose KEY is not 0x5A is discarded and raises 0x1C. -/
def Chip.ashCmdWord (c : Chip) (v : Nat) : Chip :=
  if v / 2 ^ 24 % 256 ≠ 0x5A then c.refuse blkASH
  else
    let c := if v / 2 ^ 8 % 4 = 0 then c else c.liftPorts44 (v / 2 ^ 8 % 4)
    if v.testBit 0 then c.warmCmd else c

/-- ASH_FORCE: LIFT wins over GO (R402). -/
def Chip.forceWord (c : Chip) (v : Nat) : Chip :=
  if v.testBit 30 then c.forceWrite true (v / 2 ^ 24 % 16) (v % 256)
  else if v.testBit 31 then c.forceWrite false (v / 2 ^ 24 % 16) (v % 256) else c

/-- FLU_STACK_CMD (R259, R261). -/
def Chip.stackCmdWord (c : Chip) (v : Nat) : Chip :=
  match v / 2 ^ 28 % 16 with
  | 0 => c
  | 1 => c.clearStale (v % 4096) (v.testBit 12) (v / 2 ^ 20 % 256)
  | 2 => (c.stackRes 2 0 (v % 4096)).rebuildTrigger
  | op => c.stackRes op 6 (v % 4096)

/-- KLN_IMG_CMD (R413). -/
def Chip.imgCmdWord (c : Chip) (sram : List Host.Cell) (v : Nat) : Chip :=
  let bytes := imgBytes sram (c.get KLN_IMG_ADDR.OFFSET 0 * 64)
  match v / 2 ^ 28 % 16 with
  | 1 => c.imgStart .applyBase bytes
  | 2 => c.imgStart .storeBase bytes
  | 3 => c.imgStart .applyOvl bytes
  | 4 => c.removeCmd (v % 16)
  | op => c.imgRefuse op (if c.imgBusy then 0xE else 0xF)

/-- STK_MBX_CMD (R424, R436–R455). -/
def Chip.mbxCmdWord (c : Chip) (p : Path) (otp : List (Nat × Nat)) (nvs : Nvs) (v : Nat) : Chip :=
  if !v.testBit 31 then c
  else
    match v % 256 with
    | 1 => c.mbxGo p 1 true Chip.challenge
    | 2 => c.mbxGo p 2 true fun c => c.attestOp otp
    | 3 => c.mbxGo p 3 true fun c => c.grantOp otp nvs
    | 4 => c.mbxGo p 4 true Chip.revokeOp
    | 5 => c.mbxGo p 5 true fun c => c.transitionOp p otp nvs
    | 6 => c.mbxGo p 6 true fun c => c.tlockOp otp nvs
    | 7 => c.mbxGo p 7 true fun c => c.rootLoadOp otp
    | 8 => c.mbxGo p 8 true fun c => c.rootRevokeOp otp nvs
    | 9 => c.mbxGo p 9 true fun c => c.voteRepairOp otp nvs
    | 0x21 => c.mbxGo p 0x21 true Chip.xferStart
    | op => c.mbxGo p op false id

/-- The registers of an Ember context (R302, R326). -/
def Chip.ctxRegWrite (c : Chip) (r : RegName) (k v : Nat) : Chip :=
  if !c.ctxHost k then c.raise 0x09 blkEMB
  else if r = .EMB_CMD then (if v.testBit 1 then c.jobAbort k else if v.testBit 0 then c.jobGo k else c)
  else if r = .EMB_JOB ∨ r = .EMB_DST ∨ r = .EMB_SCR then
    if (c.ctxState k ≠ esIDLE ∧ c.ctxState k ≠ esDONE) ∨ c.ctxPaired k then (c.flag EMB_CSTAT.CMD_REFUSED k true).refuse blkEMB
    else if r ≠ .EMB_JOB ∧ (libOp (c.get EMB_JOB.OP k)).isSome then c
    else
      let c := c.plainWrite r k v
      if r ≠ .EMB_JOB then c
      else
        let op := c.get EMB_JOB.OP k
        let c := if libOneShot op then c.flag EMB_JOB.ONE_SHOT k true else c
        if op = 3 then c.flag EMB_JOB.PAIR k true else c
  else c.plainWrite r k v

/-- A 32-bit write that reached an instance of a register. -/
def Chip.regWrite (c : Chip) (sram : List Host.Cell) (otp : List (Nat × Nat)) (nvs : Nvs) (p : Path) (r : RegName) (i v : Nat) : Chip :=
  match r with
  | .ASH_CMD => c.ashCmdWord v
  | .ASH_FORCE => c.forceWord v
  | .ASH_INJ => if v.testBit 31 then c.injectWrite (v / 2 ^ 16 % 256) (v % 256) else c
  | .HTH_SLOT_CMD => c.slotCmdWord i v
  | .HTH_LEG_CMD => let c := c.onesWrite .HTH_LEG_CMD i (v / 2 * 2)
    if v.testBit 0 then c.measReq i else c
  | .FLU_SQ_DB => c.ownerWrite p r i v
  | .FLU_CQ_DB => c.ownerWrite p r i v
  | .FLU_RING_CTL => c.ownerWrite p r i v
  | .FLU_RING_CMD => c.ownerWrite p r i v
  | .FLU_SQ_BASE_LO => c.ownerWrite p r i v
  | .FLU_SQ_BASE_HI => c.ownerWrite p r i v
  | .FLU_CQ_BASE_LO => c.ownerWrite p r i v
  | .FLU_CQ_BASE_HI => c.ownerWrite p r i v
  | .FLU_STACK_CMD => c.stackCmdWord v
  | .DRG_SEQ_CMD => c.seqCmdWord p v
  | .DRG_BEL_CMD => c.belCmdWord v
  | .DRG_AGE_STAT => if v.testBit 31 then c.measWrite else c
  | .KLN_IMG_CMD => c.imgCmdWord sram v
  | .STK_MBX_CMD => c.mbxCmdWord p otp nvs v
  | .STK_MBX_DATA => if c.on STK_MBX_STAT.BUSY 0 then c else c.plainWrite r i v
  | _ =>
    match ctxOfReg r i with
    | some k => c.ctxRegWrite r k v
    | none => c.plainWrite r i v

/-! ## Writes of memories -/

/-- A 32-bit write of the port's MSI-X table (R460, R461): a vector that it unmasks sends the message that waits for it. -/
def Chip.msixWrite (c : Chip) (x off v : Nat) : Chip :=
  let j := off / 4
  let vec := j / 4
  let y := c.port x
  let y := { y with msix := tabPut id (if j % 4 = 3 then 1 else 0) y.msix j (v % 2 ^ 32) }
  let c := c.setPort x y
  if j % 4 = 3 ∧ !v.testBit 0 ∧ y.pba.contains vec ∧ c.portOpen x then
    (c.setPort x { y with pba := y.pba.filter (fun k => decide (k ≠ vec)) }).emit (.msix x vec)
  else c

/-- A write of `size` bytes at an address by a path. -/
def Chip.busWrite (c : Chip) (sram : List Host.Cell) (otp : List (Nat × Nat)) (nvs : Nvs) (p : Path) (a size v : Nat) : Chip :=
  if !c.served p (blkOf a) true (decide (a = 0x200004)) then c
  else
    match c.holdsNothing p a with
    | some u => c.raise 0x09 u
    | none =>
      if 0x1000000 ≤ a then
        let off := a - 0x1000000
        if off < 0x400000 ∨ c.wear.groupsOut.contains (off / 65536) ∨ !memAccess a size then c.raise 0x09 0x08
        else c.mem (.sram off (leBytes size v))
      else if 0xE00000 ≤ a then
        match portOf p with
        | some x =>
          if size ≠ 4 ∨ a % 4 ≠ 0 then c.raise 0x09 0x09
          else if a < 0xE08000 then c.msixWrite x (a - 0xE00000) v else c
        | none => c
      else if 0xD80000 ≤ a then
        let isList := decide (0xDC0000 ≤ a)
        let k := if isList then (a - 0xDC0000) / 0x1000 else (a - 0xD80000) / 0x2000
        if !c.ctxHost k || !c.ctxOpen k || !memAccess a size then c.raise 0x09 blkEMB
        else if isList then c.mem (.listWrite (a - 0xDC0000) (leBytes size v))
        else c.mem (.opWrite (a - 0xD80000) (leBytes size v))
      else if size ≠ 4 ∨ a % 4 ≠ 0 then c.raise 0x09 (blkOf a)
      else
        match regAt a with
        | some (r, i) => c.regWrite sram otp nvs p r i (v % 2 ^ 32)
        | none => c

/-- A write request of a path, its accesses in ascending order (R462), and what follows each. -/
def State.write (s : State) (p : Path) (a size v : Nat) : State :=
  (accessParts a size).foldl (fun s e =>
    s.run fun c => c.busWrite s.sram s.otp s.nvs p e.1 e.2 (v / 256 ^ (e.1 - a) % 256 ^ e.2)) s

/-- REGISTER_WRITE (R9). -/
def execRegisterWrite (p : Path) (addr size value : Nat) (s : State) : Host.Outcome State Fault Refusal :=
  .next (s.write p addr size value)

/-- UNMAPPED_ACCESS (R6): a read request, whatever lies at its address, or a write to an address that holds nothing. -/
def execUnmappedAccess (p : Path) (addr : Nat) (req : Request) (s : State) : Host.Outcome State Fault Refusal :=
  .next (if req.isWrite then
      (accessParts addr req.size).foldl (fun s e => s.run fun c => c.unmapped p e.1) s
    else s.hostRead p addr req.size)

/-- The address of data word j of a window. -/
def windowAddr (w : Window) (j : Nat) : Nat :=
  match w with
  | .ember k => 0xD04004 + 0x800 * k.val + 4 * j
  | .mailbox => 0x301004 + 4 * j

/-- The last data word of what a window presents, word 0 where it presents nothing. -/
def Chip.lastWord (c : Chip) (w : Window) : Nat :=
  match w with
  | .ember k => (c.ctx k.val).win.words.length - 1
  | .mailbox => c.kln.mbx.words.length - 1

/-- RESULT_LAST_WORD_READ (R243): a read of a part of the word; a narrower read consumes as a full one does
(R6). -/
def execResultLastWordRead (p : Path) (part : WordPart) (s : State) : Host.Outcome State Fault Refusal :=
  .next (s.hostRead p (windowAddr part.w (s.chip.lastWord part.w) + part.off) part.size)

/-- COLD_RESET (R11). -/
def execColdReset (s : State) : Host.Outcome State Fault Refusal := .next s.coldReset

/-! ## The management SPI (R465–R469) -/

/-- The status byte (R469). -/
def Chip.spiStatus (c : Chip) : Nat :=
  c.safe.toNat + 2 * c.ash.tamper.toNat + 4 * c.alertLow.toNat + 8 * (decide (c.seqState = sqREDUCED)).toNat
    + 16 * (decide (c.lcState = lcLocked)).toNat + 32 * (c.domUp 16 && c.on STK_MBX_STAT.BUSY 0).toNat

/-- MARK for a frame whose CRC byte is complete (R467); none for a frame cut before it. LEN beyond 63 is a bad frame (log
entry 41). -/
def spiMark (b : List Byte) : Option Nat :=
  let op := (b.getD 0 0).toNat
  let len := (b.getD 5 0).toNat + 1
  let total := if op = 0x02 then 7 + 4 * len else 7
  if op ≠ 0x02 ∧ op ≠ 0x0B then (if b = [] then none else some 0xE1)
  else if b.length < total then none
  else if crc8 (b.take (total - 1)) ≠ (b.getD (total - 1) 0).toNat then some 0x5A
  else if beNat ((b.drop 1).take 4) % 4 ≠ 0 ∨ 64 < len then some 0xE1
  else some 0xA5

/-- The words of a read frame, read in ascending order, and the state after them. -/
def State.spiWords (s : State) (a : Nat) : Nat → List Nat × State
  | 0 => ([], s)
  | n + 1 =>
    let r := s.read .spi (a % 2 ^ 32)
    let rest := r.2.spiWords (a + 4) n
    (r.1 :: rest.1, rest.2)

/-- The words of a write frame, written in ascending order. -/
def State.spiPut (s : State) (a : Nat) (words : List (List Byte)) : State :=
  (words.zipIdx).foldl (fun s e => s.write .spi ((a + 4 * e.2) % 2 ^ 32) 4 (beNat e.1)) s

/-- The bytes of a list in words of four. -/
def wordsOf (b : List Byte) (n : Nat) : List (List Byte) := (List.range n).map (fun k => (b.drop (4 * k)).take 4)

/-- The status byte goes out. -/
def State.spiAsk (s : State) : State :=
  s.act fun c => if c.seq.linkLock then c.emit (.spiReply [BitVec.ofNat 8 c.spiStatus]) else c

/-- A frame with a request of an ADDR: checked, carried out, and answered with MARK and what it read (R466, R467). CK_LINK samples the
inputs: without its lock nothing is received (R34). -/
def State.spiFrame (s : State) (b : List Byte) : State :=
  if b.head? = some 5 then s.spiAsk
  else if !s.chip.seq.linkLock then s
  else match spiMark b with
  | none => s
  | some mark =>
    if mark ≠ 0xA5 then s.act fun c => c.emit (.spiReply [BitVec.ofNat 8 mark])
    else
      let a := beNat ((b.drop 1).take 4)
      let n := (b.getD 5 0).toNat + 1
      if b.getD 0 0 = 0x02 then (s.spiPut a (wordsOf (b.drop 6) n)).act fun c => c.emit (.spiReply [0xA5])
      else
        let r := s.spiWords a n
        let out := [0xA5] ++ r.1.flatMap (beBytes 4)
        r.2.act fun c => c.emit (.spiReply (out ++ [BitVec.ofNat 8 (crc8 out)]))

/-- SPI_READ (R466). -/
def execSpiRead (bytes : List Byte) (s : State) : Host.Outcome State Fault Refusal := .next (s.spiFrame bytes)

/-- SPI_WRITE (R466). -/
def execSpiWrite (bytes : List Byte) (s : State) : Host.Outcome State Fault Refusal := .next (s.spiFrame bytes)

/-- SPI_STATUS (R469). -/
def execSpiStatus (s : State) : Host.Outcome State Fault Refusal := .next s.spiAsk

/-- SPI_FRAME_CUT (R467): the frame is discarded. -/
def execSpiFrameCut (s : State) : Host.Outcome State Fault Refusal := .next (s.act fun c => c)

end Sys2Proof.Machine
end

