-- ==== Sys2Proof/Machine/Host.lean ====
section
/-! DEFINITION. The host ports' links and the Kuzagan links: training, serving and errors (R459–R464), symbol lock, INIT, keying,
forwards, acknowledgement and live notices (R471–R477, R492). -/

namespace Sys2Proof.Machine

/-! ## Host ports (R459–R464) -/

/-- Messages of vectors that are unmasked go out once the port is open (R461). -/
def Chip.msixFlush (c : Chip) (x : Nat) : Chip :=
  if !c.portOpen x then c
  else
    let y := c.port x
    let go := y.pba.filter (fun v => !c.msixMasked x v)
    go.foldl (fun c v => c.emit (.msix x v)) (c.setPort x { y with pba := y.pba.filter (fun v => !go.contains v) })

/-- The port stops serving: LOSS_TMO runs (R232, R459). -/
def Chip.servingEnds (c : Chip) (x : Nat) : Chip := c.setPort x { c.port x with lossRun := true }

/-- The port serves (again). Before LOSS_TMO has expired it is not lost, and what the link-down stalled goes on (R240, R459). -/
def Chip.servingBegins (c : Chip) (x : Nat) : Chip :=
  let c := (c.setPort x { c.port x with lossRun := false }).msixFlush x
  if c.on FLU_PORT_STAT.LOST x || c.portFenced x then c
  else
    (c.definedRings.filter (fun r => decide (c.owner r = x))).foldl (fun c r =>
      if c.ringState r = rsRUNNING ∨ c.ringState r = rsPAUSED ∨ c.ringState r = rsERROR then c.serveRing r else c) c

/-- The link of a port goes down (R459, R464). -/
def Chip.linkDown (c : Chip) (x : Nat) : Chip :=
  if c.on FLU_HP_STAT.DL_UP x then ((c.linkGone x).servingEnds x).raise 0x40 x else c

/-- PERST_N of a port changes: while it is low the link is down; its rise lets the port train (R459). -/
def Chip.perst (c : Chip) (x : Nat) (level : Bool) : Chip :=
  let c := c.setPort x { c.port x with perstLow := !level }
  if level then c else c.linkDown x

/-- PERST_N (R459). -/
def execPerstN (x : PortId) (level : Bool) (s : State) : Host.Outcome State Fault Refusal :=
  .next (s.run fun c => c.perst x.val level)

/-- A port that may train does, at a speed and width it offers (R429, R457, R459). -/
def Chip.trained (c : Chip) (x speed width : Nat) : Chip :=
  if !c.domUp 18 || (c.port x).perstLow || decide (c.lcState = lcBlank) || !([1, 2, 4].contains width)
      || decide (speed = 0) || decide (c.get FLU_HP_CFG.MAX_SPEED x + 1 < speed) then c
  else ((c.flag FLU_HP_STAT.DL_UP x true).put FLU_HP_STAT.SPEED x speed).put FLU_HP_STAT.WIDTH x width

/-- LINK_TRAINED (R459). -/
def execLinkTrained (x : PortId) (speed width : Nat) (s : State) : Host.Outcome State Fault Refusal :=
  .next (s.run fun c => c.trained x.val speed width)

/-- A configuration write changes the D-state, BME or MSE of a port whose link is up. -/
def Chip.configChange (c : Chip) (x : Nat) (d3hot bme mse : Bool) : Chip :=
  if !c.domUp 18 || !c.on FLU_HP_STAT.DL_UP x then c
  else
    let was := c.serving x
    let c := ((c.put FLU_HP_STAT.DSTATE x (if d3hot then 3 else 0)).flag FLU_HP_STAT.BME x bme).flag FLU_HP_STAT.MSE x mse
    if was && !c.serving x then c.servingEnds x else if !was && c.serving x then c.servingBegins x else c

/-- PCIE_CONFIG_CHANGE (R459). -/
def execPcieConfigChange (x : PortId) (d3hot bme mse : Bool) (s : State) : Host.Outcome State Fault Refusal :=
  .next (s.run fun c => c.configChange x.val d3hot bme mse)

/-- PCIE_LINK_DOWN (R464). -/
def execPcieLinkDown (x : PortId) (s : State) : Host.Outcome State Fault Refusal := .next (s.run fun c => c.linkDown x.val)

/-- A PCIe error of a port whose domain is up is counted and reported (R464). -/
def Chip.pcieErr (c : Chip) (x : Nat) (kind : PcieErr) : Chip :=
  if !c.domUp 18 then c
  else match kind with
    | .correctable => (c.incSat FLU_HP_ERR.CE_CNT x).raise 0x42 x
    | .uncorrectable => (c.incSat FLU_HP_ERR.UE_CNT x).raise 0x43 x
    | .fatal => (c.incSat FLU_HP_ERR.UE_CNT x).raise 0x44 x

/-- PCIE_ERROR (R464). -/
def execPcieError (x : PortId) (kind : PcieErr) (s : State) : Host.Outcome State Fault Refusal :=
  .next (s.run fun c => c.pcieErr x.val kind)

/-- INBOUND_UNSUPPORTED (R462, R464): the request of a link that is up is answered Unsupported Request. -/
def execInboundUnsupported (x : PortId) (_kind : InboundKind) (s : State) : Host.Outcome State Fault Refusal :=
  .next (s.run fun c => if c.on FLU_HP_STAT.DL_UP x.val then c.pcieErr x.val .correctable else c)

/-- The path of a port. -/
def portPath (x : Nat) : Path := if x = 0 then .portA else .portB

/-- MSIX_TABLE_WRITE (R461): a 32-bit write at an offset of the port's table. -/
def execMsixTableWrite (x : PortId) (offset value : Nat) (s : State) : Host.Outcome State Fault Refusal :=
  .next (s.run fun c => c.busWrite s.sram s.otp s.nvs (portPath x.val) (0xE00000 + offset % 0x8000) 4 value)

/-! ## Kuzagan links: lock and INIT (R471) -/

/-- A receiver gains symbol lock and sends INIT. -/
def Chip.symLock (c : Chip) (k : Nat) : Chip :=
  if !c.seq.linkLock || !c.kzUsed k || c.on DRG_KZ_STAT.SYM_LOCK k then c
  else (c.flag DRG_KZ_STAT.SYM_LOCK k true).emit (c.kzInit k)

/-- SYMBOL_LOCK (R471). -/
def execSymbolLock (k : KzId) (s : State) : Host.Outcome State Fault Refusal := .next (s.run fun c => c.symLock k.val)

/-- Symbol lock is lost: INIT_OK and KEYED end. -/
def Chip.symLoss (c : Chip) (k : Nat) : Chip :=
  if c.on DRG_KZ_STAT.SYM_LOCK k then ((c.kzUnkey k).kzGone k).flag DRG_KZ_STAT.SYM_LOCK k false else c

/-- SYMBOL_LOCK_LOSS (R471). -/
def execSymbolLockLoss (k : KzId) (s : State) : Host.Outcome State Fault Refusal := .next (s.run fun c => c.symLoss k.val)

/-! ## Keying (R476) -/

/-- INIT arrives. A match starts every sequence number at 0 and lets keying run; a mismatch bars the link for good (R471). -/
def Chip.initIn (c : Chip) (env : Env) (k dev size : Nat) : Chip :=
  if !c.on DRG_KZ_STAT.SYM_LOCK k || decide (c.get DRG_KZ_STAT.KZ_ERR k = 1) then c
  else if dev = c.peerOf k ∧ size = c.grp.size then
    ((((c.kzUnkey k).kzGone k).flag DRG_KZ_STAT.INIT_OK k true).heartBeat (c.peerOf k)).keyStart env k
  else ((c.kzUnkey k).kzGone k).put DRG_KZ_STAT.KZ_ERR k 1

/-- INIT_RX (R471). -/
def execInitRx (k : KzId) (dev size : Nat) (s : State) : Host.Outcome State Fault Refusal :=
  .next (s.run fun c => c.initIn s.env k.val dev size)

/-- A frame is discarded: it counts in CRC_CNT, is reported, and a NAK carries the SEQ expected of a class (R472, R477). -/
def Chip.kzDiscard (c : Chip) (k : Nat) (cls : KzClass) : Chip :=
  ((c.incSat DRG_KZ_STAT.CRC_CNT k).raise 0x48 k).emit (c.kzAck k cls (tabGet 0 (c.kzOf k).rxSeq (clsCode cls)) true)

/-- The class that a frame that cannot be read is answered for: its header says nothing that holds, so a free value names it. -/
def Chip.freeClass (c : Chip) : KzClass := if c.freeVal % 3 = 0 then .seq else if c.freeVal % 3 = 1 then .fault else .traffic

/-- A frame that R472 discards arrives on a link that is up. -/
def Chip.kzBad (c : Chip) (k : Nat) : Chip :=
  if c.on DRG_KZ_STAT.INIT_OK k then c.draw.kzDiscard k c.freeClass else c

/-- A link control frame of a length that its type has, on a link that is up. -/
def Chip.controlIn (c : Chip) (k len want : Nat) (f : Chip → Chip) : Chip :=
  if !c.on DRG_KZ_STAT.INIT_OK k then c else if len ≠ want then c.kzBad k else f (c.heartBeat (c.peerOf k))

/-- KEY1_RX (R476). -/
def execKey1Rx (k : KzId) (payload : List Byte) (s : State) : Host.Outcome State Fault Refusal :=
  .next (s.run fun c => c.controlIn k.val payload.length 346 fun c => c.key1In s.env k.val payload)

/-- Frames of a class that were held go out while there is room (R477). -/
def Chip.kzDrain1 (c : Chip) (k : Nat) (cls : KzClass) : Chip :=
  let x := c.kzOf k
  match x.txq.find? (fun f => decide (f.cls = cls)) with
  | some f =>
    if c.on DRG_KZ_STAT.INIT_OK k && c.kzRoom k cls then
      (c.setKz k { x with txq := x.txq.erase f }).kzPut k cls f.typ f.tag f.body
    else c
  | none => c

/-- The window of a class is filled. -/
def Chip.kzDrain (c : Chip) (k : Nat) (cls : KzClass) : Chip := c.forN 8 (fun c _ => c.kzDrain1 k cls)

/-- KEY2 arrives: the link is keyed, or keying starts over after 100 ms (R476 step 4). -/
def Chip.key2In (c : Chip) (k : Nat) (payload : List Byte) : Chip :=
  let x := c.kzOf k
  if x.txKey = [] then c
  else if payload = x.peerCf then
    ((c.setKz k { x with k2ok := true }).flag DRG_KZ_STAT.KEYED k true).kzDrain k .traffic
  else
    let c := (c.kzUnkey k).put DRG_KZ_STAT.KZ_ERR k 3
    c.setKz k { c.kzOf k with restart := true }

/-- KEY2_RX (R476). -/
def execKey2Rx (k : KzId) (payload : List Byte) (s : State) : Host.Outcome State Fault Refusal :=
  .next (s.run fun c => c.controlIn k.val payload.length 16 fun c => c.key2In k.val payload)

/-- KEY1_RESEND (R476). -/
def execKey1Resend (k : KzId) (s : State) : Host.Outcome State Fault Refusal := .next (s.run fun c => c.key1Again s.env k.val)

/-- KEYING_RESTART (R476). -/
def execKeyingRestart (k : KzId) (s : State) : Host.Outcome State Fault Refusal := .next (s.run fun c => c.keyRestart s.env k.val)

/-! ## Forwards (R28, R475, R476) -/

/-- Frames of the traffic class of a peer are dropped: it is fenced, or was declared lost (R381, R492). -/
def Chip.peerFenced (c : Chip) (d : Nat) : Bool :=
  c.ash.fences.any (fun f => match f.unit with | .peer m => decide (m.val = d) | _ => false)

/-- A frame of the traffic class arrives, its payload as it is on the wire: encrypted, with the GCM tag behind. On a keyed link
one with the expected SEQ whose tag holds is accepted, and `f` takes its plaintext; a fourth failure in a row ends KEYED. -/
def Chip.trafficIn (c : Chip) (k typ least seq tag : Nat) (wire : List Byte) (f : Chip → List Byte → Chip) : Chip :=
  let d := c.peerOf k
  if !c.on DRG_KZ_STAT.INIT_OK k then c
  else if wire.length < least + 16 ∨ 1040 < wire.length then c.kzDiscard k .traffic
  else
    let c := c.heartBeat d
    let nak := c.kzAck k .traffic (tabGet 0 (c.kzOf k).rxSeq 2) true
    if !c.on DRG_KZ_STAT.KEYED k || !c.domUp 16 || c.peerFenced d then c
    else if seq % 256 ≠ tabGet 0 (c.kzOf k).rxSeq 2 then c.emit nak
    else
      let x := c.kzOf k
      let n := wire.length - 16
      let hdr := [BitVec.ofNat 8 (64 * 2 + typ), BitVec.ofNat 8 seq, BitVec.ofNat 8 (64 * d + 16 * c.grp.dev), 0]
        ++ beBytes 2 n ++ beBytes 2 tag
      let iv := [BitVec.ofNat 8 d, BitVec.ofNat 8 c.grp.dev, 0, 0] ++ beBytes 8 (x.rxCtr + 1)
      let r := gcm256 x.rxKey iv hdr (wire.take n) true
      if r.2 ≠ wire.drop n then
        if 3 ≤ x.gcmFails then (c.kzUnkey k).emit nak else (c.setKz k { x with gcmFails := x.gcmFails + 1 }).emit nak
      else f ((c.setKz k { x with rxCtr := x.rxCtr + 1, gcmFails := 0 }).kzAccept k .traffic) r.1

/-- What a segment adds to the data received so far of its direction: nothing where it does not follow on. -/
def segJoin (got seg : List Byte) : List Byte :=
  if beNat ((seg.drop 4).take 2) = got.length then got ++ seg.drop 8 else got

/-- A forwarded leg whose command is complete is queued on its slot, or answered FENCED where the slot's live bit is 0. The frame
carries no class and no priority: free values stand for them (log entry 43). -/
def Chip.peerLeg (c : Chip) (k tag g : Nat) (apdu : List Byte) : Chip :=
  if g / 64 ≠ c.grp.dev ∨ !c.live g then c.forwardRsp k tag g stsFENCED []
  else
    let v := c.freeVal
    let c := c.draw
    { c with nextOrder := c.nextOrder + 1 }.enqueue (g % 64) ⟨.peer k tag, 513, v % 4, v / 4 % 8, c.nextOrder, false, true, apdu⟩

/-- A segment of a forwarded command (R475). -/
def Chip.cmdSegment (c : Chip) (k tag : Nat) (seg : List Byte) : Chip :=
  let x := c.kzOf k
  let g := (seg.getD 0 0).toNat
  let got := match x.inbound.find? (fun f => decide (f.tag = tag)) with
    | some f => f.got
    | none => []
  let all := segJoin got seg
  let rest := x.inbound.filter (fun f => decide (f.tag ≠ tag))
  let total := beNat ((seg.drop 2).take 2)
  if (seg.getD 1 0).toNat % 2 = 1 ∧ all.length = total then (c.setKz k { x with inbound := rest }).peerLeg k tag g all
  else c.setKz k { x with inbound := rest ++ [⟨tag, .peer k tag, g, total, all⟩] }

/-- FWD_CMD_RX (R475). -/
def execFwdCmdRx (k : KzId) (seq tag : Nat) (payload : List Byte) (s : State) : Host.Outcome State Fault Refusal :=
  .next (s.run fun c => c.trafficIn k.val 1 9 seq (tag % 65536) payload fun c seg => c.cmdSegment k.val (tag % 65536) seg)

/-- A segment of a forwarded response; after the LAST one the remote leg ends with the status it carries (R475). -/
def Chip.rspSegment (c : Chip) (k tag : Nat) (seg : List Byte) : Chip :=
  let x := c.kzOf k
  match x.fwds.find? (fun f => decide (f.tag = tag)) with
  | none => c
  | some f =>
    let all := segJoin f.got seg
    let total := beNat ((seg.drop 2).take 2)
    let rest := x.fwds.filter (fun q => decide (q.tag ≠ tag))
    if (seg.getD 1 0).toNat % 2 = 1 ∧ all.length = total then
      let c := c.setKz k { x with fwds := rest }
      match f.src with
      | .entry uid second =>
        c.legEnd uid second (seg.getD 6 0).toNat (all.take (all.length - 2)) (beNat (all.drop (all.length - 2))) 0
      | .peer _ _ => c
    else c.setKz k { x with fwds := rest ++ [{ f with got := all, total := total }] }

/-- FWD_RSP_RX (R475). -/
def execFwdRspRx (k : KzId) (seq tag : Nat) (payload : List Byte) (s : State) : Host.Outcome State Fault Refusal :=
  .next (s.run fun c => c.trafficIn k.val 2 8 seq (tag % 65536) payload fun c seg => c.rspSegment k.val (tag % 65536) seg)

/-! ## Acknowledgement (R477) -/

/-- Frames of a class up to and including one are acknowledged; nothing where that one does not wait. -/
def ackUpTo (cls : KzClass) (seq : Nat) (l : List KzFrame) : List KzFrame :=
  match (l.filter (fun f => decide (f.cls = cls))).findIdx? (fun f => decide (f.seq = seq)) with
  | none => l
  | some i => l.filter (fun f => decide (f.cls ≠ cls) || !(((l.filter (fun f => decide (f.cls = cls))).take (i + 1)).contains f))

/-- An ACK arrives. -/
def Chip.ackIn (c : Chip) (k : Nat) (cls : KzClass) (seq : Nat) : Chip :=
  if !c.on DRG_KZ_STAT.INIT_OK k then c
  else
    let c := c.heartBeat (c.peerOf k)
    (c.setKz k { c.kzOf k with unacked := ackUpTo cls (seq % 256) (c.kzOf k).unacked }).kzDrain k cls

/-- KZ_ACK_RX (R477). -/
def execKzAckRx (k : KzId) (cls : KzClass) (seq : Nat) (s : State) : Host.Outcome State Fault Refusal :=
  .next (s.run fun c => c.ackIn k.val cls seq)

/-- The frames of a class that wait for an ACK go out again, the oldest first and unchanged. Traffic frames wait while the link is
not keyed (R476, R477). -/
def Chip.kzResend (c : Chip) (k : Nat) (cls : KzClass) : Chip :=
  if !c.on DRG_KZ_STAT.INIT_OK k || (decide (cls = .traffic) && !(c.on DRG_KZ_STAT.KEYED k && c.domUp 16)) then c
  else
    let fs := (c.kzOf k).unacked.filter (fun f => decide (f.cls = cls))
    let c := if fs = [] then c else c.raise 0x48 k
    fs.foldl (fun c f =>
      let n := if cls = .traffic then f.body.length - 16 else f.body.length
      (c.incSat DRG_KZ_STAT.RETRY_CNT k).emit (kzOut k (c.kzHeader k cls f.typ f.seq n f.tag) f.body)) c

/-- A NAK arrives: the frames before the SEQ it expects have been accepted (log entry 44), the others go out again. -/
def Chip.nakIn (c : Chip) (k : Nat) (cls : KzClass) (seq : Nat) : Chip :=
  if !c.on DRG_KZ_STAT.INIT_OK k then c
  else
    let c := c.heartBeat (c.peerOf k)
    let x := c.kzOf k
    let last := (seq % 256 + 255) % 256
    ((c.setKz k { x with unacked := ackUpTo cls last x.unacked }).kzResend k cls).kzDrain k cls

/-- KZ_NAK_RX (R477). -/
def execKzNakRx (k : KzId) (cls : KzClass) (seq : Nat) (s : State) : Host.Outcome State Fault Refusal :=
  .next (s.run fun c => c.nakIn k.val cls seq)

/-- KZ_ACK_TIMEOUT (R477). -/
def execKzAckTimeout (k : KzId) (cls : KzClass) (s : State) : Host.Outcome State Fault Refusal :=
  .next (s.run fun c => c.kzResend k.val cls)

/-- KZ_INVALID_FRAME (R472). -/
def execKzInvalidFrame (k : KzId) (s : State) : Host.Outcome State Fault Refusal := .next (s.run fun c => c.kzBad k.val)

/-- The live bits of the local slots, one byte for eight slots (R474). -/
def Chip.liveBytes (c : Chip) : List Byte :=
  (List.range 8).map (fun j => BitVec.ofNat 8 (bitsOf 8 (fun i => c.liveLocal (8 * j + i))))

/-- LIVE_NOTICE_TX (R250, R473). -/
def execLiveNoticeTx (s : State) : Host.Outcome State Fault Refusal :=
  .next (s.run fun c => c.kzAll .fault 0x02 c.liveBytes)

end Sys2Proof.Machine
end

