-- ==== Sys2Proof/Machine/Dispatch.lean ====
section
/-! DEFINITION. The dispatch: one arm for each command, each a call of that command's meaning. -/

namespace Sys2Proof.Machine

/-- The effect of a command on everything but the queue. -/
def exec (i : Instr) (s : State) : Host.Outcome State Fault Refusal :=
  match i with
  | .registerWrite p addr size value => Sys2Proof.Machine.execRegisterWrite p addr size value s
  | .unmappedAccess p addr req => Sys2Proof.Machine.execUnmappedAccess p addr req s
  | .resultLastWordRead p part => Sys2Proof.Machine.execResultLastWordRead p part s
  | .coldReset => Sys2Proof.Machine.execColdReset s
  | .warm p key => Sys2Proof.Machine.execWarm p key s
  | .warmResetProceed => Sys2Proof.Machine.execWarmResetProceed s
  | .liftPort p key ports => Sys2Proof.Machine.execLiftPort p key ports s
  | .activate p n => Sys2Proof.Machine.execActivate p n s
  | .warmReset p n force => Sys2Proof.Machine.execWarmReset p n force s
  | .deactivate p n force => Sys2Proof.Machine.execDeactivate p n force s
  | .slotReset p n => Sys2Proof.Machine.execSlotReset p n s
  | .force p n => Sys2Proof.Machine.execForce p n s
  | .legMeasReq p n => Sys2Proof.Machine.execLegMeasReq p n s
  | .presRise x => Sys2Proof.Machine.execPresRise x s
  | .removal x => Sys2Proof.Machine.execRemoval x s
  | .imonHigh x => Sys2Proof.Machine.execImonHigh x s
  | .vmonFault n samples => Sys2Proof.Machine.execVmonFault n samples s
  | .iomonFault n samples => Sys2Proof.Machine.execIomonFault n samples s
  | .bmonFault b samples => Sys2Proof.Machine.execBmonFault b samples s
  | .rmonAlarm r samples => Sys2Proof.Machine.execRmonAlarm r samples s
  | .monitorGood x => Sys2Proof.Machine.execMonitorGood x s
  | .rawSeen x => Sys2Proof.Machine.execRawSeen x s
  | .monSettleExpiry dom => Sys2Proof.Machine.execMonSettleExpiry dom s
  | .monitorModeWrite p m mode => Sys2Proof.Machine.execMonitorModeWrite p m mode s
  | .monitorBlankEnd m => Sys2Proof.Machine.execMonitorBlankEnd m s
  | .latchedClear p m => Sys2Proof.Machine.execLatchedClear p m s
  | .insertionTimerExpiry n => Sys2Proof.Machine.execInsertionTimerExpiry n s
  | .inrushBudgetGrant n => Sys2Proof.Machine.execInrushBudgetGrant n s
  | .legMeasurementEnd n readings => Sys2Proof.Machine.execLegMeasurementEnd n readings s
  | .vccGood x => Sys2Proof.Machine.execVccGood x s
  | .vccTmo n => Sys2Proof.Machine.execVccTmo n s
  | .rstRise n => Sys2Proof.Machine.execRstRise n s
  | .atrCharReceived n byte parityOk inWindow => Sys2Proof.Machine.execAtrCharReceived n byte parityOk inWindow s
  | .atrWindowClose n => Sys2Proof.Machine.execAtrWindowClose n s
  | .initialWtExpiry n => Sys2Proof.Machine.execInitialWtExpiry n s
  | .policyDecision n decision => Sys2Proof.Machine.execPolicyDecision n decision s
  | .policyTimeout n => Sys2Proof.Machine.execPolicyTimeout n s
  | .negTmo n => Sys2Proof.Machine.execNegTmo n s
  | .inactiveRise n => Sys2Proof.Machine.execInactiveRise n s
  | .reactMinExpiry n => Sys2Proof.Machine.execReactMinExpiry n s
  | .clockChange n => Sys2Proof.Machine.execClockChange n s
  | .ppsResponseReceived n bytes parityOk => Sys2Proof.Machine.execPpsResponseReceived n bytes parityOk s
  | .t0CharReceived n byte parityOk => Sys2Proof.Machine.execT0CharReceived n byte parityOk s
  | .t0ErrorSignal x => Sys2Proof.Machine.execT0ErrorSignal x s
  | .wtExpiry n => Sys2Proof.Machine.execWtExpiry n s
  | .t1BlockReceived n bytes parityOk => Sys2Proof.Machine.execT1BlockReceived n bytes parityOk s
  | .cwtExpiry n => Sys2Proof.Machine.execCwtExpiry n s
  | .bwtExpiry n => Sys2Proof.Machine.execBwtExpiry n s
  | .phaseAStart n => Sys2Proof.Machine.execPhaseAStart n s
  | .phaseBReceived n bits => Sys2Proof.Machine.execPhaseBReceived n bits s
  | .phaseBTimeout n => Sys2Proof.Machine.execPhaseBTimeout n s
  | .linkUpAckRx x => Sys2Proof.Machine.execLinkUpAckRx x s
  | .linkUpAckTimeout n => Sys2Proof.Machine.execLinkUpAckTimeout n s
  | .turfDataRx n lead frame => Sys2Proof.Machine.execTurfDataRx n lead frame s
  | .turfNakRx n bits => Sys2Proof.Machine.execTurfNakRx n bits s
  | .turfWaitRx n bits => Sys2Proof.Machine.execTurfWaitRx n bits s
  | .turfLinkDownRx x => Sys2Proof.Machine.execTurfLinkDownRx x s
  | .turfInvalidFrame n bits => Sys2Proof.Machine.execTurfInvalidFrame n bits s
  | .frameTimeout n => Sys2Proof.Machine.execFrameTimeout n s
  | .turfRetx n => Sys2Proof.Machine.execTurfRetx n s
  | .retrain n => Sys2Proof.Machine.execRetrain n s
  | .dozeIdleExpiry n => Sys2Proof.Machine.execDozeIdleExpiry n s
  | .sqDoorbell p r value => Sys2Proof.Machine.execSqDoorbell p r value s
  | .cqDoorbell p r value => Sys2Proof.Machine.execCqDoorbell p r value s
  | .entryReceived r entries => Sys2Proof.Machine.execEntryReceived r entries s
  | .admissionRound => Sys2Proof.Machine.execAdmissionRound s
  | .damperGrant => Sys2Proof.Machine.execDamperGrant s
  | .commandPayloadReceived r index payload => Sys2Proof.Machine.execCommandPayloadReceived r index payload s
  | .mcmdBudgetGrant n => Sys2Proof.Machine.execMcmdBudgetGrant n s
  | .deadlineExpiry r index => Sys2Proof.Machine.execDeadlineExpiry r index s
  | .budgetCancel r => Sys2Proof.Machine.execBudgetCancel r s
  | .coalTimeExpiry r => Sys2Proof.Machine.execCoalTimeExpiry r s
  | .portLoss x => Sys2Proof.Machine.execPortLoss x s
  | .portServingAgain x => Sys2Proof.Machine.execPortServingAgain x s
  | .ringEn p r ctl => Sys2Proof.Machine.execRingEn p r ctl s
  | .pause p r => Sys2Proof.Machine.execPause p r s
  | .resume p r => Sys2Proof.Machine.execResume p r s
  | .reset p r => Sys2Proof.Machine.execReset p r s
  | .handback p r => Sys2Proof.Machine.execHandback p r s
  | .ringResetDone r => Sys2Proof.Machine.execRingResetDone r s
  | .dmaError r target => Sys2Proof.Machine.execDmaError r target s
  | .clearStale p handle leg gen => Sys2Proof.Machine.execClearStale p handle leg gen s
  | .rebuild p => Sys2Proof.Machine.execRebuild p s
  | .rebuildCommit => Sys2Proof.Machine.execRebuildCommit s
  | .epochSwap => Sys2Proof.Machine.execEpochSwap s
  | .copybackEnd => Sys2Proof.Machine.execCopybackEnd s
  | .moveEnd elapsedUs => Sys2Proof.Machine.execMoveEnd elapsedUs s
  | .liveNoticeRx d mask => Sys2Proof.Machine.execLiveNoticeRx d mask s
  | .rekeyAgeExpiry n => Sys2Proof.Machine.execRekeyAgeExpiry n s
  | .rekeyStart n => Sys2Proof.Machine.execRekeyStart n s
  | .rekeyRetryExpiry n => Sys2Proof.Machine.execRekeyRetryExpiry n s
  | .esHealthFail => Sys2Proof.Machine.execEsHealthFail s
  | .esStartupRetest pass => Sys2Proof.Machine.execEsStartupRetest pass s
  | .drbgReseed => Sys2Proof.Machine.execDrbgReseed s
  | .tamperN => Sys2Proof.Machine.execTamperN s
  | .go p c => Sys2Proof.Machine.execGo p c s
  | .abort p c => Sys2Proof.Machine.execAbort p c s
  | .listCheckDone c => Sys2Proof.Machine.execListCheckDone c s
  | .arrayDispatch => Sys2Proof.Machine.execArrayDispatch s
  | .yield => Sys2Proof.Machine.execYield s
  | .jobEnd => Sys2Proof.Machine.execJobEnd s
  | .wipeDone c => Sys2Proof.Machine.execWipeDone c s
  | .aged c => Sys2Proof.Machine.execAged c s
  | .columnFault col => Sys2Proof.Machine.execColumnFault col s
  | .eccUe c => Sys2Proof.Machine.execEccUe c s
  | .emberWatchdog c => Sys2Proof.Machine.execEmberWatchdog c s
  | .down p => Sys2Proof.Machine.execDown p s
  | .up p => Sys2Proof.Machine.execUp p s
  | .cold p => Sys2Proof.Machine.execCold p s
  | .retry p k => Sys2Proof.Machine.execRetry p k s
  | .pgMainLost => Sys2Proof.Machine.execPgMainLost s
  | .pgMainGood => Sys2Proof.Machine.execPgMainGood s
  | .coreCommonStart => Sys2Proof.Machine.execCoreCommonStart s
  | .enRise k => Sys2Proof.Machine.execEnRise k s
  | .railGood k => Sys2Proof.Machine.execRailGood k s
  | .pgTmo k => Sys2Proof.Machine.execPgTmo k s
  | .railLost k => Sys2Proof.Machine.execRailLost k s
  | .domainUp k calOk cells => Sys2Proof.Machine.execDomainUp k calOk cells s
  | .pllLock => Sys2Proof.Machine.execPllLock s
  | .offStart => Sys2Proof.Machine.execOffStart s
  | .enDrop k => Sys2Proof.Machine.execEnDrop k s
  | .coreOffStart => Sys2Proof.Machine.execCoreOffStart s
  | .stuckOn k => Sys2Proof.Machine.execStuckOn k s
  | .toffExpiry => Sys2Proof.Machine.execToffExpiry s
  | .railRetryStart k => Sys2Proof.Machine.execRailRetryStart k s
  | .pgUnexp k => Sys2Proof.Machine.execPgUnexp k s
  | .pmbusPoll => Sys2Proof.Machine.execPmbusPoll s
  | .pmbusTransactionEnd j result => Sys2Proof.Machine.execPmbusTransactionEnd j result s
  | .bellowsGo p dir entry dwell => Sys2Proof.Machine.execBellowsGo p dir entry dwell s
  | .bellowsStop p => Sys2Proof.Machine.execBellowsStop p s
  | .marginSet => Sys2Proof.Machine.execMarginSet s
  | .dwellEnd vout => Sys2Proof.Machine.execDwellEnd vout s
  | .marginRestored => Sys2Proof.Machine.execMarginRestored s
  | .seqSyncDrive => Sys2Proof.Machine.execSeqSyncDrive s
  | .seqSyncEdge elapsedUs => Sys2Proof.Machine.execSeqSyncEdge elapsedUs s
  | .helloTx => Sys2Proof.Machine.execHelloTx s
  | .joinReqTx => Sys2Proof.Machine.execJoinReqTx s
  | .helloRx d => Sys2Proof.Machine.execHelloRx d s
  | .startRx stage mask => Sys2Proof.Machine.execStartRx stage mask s
  | .stageDoneRx d stage image => Sys2Proof.Machine.execStageDoneRx d stage image s
  | .downNoticeRx d trigger => Sys2Proof.Machine.execDownNoticeRx d trigger s
  | .joinReqRx d stage => Sys2Proof.Machine.execJoinReqRx d stage s
  | .superviseRx d => Sys2Proof.Machine.execSuperviseRx d s
  | .grpWaitExpiry => Sys2Proof.Machine.execGrpWaitExpiry s
  | .stage2WaitExpiry => Sys2Proof.Machine.execStage2WaitExpiry s
  | .orphanTimer => Sys2Proof.Machine.execOrphanTimer s
  | .damperRefill => Sys2Proof.Machine.execDamperRefill s
  | .damperRecompute sensors => Sys2Proof.Machine.execDamperRecompute sensors s
  | .hotRelease => Sys2Proof.Machine.execHotRelease s
  | .longStarveExpiry c => Sys2Proof.Machine.execLongStarveExpiry c s
  | .avsStep m16 m17 => Sys2Proof.Machine.execAvsStep m16 m17 s
  | .derateFall dom => Sys2Proof.Machine.execDerateFall dom s
  | .agePeriodExpiry => Sys2Proof.Machine.execAgePeriodExpiry s
  | .ageMeasReq p => Sys2Proof.Machine.execAgeMeasReq p s
  | .ageMeasEnd drift16 drift17 worst => Sys2Proof.Machine.execAgeMeasEnd drift16 drift17 worst s
  | .patrolPass => Sys2Proof.Machine.execPatrolPass s
  | .sramEccError row kind => Sys2Proof.Machine.execSramEccError row kind s
  | .wearRecordWrite => Sys2Proof.Machine.execWearRecordWrite s
  | .eqHoursUpdate => Sys2Proof.Machine.execEqHoursUpdate s
  | .laneHandshakeTimeout l => Sys2Proof.Machine.execLaneHandshakeTimeout l s
  | .ashEvent => Sys2Proof.Machine.execAshEvent s
  | .alertPulseEnd => Sys2Proof.Machine.execAlertPulseEnd s
  | .consequenceWindowEnd u => Sys2Proof.Machine.execConsequenceWindowEnd u s
  | .nvsJournalCopy => Sys2Proof.Machine.execNvsJournalCopy s
  | .ashSelfCheck mismatch => Sys2Proof.Machine.execAshSelfCheck mismatch s
  | .stokerWatchdog => Sys2Proof.Machine.execStokerWatchdog s
  | .lockstepMismatch => Sys2Proof.Machine.execLockstepMismatch s
  | .thermalTrip sensor => Sys2Proof.Machine.execThermalTrip sensor s
  | .ckCardLockLost => Sys2Proof.Machine.execCkCardLockLost s
  | .ckCardRelock => Sys2Proof.Machine.execCkCardRelock s
  | .ckLinkLockLost => Sys2Proof.Machine.execCkLinkLockLost s
  | .forceSlotShort p u => Sys2Proof.Machine.execForceSlotShort p u s
  | .forceSlotRemoval p u => Sys2Proof.Machine.execForceSlotRemoval p u s
  | .forceBankRailFault p u => Sys2Proof.Machine.execForceBankRailFault p u s
  | .forcePeerLoss p u => Sys2Proof.Machine.execForcePeerLoss p u s
  | .forcePortLoss p u => Sys2Proof.Machine.execForcePortLoss p u s
  | .forceEmberJobFailure p u => Sys2Proof.Machine.execForceEmberJobFailure p u s
  | .forceLift p kind u => Sys2Proof.Machine.execForceLift p kind u s
  | .inject p src u => Sys2Proof.Machine.execInject p src u s
  | .heartbeatTx => Sys2Proof.Machine.execHeartbeatTx s
  | .heartbeatRx d => Sys2Proof.Machine.execHeartbeatRx d s
  | .heartbeatMiss d => Sys2Proof.Machine.execHeartbeatMiss d s
  | .applyBase p => Sys2Proof.Machine.execApplyBase p s
  | .storeBase p => Sys2Proof.Machine.execStoreBase p s
  | .applyOvl p => Sys2Proof.Machine.execApplyOvl p s
  | .removeOvl p k => Sys2Proof.Machine.execRemoveOvl p k s
  | .imageCheckEnd => Sys2Proof.Machine.execImageCheckEnd s
  | .overlayCommit => Sys2Proof.Machine.execOverlayCommit s
  | .quietTimeout => Sys2Proof.Machine.execQuietTimeout s
  | .lifetimeExpiry k => Sys2Proof.Machine.execLifetimeExpiry k s
  | .keyXfer p => Sys2Proof.Machine.execKeyXfer p s
  | .challenge p => Sys2Proof.Machine.execChallenge p s
  | .nonceExpiry => Sys2Proof.Machine.execNonceExpiry s
  | .attest p => Sys2Proof.Machine.execAttest p s
  | .grant p => Sys2Proof.Machine.execGrant p s
  | .revokeGrants p => Sys2Proof.Machine.execRevokeGrants p s
  | .transition p => Sys2Proof.Machine.execTransition p s
  | .transitionStepEnd => Sys2Proof.Machine.execTransitionStepEnd s
  | .tenantLock p => Sys2Proof.Machine.execTenantLock p s
  | .rootLoad p => Sys2Proof.Machine.execRootLoad p s
  | .rootRevoke p => Sys2Proof.Machine.execRootRevoke p s
  | .voteRepair p => Sys2Proof.Machine.execVoteRepair p s
  | .perstN x level => Sys2Proof.Machine.execPerstN x level s
  | .linkTrained x speed width => Sys2Proof.Machine.execLinkTrained x speed width s
  | .pcieConfigChange x d3hot bme mse => Sys2Proof.Machine.execPcieConfigChange x d3hot bme mse s
  | .pcieLinkDown x => Sys2Proof.Machine.execPcieLinkDown x s
  | .pcieError x kind => Sys2Proof.Machine.execPcieError x kind s
  | .inboundUnsupported x kind => Sys2Proof.Machine.execInboundUnsupported x kind s
  | .msixTableWrite x offset value => Sys2Proof.Machine.execMsixTableWrite x offset value s
  | .spiRead bytes => Sys2Proof.Machine.execSpiRead bytes s
  | .spiWrite bytes => Sys2Proof.Machine.execSpiWrite bytes s
  | .spiStatus => Sys2Proof.Machine.execSpiStatus s
  | .spiFrameCut => Sys2Proof.Machine.execSpiFrameCut s
  | .symbolLock k => Sys2Proof.Machine.execSymbolLock k s
  | .symbolLockLoss k => Sys2Proof.Machine.execSymbolLockLoss k s
  | .initRx k dev size => Sys2Proof.Machine.execInitRx k dev size s
  | .key1Rx k payload => Sys2Proof.Machine.execKey1Rx k payload s
  | .key2Rx k payload => Sys2Proof.Machine.execKey2Rx k payload s
  | .key1Resend k => Sys2Proof.Machine.execKey1Resend k s
  | .keyingRestart k => Sys2Proof.Machine.execKeyingRestart k s
  | .fwdCmdRx k seq tag payload => Sys2Proof.Machine.execFwdCmdRx k seq tag payload s
  | .fwdRspRx k seq tag payload => Sys2Proof.Machine.execFwdRspRx k seq tag payload s
  | .kzAckRx k cls seq => Sys2Proof.Machine.execKzAckRx k cls seq s
  | .kzNakRx k cls seq => Sys2Proof.Machine.execKzNakRx k cls seq s
  | .kzAckTimeout k cls => Sys2Proof.Machine.execKzAckTimeout k cls s
  | .kzInvalidFrame k => Sys2Proof.Machine.execKzInvalidFrame k s
  | .liveNoticeTx => Sys2Proof.Machine.execLiveNoticeTx s
  | .tamperNRelease => Sys2Proof.Machine.execTamperNRelease s
  | .limiting n => Sys2Proof.Machine.execLimiting n s
  | .eccCe c => Sys2Proof.Machine.execEccCe c s
  | .sealedWipeEnd c => Sys2Proof.Machine.execSealedWipeEnd c s
  | .esStartupTestEnd pass => Sys2Proof.Machine.execEsStartupTestEnd pass s
  | .ckLinkRelock => Sys2Proof.Machine.execCkLinkRelock s

end Sys2Proof.Machine
end

