-- ==== Sys2Proof/Safety.lean ====
section
/-! DEFINITION. The terms in which claims about the block are stated: what a command changes and what it leaves alone,
what a slot carries, and the invariants of the state. -/

namespace Sys2Proof.Machine

/-! ## What a command changes -/

/-- All that a command changes, before the work that can go on does so: fields of register instances with their new values,
register instances whose other fields return to their reset values, parts of units with their new values, parts of which
there is one, Ash's part but for its inbox, how many events Ash took from its inbox, events sent to Ash, what goes out, and the
changes of the memories. What is not named stays as it was. -/
structure Change where
  regs : List (Key × Nat) := []
  resets : List (RegName × Nat) := []
  slots : List (Nat × SlotX) := []
  rings : List (Nat × RingX) := []
  sess : List (Nat × SessX) := []
  ctxs : List (Nat × CtxX) := []
  ports : List (Nat × PortX) := []
  kz : List (Nat × KzX) := []
  entries : Option (List Entry) := none
  nextUid : Option Nat := none
  nextOrder : Option Nat := none
  stack : Option StackX := none
  dmp : Option DamperX := none
  cord : Option CordX := none
  ember : Option EmberX := none
  seq : Option SeqX := none
  pmb : Option PmbX := none
  grp : Option GrpX := none
  wear : Option WearX := none
  kln : Option KlnX := none
  blanked : Option (List MonId) := none
  stage : List (Nat × List Nat) := []
  mons : List (MonId × List SampleClass) := []
  base : Option (List ((Nat × Nat × Bool) × Nat)) := none
  us : Option Nat := none
  tick : Option Nat := none
  free : Option Nat := none
  ash : Option AshX := none
  taken : Nat := 0
  events : List AshEv := []
  out : List Out := []
  mems : List MemOp := []

/-- What a field of a register instance reads as after a change. -/
def Change.reg (d : Change) (c : Chip) (f : Fld) (i : Nat) : Nat :=
  (tabFind d.regs ⟨f, i⟩).getD (if (f.reg, i) ∈ d.resets then f.resetAt i else c.get f i)

/-- The chip `c'` is `c` with exactly the changes `d`: every field of every register instance, every part of every unit and
all else of the chip is as the change names it, and as it was where the change names nothing. -/
structure Change.Of (d : Change) (c c' : Chip) : Prop where
  reg : ∀ f i, c'.get f i = d.reg c f i
  slot : ∀ i, c'.slot i = (tabFind d.slots i).getD (c.slot i)
  ring : ∀ i, c'.ring i = (tabFind d.rings i).getD (c.ring i)
  sessOf : ∀ i, c'.sessOf i = (tabFind d.sess i).getD (c.sessOf i)
  ctx : ∀ i, c'.ctx i = (tabFind d.ctxs i).getD (c.ctx i)
  port : ∀ i, c'.port i = (tabFind d.ports i).getD (c.port i)
  kzOf : ∀ i, c'.kzOf i = (tabFind d.kz i).getD (c.kzOf i)
  entries : c'.entries = d.entries.getD c.entries
  nextUid : c'.nextUid = d.nextUid.getD c.nextUid
  nextOrder : c'.nextOrder = d.nextOrder.getD c.nextOrder
  stack : c'.stack = d.stack.getD c.stack
  dmp : c'.dmp = d.dmp.getD c.dmp
  cord : c'.cord = d.cord.getD c.cord
  ember : c'.ember = d.ember.getD c.ember
  seq : c'.seq = d.seq.getD c.seq
  pmb : c'.pmb = d.pmb.getD c.pmb
  grp : c'.grp = d.grp.getD c.grp
  wear : c'.wear = d.wear.getD c.wear
  kln : c'.kln = d.kln.getD c.kln
  blanked : c'.blanked = d.blanked.getD c.blanked
  stage : ∀ p, tabGet [] c'.stage p = (tabFind d.stage p).getD (tabGet [] c.stage p)
  monHist : ∀ m, c'.monHist m = (tabFind d.mons m).getD (c.monHist m)
  base : c'.base = d.base.getD c.base
  us : c'.us = d.us.getD c.us
  tick : c'.tick = d.tick.getD c.tick
  free : c'.free = d.free.getD c.free
  ash : c'.ash = { d.ash.getD c.ash with inbox := c.ash.inbox.drop d.taken ++ d.events }
  memq : c'.memq = c.memq ++ d.mems
  out : c'.out = c.out ++ d.out

/-- Both changes, the second after the first. -/
def Change.plus (d e : Change) : Change :=
  { regs := e.regs ++ d.regs.filter (fun r => !(e.resets.contains (r.1.fld.reg, r.1.idx))), resets := e.resets ++ d.resets,
    slots := e.slots ++ d.slots, rings := e.rings ++ d.rings, sess := e.sess ++ d.sess, ctxs := e.ctxs ++ d.ctxs,
    ports := e.ports ++ d.ports, kz := e.kz ++ d.kz, entries := e.entries.or d.entries, nextUid := e.nextUid.or d.nextUid,
    nextOrder := e.nextOrder.or d.nextOrder, stack := e.stack.or d.stack, dmp := e.dmp.or d.dmp, cord := e.cord.or d.cord,
    ember := e.ember.or d.ember, seq := e.seq.or d.seq, pmb := e.pmb.or d.pmb, grp := e.grp.or d.grp, wear := e.wear.or d.wear,
    kln := e.kln.or d.kln, blanked := e.blanked.or d.blanked, stage := e.stage ++ d.stage, mons := e.mons ++ d.mons,
    base := e.base.or d.base, us := e.us.or d.us, tick := e.tick.or d.tick,
    free := e.free.or d.free, ash := e.ash.or d.ash, taken := d.taken + e.taken, events := d.events ++ e.events, out := d.out ++ e.out,
    mems := d.mems ++ e.mems }

/-- Between two commands no change of a memory is left to carry out. -/
abbrev State.Still (s : State) : Prop := s.chip.memq = []

/-! ## Invariants -/

/-- The memories of the block are in canonical form. -/
def State.MemOk (s : State) : Prop := Memory.wf s.sram = true ∧ Memory.wf s.opmem = true ∧ Memory.wf s.listmem = true

/-- Every bit burned in the OTP of the first state is burned in that of the second (R431). -/
def State.OtpGrows (s t : State) : Prop := ∀ w k, (otpWord s.otp w).testBit k = true → (otpWord t.otp w).testBit k = true

/-- The persistent journal is a ring of 4,096 records: the next record goes to one of them, and none stands past them (R394). -/
def State.JournalOk (s : State) : Prop := s.nvs.journalNext < 4096 ∧ ∀ e ∈ s.nvs.journal, e.1 < 4096

/-! ## Effects -/

/-- The command `i` completes on `s` with the changes `d` and no other: `exec` answers the next state, which is the state
with these changes after the work that can go on has done so, and a cold reset that is due has taken place. -/
def Effect (i : Instr) (s : State) (d : Change) : Prop :=
  ∃ c', d.Of s.chip c' ∧
    exec i s = .next (d.mems.foldl State.applyMem { s with chip := { c' with memq := [] } }).settle.coldDue

/-! ## What a slot carries -/

/-- The damper holds neither a request nor a grant of an asker. -/
abbrev Chip.NoAsk (c : Chip) (a : Asker) : Prop :=
  (∀ r ∈ c.dmp.reqs, r.asker ≠ a) ∧ (∀ g ∈ c.dmp.grants, g.asker ≠ a)

/-- A slot carries no leg and no measurement: no leg waits or runs, no exchange waits for budget, and neither the damper nor
Ember works for its card or its session. -/
structure Chip.Bare (c : Chip) (n : Nat) : Prop where
  queue : (c.slot n).queue = []
  wait : (c.slot n).wait = none
  cur : ∀ ex src, (c.slot n).cur = some ex → ex.use ≠ .leg src ∧ ex.use ≠ .dozeResume src
  measuring : (c.slot n).measuring = false
  mcmd : c.NoAsk (.mcmd n)
  cordJob : c.NoAsk (.cordJob n)
  host : ∀ k, (c.ctx k).use = .host
  stokerQ : c.ember.stokerQ = []
  finished : c.ember.finished = []

/-! ## Where a command applies -/

/-- The slot's bank domain is on, so what happens at the slot is seen (R42). -/
abbrev State.At (s : State) (n : SlotId) : Prop := s.Still ∧ s.chip.domUp (bankOf n.val) = true

/-- A write of a path to a register of a block is served (R6, R381, R389, R429) and the register's domain is on. -/
abbrev State.Takes (s : State) (p : Path) (blk : Nat) (up : Bool) : Prop :=
  s.Still ∧ s.chip.served p blk true false = true ∧ up = true

/-- An operator slot as a slot (R2). -/
abbrev operatorSlot (n : Fin 4) : SlotId := n.castLE (by decide)

/-! ## Changes that several commands make -/

/-- RST, CLK and IO go low, on a module slot the lane pair too (R101). -/
def signalsLow (n : Nat) : List Out :=
  [.contact n .rst false, .contact n .clk false, .contact n .io false] ++ (if isOperator n then [] else [.contact n .lane false])

/-- The VCC switch opens and the discharge comes on (R57). -/
def switchOpen (n : Nat) : List Out := [.contact n .vcc false, .contact n .discharge true]

/-- The electrical status of a slot whose contacts went inactive. -/
def lowRegs (n : Nat) : List (Key × Nat) :=
  [(⟨HTH_PROT_CLKDIV.RUN, n⟩, 0), (⟨HTH_SLOT_ESTAT.LIMITING, n⟩, 0), (⟨HTH_SLOT_ESTAT.CLASS_APPLIED, n⟩, 0),
   (⟨HTH_SLOT_ESTAT.DISCHARGE, n⟩, 1), (⟨HTH_SLOT_ESTAT.SW_CLOSED, n⟩, 0)]

/-- The session status of a slot that holds no session (R290). -/
def sessRegs (n : Nat) : List (Key × Nat) :=
  [(⟨CRD_SESS_STAT.REKEY_DUE, n⟩, 0), (⟨CRD_SESS_STAT.OLD_HELD, n⟩, 0), (⟨CRD_SESS_STAT.SESS, n⟩, 0)]

/-- The lane status of a slot whose lane ended; an attempt that was stopped shows in FAIL_PHASE (R182). -/
def laneRegs (c : Chip) (n : Nat) : List (Key × Nat) :=
  if isOperator n then [] else
    [(⟨HTH_TURF_STAT.SEQ, n⟩, 0), (⟨HTH_TURF_STAT.RATE, n⟩, 0), (⟨HTH_TURF_STAT.LANE, n⟩, 0)]
      ++ (if c.get HTH_TURF_STAT.LANE n = 2 then [(⟨HTH_TURF_LAST.FAIL_PHASE, n⟩, 4)] else [])

/-- The event bits of a deactivation sequence (R119). -/
def evtRegs (n : Nat) (k : SeqKind) : List (Key × Nat) :=
  (if k = .removal then [(⟨HTH_SLOT_EVT.REMOVED, n⟩, 1)] else [])
    ++ (if k = .commanded then [] else [(⟨HTH_SLOT_EVT.EMERG, n⟩, 1)])

/-- A session without keys and without Cinder work (R283, R290). -/
def noSess (y : SessX) : SessX := { y with zss := [], cur := none, old := none, cin := none, rekeyRetry := false }

/-- A slot that carries no leg leaves RAMP to BUSY by a sequence with a cause (R97, R101, R105, R106, R119): the cause and the
state it leaves are recorded, the session is retired, the contacts go inactive in the order of the sequence (a cut opens the
switch first), and the lane ends. -/
def deactivation (c : Chip) (n : Nat) (k : SeqKind) (cause : Nat) : Change :=
  let x := c.slot n
  { regs := [(⟨HTH_SLOT_STAT.BUDGET_WAIT, n⟩, 0)] ++ laneRegs c n ++ lowRegs n ++ sessRegs n ++ evtRegs n k
      ++ [(⟨HTH_SLOT_STAT.EXCH_WAIT, n⟩, 0), (⟨HTH_SLOT_STAT.STATE, n⟩, stDEACT), (⟨HTH_SLOT_CAUSE.STATE_AT, n⟩, c.slotState n),
          (⟨HTH_SLOT_CAUSE.SECOND, n⟩, 0), (⟨HTH_SLOT_CAUSE.CAUSE, n⟩, cause)],
    slots := [(n, { x with
      seq := some k, measuring := false, measAtRamp := false, rstHigh := false, rampDone := false,
      opening := c.on HTH_SLOT_ESTAT.SW_CLOSED n && !decide (k = .kill ∨ k = .fence),
      armed := x.armed && !decide (k = .kill ∨ k = .fence), exchWait := none,
      clockPend := false, pps := [], neg := .none, wait := none, cur := none, t0 := T0X.init, t1 := T1X.init,
      tf := if isOperator n then x.tf else TurfX.init })],
    sess := [(n, noSess (c.sessOf n))],
    out := if k = .kill ∨ k = .fence then switchOpen n ++ signalsLow n else signalsLow n ++ switchOpen n }

/-- The card clock runs at a frequency in units of 10 kHz (R124). -/
def clkRegs (n f10 : Nat) : List (Key × Nat) :=
  [(⟨HTH_PROT_CLKDIV.RUN, n⟩, 1), (⟨HTH_PROT_CLKDIV.DIV_FRAC, n⟩, clkDivOf f10 % 1024),
   (⟨HTH_PROT_CLKDIV.DIV_INT, n⟩, clkDivOf f10 / 1024)]

/-- The edges of the clock at a frequency in units of 10 kHz (R62). -/
def fastAt (x : SlotX) (f10 : Nat) : Bool := x.clkEdge || decide (400 < f10)

/-- A slot whose ATR buffer and protocol engines are as before an ATR (R94, R123). -/
def noAtr (x : SlotX) : SlotX :=
  { x with atr := [], atrDone := false, spoke := false, clockPend := false, pps := [], neg := .none, t0 := T0X.init,
           t1 := T1X.init, tf := TurfX.init, held := [] }

/-- A warm reset of the card of a slot that carries no leg (R100): RESET_HELD, the session retired, the lane ended, the ATR and
the protocol parameters cleared, RST low, CLK at ACT_CLK. -/
def cardReset (c : Chip) (n : Nat) : Change :=
  { regs := clkRegs n (actClk (c.get HTH_SLOT_CTL.ACT_CLK n)) ++ laneRegs c n ++ [(⟨HTH_SLOT_STAT.EXCH_WAIT, n⟩, 0)]
      ++ sessRegs n ++ [(⟨HTH_SLOT_STAT.STATE, n⟩, stRESETHELD)],
    resets := [(.HTH_PROT_WT, n), (.HTH_PROT_STAT, n), (.HTH_SLOT_ATRLEN, n)],
    slots := [(n, { noAtr (c.slot n) with
      coldAct := false, trial := false, exchWait := none, rstHigh := false, fastEdges := fastAt (c.slot n) (actClk (c.get HTH_SLOT_CTL.ACT_CLK n)) })],
    sess := [(n, noSess (c.sessOf n))],
    out := (if isOperator n then [] else [.contact n .lane false]) ++ [.contact n .rst false] }

/-- What a counter reads after one more count; it stops at its largest value. -/
def Chip.satInc (c : Chip) (f : Fld) (i : Nat) : Nat :=
  if c.get f i + 1 < 2 ^ f.width then c.get f i + 1 else c.get f i

/-- A pending activation of a slot with its request for the inrush budget of the class tried (R88, R91, R362). -/
def activation (c : Chip) (n : Nat) : Change :=
  { regs := [(⟨HTH_SLOT_STAT.BUDGET_WAIT, n⟩, 1), (⟨HTH_SLOT_STAT.ACT_PEND, n⟩, 1)],
    dmp := some { c.dmp with reqs := c.dmp.reqs ++ [⟨.activation n, 4,
      min (c.cost (4 + c.trialClass n)) (c.get DRG_DMP_CFG.DEPTH 0 * 1000), false⟩] } }

/-- The samples that a monitor keeps once it has taken one more (R192). -/
def Chip.sampled (c : Chip) (m : MonId) (x : Sample) : List SampleClass :=
  (c.monClass m x :: c.monHist m).take (c.get (monCfg m mLEN) (monIdx m))

/-- A powered monitor that is not blanked takes a sample, and with it the filter says this (R192, R196). -/
abbrev Chip.Says (c : Chip) (m : MonId) (x : Sample) (v : Option Bool) : Prop :=
  c.monUp m = true ∧ c.blanked.contains m = false
    ∧ filterSays (c.get (monCfg m mNEED) (monIdx m)) (c.sampled m x) = v

/-- The monitor whose samples a command brings, and the samples (R186, R192). -/
def samplesOf (i : Instr) : Option (MonId × List Sample) :=
  match i with
  | .presRise x | .removal x => (pmonOf x.n).map (fun m => (m, x.samples))
  | .imonHigh x => some (.imon x.n, x.samples)
  | .vmonFault n xs => some (.vmon n, xs)
  | .iomonFault n xs => some (.iomon n, xs)
  | .bmonFault b xs => some (.bmon b, xs)
  | .rmonAlarm r xs => some (.rmon r, xs)
  | .monitorGood x => some (x.m, x.samples)
  | _ => none

/-- Registers with values written into them. -/
def Chip.withRegs (c : Chip) (l : List (Key × Nat)) : Chip := l.foldr (fun e c => c.put e.1.fld e.1.idx e.2) c

/-- What a sample writes: its class in RAW, beyond a trip threshold RAW_SEEN, and for PMON outside the band the unfiltered presence
(R84, R187, R204, R206). -/
def sampleRegs (c : Chip) (m : MonId) (x : Sample) : List (Key × Nat) :=
  let k := c.monClass m x
  (if k.out = true then [(⟨monStat m mRAWSEEN, monIdx m⟩, 1)] else [])
    ++ (match m with
        | .pmon n => if k = .band then [] else [(⟨HTH_SLOT_ESTAT.PRES_RAW, n.val⟩, (!k.out).toNat)]
        | _ => [])
    ++ [(⟨monStat m mRAW, monIdx m⟩, k.code)]

/-- A rail monitor with GLITCH_EV sends a glitch event for an excursion beyond a trip threshold, with its STAT word (R204, R396). -/
def glitchEvents (c : Chip) (m : MonId) (l : List (Key × Nat)) : List AshEv :=
  match m with
  | .rmon r => if c.on (monCfg m mGLITCH) (monIdx m) = true then [⟨0x2C, r, (c.withRegs l).monWord m, false⟩] else []
  | _ => []

/-- What a monitor does with a sample beside what its filter says (R187, R192, R204). -/
def sampleTaken (c : Chip) (m : MonId) (x : Sample) : Change :=
  { regs := sampleRegs c m x, mons := [(m, c.sampled m x)],
    events := if (c.monClass m x).out = true ∧ c.get (monStat m mRAW) (monIdx m) < 2 then glitchEvents c m (sampleRegs c m x) else [] }

/-- The filter has decided (R197, R198). -/
def decidedRegs (m : MonId) : List (Key × Nat) :=
  [(⟨monStat m mUNDECIDED, monIdx m⟩, 0), (⟨monStat m mDECIDED, monIdx m⟩, 1)]

/-- The filtered state moves to the good side (R192, R203). -/
def goodRegs (c : Chip) (m : MonId) : List (Key × Nat) :=
  (if c.get (monCfg m mLATCH) (monIdx m) = 0 then [(⟨monStat m mLATCHED, monIdx m⟩, 0)] else [])
    ++ [(⟨monStat m mSTATE, monIdx m⟩, 0)] ++ decidedRegs m

/-- The filtered state moves to the alarm side (R200, R203). -/
def tripRegs (c : Chip) (m : MonId) : List (Key × Nat) :=
  [(⟨monStat m mTRIP, monIdx m⟩, c.satInc (monStat m mTRIP) (monIdx m)), (⟨monStat m mLATCHED, monIdx m⟩, 1),
   (⟨monStat m mSTATE, monIdx m⟩, 1)] ++ decidedRegs m

/-- The event of a move with the monitor's source and its STAT word as it then reads (R379, R396). -/
def moveEvent (c : Chip) (m : MonId) (x : Sample) (moved : List (Key × Nat)) : AshEv :=
  ⟨(monSource m).1, (monSource m).2, (c.withRegs (moved ++ sampleRegs c m x)).monWord m, false⟩

/-- A monitor with a source moves to its alarm side on a sample (R187, R192, R200). -/
def tripped (c : Chip) (m : MonId) (x : Sample) : Change :=
  (sampleTaken c m x).plus { regs := tripRegs c m, events := [moveEvent c m x (tripRegs c m)] }

/-- The events of a slot's protocol engines and of its lane: the register word as it reads with the new bit (R152, R185). -/
def protEvent (c : Chip) (f : Fld) (n : Nat) : AshEv := ⟨0x19, n, (c.flag f n true).word .HTH_PROT_EVT n, false⟩
def turfEvent (c : Chip) (f : Fld) (n : Nat) : AshEv := ⟨0x1A, n, (c.flag f n true).word .HTH_TURF_EVT n, false⟩

/-- A slot in BUSY carries a sent leg of a WRITE whose other leg is still on its way: no command waits in EXCH_WAIT, no old
key set is held, and neither an error nor a success more reaches a limit of the recovery (R113). -/
abbrev Chip.Carries (c : Chip) (n : Nat) (ex : Exch) (uid : Nat) (second : Bool) (e : Entry) : Prop :=
  c.slotState n = stBUSY ∧ (c.slot n).exchWait = none ∧ (c.slot n).cur = some ex ∧ ex.use = .leg (.entry uid second)
    ∧ ex.sent = true ∧ c.on CRD_SESS_STAT.OLD_HELD n = false
    ∧ c.satInc HTH_SLOT_RCNT.OK_RUN n < c.get HTH_SLOT_RCV.RCV_CLEAR n
    ∧ c.satInc HTH_SLOT_RCNT.FAIL_CNT n < c.get HTH_SLOT_RCV.FAIL_LIMIT n
    ∧ c.entry? uid = some e ∧ e.isWrite = true
    ∧ ((e.leg (!second)).st = .queued ∨ (e.leg (!second)).st = .sent)

/-- The entries once a leg has ended: its status, and of the first leg to end with OK the response (R218, R256). -/
def legEnded (c : Chip) (uid : Nat) (second : Bool) (status : Nat) (rsp : List Byte) (sw us : Nat) : List Entry :=
  c.entries.map (fun e => if e.uid = uid then
    (let e := e.setLeg second { e.leg second with st := .ended, status := status }
     if status = stsOK ∧ e.rsp = [] ∧ e.sw = 0 then { e with rsp := rsp, sw := sw, cardUs := us } else e) else e)

/-- The exchange of such a leg ends (R25, R113, R256): the slot reads READY, the engines start over, the counts of the
recovery follow the status. -/
def exchangeEnd (c : Chip) (n : Nat) (ex : Exch) (uid : Nat) (second : Bool) (status : Nat) (rsp : List Byte) (sw : Nat) : Change :=
  { regs := (⟨HTH_SLOT_STAT.STATE, n⟩, stREADY) ::
      (if status = stsOK then [(⟨HTH_SLOT_RCNT.OK_RUN, n⟩, c.satInc HTH_SLOT_RCNT.OK_RUN n), (⟨HTH_SLOT_RCNT.FAIL_CNT, n⟩, 0)]
       else [(⟨HTH_SLOT_RCNT.FAIL_CNT, n⟩, c.satInc HTH_SLOT_RCNT.FAIL_CNT n), (⟨HTH_SLOT_RCNT.OK_RUN, n⟩, 0)]),
    slots := [(n, { c.slot n with cur := none, t0 := T0X.init, t1 := T1X.init })],
    entries := some (legEnded c uid second status rsp sw (c.us - ex.startUs)) }

/-- The damper once it has granted a request from one of its buckets and the work has started at once (R363). -/
def grantSpent (c : Chip) (r : Req) (fromFloor : Bool) : DamperX :=
  { c.dmp with main := if fromFloor then c.dmp.main else c.dmp.main - r.cost * tok,
               floor := if fromFloor then c.dmp.floor - r.cost * tok else c.dmp.floor,
               reqs := c.dmp.reqs.filter (fun q => decide (q.asker ≠ r.asker)),
               grants := c.dmp.grants.filter (fun g => decide (g.asker ≠ r.asker)),
               lastC0Us := if r.class0 then some c.us else c.dmp.lastC0Us }

/-- The monitors of a slot whose latch mode ends with the period read LATCHED 0 on their good side (R203). -/
def periodRegs (c : Chip) (n : Nat) : List (Key × Nat) :=
  ((slotMons n).filter (fun m => decide (2 ≤ c.get (monCfg m mLATCH) (monIdx m)) && !c.monAlarm m)).map
    (fun m => (⟨monStat m mLATCHED, monIdx m⟩, 0))

/-- A measurement of a slot starts, with the factors in force (R78). -/
def measBegun (c : Chip) (n : Nat) (atRamp : Bool) : SlotX :=
  { c.slot n with
    measuring := true, measAtRamp := atRamp, measLo := c.get HTH_BANK_LEGLIM.LO_FACTOR (bankOf n),
    measHi := c.get HTH_BANK_LEGLIM.HI_FACTOR (bankOf n), measSides := [], measGone := [], measDead := false }

/-- The window of a side of a leg in service, by the factors its measurement started with (R77, R78). -/
def Chip.legWindow (c : Chip) (n k : Nat) (low : Bool) (tj : Int) : SideWindow :=
  ⟨(c.slot n).measLo, (c.slot n).measHi, c.baseline (n, k, low), legAbs (legKind k) low, tj⟩

/-- What a completed side records (R77, R84): its value and one measurement more of the bank. -/
def sideRegs (c : Chip) (n k : Nat) (low : Bool) (v : Nat) : List (Key × Nat) :=
  [(⟨if low then HTH_LEG_RON.LO_RON else HTH_LEG_RON.HI_RON, 12 * n + k⟩, v % 65536),
   (⟨HTH_BANK_LCNT.MEAS_CNT, bankOf n⟩, (c.get HTH_BANK_LCNT.MEAS_CNT (bankOf n) + 1) % 65536)]

/-- The part of a slot once a side is complete. -/
def sideMeasured (x : SlotX) (k : Nat) (low : Bool) : SlotX := { x with measSides := x.measSides ++ [(k, low)] }

/-- A requested measurement has ended with every side measured (R82). -/
def measDone (n : Nat) : List (Key × Nat) :=
  [(⟨HTH_LEG_CMD.MEAS_DONE, n⟩, 1), (⟨HTH_LEG_CMD.MEAS_REQ, n⟩, 0), (⟨HTH_LEG_STAT.MEAS_VALID, n⟩, 1)]

/-- The part of a slot whose VCC is good (R92 step 5, R200, R201): VMON and IOMON are armed, the clock runs at ACT_CLK. -/
def vccIsGood (c : Chip) (n : Nat) : SlotX :=
  { c.slot n with rampDone := true, armed := true, fastEdges := fastAt (c.slot n) (actClk (c.get HTH_SLOT_CTL.ACT_CLK n)) }

/-- The VCC switch closes at a class (R92 step 4). -/
def closedRegs (n cls : Nat) : List (Key × Nat) :=
  [(⟨HTH_SLOT_ESTAT.CLASS_APPLIED, n⟩, cls % 4), (⟨HTH_SLOT_ESTAT.INACTIVE, n⟩, 0), (⟨HTH_SLOT_ESTAT.DISCHARGE, n⟩, 0),
   (⟨HTH_SLOT_ESTAT.SW_CLOSED, n⟩, 1)]

/-- The parameters of a complete ATR (R129, R154). -/
def atrRegs (n : Nat) (b : List Byte) : List (Key × Nat) :=
  let a := atrOf b
  let bc := (a.first 1 1).getD 0x4D
  [(⟨HTH_PROT_STAT.EDC, n⟩, (((a.first 2 1).getD 0).testBit 0).toNat), (⟨HTH_PROT_WT.CWI, n⟩, bc % 16),
   (⟨HTH_PROT_WT.BWI, n⟩, bc / 16 % 16), (⟨HTH_PROT_STAT.IFSC, n⟩, (a.first 0 1).getD 32 % 256),
   (⟨HTH_PROT_WT.WI, n⟩, (a.byte 2 2).getD 10 % 256), (⟨HTH_PROT_STAT.SPEC_MODE, n⟩, (a.byte 0 2).isSome.toNat),
   (⟨HTH_PROT_STAT.N_EGT, n⟩, (a.byte 2 1).getD 0 % 256)]

/-- The Turf marker of a complete ATR on a module slot (R156, R157, R185); without a valid one nothing is left of an earlier ATR's. -/
def markRegs (n : Nat) (b : List Byte) : List (Key × Nat) :=
  if isOperator n then [] else
  let none := [(⟨HTH_TURF_STAT.MARK_OK, n⟩, 0), (⟨HTH_TURF_STAT.MOD_TRN, n⟩, 0), (⟨HTH_TURF_STAT.MOD_MAXF, n⟩, 0),
    (⟨HTH_TURF_STAT.MOD_RATES, n⟩, 0)]
  match markOf (histOf b) with
  | .none => none
  | .bad => (⟨HTH_TURF_EVT.MARK_BAD, n⟩, 1) :: none
  | .ok rates maxf trn =>
    [(⟨HTH_TURF_STAT.MARK_OK, n⟩, 1), (⟨HTH_TURF_STAT.MOD_TRN, n⟩, trn % 16), (⟨HTH_TURF_STAT.MOD_MAXF, n⟩, maxf % 256),
     (⟨HTH_TURF_STAT.MOD_RATES, n⟩, rates % 8)]

/-- The record of a protocol error (R154). -/
def errRegs (n phase kind : Nat) : List (Key × Nat) :=
  [(⟨HTH_PROT_LAST.KIND, n⟩, kind % 256), (⟨HTH_PROT_LAST.PHASE, n⟩, phase % 16)]

/-- The events of a ring, under the port that owns it, and of the Stack table (R379, R396). -/
def ringEvent (c : Chip) (f : Fld) (r : Nat) : AshEv :=
  ⟨0x35, c.owner r, (c.flag f r true).word .FLU_RING_EVT r * 2 ^ 16 + r, false⟩
def stackEvent (c : Chip) (f : Fld) : AshEv := ⟨0x36, 0, (c.flag f 0 true).word .FLU_STACK_EVT 0, false⟩

/-- The entries once one of them has ended with a status: it stands last and waits for its completion (R218, R222). -/
def parked (c : Chip) (e : Entry) (status : Nat) : List Entry :=
  c.entries.filter (fun q => decide (q.uid ≠ e.uid)) ++ [{ e with
    phase := .ended, status := status, dlMissed := e.anySent && c.deadlinePast e,
    deferUs := if e.order ≠ 0 then e.deferUs else c.ringDefer e.ring - e.deferUs }]

/-- A ring asks for no tokens any more, and its deferral stops accruing (R227, R232, R237, R238). -/
def unrequested (c : Chip) (r : Nat) : Change :=
  { regs := [(⟨FLU_RING_STAT.DEFERRED, r⟩, 0)],
    rings := [(r, { c.ring r with deferUs := c.ringDefer r, deferSince := none })],
    entries := some (c.entries.map (fun e => if e.ring = r ∧ e.phase = .tokens then { e with phase := .fetched } else e)),
    dmp := some { c.dmp with reqs := c.dmp.reqs.filter (fun q => decide (q.asker ≠ .admission r)) } }

/-- No grant is held for the candidate of a ring. -/
abbrev Chip.NoAdmission (c : Chip) (r : Nat) : Prop := ∀ g ∈ c.dmp.grants, g.asker ≠ .admission r

/-- A frame of a class arrives on a link that is up from a peer that is not declared lost and was heard before in this heartbeat
period (R399, R471). -/
abbrev Chip.Hears (c : Chip) (d : Nat) : Prop :=
  d ≠ c.grp.dev ∧ d ≤ c.grp.size ∧ c.on DRG_KZ_STAT.INIT_OK (c.kzFor d) = true ∧ c.peerDeclared d = false
    ∧ c.ash.hbSeen.contains d = true

/-- The frame is accepted: the next SEQ of its class is expected, and it is acknowledged (R477). -/
def frameAccepted (c : Chip) (k : Nat) (cls : KzClass) : Change :=
  let x := c.kzOf k
  let seq := tabGet 0 x.rxSeq (clsCode cls)
  { kz := [(k, { x with rxSeq := tabPut id 0 x.rxSeq (clsCode cls) ((seq + 1) % 256) })], out := [c.kzAck k cls seq false] }

/-- Neither the damper nor Ember works for a Cinder exchange of any slot. -/
structure Chip.NoCinder (c : Chip) : Prop where
  cordJob : ∀ n, c.NoAsk (.cordJob n)
  host : ∀ k, (c.ctx k).use = .host
  stokerQ : c.ember.stokerQ = []
  finished : c.ember.finished = []

/-- A Kuzagan link whose keys are gone (R476). -/
def unkeyed (x : KzX) : KzX :=
  { x with nonce := [], eph := [], k1sent := [], k1peer := [], certOk := false, zee := [], zss := [], txKey := [], rxKey := [],
           myCf := [], peerCf := [], k2ok := false, txCtr := 0, rxCtr := 0, gcmFails := 0 }

/-- The registers of a link that is not keyed: KEYED and the live bits of its peer are 0 (R476). -/
def unkeyedRegs (c : Chip) (k : Nat) : List (Key × Nat) :=
  [(⟨FLU_LIVE.LIVE, 2 * c.peerOf k + 1⟩, 0), (⟨FLU_LIVE.LIVE, 2 * c.peerOf k⟩, 0), (⟨DRG_KZ_STAT.KEYED, k⟩, 0)]

/-- The key store, the lanes and the DRBG are zeroised with a cause of CRD_ZSTAT (R291): every session and its cache, the keys
of every link, DRBG_READY. -/
def storeWiped (c : Chip) (cause : Nat) : Change :=
  { regs := [(⟨CRD_ZSTAT.LAST_CAUSE, 0⟩, cause), (⟨CRD_ZSTAT.ZERO_CNT, 0⟩, c.satInc CRD_ZSTAT.ZERO_CNT 0),
             (⟨CRD_EVT.ZEROISED, 0⟩, 1), (⟨CRD_STAT.DRBG_READY, 0⟩, 0)]
      ++ (List.range 3).flatMap (unkeyedRegs c) ++ (List.range 64).flatMap sessRegs,
    sess := (List.range 64).map (fun n => (n, { noSess (c.sessOf n) with cache := none })),
    kz := (List.range 3).map (fun k => (k, unkeyed (c.kzOf k))),
    cord := some { c.cord with drbg := [], drbgReqs := 0 },
    events := [⟨0x59, 0, (c.flag CRD_EVT.ZEROISED 0 true).word .CRD_EVT 0, false⟩] }

/-- Operand memory is zeroised while no context holds a job (R324): the windows read zeros, no context is sealed. -/
def operandsWiped (c : Chip) : Change :=
  { regs := [(⟨EMB_EVT.WIPE_ALL, 0⟩, 1)],
    ctxs := (List.range 8).map (fun k => (k, { c.ctx k with
      isSealed := false, win := { (c.ctx k).win with words := (c.ctx k).win.words.map (fun _ => 0) } })),
    events := [⟨0x59, 0, (c.flag EMB_EVT.WIPE_ALL 0 true).word .EMB_EVT 0, false⟩],
    mems := [.wipeOp 0 0x10000] }

/-- An event of Ember: the register word as it reads with the new bit (R379, R396). -/
def emberEvent (c : Chip) (f : Fld) (src unit : Nat) : AshEv := ⟨src, unit, (c.flag f 0 true).word .EMB_EVT 0, false⟩

/-- The job of a context that belongs to host software reaches DONE with a status, a cause and the words that its result window
presents (R316, R321). -/
def jobOver (c : Chip) (k status cause : Nat) (words : List Nat) : Change :=
  { regs := [(⟨EMB_JOBCNT.JOB_CNT, 0⟩, (c.get EMB_JOBCNT.JOB_CNT 0 + 1) % 2 ^ 32), (⟨EMB_CSTAT.ABORT_PEND, k⟩, 0),
             (⟨EMB_CSTAT.STATUS, k⟩, status), (⟨EMB_CSTAT.STATE, k⟩, esDONE), (⟨EMB_CSTAT.FAIL_CAUSE, k⟩, cause)],
    ctxs := [(k, { c.ctx k with
      use := .host, hasTokens := false, started := false, aged := none,
      win := ⟨words, status, c.on EMB_JOB.ONE_SHOT k, true, false⟩ })],
    ember := if c.ember.running = some k then some { c.ember with running := none } else none }

/-- A request that makes one access: it stays within a 32-bit word of register space, or within 8 aligned bytes of a memory (R462). -/
abbrev OneAccess (addr size : Nat) : Prop :=
  1 ≤ size ∧ (isMemory addr = true ∧ addr % 8 + size ≤ 8 ∨ isMemory addr = false ∧ addr % 4 + size ≤ 4)

/-- Stoker has no free context, and not all that it has are FENCED: its work waits (R302, R323). -/
abbrev Chip.StokerFull (c : Chip) : Prop :=
  ∀ k ∈ List.range 8, c.ctxHost k = true ∨ (c.ctxFree k = false ∧ c.ctxState k ≠ esFENCED)

/-- A context of host software that carries no work of Stoker and for which the damper holds nothing. -/
abbrev Chip.HostCtx (c : Chip) (k : Nat) : Prop :=
  c.ctxHost k = true ∧ (c.ctx k).use = .host ∧ c.NoAsk (.ember k)

/-- A checked job of host software asks for its tokens (R312, R316, R362, R364). -/
def jobAsks (c : Chip) (k b : Nat) : Change :=
  let isLong := decide (c.get EMB_CFG.LONG_THR 0 * 4000 < b)
  { regs := [(⟨EMB_CSTAT.STATE, k⟩, esTOKENS), (⟨EMB_CSTAT.LONG, k⟩, isLong.toNat), (⟨EMB_BEATS.BEATS, k⟩, b % 2 ^ 32)],
    ctxs := [(k, { c.ctx k with rem := b, yields := 0, hasTokens := false, started := false, aged := none })],
    dmp := some { c.dmp with reqs := c.dmp.reqs ++ [⟨.ember k, if isLong then 5 else 1,
      min ((b + 999) / 1000 * c.get DRG_DMP_COST.COST 8) (c.get DRG_DMP_CFG.DEPTH 0 * 1000), false⟩] } }

/-- GO on a free context begins a job (R316): the record of the last one is cleared, its window is empty. -/
def jobBegins (c : Chip) (k : Nat) : Change :=
  { regs := [(⟨EMB_CSTAT.STATUS, k⟩, stsNOTREADY), (⟨EMB_WAIT.WAIT_US, k⟩, 0), (⟨EMB_WAIT.SWITCHES, k⟩, 0), (⟨EMB_LERR.WORD, k⟩, 0),
             (⟨EMB_LERR.RULE, k⟩, 0), (⟨EMB_CSTAT.FAIL_CAUSE, k⟩, 0), (⟨EMB_CSTAT.RERUN, k⟩, 0), (⟨EMB_CSTAT.AGED, k⟩, 0)],
    ctxs := [(k, { c.ctx k with
      goOrder := c.ember.nextGo, goUs := c.us, win := WinX.init, yields := 0, aged := none, started := false, hasTokens := false,
      pace := c.paceDiv })],
    ember := some { c.ember with nextGo := c.ember.nextGo + 1 } }

/-- What a field reads once its bit `k` is set or cleared. -/
def Chip.withBit (c : Chip) (f : Fld) (i k : Nat) (b : Bool) : Nat :=
  (if (c.get f i).testBit k = b then c.get f i else if b then c.get f i + 2 ^ k else c.get f i - 2 ^ k) % 2 ^ f.width

/-- A rail whose enable is high is no core supply, is not in a retry and has a retry left (R343). -/
abbrev Chip.RetryLeft (c : Chip) (i : Nat) : Prop :=
  2 ≤ i ∧ i < 24 ∧ c.railEn i = true ∧ c.seq.retrying.contains i = false ∧ c.railTries i < c.get DRG_SEQ_CFG.RAIL_RETRY_LIM 0

/-- Such a rail fails: its enable drops, it is no longer good, FAIL and an event of DRG_SEQ_EVT set, it waits for its retry and
counts as judged (R341, R343). -/
def railFailed (c : Chip) (i : Nat) (evt : Fld) : Change :=
  { regs := [(⟨evt, 0⟩, 1), (⟨DRG_RAIL_FAIL.RAIL, 0⟩, c.withBit DRG_RAIL_FAIL.RAIL 0 i true),
             (⟨DRG_RAIL_PG.RAIL, 0⟩, c.withBit DRG_RAIL_PG.RAIL 0 i false),
             (⟨DRG_RAIL_EN.RAIL, 0⟩, c.withBit DRG_RAIL_EN.RAIL 0 i false)],
    seq := some { c.seq with
      retries := tabPut id 0 c.seq.retries i (c.railTries i),
      retrying := c.seq.retrying.filter (fun r => decide (r ≠ i)),
      retryWait := c.seq.retryWait.filter (fun r => decide (r ≠ i)) ++ [i],
      judged := if c.seq.judged.contains i = true then c.seq.judged else c.seq.judged ++ [i],
      powered := c.seq.powered.filter (fun k => decide (4 + k ≠ i)) },
    out := [.rail i false] }

/-- Every slot of a bank is in OFF or ABSENT and carries nothing: no pending activation, no measurement, no leg. -/
abbrev Chip.SlotsOut (c : Chip) (b : Nat) : Prop :=
  ∀ n ∈ slotsOf b, (c.slotState n = stOFF ∨ c.slotState n = stABSENT) ∧ c.on HTH_SLOT_STAT.ACT_PEND n = false
    ∧ (c.slot n).measuring = false ∧ (c.slot n).queue = []

/-- The domain of such a bank goes off: its kill line is asserted, and the class of its operator slots starts over (R43, R57,
R98). -/
def bankDown (c : Chip) (b : Nat) : Change :=
  { regs := [(⟨HTH_BANK_ESTAT.KILL, b⟩, 1), (⟨DRG_DOM_STAT.UP, 0⟩, c.withBit DRG_DOM_STAT.UP 0 b false)]
      ++ ((slotsOf b).filter isOperator).map (fun n => (⟨HTH_SLOT_STAT.TRIAL_CLASS, n⟩, 3)),
    slots := (slotsOf b).map (fun n => (n, { c.slot n with schedReact := false })) }

/-- The sequencer enters a state, whose time starts over. -/
def seqRegs (st : Nat) : List (Key × Nat) := [(⟨DRG_SEQ_STAT.STATE_MS, 0⟩, 0), (⟨DRG_SEQ_STAT.STATE, 0⟩, st)]

/-- A shutdown finds nothing to stop: the device is alone, no margin runs, every slot is inactive, every ring disabled. -/
abbrev Chip.AtRest (c : Chip) : Prop :=
  c.grp.size = 0 ∧ c.pmb.bel.phase = .none
    ∧ (∀ n ∈ List.range 64, c.slotState n = stOFF ∨ c.slotState n = stABSENT ∨ c.slotState n = stCLINKER)
    ∧ (∀ r ∈ c.definedRings, c.ringState r = rsDISABLED)

/-- Rings in DISABLED that are reset: their registers return to their reset values, and the owner is that of the image (R207,
R237, R238). -/
def ringsReset (c : Chip) (rs : List Nat) : Change :=
  { regs := rs.map (fun r => (⟨FLU_RING_STAT.OWNER_NOW, r⟩, c.get FLU_RING_CFG.OWNER r % 2)),
    resets := rs.flatMap (fun r => [(.FLU_RING_DCNT, r), (.FLU_RING_CNT, r), (.FLU_RING_EVT, r), (.FLU_RING_STAT, r),
      (.FLU_RING_PTR, r), (.FLU_CQ_BASE_HI, r), (.FLU_CQ_BASE_LO, r), (.FLU_SQ_BASE_HI, r), (.FLU_SQ_BASE_LO, r), (.FLU_RING_CTL, r)]),
    rings := rs.map (fun r => (r, RingX.init)) }

/-- A shutdown starts on such a device: QUIESCE, and no retry waits (R338). -/
def quiesced (c : Chip) : Change :=
  (ringsReset c c.definedRings).plus
    { regs := seqRegs sqQUIESCE, seq := some { c.seq with retryWait := [], retrying := [] } }

/-- OPERATION 0x80 to each regulator of a rail, once a base image has been applied (R335, R347). -/
def railTxs (c : Chip) (i : Nat) : List PmbTx :=
  if c.seq.imaged = true then
    ((List.range 24).filter (fun j => c.on DRG_PMB_MAP.VALID j && decide (c.get DRG_PMB_MAP.RAIL j = i))).flatMap
      (fun j => c.pmbPaged (pmbPut j 0x01 [0x80]))
  else []

/-- Transactions wait behind those that wait already; where none did, and CK_LINK is locked, the first goes on the bus (R347). -/
def pmbWaits (c : Chip) (txs : List PmbTx) : Change :=
  { pmb := some { c.pmb with txs := c.pmb.txs ++ txs },
    out := if c.pmb.txs = [] ∧ c.seq.linkLock = true then txs.head?.toList.map c.pmbOut else [] }

/-- These transactions are left, the first of them with so many failures; with CK_LINK locked it goes on the bus (R347, R348). -/
def pmbLeft (c : Chip) (txs : List PmbTx) (fails : Nat) : Change :=
  { pmb := some { c.pmb with txs := txs, fails := fails }, out := if c.seq.linkLock = true then txs.head?.toList.map c.pmbOut else [] }

/-- The transactions of an entry are dropped; where the one on the bus was among them, the next one goes. -/
def pmbDropped (c : Chip) (j : Nat) : Change :=
  let txs := c.pmb.txs.filter (fun t => decide (t.entry ≠ j))
  if c.pmb.txs.head? = txs.head? then { pmb := some { c.pmb with txs := txs } } else pmbLeft c txs 0

/-- A change of the PMBus master, with the margin of the bellows as given. -/
def Change.margin (d : Change) (c : Chip) (b : BelX) : Change := { d with pmb := some { d.pmb.getD c.pmb with bel := b } }

/-- VOUT_COMMAND of an entry is to be written with a setpoint in 5 mV: the word is that of VOUT_MODE's linear format, and the k-th free
value in another format (R368, log entries 16 and 24). -/
def avsWrite (c : Chip) (j next k : Nat) : Change :=
  let word := ((tabFind c.pmb.modes j).bind (fun m => voutWord m (5 * next))).getD (Config.freeNat k % 65536)
  { pmbWaits c (c.pmbPaged ⟨j, 0x21, leBytes 2 word, 0, some (c.get DRG_AVS_STAT.VSET 0)⟩) with
    regs := [(⟨DRG_AVS_STAT.VSET, 0⟩, next)], free := some (k + 1) }

/-- The events of derate levels that rise to at least these (R41, R370). -/
def derateEvents (c : Chip) (a b : Nat) : List AshEv :=
  (if c.get DRG_AVS_STAT.DER16 0 < a then [⟨0x0C, 16, 0, false⟩] else [])
    ++ (if c.get DRG_AVS_STAT.DER17 0 < b then [⟨0x0C, 17, 0, false⟩] else [])

/-! ## The damper (R229, R361, R367) -/

/-- Requests of admissions that have waited: their rings are deferred. -/
def deferring (c : Chip) : Change :=
  let late := c.dmp.reqs.filter (fun q => match q.asker with | .admission r => !c.on FLU_RING_STAT.DEFERRED r | _ => false)
  { regs := (if late.any (fun q => q.class0) = true then [(⟨FLU_SCHED_EVT.FLOOR_HIT, 0⟩, 1)] else [])
      ++ (if late = [] then [] else [(⟨FLU_SCHED_EVT.DEFER_ON, 0⟩, 1)])
      ++ late.filterMap (fun q => match q.asker with | .admission r => some (⟨FLU_RING_STAT.DEFERRED, r⟩, 1) | _ => none) }

/-- The bits of DRG_DMP_EVT for THERMAL, THIN and HOT_IN, and their events in that order. -/
def dmpMarks (a b d : Bool) : List (Key × Nat) :=
  (if d = true then [(⟨DRG_DMP_EVT.HOT_IN, 0⟩, 1)] else []) ++ (if b = true then [(⟨DRG_DMP_EVT.THIN, 0⟩, 1)] else [])
    ++ (if a = true then [(⟨DRG_DMP_EVT.THERMAL, 0⟩, 1)] else [])
def dmpEvents (c : Chip) (a b d : Bool) : List AshEv :=
  let ev := fun (l : List (Key × Nat)) => (⟨0x0D, 0, (c.withRegs l).word .DRG_DMP_EVT 0, false⟩ : AshEv)
  (if a = true then [ev (dmpMarks a false false)] else []) ++ (if b = true then [ev (dmpMarks a b false)] else [])
    ++ (if d = true then [ev (dmpMarks a b d)] else [])

/-- The enable of a rail rises, after OPERATION 0x80 to each of its regulators (R331, R335). -/
def railOn (c : Chip) (i : Nat) : Change :=
  (pmbWaits c (railTxs c i)).plus
    { regs := [(⟨DRG_RAIL_EN.RAIL, 0⟩, c.withBit DRG_RAIL_EN.RAIL 0 i true)], out := [.rail i true] }

/-- An event of DRG_SEQ_EVT with its source: the register word as it reads with the new bit (R379, R396). -/
def seqEvent (c : Chip) (f : Fld) (src : Nat) : AshEv := ⟨src, 0, (c.flag f 0 true).word .DRG_SEQ_EVT 0, false⟩

/-- A Kuzagan link on which a frame of a class that is not traffic may go out at once (R47, R471, R477). -/
abbrev Chip.LinkFree (c : Chip) (k : Nat) (cls : KzClass) : Prop :=
  c.kzUsed k = true ∧ c.on DRG_KZ_STAT.INIT_OK k = true
    ∧ ((c.kzOf k).unacked.filter (fun f => decide (f.cls = cls))).length < 8 ∧ cls ≠ .traffic

/-- A frame goes out with the next SEQ of its class and waits for its ACK (R472, R477). -/
def frameSent (c : Chip) (k : Nat) (cls : KzClass) (typ : Nat) (payload : List Byte) : Change :=
  let x := c.kzOf k
  let seq := tabGet 0 x.txSeq (clsCode cls)
  { kz := [(k, { x with
      txSeq := tabPut id 0 x.txSeq (clsCode cls) ((seq + 1) % 256), unacked := x.unacked ++ [⟨cls, seq, typ, 0, payload⟩] })],
    out := [kzOut k (c.kzHeader k cls typ seq payload.length 0) payload] }

/-- The device is one of a group of two, and its link to the other is free for a class. -/
abbrev Chip.Pair (c : Chip) (k : Nat) (cls : KzClass) : Prop :=
  c.grp.size = 1 ∧ c.grp.dev ≤ 1 ∧ k = c.kzFor (1 - c.grp.dev) ∧ c.LinkFree k cls

/-- The common start of the core stage (R331): CORE, no power-up pending any more, the period of the rail monitors starts. -/
def coreStarted (c : Chip) : Change :=
  { regs := [(⟨DRG_SEQ_STAT.UP_PEND, 0⟩, 0)] ++ seqRegs sqCORE
      ++ ([0, 1, 2, 3, 4].filter (fun r => decide (2 ≤ c.get DRG_RMON_CFG.LATCH r) && !c.on DRG_RMON_STAT.STATE r)).map
        (fun r => (⟨DRG_RMON_STAT.LATCHED, r⟩, 0)),
    seq := some { c.seq with judged := [], planRails := [], retryWait := [], retrying := [], bmonLate := [] },
    wear := some { c.wear with warned := false }, kln := some { c.kln with baseOn := false } }

/-- A peer with no remote leg under way, which does not supervise, is declared lost (R250, R399, R476, R477): its link is unkeyed
with nothing left to send, its live bits are 0, and sources 0x36 and 0x49 go to Ash. -/
def peerGone (c : Chip) (d : Nat) : Change :=
  let k := c.kzFor d
  { regs := [(⟨FLU_STACK_EVT.PEER_DROP, 0⟩, 1), (⟨FLU_LIVE.LIVE, 2 * d + 1⟩, 0), (⟨FLU_LIVE.LIVE, 2 * d⟩, 0)] ++ unkeyedRegs c k,
    ash := some { c.ash with
      present := c.ash.present.filter (fun p => decide (p ≠ d)), hbRun := tabPut id 0 c.ash.hbRun d 0 },
    kz := [(k, { unkeyed (c.kzOf k) with unacked := [], txq := [], fwds := [], inbound := [] })],
    events := [stackEvent c FLU_STACK_EVT.PEER_DROP, ⟨0x49, d, 0, false⟩] }

/-- The loss of a peer ends no remote leg and no supervision. -/
abbrev Chip.PeerIdle (c : Chip) (d : Nat) : Prop :=
  c.ash.present.contains d = true ∧ (c.kzOf (c.kzFor d)).fwds = []
    ∧ (c.alone = true ∨ c.get DRG_GRP_STAT.SUP_DEV 0 ≠ d)

/-- A frame of its peer on a link that is up, heard before in this heartbeat period. -/
abbrev Chip.LinkHeard (c : Chip) (k : Nat) : Prop :=
  c.on DRG_KZ_STAT.INIT_OK k = true
    ∧ (c.peerOf k = c.grp.dev ∨ c.grp.size < c.peerOf k ∨ c.ash.hbSeen.contains (c.peerOf k) = true)

/-- A link that is gone or starts over (R471): nothing of it is left but the forwards under way and the next TAG. -/
def linkDown (c : Chip) (k : Nat) : Change :=
  { regs := (⟨DRG_KZ_STAT.INIT_OK, k⟩, 0) :: unkeyedRegs c k,
    kz := [(k, { KzX.init with fwds := (c.kzOf k).fwds, nextTag := (c.kzOf k).nextTag })] }

/-- What a traffic frame of a type holds under the key of its direction: its plaintext, and whether its tag holds (R476). -/
def Chip.opened (c : Chip) (k typ seq tag : Nat) (wire : List Byte) : List Byte × Bool :=
  let n := wire.length - 16
  let r := gcm256 (c.kzOf k).rxKey
    ([BitVec.ofNat 8 (c.peerOf k), BitVec.ofNat 8 c.grp.dev, 0, 0] ++ beBytes 8 ((c.kzOf k).rxCtr + 1))
    ([BitVec.ofNat 8 (128 + typ), BitVec.ofNat 8 seq, BitVec.ofNat 8 (64 * c.peerOf k + 16 * c.grp.dev), 0] ++ beBytes 2 n
      ++ beBytes 2 tag) (wire.take n) true
  (r.1, decide (r.2 = wire.drop n))

/-- The registers that an event of a class moves as Ash judges it (R380, R393, R394, R402). -/
def eventRegs (c : Chip) (e : AshEv) (cls : Nat) (banked : Bool) : List (Key × Nat) :=
  (if banked then [(⟨ASH_CNT2.CONSEQ_CNT, 0⟩, c.satInc ASH_CNT2.CONSEQ_CNT 0)]
   else (if cls = 2 then [(⟨ASH_STAT.LAST_UC, 0⟩, e.src)] else [])
    ++ (let f := if cls = 1 then ASH_CNT.CE_CNT else if cls = 2 then ASH_CNT.UC_CNT else ASH_CNT.FA_CNT
        [(⟨f, 0⟩, c.satInc f 0)]))
  ++ (if cls = 1 ∧ c.repeated e = true then []
      else [(⟨ASH_JRN_HEAD.SEQ_NEXT, 0⟩, (c.get ASH_JRN_HEAD.SEQ_NEXT 0 + 1) % 2 ^ 16)]
        ++ (if (tabFind c.ash.journal (c.get ASH_JRN_HEAD.SEQ_NEXT 0 % 512)).isSome = true then
              [(⟨ASH_CNT2.OVERRUN_CNT, 0⟩, c.satInc ASH_CNT2.OVERRUN_CNT 0)] else [])
        ++ (if cls ≠ 1 ∧ c.domUp 19 = false ∧ 64 ≤ c.ash.nvsPend.length then
              [(⟨ASH_JRN_PEND.NVS_LOST, 0⟩, c.satInc ASH_JRN_PEND.NVS_LOST 0)] else []))
  ++ [(⟨ASH_SRC_CNT.CNT, e.src⟩, c.satInc ASH_SRC_CNT.CNT e.src)]

/-- The record of an event joins the journal and, of class UC or FA, waits for the persistent journal; a CE event within 1 ms of
the last of its source and UNIT leaves no record (R380, R393, R394). -/
def eventAsh (c : Chip) (e : AshEv) (cls react : Nat) (conseq : Bool) : AshX :=
  if cls = 1 ∧ c.repeated e = true then c.ash
  else
    let r := c.record e cls react conseq
    { c.ash with
      journal := tabPut id ⟨0, 0, 0, 0⟩ c.ash.journal (c.get ASH_JRN_HEAD.SEQ_NEXT 0 % 512) r
      lastJrn := tabPut (fun p => p.1 * 256 + p.2) 0 c.ash.lastJrn (e.src, e.unit) (c.tick + 1)
      nvsPend := if cls = 1 ∨ (c.domUp 19 = false ∧ 64 ≤ c.ash.nvsPend.length) then c.ash.nvsPend else c.ash.nvsPend ++ [r] }

/-- Ash judges the oldest event that waits, of class CE or UC, outside the safe state and outside every window (R379, R380,
R391): it is counted and journalled with its reaction, a UC event starts a pulse of ALERT_N and with AUTO_HOLD sets HOLD. -/
def judged (c : Chip) (e : AshEv) (cls react : Nat) : Change :=
  { taken := 1,
    regs := (if cls = 2 ∧ c.on ASH_PIN_CTL.AUTO_HOLD 0 = true then [(⟨ASH_PIN_CTL.HOLD, 0⟩, 1)] else []) ++ eventRegs c e cls false,
    ash := some (if cls = 2 then { eventAsh c e cls react false with pulse := true } else eventAsh c e cls react false),
    out := if cls = 2 ∧ c.alertLow = false then [.alertN true] else [] }

/-- The event e waits first at Ash, which is not in the safe state and banks it in no window. -/
abbrev Chip.Judges (c : Chip) (e : AshEv) (cls react : Nat) : Prop :=
  c.ash.inbox.head? = some e ∧ srcRow e.src = some (cls, react) ∧ c.ash.safe = false ∧ c.banked e = false
    ∧ (cls = 2 → e.forced = false ∨ c.on ASH_PIN_CTL.DRILL_MUTE 0 = false)
    ∧ (∀ x ∈ List.range 2, c.on ASH_IRQ_CFG.EN x = false) ∧ c.pmb.bel.phase = .none

/-- Ash enters the safe state for an event of class FA on a device that is alone, whose slots are all inactive and which has no
Cinder work, no job and no margin (R291, R324, R388, R391): the event is counted and journalled, ALERT_N is low for good, every
slot is fenced, the key store and operand memory are zeroised, and ERR_FATAL goes out on each port whose link is up. -/
def safeEntered (c : Chip) (e : AshEv) (taken : Nat) : Change :=
  (({ taken := taken,
      regs := (if c.ash.everSafe = true then [] else [(⟨ASH_STAT.FIRST_FA, 0⟩, e.src)])
        ++ (List.range 4).map (fun n => (⟨HTH_SLOT_STAT.TRIAL_CLASS, n⟩, 3)) ++ eventRegs c e 3 false,
      slots := (List.range 64).map (fun n => (n, { c.slot n with schedReact := false })),
      ash := some { eventAsh c e 3 9 false with pulse := true, safe := true, everSafe := true, fatal := true },
      out := (if c.alertLow = true then [] else [.alertN true]) ++ ((List.range 2).filter c.linkUp).map .errFatal } : Change).plus
    (if e.src = 3 ∧ c.ash.tamper = true then {} else storeWiped c 2)).plus (operandsWiped c)

/-- Such a device. -/
abbrev Chip.Quiet (c : Chip) (e : AshEv) : Prop :=
  c.grp.size = 0 ∧ c.ash.safe = false ∧ (∀ b ∈ List.range 16, c.SlotsOut b) ∧ c.domUp 16 = true ∧ c.domUp 17 = true ∧ c.NoCinder
    ∧ (∀ k ∈ List.range 8, c.ctxJob k = false) ∧ c.pmb.bel.phase = .none ∧ (∀ x ∈ List.range 2, c.on ASH_IRQ_CFG.EN x = false)
    ∧ (e.forced = false ∨ c.on ASH_PIN_CTL.DRILL_MUTE 0 = false)

/-- A mailbox that takes a request: none runs, and no transition (R427, R455). -/
abbrev Chip.MbxFree (c : Chip) : Prop := c.on STK_MBX_STAT.BUSY 0 = false ∧ c.kln.lc = none

/-- A request of the mailbox ends at once with a status and data words (R424, R442). -/
def mbxAnswer (c : Chip) (op status : Nat) (words : List Nat) (oneShot : Bool) : Change :=
  { regs := [(⟨STK_MBX_STAT.BUSY, 0⟩, 0), (⟨STK_MBX_STAT.OP, 0⟩, op)],
    kln := some { c.kln with mbx := ⟨words, status, oneShot, true, false⟩ } }

/-- It ends with an LC_ERR and the status that goes with it (R441). -/
def mbxVerdict (c : Chip) (op err : Nat) : Change :=
  { regs := [(⟨KLN_LC_STAT.LC_ERR, 0⟩, err), (⟨STK_MBX_STAT.BUSY, 0⟩, 0), (⟨STK_MBX_STAT.OP, 0⟩, op)],
    kln := some { c.kln with mbx := ⟨[op * 256 + err], lcErrStatus err, false, true, false⟩ } }

/-- A request with a token uses up the nonce (R439) and ends with an LC_ERR. -/
def tokenUsed (c : Chip) (op err : Nat) : Change :=
  { regs := (⟨KLN_DBG_STAT.CHAL_LIVE, 0⟩, 0) :: (mbxVerdict c op err).regs,
    kln := some { c.kln with mbx := ⟨[op * 256 + err], lcErrStatus err, false, true, false⟩, nonce := none } }

/-- The token of a request. -/
def Chip.token (c : Chip) : Token := c.mbxTokens.headD (tokenOf [])

/-- KLN_LC_STAT while a transition runs (R443, R456). -/
def lcRegs (j : LcJob) : List (Key × Nat) :=
  [(⟨KLN_LC_STAT.STEP, 0⟩, match j.phase with
      | .step k => k
      | _ => 0),
   (⟨KLN_LC_STAT.PHASE, 0⟩, match j.phase with
      | .quiesce => 1
      | .step _ => 2
      | _ => 3),
   (⟨KLN_LC_STAT.RESUMED, 0⟩, j.resumed.toNat), (⟨KLN_LC_STAT.BUSY, 0⟩, 1), (⟨KLN_LC_STAT.TARGET, 0⟩, j.target)]

/-- A transition goes on with a phase. -/
def lcGoes (c : Chip) (j : LcJob) : Change := { regs := lcRegs j, kln := some { c.kln with lc := some j } }

/-- The registers of an image command that has ended (R413). -/
def imgEnds (c : Chip) (result rec : Nat) : List (Key × Nat) :=
  if c.on KLN_IMG_RES.BUSY 0 = true then
    [(⟨KLN_IMG_RES.BUSY, 0⟩, 0), (⟨KLN_IMG_RES.REC, 0⟩, min 255 rec), (⟨KLN_IMG_RES.RESULT, 0⟩, result)]
  else []

/-- Kiln works on no image and no overlay. -/
abbrev Chip.KilnIdle (c : Chip) : Prop := c.kln.img = none ∧ c.kln.job = none ∧ c.on KLN_IMG_RES.BUSY 0 = false

/-- The rings and slots whose registers an overlay changes are held (R418). -/
def heldBy (c : Chip) (o : OvlX) : KlnX :=
  { c.kln with heldRings := (o.recs.flatMap recRings).eraseDups, heldSlots := (o.recs.flatMap recSlots).eraseDups }

/-- The count of active slots, which a commit takes again (R191, R418). -/
def Chip.activeSlots (c : Chip) : Nat :=
  ((List.range 64).filter (fun n => c.on HTH_BANK_CFG.BANK_EN (bankOf n) && c.slotEn n)).length

/-- The entry that carries the release of a key transfer (R425). -/
def releaseEntry (c : Chip) (src : Nat) (apdu : List Byte) : Entry :=
  { uid := c.nextUid, ring := 512, index := 0,
    raw := [4, 8] ++ List.replicate 8 0 ++ leBytes 2 apdu.length ++ leBytes 2 4096 ++ List.replicate 50 0, arrived := c.us,
    phase := .active, deferUs := 0, order := c.nextOrder + 1, epoch := 0, prefLeg := false, cqReserved := false,
    leg0 := ⟨.queued, 64 * c.grp.dev + src, 0, false, false⟩, leg1 := Leg.init, retried := false, dlMissed := false,
    staleMarked := false, apdu := apdu, rsp := [], sw := 0, cardUs := 0, status := 0, silent := true, counted := false,
    dmaBad := false, place := none }

/-- Registers that hold settings and nothing else, some in every block that has them: a write does no more than store it. -/
def settingRegs : List RegName :=
  [.KLN_IMG_ADDR, .KLN_PIN, .DRG_GRP_CFG, .DRG_DMP_CFG2, .DRG_DMP_COST, .DRG_AGE_CFG, .DRG_RMON_THR, .ASH_HB_CFG, .ASH_IRQ_CFG,
   .ASH_INJ_DETAIL, .ASH_JRN_SEL, .FLU_SCHED_CFG, .FLU_CLASS_CFG, .FLU_PORT_CFG, .FLU_HP_CFG, .FLU_HP_ID, .HTH_SLOT_RCV,
   .HTH_SLOT_CTL, .HTH_SLOT_ELEC, .HTH_MON_THR, .CRD_CFG, .CRD_GEN_FLOOR, .EMB_CFG]

/-- What a write stores (R5, R9): the fields that are RW, or RWL without the configuration lock, take their bits of the word,
brought within the limits of the field. -/
def stored (c : Chip) (r : RegName) (i v : Nat) : List (Key × Nat) :=
  ((regFields r).filter (fun f => decide ((⟨r, f.lo⟩ : Fld).accAt i = .RW)
      || (decide ((⟨r, f.lo⟩ : Fld).accAt i = .RWL) && !c.on KLN_CFG_STAT.LOCK 0))).map
    (fun f => (⟨⟨r, f.lo⟩, i⟩, (⟨r, f.lo⟩ : Fld).within i (v / 2 ^ f.lo % 2 ^ f.width) % 2 ^ f.width))

/-- A bit of a register's table. -/
def tableBit (r : RegName) (k : Nat) : Bool := (regFields r).any (fun f => decide (f.lo ≤ k) && decide (k < f.lo + f.width))

/-- The port serves nobody whose work a change of its serving moves: no ring that it owns is RUNNING or PAUSED. -/
abbrev Chip.NoRingWork (c : Chip) (x : Nat) : Prop :=
  ∀ r ∈ c.definedRings, c.owner r = x → c.ringState r ≠ rsRUNNING ∧ c.ringState r ≠ rsPAUSED

/-- The power domain of a monitor's registers (R42, R206); none for AON. -/
def monDomain (m : MonId) : Option Nat :=
  match m with
  | .vmon n | .imon n | .iomon n => some (bankOf n.val)
  | .pmon n => some (bankOf n.val)
  | .bmon b => some b.val
  | .rmon _ => none

/-- The commands that are a write of a register by a path: the path, the block of the register, whether it is ASH_CMD, and its
power domain, none for AON (R21, R42, R44). -/
def registerCommand (i : Instr) : Option (Path × Nat × Bool × Option Nat) :=
  match i with
  | .warm p _ => some (p, blkASH, true, none)
  | .liftPort p _ _ => some (p, blkASH, true, none)
  | .activate p n => some (p, blkHTH, false, some (bankOf n.val))
  | .warmReset p n _ => some (p, blkHTH, false, some (bankOf n.val))
  | .deactivate p n _ => some (p, blkHTH, false, some (bankOf n.val))
  | .slotReset p n => some (p, blkHTH, false, some (bankOf n.val))
  | .force p n => some (p, blkHTH, false, some (bankOf n.val))
  | .legMeasReq p n => some (p, blkHTH, false, some (bankOf n.val))
  | .monitorModeWrite p m _ => some (p, match m with | .rmon _ => blkDRG | _ => blkHTH, false, monDomain m)
  | .latchedClear p m => some (p, match m with | .rmon _ => blkDRG | _ => blkHTH, false, monDomain m)
  | .sqDoorbell p _ _ => some (p, blkFLU, false, some 16)
  | .cqDoorbell p _ _ => some (p, blkFLU, false, some 16)
  | .ringEn p _ _ => some (p, blkFLU, false, some 16)
  | .pause p _ => some (p, blkFLU, false, some 16)
  | .resume p _ => some (p, blkFLU, false, some 16)
  | .reset p _ => some (p, blkFLU, false, some 16)
  | .handback p _ => some (p, blkFLU, false, some 16)
  | .clearStale p _ _ _ => some (p, blkFLU, false, some 16)
  | .rebuild p => some (p, blkFLU, false, some 16)
  | .go p _ => some (p, blkEMB, false, some 17)
  | .abort p _ => some (p, blkEMB, false, some 17)
  | .down p => some (p, blkDRG, false, none)
  | .up p => some (p, blkDRG, false, none)
  | .cold p => some (p, blkDRG, false, none)
  | .retry p _ => some (p, blkDRG, false, none)
  | .bellowsGo p _ _ _ => some (p, blkDRG, false, none)
  | .bellowsStop p => some (p, blkDRG, false, none)
  | .ageMeasReq p => some (p, blkDRG, false, none)
  | .forceSlotShort p _ => some (p, blkASH, false, none)
  | .forceSlotRemoval p _ => some (p, blkASH, false, none)
  | .forceBankRailFault p _ => some (p, blkASH, false, none)
  | .forcePeerLoss p _ => some (p, blkASH, false, none)
  | .forcePortLoss p _ => some (p, blkASH, false, none)
  | .forceEmberJobFailure p _ => some (p, blkASH, false, none)
  | .forceLift p _ _ => some (p, blkASH, false, none)
  | .inject p _ _ => some (p, blkASH, false, none)
  | .applyBase p => some (p, blkKLN, false, none)
  | .storeBase p => some (p, blkKLN, false, none)
  | .applyOvl p => some (p, blkKLN, false, none)
  | .removeOvl p _ => some (p, blkKLN, false, none)
  | .keyXfer p => some (p, blkSTK, false, some 16)
  | .challenge p => some (p, blkSTK, false, some 16)
  | .attest p => some (p, blkSTK, false, some 16)
  | .grant p => some (p, blkSTK, false, some 16)
  | .revokeGrants p => some (p, blkSTK, false, some 16)
  | .transition p => some (p, blkSTK, false, some 16)
  | .tenantLock p => some (p, blkSTK, false, some 16)
  | .rootLoad p => some (p, blkSTK, false, some 16)
  | .rootRevoke p => some (p, blkSTK, false, some 16)
  | .voteRepair p => some (p, blkSTK, false, some 16)
  | _ => none

end Sys2Proof.Machine
end

