-- ==== Sys2Proof/Certificates/Slice0/Obligations.lean ====
section
/-! DEFINITION. The statements about the block that are given to the provers. A statement of what a command does is an
`Effect`: all that the command changes and nothing else, whatever the rest of the state. -/

open Sys2Proof Sys2Proof.Machine

/-- Of a slot whose registers take writes: ACTIVATE in OFF, not fenced and with nothing pending, sets ACT_PEND and
BUDGET_WAIT and asks for inrush budget of the class tried; WARM_RESET in READY, with FORCE also in BUSY, takes the
card to RESET_HELD with RST low, in BUSY after the exchange is cut; DEACTIVATE (with FORCE also in BUSY) starts the
commanded sequence with cause HOST_DEACT; SLOT_RESET in OFF, ABSENT or CLINKER resets the slot's registers but STATE
and TRIAL_CLASS, and in an active state first deactivates with cause SLOT_RESET; FORCE runs the DEACTIVATE or the
WARM_RESET that waits in EXCH_WAIT; MEAS_REQ in OFF or ABSENT starts a requested measurement (MEAS_VALID 0), or ends
at once with MEAS_DONE where CAL_OK is 0. Nothing else of the block changes. (R82, R89, R91, R100, R101, R110, R111,
R154, R185) -/
def Obligations.SlotHostCommands : Prop :=
  ∀ (p : Path) (n : SlotId) (s : State), s.Takes p blkHTH (s.chip.domUp (bankOf n)) →
      (s.chip.slotState n = stOFF → s.chip.slotFenced n = false → s.chip.get HTH_SLOT_STAT.ACT_PEND n = 0 →
          Effect (.activate p n) s
        ({ regs := [(⟨HTH_SLOT_STAT.BUDGET_WAIT, n⟩, 1), (⟨HTH_SLOT_STAT.ACT_PEND, n⟩, 1)],
           dmp := some { s.chip.dmp with reqs := s.chip.dmp.reqs ++ [⟨.activation n, 4,
             min (s.chip.cost (4 + s.chip.trialClass n)) (s.chip.get DRG_DMP_CFG.DEPTH 0 * 1000), false⟩] } }))
      ∧ (∀ (force : Bool), s.chip.slotState n = stREADY → s.chip.Bare n → Effect (.warmReset p n force) s
        (cardReset s.chip n))
      ∧ (∀ (force : Bool), 1 ≤ s.chip.slotState n → s.chip.slotState n ≤ stBUSY →
          (s.chip.slotState n = stBUSY → force = true) → s.chip.Bare n → Effect (.deactivate p n force) s
        (deactivation s.chip n .commanded cauHOST))
      ∧ (s.chip.slotState n = stOFF ∨ s.chip.slotState n = stABSENT ∨ s.chip.slotState n = stCLINKER →
          s.chip.get HTH_SLOT_STAT.ACT_PEND n = 0 → (s.chip.slot n).queue = [] → Effect (.slotReset p n) s
        ({ regs := [(⟨HTH_SLOT_STAT.STATE, n⟩, s.chip.slotState n),
             (⟨HTH_SLOT_STAT.TRIAL_CLASS, n⟩, s.chip.get HTH_SLOT_STAT.TRIAL_CLASS n)],
           resets := [(.HTH_TURF_LAST, n), (.HTH_TURF_EVT, n), (.HTH_TURF_STAT, n), (.HTH_PROT_LAST, n), (.HTH_PROT_EVT, n),
             (.HTH_PROT_CLKDIV, n), (.HTH_PROT_WT, n), (.HTH_PROT_STAT, n), (.HTH_SLOT_ATRLEN, n), (.HTH_SLOT_CAUSE, n),
             (.HTH_SLOT_EVT, n), (.HTH_SLOT_CMD, n), (.HTH_SLOT_STAT, n)],
           slots := [(n, { s.chip.slot n with schedReact := false, resetPend := false, reinserted := false, atr := [],
                                              atrDone := false, trial := false, noFollow := false, exchWait := none })] }))
      ∧ (1 ≤ s.chip.slotState n → s.chip.slotState n ≤ stBUSY → s.chip.Bare n → Effect (.slotReset p n) s
        (deactivation (s.chip.setSlot n { s.chip.slot n with resetPend := true }) n .commanded cauSLOTRST))
      ∧ (1 ≤ s.chip.slotState n → s.chip.slotState n ≤ stBUSY → s.chip.Bare n →
          (s.chip.slot n).exchWait = some .deactivate → Effect (.force p n) s
        (deactivation s.chip n .commanded cauHOST))
      ∧ (∀ (i : Instr), s.chip.slotState n = stBUSY → s.chip.Bare n →
          (i = .warmReset p n true ∧ (s.chip.slot n).exchWait ≠ some .deactivate
            ∨ i = .force p n ∧ (s.chip.slot n).exchWait = some .warmReset) →Effect (i) s
        (let d := cardReset (s.chip.setSlot n
           { s.chip.slot n with wait := none, cur := none, t0 := T0X.init, t1 := T1X.init }) n
         { d with regs := d.regs ++ [(⟨HTH_SLOT_STAT.BUDGET_WAIT, n⟩, 0)] }))
      ∧ (s.chip.slotState n = stOFF ∨ s.chip.slotState n = stABSENT → (s.chip.slot n).measuring = false →
          s.chip.on HTH_BANK_ESTAT.CAL_OK (bankOf n) = true → Effect (.legMeasReq p n) s
        ({ regs := [(⟨HTH_LEG_STAT.MEAS_VALID, n⟩, 0), (⟨HTH_LEG_CMD.MEAS_REQ, n⟩, 1)],
           slots := [(n, measBegun s.chip n false)] }))
      ∧ (s.chip.slotState n = stOFF ∨ s.chip.slotState n = stABSENT → (s.chip.slot n).measuring = false →
          s.chip.on HTH_BANK_ESTAT.CAL_OK (bankOf n) = false → Effect (.legMeasReq p n) s
        ({ regs := [(⟨HTH_LEG_CMD.MEAS_DONE, n⟩, 1)] }))

/-- A sample of the presence monitor of an operator slot with which the filter moves to the good side is a rise of PRES:
the sample and the move are recorded, INSERTED sets, the recovery counts start over, source 0x13 goes to Ash, and in
ABSENT the slot goes to OFF with the insertion timer running, while in DEACTIVATING the reinsertion is remembered. A
move to the alarm side is a fall of PRES: a slot in RAMP to BUSY that carries no leg deactivates with cause REMOVAL,
and a slot in OFF with nothing pending goes to ABSENT with the class trial starting over. When the insertion timer
runs out INS_PEND clears, and a slot with AUTO_ACT starts an activation, which waits with ACT_PEND set where SLOT_EN
is clear. Nothing else of the block changes. (R69, R84, R88, R89, R91, R98, R102, R103, R104, R119, R186, R200) -/
def Obligations.PresenceAtASlot : Prop :=
  (∀ (n : Fin 4) (x : Sample) (s : State), s.At (operatorSlot n) →
      (s.chip.Says (.pmon n) x (some false) → s.chip.monAlarm (.pmon n) = true → s.chip.slotState n = stABSENT →
          Effect (.presRise ⟨(operatorSlot n), [x]⟩) s
        (((sampleTaken s.chip (.pmon n) x).plus
           { regs := goodRegs s.chip (.pmon n), events := [moveEvent s.chip (.pmon n) x (goodRegs s.chip (.pmon n))] }).plus
           { regs := [(⟨HTH_SLOT_STAT.INS_PEND, n⟩, 1), (⟨HTH_SLOT_STAT.STATE, n⟩, stOFF), (⟨HTH_SLOT_RCNT.OK_RUN, n⟩, 0),
               (⟨HTH_SLOT_RCNT.FAIL_CNT, n⟩, 0), (⟨HTH_SLOT_RCNT.ESC_LEVEL, n⟩, 0), (⟨HTH_SLOT_EVT.INSERTED, n⟩, 1)],
             slots := [(n, { s.chip.slot n with forcedAbsent := false })] }))
      ∧ (s.chip.Says (.pmon n) x (some false) → s.chip.monAlarm (.pmon n) = true → s.chip.slotState n = stDEACT →
          Effect (.presRise ⟨(operatorSlot n), [x]⟩) s
        (((sampleTaken s.chip (.pmon n) x).plus
           { regs := goodRegs s.chip (.pmon n), events := [moveEvent s.chip (.pmon n) x (goodRegs s.chip (.pmon n))] }).plus
           { regs := [(⟨HTH_SLOT_RCNT.OK_RUN, n⟩, 0), (⟨HTH_SLOT_RCNT.FAIL_CNT, n⟩, 0), (⟨HTH_SLOT_RCNT.ESC_LEVEL, n⟩, 0),
               (⟨HTH_SLOT_EVT.INSERTED, n⟩, 1)],
             slots := [(n, { s.chip.slot n with forcedAbsent := false, reinserted := true })] }))
      ∧ (s.chip.Says (.pmon n) x (some true) → s.chip.monAlarm (.pmon n) = false → 1 ≤ s.chip.slotState n →
          s.chip.slotState n ≤ stBUSY → s.chip.Bare n → Effect (.removal ⟨(operatorSlot n), [x]⟩) s
        ((tripped s.chip (.pmon n) x).plus
           (deactivation (s.chip.setSlot n { s.chip.slot n with reinserted := false }) n .removal cauREMOVAL)))
      ∧ (s.chip.Says (.pmon n) x (some true) → s.chip.monAlarm (.pmon n) = false → s.chip.slotState n = stOFF →
          s.chip.Bare n → s.chip.get HTH_SLOT_STAT.ACT_PEND n = 0 →
          Effect (.removal ⟨(operatorSlot n), [x]⟩) s
        ((tripped s.chip (.pmon n) x).plus
           { regs := [(⟨HTH_SLOT_STAT.STATE, n⟩, stABSENT), (⟨HTH_SLOT_STAT.TRIAL_CLASS, n⟩, 3), (⟨HTH_SLOT_STAT.INS_PEND, n⟩,
               0)],
             slots := [(n, { s.chip.slot n with schedReact := false })] })))
  ∧ (∀ (n : SlotId) (s : State), s.At n → s.chip.on HTH_SLOT_STAT.INS_PEND n = true →
      (s.chip.on HTH_SLOT_CTL.AUTO_ACT n = true → s.chip.slotState n = stOFF →
          s.chip.get HTH_SLOT_STAT.ACT_PEND n = 0 → Effect (.insertionTimerExpiry n) s
        (({ regs := [(⟨HTH_SLOT_STAT.INS_PEND, n⟩, 0)] } : Change).plus (activation s.chip n)))
      ∧ (s.chip.on HTH_SLOT_CTL.AUTO_ACT n = false → Effect (.insertionTimerExpiry n) s
        ({ regs := [(⟨HTH_SLOT_STAT.INS_PEND, n⟩, 0)] })))

/-- A sample of a monitor with which its filter moves to the alarm side records the sample and the move (RAW, RAW_SEEN,
the history, STATE, LATCHED, TRIP, DECIDED) and goes to Ash under the monitor's source. IMON, with the VCC switch
closed or a sequence that has still to open it, deactivates a slot that carries no leg with cause SHORT; VMON and
IOMON, once armed, do so with VCC_FAULT and IO_FAULT; VMON and IOMON not armed and IMON with the switch open drive
nothing. BMON before the release of its bank's isolation only records, without an event. RMON goes to Ash, and a move
during the dwell of a margin on its rail counts in MON_EVT. Nothing else of the block changes. (R105, R115, R187,
R192, R194, R200, R203, R204, R379, R396) -/
def Obligations.MonitorAlarms : Prop :=
  (∀ (n : SlotId) (x : Sample) (s : State), s.Still →
      (s.chip.Says (.imon n) x (some true) → s.chip.monAlarm (.imon n) = false →
          s.chip.on HTH_SLOT_ESTAT.SW_CLOSED n = true ∨ (s.chip.slot n).opening = true → 1 ≤ s.chip.slotState n →
          s.chip.slotState n ≤ stBUSY → s.chip.Bare n → Effect (.imonHigh ⟨n, [x]⟩) s
        ((tripped s.chip (.imon n) x).plus (deactivation s.chip n .fault cauSHORT)))
      ∧ (s.chip.Says (.vmon n) x (some true) → s.chip.monAlarm (.vmon n) = false → (s.chip.slot n).armed = true →
          1 ≤ s.chip.slotState n → s.chip.slotState n ≤ stBUSY → s.chip.Bare n → Effect (.vmonFault n [x]) s
        ((tripped s.chip (.vmon n) x).plus (deactivation s.chip n .fault cauVCC)))
      ∧ (s.chip.Says (.iomon n) x (some true) → s.chip.monAlarm (.iomon n) = false → (s.chip.slot n).armed = true →
          1 ≤ s.chip.slotState n → s.chip.slotState n ≤ stBUSY → s.chip.Bare n → Effect (.iomonFault n [x]) s
        ((tripped s.chip (.iomon n) x).plus (deactivation s.chip n .fault cauIO)))
      ∧ (s.chip.Says (.imon n) x (some true) → s.chip.monAlarm (.imon n) = false →
          s.chip.on HTH_SLOT_ESTAT.SW_CLOSED n = false → (s.chip.slot n).opening = false →
          Effect (.imonHigh ⟨n, [x]⟩) s (tripped s.chip (.imon n) x))
      ∧ (s.chip.Says (.vmon n) x (some true) → s.chip.monAlarm (.vmon n) = false → (s.chip.slot n).armed = false →
          Effect (.vmonFault n [x]) s (tripped s.chip (.vmon n) x))
      ∧ (s.chip.Says (.iomon n) x (some true) → s.chip.monAlarm (.iomon n) = false → (s.chip.slot n).armed = false →
          Effect (.iomonFault n [x]) s (tripped s.chip (.iomon n) x)))
  ∧ (∀ (x : Sample) (s : State), s.Still →
      (∀ (b : BankId), s.chip.Says (.bmon b) x (some true) → s.chip.monAlarm (.bmon b) = false →
          s.chip.domUp b = false → ¬(monRail (.bmon b) = some s.chip.pmb.bel.rail ∧ s.chip.pmb.bel.phase = .dwell) →
          Effect (.bmonFault b [x]) s
        ((sampleTaken s.chip (.bmon b) x).plus { regs := tripRegs s.chip (.bmon b) }))
      ∧ (∀ (r : Fin 5), s.chip.Says (.rmon r) x (some true) → s.chip.monAlarm (.rmon r) = false →
          Effect (.rmonAlarm r [x]) s
        ((tripped s.chip (.rmon r) x).plus
           { regs := if monRail (.rmon r) = some s.chip.pmb.bel.rail ∧ s.chip.pmb.bel.phase = .dwell then
               [(⟨DRG_BEL_RES.MON_EVT, 0⟩, s.chip.satInc DRG_BEL_RES.MON_EVT 0)] else [] })))

/-- PRES_RISE, REMOVAL, IMON_HIGH, VMON_FAULT, IOMON_FAULT, BMON_FAULT and RMON_ALARM do what MONITOR_GOOD does with the
samples of their monitor. One sample of a powered, unblanked monitor with which the filter says nothing only joins the
history and sets RAW, and RAW_SEEN where it lies beyond a trip threshold; where it confirms the filtered state,
DECIDED sets and UNDECIDED clears as well; where it moves an IMON, IOMON, BMON or RMON, or a VMON whose ramp is not
over, to the good side, STATE clears, and LATCHED where the latch mode is transparent. A sample of a monitor that is
blanked or has no power changes nothing. An excursion between samples sets RAW_SEEN, and of a rail monitor with glitch
notices goes to Ash as source 0x2C. A write of MODE stores it and blanks the monitor; the end of blanking ends that. A
write of 1 to LATCHED clears it on the good side unless only a period clears it, and else does nothing. LIMITING with
the switch closed sets LIMITING and LIMIT_SEEN. Nothing else of the block changes. (R56, R187, R192, R194, R196, R197,
R203, R204, R206) -/
def Obligations.MonitorRecord : Prop :=
  (∀ (m : MonId) (x : Sample) (s : State), s.Still →
      (s.chip.Says m x none → Effect (.monitorGood ⟨m, [x]⟩) s (sampleTaken s.chip m x))
      ∧ (∀ (alarm : Bool), s.chip.Says m x (some alarm) → s.chip.monAlarm m = alarm → Effect (.monitorGood ⟨m, [x]⟩) s
        ((sampleTaken s.chip m x).plus { regs := decidedRegs m }))
      ∧ (s.chip.Says m x (some false) → s.chip.monAlarm m = true →
          (match m with | .pmon _ => false | .vmon n => !(s.chip.slot n).rampDone | _ => true) = true →
          Effect (.monitorGood ⟨m, [x]⟩) s ((sampleTaken s.chip m x).plus { regs := goodRegs s.chip m }))
      ∧ (s.chip.monUp m = false ∨ s.chip.blanked.contains m = true → Effect (.monitorGood ⟨m, [x]⟩) s ({})))
  ∧ (∀ (m : MonId) (i : Instr) (xs : List Sample) (s : State),
      samplesOf i = some (m, xs) →
        exec i s = exec (.monitorGood ⟨m, xs⟩) s)
  ∧ (∀ (m : MonId) (s : State), s.Still → s.chip.monUp m = true →
      ∀ (x : Sample), s.chip.blanked.contains m = false → (s.chip.monClass m x).out = true →
          Effect (.rawSeen ⟨m, x⟩) s
        ({ regs := [(⟨monStat m mRAWSEEN, monIdx m⟩, 1)], events := glitchEvents s.chip m [(⟨monStat m mRAWSEEN, monIdx m⟩,
            1)] }))
  ∧ (∀ (p : Path) (m : MonId) (s : State), s.Takes p (monBlk m) (s.chip.monWriteUp m) →
      (∀ (mode : Nat), Effect (.monitorModeWrite p m mode) s
        ({ regs := [(⟨monCfg m mMODE, monIdx m⟩, mode % 2 ^ (monCfg m mMODE).width)],
           blanked := some (if s.chip.blanked.contains m then s.chip.blanked else s.chip.blanked ++ [m]) }))
      ∧ (s.chip.monAlarm m = false → s.chip.get (monCfg m mLATCH) (monIdx m) ≠ 2 → Effect (.latchedClear p m) s
        ({ regs := [(⟨monStat m mLATCHED, monIdx m⟩, 0)] }))
      ∧ (s.chip.monAlarm m = true ∨ s.chip.get (monCfg m mLATCH) (monIdx m) = 2 → Effect (.latchedClear p m) s ({})))
  ∧ (∀ (m : MonId) (s : State), s.Still →
      Effect (.monitorBlankEnd m) s ({ blanked := some (s.chip.blanked.filter (fun q => decide (q ≠ m))) }))
  ∧ (∀ (n : SlotId) (s : State), s.At n → s.chip.on HTH_SLOT_ESTAT.SW_CLOSED n = true →
      Effect (.limiting n) s
        ({ regs := [(⟨HTH_SLOT_ESTAT.LIMIT_SEEN, n⟩, 1), (⟨HTH_SLOT_ESTAT.LIMITING, n⟩, 1)] }))

/-- When the damper can grant the inrush budget of a pending activation and the slot and its bank are ready, the grant is
taken and spent, the class of the attempt is fixed, the ATR and the protocol parameters are cleared and the slot
enters RAMP: with CAL_OK a leg measurement starts, without it (and IMON on its good side) the VCC switch closes at
once. In RAMP with the switch closed, the ramp controller at its final value and VMON decided on its good side, before
or by a sample that comes with it, arm VMON and IOMON, start CLK at ACT_CLK and enter CLOCKED (IOMON good); without
that decision the slot stays in RAMP; VCC not good in time deactivates a slot that carries no leg with cause
VCC_FAULT. RST rises from CLOCKED (I/O first) or RESET_HELD, and the slot enters ATR_WAIT. Nothing else of the block
changes. (R30, R62, R84, R88, R89, R90, R91, R92, R98, R123, R201, R203) -/
def Obligations.ActivationUpToVcc : Prop :=
  (∀ (n : SlotId) (s : State), s.Still →
      (∀ (r : Req) (b : Bool), s.chip.canGrant (.activation n) = some (r, b) →
          s.chip.on HTH_SLOT_STAT.ACT_PEND n = true → s.chip.actReady n = true → s.chip.bankFree (bankOf n) = true →
          (s.chip.slot n).measuring = false → s.chip.on HTH_BANK_ESTAT.CAL_OK (bankOf n) = true →
          Effect (.inrushBudgetGrant n) s
        ({ regs := (⟨HTH_LEG_STAT.MEAS_VALID, n⟩, 0) :: periodRegs s.chip n ++ [(⟨HTH_SLOT_STAT.STATE, n⟩, stRAMP)]
            ++ (if isOperator n then [] else [(⟨HTH_TURF_LAST.RETRAINS, n⟩, 0)])
               ++ [(⟨HTH_SLOT_STAT.TRIAL_CLASS, n⟩, s.chip.trialClass n % 4), (⟨HTH_SLOT_STAT.ACT_PEND, n⟩, 0),
                   (⟨HTH_SLOT_STAT.BUDGET_WAIT, n⟩, 0)],
           resets := [(.HTH_PROT_WT, n), (.HTH_PROT_STAT, n), (.HTH_SLOT_ATRLEN, n)],
           slots := [(n, { noAtr (s.chip.slot n) with
               coldAct := true, trial := isOperator n && decide (s.chip.get HTH_SLOT_ELEC.CLASS_MODE n = 0), schedReact := false,
               noFollow := false, toClinker := false, forcedRemoval := false, slew := s.chip.get HTH_SLOT_ELEC.VCC_SLEW n,
               clkEdge := s.chip.on HTH_SLOT_ELEC.CLK_EDGE n, ioPu := s.chip.on HTH_SLOT_ELEC.IO_PU n,
               presPol := s.chip.on HTH_SLOT_ELEC.PRES_POL n, rstHigh := false, armed := false, opening := false,
               measuring := true, measAtRamp := true, measLo := s.chip.get HTH_BANK_LEGLIM.LO_FACTOR (bankOf n),
               measHi := s.chip.get HTH_BANK_LEGLIM.HI_FACTOR (bankOf n), measSides := [], measGone := [], measDead := false })],
           dmp := some (grantSpent s.chip r b) }))
      ∧ (∀ (r : Req) (b : Bool), s.chip.canGrant (.activation n) = some (r, b) →
          s.chip.on HTH_SLOT_STAT.ACT_PEND n = true → s.chip.actReady n = true → s.chip.bankFree (bankOf n) = true →
          (s.chip.slot n).measuring = false → s.chip.on HTH_BANK_ESTAT.CAL_OK (bankOf n) = false →
          s.chip.on HTH_MON_STAT.STATE (4 * n + 1) = false → Effect (.inrushBudgetGrant n) s
        ({ regs := closedRegs n (s.chip.trialClass n) ++ periodRegs s.chip n ++ [(⟨HTH_SLOT_STAT.STATE, n⟩, stRAMP)]
            ++ (if isOperator n then [] else [(⟨HTH_TURF_LAST.RETRAINS, n⟩, 0)])
               ++ [(⟨HTH_SLOT_STAT.TRIAL_CLASS, n⟩, s.chip.trialClass n % 4), (⟨HTH_SLOT_STAT.ACT_PEND, n⟩, 0),
                   (⟨HTH_SLOT_STAT.BUDGET_WAIT, n⟩, 0)],
           resets := [(.HTH_PROT_WT, n), (.HTH_PROT_STAT, n), (.HTH_SLOT_ATRLEN, n)],
           slots := [(n, { noAtr (s.chip.slot n) with
               coldAct := true, trial := isOperator n && decide (s.chip.get HTH_SLOT_ELEC.CLASS_MODE n = 0), schedReact := false,
               noFollow := false, toClinker := false, forcedRemoval := false, slew := s.chip.get HTH_SLOT_ELEC.VCC_SLEW n,
               clkEdge := s.chip.on HTH_SLOT_ELEC.CLK_EDGE n, ioPu := s.chip.on HTH_SLOT_ELEC.IO_PU n,
               presPol := s.chip.on HTH_SLOT_ELEC.PRES_POL n, rstHigh := false, armed := false, opening := false,
               measuring := false, measAtRamp := false, rampDone := false })],
           dmp := some (grantSpent s.chip r b),
           out := [.contact n .discharge false, .contact n .vcc true] })))
  ∧ (∀ (n : SlotId) (s : State), s.At n →
      (s.chip.slotState n = stRAMP → s.chip.on HTH_SLOT_ESTAT.SW_CLOSED n = true →
          s.chip.on HTH_MON_STAT.DECIDED (4 * n) = true → s.chip.on HTH_MON_STAT.STATE (4 * n) = false →
          s.chip.on HTH_MON_STAT.STATE (4 * n + 2) = false → Effect (.vccGood ⟨n, []⟩) s
        ({ regs := [(⟨HTH_SLOT_STAT.STATE, n⟩, stCLOCKED)] ++ clkRegs n (actClk (s.chip.get HTH_SLOT_CTL.ACT_CLK n)),
           slots := [(n, vccIsGood s.chip n)],
           out := [.contact n .clk true] }))
      ∧ (∀ (x : Sample), s.chip.slotState n = stRAMP → s.chip.on HTH_SLOT_ESTAT.SW_CLOSED n = true →
          s.chip.Says (.vmon n) x (some false) → s.chip.monAlarm (.vmon n) = true → (s.chip.slot n).rampDone = false →
          s.chip.on HTH_MON_STAT.STATE (4 * n + 2) = false → Effect (.vccGood ⟨n, [x]⟩) s
        (((sampleTaken s.chip (.vmon n) x).plus { regs := goodRegs s.chip (.vmon n) }).plus
           { regs := [(⟨HTH_SLOT_STAT.STATE, n⟩, stCLOCKED)] ++ clkRegs n (actClk (s.chip.get HTH_SLOT_CTL.ACT_CLK n)),
             slots := [(n, vccIsGood s.chip n)],
             out := [.contact n .clk true] }))
      ∧ (s.chip.slotState n = stRAMP → s.chip.on HTH_SLOT_ESTAT.SW_CLOSED n = true →
          s.chip.on HTH_MON_STAT.DECIDED (4 * n) = false ∨ s.chip.on HTH_MON_STAT.STATE (4 * n) = true →
          Effect (.vccGood ⟨n, []⟩) s ({ slots := [(n, { s.chip.slot n with rampDone := true })] }))
      ∧ (s.chip.slotState n = stRAMP → s.chip.on HTH_SLOT_ESTAT.SW_CLOSED n = true → s.chip.Bare n →
          Effect (.vccTmo n) s (deactivation s.chip n .fault cauVCC))
      ∧ (s.chip.slotState n = stCLOCKED ∨ s.chip.slotState n = stRESETHELD → Effect (.rstRise n) s
        ({ regs := [(⟨HTH_SLOT_STAT.STATE, n⟩, stATRWAIT)],
           slots := [(n, { s.chip.slot n with rstHigh := true })],
           out := (if s.chip.slotState n = stCLOCKED then [.contact n .io true] else []) ++ [.contact n .rst true] })))

/-- A side of a leg in service that has not been measured yet is complete with one value inside its window, taken at the
factors the measurement started with, or with three of which two lie inside: its value, of three the median,
compensated to 25 °C, goes on record and the bank counts it. The measurement goes on until both sides of every leg in
service are complete; then MEAS_VALID sets, a requested one sets MEAS_DONE, and at RAMP the VCC switch closes (IMON
good). With two of three values outside, the leg is retired, and where the free cell of its kind passes its own
measurement the cell takes its place: RICK_SUB sets, the leg's words hold the cell's values, the bank counts a
retirement, the wear record is due and source 0x15 goes to Ash. A first value outside without the two others changes
nothing. In the Test state under the TRIM grant the first value of a side is its baseline. Nothing else of the block
changes. How a value is rounded, and the reading of a sequence of values as one side's, are the model's choice (log
entries 21 and 130). (R71, R74, R75, R76, R77, R78, R79, R82, R83, R84) -/
def Obligations.LegMeasurement : Prop :=
  ∀ (n : SlotId) (k : Fin 12) (low : Bool) (tj : Int) (cells : List CellSide) (s : State), s.At n →
      (s.chip.slot n).measuring = true → s.chip.legServes n k = true → (s.chip.slot n).measGone.contains k.val = false →
      (s.chip.slot n).measSides.contains (k.val, low) = false → (s.chip.slot n).measDead = false →
      (∀ (raws : List Nat) (v : Nat), s.chip.bit HTH_LEG_STAT.RICK_SUB n k = false →
          s.chip.learns (n, k.val, low) = false → (s.chip.legWindow n k low tj).judge raws = some (true, v) →
          (s.chip.setSlot n (sideMeasured (s.chip.slot n) k low)).measWhole n = false →
          Effect (.legMeasurementEnd n [⟨k, low, tj, raws, cells⟩]) s
        ({ regs := sideRegs s.chip n k low (ron25 tj v), slots := [(n, sideMeasured (s.chip.slot n) k low)] }))
      ∧ (∀ (raws : List Nat) (v : Nat), s.chip.bit HTH_LEG_STAT.RICK_SUB n k = false →
          s.chip.learns (n, k.val, low) = false → (s.chip.legWindow n k low tj).judge raws = some (true, v) →
          (s.chip.setSlot n (sideMeasured (s.chip.slot n) k low)).measWhole n = true →
          (s.chip.slot n).measAtRamp = false → Effect (.legMeasurementEnd n [⟨k, low, tj, raws, cells⟩]) s
        ({ regs := measDone n ++ sideRegs s.chip n k low (ron25 tj v),
           slots := [(n, { sideMeasured (s.chip.slot n) k low with measuring := false })] }))
      ∧ (∀ (raws : List Nat) (v : Nat), s.chip.bit HTH_LEG_STAT.RICK_SUB n k = false →
          s.chip.learns (n, k.val, low) = false → (s.chip.legWindow n k low tj).judge raws = some (true, v) →
          (s.chip.setSlot n (sideMeasured (s.chip.slot n) k low)).measWhole n = true →
          (s.chip.slot n).measAtRamp = true → s.chip.on HTH_MON_STAT.STATE (4 * n + 1) = false →
          Effect (.legMeasurementEnd n [⟨k, low, tj, raws, cells⟩]) s
        ({ regs := closedRegs n (s.chip.trialClass n) ++ [(⟨HTH_LEG_STAT.MEAS_VALID, n⟩, 1)]
            ++ sideRegs s.chip n k low (ron25 tj v),
           slots := [(n, { sideMeasured (s.chip.slot n) k low with measuring := false, measAtRamp := false, rampDone := false })],
           out := [.contact n .discharge false, .contact n .vcc true] }))
      ∧ (∀ (raws : List Nat) (v : Nat) (vals : List (Bool × Nat)), s.chip.bit HTH_LEG_STAT.LEG_RET n k = false →
          s.chip.bit HTH_LEG_STAT.RICK_SUB n k = false → s.chip.learns (n, k.val, low) = false →
          (s.chip.legWindow n k low tj).judge raws = some (false, v) → s.chip.cellFree (bankOf n) (legKind k) = true →
          s.chip.cellJudge (bankOf n) (legKind k) (s.chip.slot n).measLo (s.chip.slot n).measHi (cells.map (fun e => (tj, e)))
            = some (true, vals) →
          (((s.chip.setSlot n { sideMeasured (s.chip.slot n) k low with measGone := (s.chip.slot n).measGone
              ++ [k.val] }).putBit
            HTH_LEG_STAT.LEG_RET n k true).putBit HTH_LEG_STAT.RICK_SUB n k true).measWhole n = false →
          Effect (.legMeasurementEnd n [⟨k, low, tj, raws, cells⟩]) s
        ({ regs := vals.reverse.map (fun e => (⟨if e.1 then HTH_LEG_RON.LO_RON else HTH_LEG_RON.HI_RON, 12 * n + k⟩,
            e.2 % 65536))
             ++ [(⟨HTH_LEG_STAT.RICK_SUB, n⟩, (s.chip.get HTH_LEG_STAT.RICK_SUB n + 2 ^ k.val) % 4096),
               (⟨cellFld (legKind k), bankOf n⟩, 64 + 16 * (n % 4) + k),
               (⟨HTH_LEG_STAT.LEG_RET, n⟩, (s.chip.get HTH_LEG_STAT.LEG_RET n + 2 ^ k.val) % 4096),
               (⟨HTH_BANK_LCNT.RETIRE_CNT, bankOf n⟩, s.chip.satInc HTH_BANK_LCNT.RETIRE_CNT (bankOf n))]
             ++ sideRegs s.chip n k low (ron25 tj v),
           slots := [(n, { sideMeasured (s.chip.slot n) k low with measGone := (s.chip.slot n).measGone ++ [k.val] })],
           wear := some { s.chip.wear with writePend := true },
           events := [⟨0x15, n, 2 ^ 21 + low.toNat * 2 ^ 20 + k * 2 ^ 16 + ron25 tj v % 2 ^ 16, false⟩] }))
      ∧ (∀ (raws : List Nat), s.chip.bit HTH_LEG_STAT.RICK_SUB n k = false → s.chip.learns (n, k.val, low) = false →
          (s.chip.legWindow n k low tj).judge raws = none → s.chip.measWhole n = false →
          Effect (.legMeasurementEnd n [⟨k, low, tj, raws, cells⟩]) s ({}))
      ∧ (∀ (v : Nat) (raws : List Nat), s.chip.bit HTH_LEG_STAT.RICK_SUB n k = false →
          s.chip.learns (n, k.val, low) = true →
          (s.chip.setSlot n (sideMeasured (s.chip.slot n) k low)).measWhole n = false →
          Effect (.legMeasurementEnd n [⟨k, low, tj, v :: raws, cells⟩]) s
        ({ regs := sideRegs s.chip n k low (ron25 tj v), slots := [(n, sideMeasured (s.chip.slot n) k low)],
           base := some (s.chip.base ++ [((n.val, k.val, low), ron25 tj v)]) }))

/-- In ATR_WAIT a character in its window with good parity joins the ATR buffer; one that makes the ATR faulty, a parity
error or an early start bit records the KIND with PHASE 1 and deactivates with ATR_INVALID; the one that completes a
valid ATR sets ATR_VALID and ATR_DONE and takes the parameters and the Turf marker, where the class decision lets the
slot stay; after that a character is STRAY. A window that closes without a start bit deactivates with NO_ATR, or
NEXT_CLASS while a class trial goes on. The initial waiting time that expires within an ATR sets CARD_TMO and
deactivates with ATR_INVALID. Stoker's acceptance starts the Cinder exchange and NEGOTIATE with the PPS request; a
rejection, or none within its time, deactivates with POLICY_REJECT or POLICY_TIMEOUT. Nothing else of the block
changes. (R93, R94, R95, R96, R99, R119, R128, R129, R130, R133, R137, R156) -/
def Obligations.AtrAndPolicy : Prop :=
  ∀ (n : SlotId) (s : State), s.At n →
      (∀ (b : Byte), s.chip.slotState n = stATRWAIT → (s.chip.slot n).atrDone = false →
          atrJudge (!isOperator n) (s.chip.get HTH_PROT_CFG.PROT_SEL n) ((s.chip.slot n).atr ++ [b]) = .more →
          Effect (.atrCharReceived n b true true) s
        ({ regs := [(⟨HTH_SLOT_ATRLEN.ATR_LEN, n⟩, ((s.chip.slot n).atr.length + 1) % 64)],
           slots := [(n, { s.chip.slot n with atr := (s.chip.slot n).atr ++ [b] })] }))
      ∧ (∀ (b : Byte) (kind : Nat), s.chip.slotState n = stATRWAIT → (s.chip.slot n).atrDone = false → s.chip.Bare n →
          atrJudge (!isOperator n) (s.chip.get HTH_PROT_CFG.PROT_SEL n) ((s.chip.slot n).atr ++ [b]) = .bad kind →
          Effect (.atrCharReceived n b true true) s
        (({ regs := (⟨HTH_SLOT_ATRLEN.ATR_LEN, n⟩, ((s.chip.slot n).atr.length + 1) % 64) :: errRegs n 1 kind } : Change).plus
           (deactivation (s.chip.setSlot n { s.chip.slot n with atr := (s.chip.slot n).atr ++ [b] }) n .commanded cauATRBAD)))
      ∧ (∀ (b : Byte), s.chip.slotState n = stATRWAIT → (s.chip.slot n).atrDone = false → s.chip.Bare n →
          Effect (.atrCharReceived n b false true) s
        (({ regs := (⟨HTH_SLOT_ATRLEN.ATR_LEN, n⟩,
            ((s.chip.slot n).atr.length + 1) % 64) :: errRegs n 1 kPARITY } : Change).plus
           (deactivation (s.chip.setSlot n { s.chip.slot n with atr := (s.chip.slot n).atr ++ [b] }) n .commanded cauATRBAD)))
      ∧ (∀ (b : Byte) (parityOk : Bool), s.chip.slotState n = stATRWAIT → (s.chip.slot n).atrDone = false →
          s.chip.Bare n → Effect (.atrCharReceived n b parityOk false) s
        (({ regs := errRegs n 1 kTS } : Change).plus
           (deactivation s.chip n .commanded cauATRBAD)))
      ∧ (∀ (b : Byte), s.chip.slotState n = stATRWAIT → (s.chip.slot n).atrDone = false →
          atrJudge (!isOperator n) (s.chip.get HTH_PROT_CFG.PROT_SEL n) ((s.chip.slot n).atr ++ [b]) = .whole →
          classDec (s.chip.slot n).trial (s.chip.trialClass n) (atrOf ((s.chip.slot n).atr ++ [b])).classes = .stay →
          Effect (.atrCharReceived n b true true) s
        (let atr := (s.chip.slot n).atr ++ [b]
         { regs := markRegs n atr ++ atrRegs n atr ++ [(⟨HTH_SLOT_EVT.ATR_DONE, n⟩, 1), (⟨HTH_SLOT_ATRLEN.ATR_VALID, n⟩, 1),
             (⟨HTH_SLOT_ATRLEN.ATR_LEN, n⟩, atr.length % 64)],
           slots := [(n, { s.chip.slot n with atr := atr, atrDone := true })],
           events := if isOperator n = false ∧
               markOf (histOf atr) = .bad then [turfEvent s.chip HTH_TURF_EVT.MARK_BAD n] else [] }))
      ∧ (∀ (b : Byte) (parityOk inWindow : Bool), s.chip.slotState n = stATRWAIT → (s.chip.slot n).atrDone = true →
          Effect (.atrCharReceived n b parityOk inWindow) s
        ({ regs := [(⟨HTH_PROT_EVT.STRAY, n⟩, 1)], events := [protEvent s.chip HTH_PROT_EVT.STRAY n] }))
      ∧ (s.chip.slotState n = stATRWAIT → (s.chip.slot n).atr = [] → s.chip.Bare n → Effect (.atrWindowClose n) s
        (deactivation s.chip n .commanded
           (if (s.chip.slot n).trial = true ∧ s.chip.trialClass n ≠ 1 then cauNEXT else cauNOATR)))
      ∧ (s.chip.slotState n = stATRWAIT → (s.chip.slot n).atr ≠ [] → (s.chip.slot n).atrDone = false → s.chip.Bare n →
          Effect (.initialWtExpiry n) s
        (let a := atrOf (s.chip.slot n).atr
         ({ regs := (⟨HTH_PROT_EVT.CARD_TMO, n⟩, 1) ::
              errRegs n 1 (if a.full && a.tck && decide ((s.chip.slot n).atr.length + 1 = a.need) then kTCK else kWT),
            events := [protEvent s.chip HTH_PROT_EVT.CARD_TMO n] } : Change).plus
           (deactivation s.chip n .commanded cauATRBAD)))
      ∧ (∀ (t : Nat), s.chip.slotState n = stATRWAIT → (s.chip.slot n).atrDone = true →
          (atrOf (s.chip.slot n).atr).byte 0 2 = none → s.chip.on HTH_PROT_CFG.PPS_EN n = true →
          (atrOf (s.chip.slot n).atr).choose (!isOperator n) (s.chip.get HTH_PROT_CFG.PROT_SEL n) = some t →
          s.chip.ember.stokerQ = [] → s.chip.StokerFull → Effect (.policyDecision n .accept) s
        (let a := atrOf (s.chip.slot n).atr
         let req := ppsReq t ((a.byte 0 1).getD 0x11) (s.chip.get HTH_PROT_CFG.DI_MAX n)
         { regs := [(⟨HTH_SLOT_STAT.STATE, n⟩, stNEGOTIATE)],
           slots := [(n, { s.chip.slot n with neg := .pps, pps := req, spoke := true })],
           sess := [(n, { s.chip.sessOf n with cin := some (CinX.start .establish) })],
           ember := some { s.chip.ember with stokerQ := [(.cinderGen n, 0x21, [])] },
           out := [.cardBytes n req] }))
      ∧ (s.chip.slotState n = stATRWAIT → (s.chip.slot n).atrDone = true → s.chip.Bare n →
          Effect (.policyDecision n .reject) s (deactivation s.chip n .commanded cauPOLREJ))
      ∧ (s.chip.slotState n = stATRWAIT → (s.chip.slot n).atrDone = true → s.chip.Bare n → Effect (.policyTimeout n) s
        (deactivation s.chip n .commanded cauPOLTMO))

/-- A PPS response with good parity that is not refused sets PPS_DONE and the clock change is next; a parity error or a
refusal records the KIND with PHASE 2 and deactivates with NEG_FAIL. At the clock change the protocol, F and D take
effect and CLK runs at the operating frequency; under T=1 with IFSD not 32 S(IFS request) goes out, else an operator
slot goes on to Cinder with SESS ESTABLISHING. NEG_TMO in NEGOTIATE, with no Cinder exchange or with a DRBG that is
ready, deactivates with NEG_TIMEOUT; with a Cinder exchange that waits for the DRBG it records CINDER_ERR 0x0D, sets
CINDER_FAIL and deactivates with NEG_FAIL (R275). Nothing else of the block changes. (R88, R96, R123, R125, R127,
R134, R146, R152, R275) -/
def Obligations.NegotiationSteps : Prop :=
  ∀ (n : SlotId) (s : State), s.At n → s.chip.slotState n = stNEGOTIATE →
      (∀ (bytes : List Byte), (s.chip.slot n).neg = .pps → ppsJudge (s.chip.slot n).pps bytes ≠ .refused →
          Effect (.ppsResponseReceived n bytes true) s
        ({ regs := [(⟨HTH_PROT_STAT.PPS_DONE, n⟩, 1)], slots := [(n, { s.chip.slot n with neg := .clock, pps := bytes })] }))
      ∧ (∀ (bytes : List Byte) (parityOk : Bool), (s.chip.slot n).neg = .pps →
          parityOk = false ∨ ppsJudge (s.chip.slot n).pps bytes = .refused → s.chip.Bare n →
          Effect (.ppsResponseReceived n bytes parityOk) s
        (({ regs := errRegs n 2 (if parityOk then kPPS else kPARITY) } : Change).plus
           (deactivation s.chip n .commanded cauNEGFAIL)))
      ∧ (∀ (p0 p1 : Byte), (s.chip.slot n).neg = .clock → (s.chip.slot n).pps.getD 1 0 = p0 →
          (if p0.toNat.testBit 4 then (s.chip.slot n).pps.getD 2 0 else 0x11) = p1 → p0.toNat % 16 = 1 →
          s.chip.cfg HTH_PROT_CFG.IFSD n ≠ 32 → Effect (.clockChange n) s
        (let block := s.chip.t1Bytes n 0xC1 [BitVec.ofNat 8 (s.chip.cfg HTH_PROT_CFG.IFSD n)]
         { regs := clkRegs n (s.chip.opClk n (p1.toNat / 16)) ++ [(⟨HTH_PROT_STAT.DI, n⟩, p1.toNat % 16),
             (⟨HTH_PROT_STAT.FI, n⟩, p1.toNat / 16), (⟨HTH_PROT_STAT.PROT, n⟩, 2)],
           slots := [(n, { s.chip.slot n with
             neg := .ifs, spoke := true, fastEdges := fastAt (s.chip.slot n) (s.chip.opClk n (p1.toNat / 16)), t1 := { (s.chip.slot n).t1 with
             ifsReq := some (s.chip.cfg HTH_PROT_CFG.IFSD n), retries := 0, silent := true, last := .sReq, lastBlock := block } })],
           out := [.t1Block n block] }))
      ∧ (∀ (p0 p1 : Byte), isOperator n = true → (s.chip.slot n).neg = .clock → (s.chip.slot n).pps.getD 1 0 = p0 →
          (if p0.toNat.testBit 4 then (s.chip.slot n).pps.getD 2 0 else 0x11) = p1 → p0.toNat % 16 = 0 →
          Effect (.clockChange n) s
        ({ regs := [(⟨CRD_SESS_STAT.SESS, n⟩, ssESTABLISHING)] ++ clkRegs n (s.chip.opClk n (p1.toNat / 16))
             ++ [(⟨HTH_PROT_STAT.DI, n⟩, p1.toNat % 16), (⟨HTH_PROT_STAT.FI, n⟩, p1.toNat / 16), (⟨HTH_PROT_STAT.PROT, n⟩, 1)],
           slots := [(n, { s.chip.slot n with
             neg := .cinder, fastEdges := fastAt (s.chip.slot n) (s.chip.opClk n (p1.toNat / 16)) })],
           sess := [(n, { s.chip.sessOf n with cin := (s.chip.sessOf n).cin.map (fun k => { k with phase := .beginWait }) })] }))
      ∧ (s.chip.Bare n → (s.chip.sessOf n).cin = none ∨ s.chip.on CRD_STAT.DRBG_READY 0 = true → Effect (.negTmo n) s
        (deactivation s.chip n .commanded cauNEGTMO))
      ∧ (∀ (k : CinX), s.chip.Bare n → (s.chip.sessOf n).cin = some k → k.phase = .beginWait ∨ k.ephD = [] →
          s.chip.on CRD_STAT.DRBG_READY 0 = false → Effect (.negTmo n) s
        (({ regs := [(⟨CRD_EVT.CINDER_FAIL, 0⟩, 1), (⟨CRD_SESS_STAT.CINDER_ERR, n⟩, 0x0D)],
            events := [⟨0x1B, n, 0x0D * 2 ^ 24 + (s.chip.flag CRD_EVT.CINDER_FAIL 0 true).word .CRD_EVT 0,
                false⟩] } : Change).plus
           (deactivation s.chip n .commanded cauNEGFAIL)))

/-- When INACTIVE rises in DEACTIVATING, with no slot reset waiting, no leg in the queue and no class trial going on,
DEACT_DONE sets with source 0x14 and the cause word, REACT_MIN starts, failed activations and electrical faults are
counted, and the slot goes to OFF (scheduled for a reactivation, or with the insertion timer running, as R108 says; an
operator slot starts its class trial over) or, with the card gone, to ABSENT. When REACT_MIN elapses REACT_WAIT
clears, and a scheduled reactivation starts. Nothing else of the block changes. (R88, R89, R98, R108, R114, R115,
R119, R396) -/
def Obligations.DeactivationEnd : Prop :=
  (∀ (n : SlotId) (s : State), s.Still → s.chip.slotState n = stDEACT → (s.chip.slot n).resetPend = false →
      (s.chip.slot n).queue = [] → s.chip.get HTH_SLOT_CAUSE.CAUSE n ≠ cauNEXT →
      (∀ (react ins : Bool), s.chip.follow n = .off react ins → Effect (.inactiveRise n) s
        ({ regs := (if ins then [(⟨HTH_SLOT_STAT.INS_PEND, n⟩, 1)] else []) ++ [(⟨HTH_SLOT_STAT.STATE, n⟩, stOFF)]
             ++ (if isOperator n then [(⟨HTH_SLOT_STAT.TRIAL_CLASS, n⟩, 3)] else [])
             ++ [(⟨HTH_SLOT_EVT.DEACT_DONE, n⟩, 1), (⟨HTH_SLOT_STAT.REACT_WAIT, n⟩, 1), (⟨HTH_SLOT_ESTAT.INACTIVE, n⟩, 1)]
             ++ (if elecCause (s.chip.get HTH_SLOT_CAUSE.CAUSE n) then
                   [(⟨HTH_SLOT_RCNT.ELEC_CNT, n⟩, s.chip.satInc HTH_SLOT_RCNT.ELEC_CNT n)] else [])
             ++ (if actFailCause (s.chip.get HTH_SLOT_CAUSE.CAUSE n) && (s.chip.slot n).coldAct then
                   [(⟨HTH_SLOT_RCNT.ACT_FAIL_CNT, n⟩, s.chip.satInc HTH_SLOT_RCNT.ACT_FAIL_CNT n)] else []),
           slots := [(n, { s.chip.slot n with seq := none, toClinker := false, noFollow := false, forcedRemoval := false,
                                              reinserted := false, coldAct := false, armed := false, opening := false,
                                              schedReact := react })],
           events := [⟨0x14, n, s.chip.causeWord n, false⟩] }))
      ∧ (s.chip.follow n = .absent → elecCause (s.chip.get HTH_SLOT_CAUSE.CAUSE n) = false →
          actFailCause (s.chip.get HTH_SLOT_CAUSE.CAUSE n) = false → Effect (.inactiveRise n) s
        ({ regs := [(⟨HTH_SLOT_STAT.STATE, n⟩, stABSENT)] ++ (if isOperator n then [(⟨HTH_SLOT_STAT.TRIAL_CLASS, n⟩,
            3)] else [])
             ++ [(⟨HTH_SLOT_EVT.DEACT_DONE, n⟩, 1), (⟨HTH_SLOT_STAT.REACT_WAIT, n⟩, 1), (⟨HTH_SLOT_ESTAT.INACTIVE, n⟩, 1)],
           slots := [(n, { s.chip.slot n with seq := none, toClinker := false, noFollow := false, forcedRemoval := false,
                                              reinserted := false, coldAct := false, armed := false, opening := false })],
           events := [⟨0x14, n, s.chip.causeWord n, false⟩] })))
  ∧ (∀ (n : SlotId) (s : State), s.At n → s.chip.on HTH_SLOT_STAT.REACT_WAIT n = true →
      ((s.chip.slot n).schedReact = true → s.chip.slotState n = stOFF → s.chip.get HTH_SLOT_STAT.ACT_PEND n = 0 →
          Effect (.reactMinExpiry n) s
        (({ regs := [(⟨HTH_SLOT_STAT.REACT_WAIT, n⟩, 0)],
            slots := [(n, { s.chip.slot n with schedReact := false })] } : Change).plus (activation s.chip n)))
      ∧ ((s.chip.slot n).schedReact = false → Effect (.reactMinExpiry n) s
        ({ regs := [(⟨HTH_SLOT_STAT.REACT_WAIT, n⟩, 0)] })))

/-- Under T=0 the NULL byte changes nothing but the repetition count, SW1 is held for SW2, and a response character joins
the response; SW2 of a status word that the engine does not handle itself ends the exchange, and the leg it carries
ends with OK, the unwrapped data and status word while its entry waits for the other leg, the slot reading READY. A
parity error in either direction is counted, recorded with KIND parity and PAR_ERR, and the character is asked for or
sent again while PAR_RETRY allows, a count for each character. WT that expires sets CARD_TMO and ends the exchange
with TIMEOUT_CARD. Nothing else of the block changes. (R113, R137, R141, R142, R143, R152, R154, R256, R282) -/
def Obligations.CharacterProtocolT0 : Prop :=
  ∀ (n : SlotId) (s : State), s.At n →
      (∀ (b : Byte), ((s.chip.slot n).t0.wait = .dataAll ∨ (s.chip.slot n).t0.wait = .dataOne) →
          (s.chip.slot n).t0.rsp.length < 4096 → Effect (.t0CharReceived n b true) s
        ({ slots := [(n, { s.chip.slot n with t0 := { (s.chip.slot n).t0 with
               rsp := (s.chip.slot n).t0.rsp ++ [b], toRecv := (s.chip.slot n).t0.toRecv - 1, repAt := none, repeats := 0,
               wait := if (s.chip.slot n).t0.wait = .dataAll ∧ 1 < (s.chip.slot n).t0.toRecv then .dataAll else .proc } })] }))
      ∧ ((s.chip.slot n).t0.wait = .proc → Effect (.t0CharReceived n 0x60 true) s
        ({ slots := [(n, { s.chip.slot n with t0 := { (s.chip.slot n).t0 with
               repAt := none, repeats := 0, sending := false } })] }))
      ∧ (∀ (b : Byte), (s.chip.slot n).t0.wait = .proc → b ≠ 0x60 → b ≠ (s.chip.slot n).t0.hdr.getD 1 0 →
          b ≠ (s.chip.slot n).t0.hdr.getD 1 0 ^^^ 0xFF → (b.toNat / 16 = 6 ∨ b.toNat / 16 = 9) →
          Effect (.t0CharReceived n b true) s
        ({ slots := [(n, { s.chip.slot n with t0 := { (s.chip.slot n).t0 with
               repAt := none, repeats := 0, sending := false, wait := .sw2 b } })] }))
      ∧ (∀ (sw1 sw2 : Byte) (ex : Exch) (uid : Nat) (second : Bool) (e : Entry) (ks : KeySet) (d : List Byte) (sw : Nat),
          (s.chip.slot n).t0.wait = .sw2 sw1 → sw1 ≠ 0x61 → sw1 ≠ 0x6C → s.chip.Carries n ex uid second e →
          (s.chip.sessOf n).cur = some ks → unwrapRsp ks ((s.chip.slot n).t0.rsp ++ [sw1, sw2]) = some (d, sw) →
          d.length ≤ e.rspMax → Effect (.t0CharReceived n sw2 true) s
        (exchangeEnd s.chip n ex uid second stsOK d sw))
      ∧ (∀ (b : Byte), (s.chip.slot n).t0.wait ≠ .idle →
          (if (s.chip.slot n).t0.repAt = none then (s.chip.slot n).t0.repeats else 0) < s.chip.cfg HTH_PROT_LIM.PAR_RETRY n →
          Effect (.t0CharReceived n b false) s
        ({ regs := [(⟨HTH_PROT_EVT.PAR_ERR, n⟩, 1), (⟨HTH_PROT_CNT.PAR_CNT, n⟩, s.chip.satInc HTH_PROT_CNT.PAR_CNT n)]
             ++ errRegs n (s.chip.errPhase n) kPARITY,
           slots := [(n, { s.chip.slot n with t0 := { (s.chip.slot n).t0 with
               repAt := none, repeats := (if (s.chip.slot n).t0.repAt = none then (s.chip.slot n).t0.repeats else 0) + 1 } })],
           events := [protEvent s.chip HTH_PROT_EVT.PAR_ERR n], out := [.t0Error n] }))
      ∧ (∀ (k : Nat), (s.chip.slot n).t0.wait ≠ .idle → (s.chip.slot n).t0.sending = true →
          k < (s.chip.slot n).t0.run →
          (if (s.chip.slot n).t0.repAt = some k then (s.chip.slot n).t0.repeats else 0) < s.chip.cfg HTH_PROT_LIM.PAR_RETRY n →
          Effect (.t0ErrorSignal ⟨n, k⟩) s
        ({ regs := [(⟨HTH_PROT_EVT.PAR_ERR, n⟩, 1), (⟨HTH_PROT_CNT.PAR_CNT, n⟩, s.chip.satInc HTH_PROT_CNT.PAR_CNT n)]
             ++ errRegs n (s.chip.errPhase n) kPARITY,
           slots := [(n, { s.chip.slot n with t0 := { (s.chip.slot n).t0 with
               repAt := some k, repeats := (if (s.chip.slot n).t0.repAt = some k then (s.chip.slot n).t0.repeats else 0) + 1 } })],
           events := [protEvent s.chip HTH_PROT_EVT.PAR_ERR n], out := [.t0Repeat n] }))
      ∧ (∀ (ex : Exch) (uid : Nat) (second : Bool) (e : Entry), (s.chip.slot n).t0.wait ≠ .idle →
          s.chip.Carries n ex uid second e → Effect (.wtExpiry n) s
        (({ regs := (⟨HTH_PROT_EVT.CARD_TMO, n⟩, 1) :: errRegs n 4 kWT,
            events := [protEvent s.chip HTH_PROT_EVT.CARD_TMO n] } : Change).plus
           (exchangeEnd s.chip n ex uid second stsTIMEOUTCARD [] 0)))

/-- Where the T=1 engine waits for a block: S(WTX request) with a multiplier other than 0 is answered and recorded with
WTX_RX; the expected last I-block ends the exchange with the response so far, the leg it carries ending with OK, the
unwrapped data and status word while its entry waits for the other leg; an invalid block, CWT and BWT are recorded
with their KIND (CWT and BWT with CARD_TMO), and after an I-block of the device an R-block with the error code goes
out while T1_RETRY allows. Nothing else of the block changes. (R113, R137, R144, R145, R147, R148, R149, R152, R154,
R256, R282) -/
def Obligations.CharacterProtocolT1 : Prop :=
  ∀ (n : SlotId) (s : State), s.At n → s.chip.t1Waits n = true → (s.chip.slot n).t1.resynch = false →
      (∀ (v : Byte), v ≠ 0 →
          Effect (.t1BlockReceived n ([0, 0xC3, 1, v] ++ edcOf (s.chip.on HTH_PROT_STAT.EDC n) [0, 0xC3, 1, v]) true) s
        (let block := s.chip.t1Bytes n 0xE3 [v]
         { regs := [(⟨HTH_PROT_EVT.WTX_RX, n⟩, 1), (⟨HTH_PROT_WT.WTX, n⟩, v.toNat)],
           slots := [(n, { s.chip.slot n with spoke := true, t1 := { (s.chip.slot n).t1 with
               wtx := v.toNat, last := .sResp, lastBlock := block } })],
           events := [protEvent s.chip HTH_PROT_EVT.WTX_RX n], out := [.t1Block n block] }))
      ∧ (∀ (inf : List Byte) (ex : Exch) (uid : Nat) (second : Bool) (e : Entry) (ks : KeySet) (d : List Byte) (sw : Nat),
          s.chip.get HTH_PROT_STAT.NS_RX n < 2 → inf.length < 256 → inf.length ≤ s.chip.get HTH_PROT_WT.IFSD_ACT n →
          (s.chip.slot n).t1.lastInf ≠ [] → (s.chip.slot n).t1.lastMore = false → (s.chip.slot n).t1.ifsReq = none →
          (s.chip.slot n).t1.overlong = false → (s.chip.slot n).t1.rsp.length + inf.length ≤ 4096 →
          s.chip.Carries n ex uid second e → (s.chip.sessOf n).cur = some ks →
          unwrapRsp ks ((s.chip.slot n).t1.rsp ++ inf) = some (d, sw) → d.length ≤ e.rspMax →
          Effect (.t1BlockReceived n ([0, BitVec.ofNat 8 (0x40 * s.chip.get HTH_PROT_STAT.NS_RX n), BitVec.ofNat 8 inf.length]
              ++ inf
            ++ edcOf (s.chip.on HTH_PROT_STAT.EDC n)
                ([0, BitVec.ofNat 8 (0x40 * s.chip.get HTH_PROT_STAT.NS_RX n), BitVec.ofNat 8 inf.length] ++ inf)) true) s
        (({ regs := [(⟨HTH_PROT_STAT.NS_RX, n⟩, 1 - s.chip.get HTH_PROT_STAT.NS_RX n)] } : Change).plus
           (exchangeEnd s.chip n ex uid second stsOK d sw)))
      ∧ (∀ (bytes : List Byte) (parityOk : Bool) (code kind : Nat),
          s.chip.t1Fault n bytes parityOk = some (code, kind) → (s.chip.slot n).t1.last = .iBlock →
          (s.chip.slot n).t1.retries < s.chip.cfg HTH_PROT_LIM.T1_RETRY n →
          Effect (.t1BlockReceived n bytes parityOk) s
        (let block := s.chip.t1Bytes n (0x80 + 0x10 * s.chip.get HTH_PROT_STAT.NS_RX n + code) []
         { regs := errRegs n (s.chip.errPhase n) kind,
           slots := [(n, { s.chip.slot n with spoke := true, t1 := { (s.chip.slot n).t1 with
               silent := false, retries := (s.chip.slot n).t1.retries + 1, last := .rBlock, lastBlock := block } })],
           out := [.t1Block n block] }))
      ∧ ((s.chip.slot n).t1.last = .iBlock → (s.chip.slot n).t1.retries < s.chip.cfg HTH_PROT_LIM.T1_RETRY n →
          Effect (.cwtExpiry n) s
        (let block := s.chip.t1Bytes n (0x80 + 0x10 * s.chip.get HTH_PROT_STAT.NS_RX n + 2) []
         { regs := (⟨HTH_PROT_EVT.CARD_TMO, n⟩, 1) :: errRegs n (s.chip.errPhase n) kCWT,
           slots := [(n, { s.chip.slot n with spoke := true, t1 := { (s.chip.slot n).t1 with
               silent := false, retries := (s.chip.slot n).t1.retries + 1, last := .rBlock, lastBlock := block } })],
           events := [protEvent s.chip HTH_PROT_EVT.CARD_TMO n], out := [.t1Block n block] }))
      ∧ ((s.chip.slot n).t1.last = .iBlock → (s.chip.slot n).t1.retries < s.chip.cfg HTH_PROT_LIM.T1_RETRY n →
          Effect (.bwtExpiry n) s
        (let block := s.chip.t1Bytes n (0x80 + 0x10 * s.chip.get HTH_PROT_STAT.NS_RX n + 2) []
         { regs := (⟨HTH_PROT_EVT.CARD_TMO, n⟩, 1) :: errRegs n (s.chip.errPhase n) kBWT,
           slots := [(n, { s.chip.slot n with spoke := true, t1 := { (s.chip.slot n).t1 with
               retries := (s.chip.slot n).t1.retries + 1, last := .rBlock, lastBlock := block } })],
           events := [protEvent s.chip HTH_PROT_EVT.CARD_TMO n], out := [.t1Block n block] }))

/-- Phase A of a training attempt counts the attempt and goes out at the rate in trial: 256 preamble bits, the SFD, 512
bits of PRBS-15 from the seed and 4 zero bits. A phase B whose 512 bits after the SFD are those of PRBS-15 from the
seed XOR 0x7FFF is followed by LINK_UP; one with other bits, none in time, and no LINK_UP_ACK in time fail the attempt
with FAIL_PHASE 2, 1 and 3 and TRAIN_FAIL, the lane is parked, and where a lower rate is left the next attempt takes
it; bits without an SFD change nothing. LINK_UP_ACK after an OPEN in NEGOTIATE brings the lane UP at the rate in trial
with SEQ 0, cause 0 and TRAIN_OK, and the Cinder step begins. Nothing else of the block changes. (R96, R161, R162,
R163, R164, R166, R169, R170, R174, R185) -/
def Obligations.TurfTraining : Prop :=
  ∀ (n : SlotId) (s : State), s.At n →
      ((s.chip.slot n).tf.phase = .phaseA → Effect (.phaseAStart n) s
        ({ regs := [(⟨HTH_TURF_LAST.ATTEMPTS, n⟩, s.chip.satInc HTH_TURF_LAST.ATTEMPTS n)],
           slots := [(n, { s.chip.slot n with tf := { (s.chip.slot n).tf with
               phase := .phaseB, parked := false } })],
           out := [.lane n (rateCode (s.chip.slot n).tf.tryRate)
             (preamble 128 ++ bytesBits [0xF3] ++ prbs15 512 (s.chip.slot n).tf.seed ++ [false, false, false, false])] }))
      ∧ (∀ (bits rest : List Bool), (s.chip.slot n).tf.phase = .phaseB → afterSfd bits = some rest →
          rest.take 512 = prbs15 512 ((s.chip.slot n).tf.seed ^^^ 0x7FFF) → Effect (.phaseBReceived n bits) s
        ({ slots := [(n, { s.chip.slot n with tf := { (s.chip.slot n).tf with
               phase := .linkUp, parked := false } })],
           out := [.lane n (rateCode (s.chip.slot n).tf.tryRate) (turfFrame 2 false [0x01])] }))
      ∧ (∀ (rate : Nat) (bits rest : List Bool), (s.chip.slot n).tf.phase = .phaseB →
          fallback (s.chip.slot n).tf.rates (s.chip.slot n).tf.tryRate = some rate → afterSfd bits = some rest →
          rest.take 512 ≠ prbs15 512 ((s.chip.slot n).tf.seed ^^^ 0x7FFF) → Effect (.phaseBReceived n bits) s
        ({ regs := [(⟨HTH_TURF_EVT.TRAIN_FAIL, n⟩, 1), (⟨HTH_TURF_LAST.FAIL_PHASE, n⟩, 2)],
           slots := [(n, { s.chip.slot n with tf := { (s.chip.slot n).tf with
               phase := .phaseA, tryRate := rate, parked := true } })],
           events := [turfEvent s.chip HTH_TURF_EVT.TRAIN_FAIL n], out := (if (s.chip.slot n).tf.parked = true then [] else [.contact n .lane false]) }))
      ∧ (∀ (bits : List Bool), afterSfd bits = none → Effect (.phaseBReceived n bits) s ({}))
      ∧ (∀ (rate : Nat), (s.chip.slot n).tf.phase = .phaseB →
          fallback (s.chip.slot n).tf.rates (s.chip.slot n).tf.tryRate = some rate →
          Effect (.phaseBTimeout n) s
        ({ regs := [(⟨HTH_TURF_EVT.TRAIN_FAIL, n⟩, 1), (⟨HTH_TURF_LAST.FAIL_PHASE, n⟩, 1)],
           slots := [(n, { s.chip.slot n with tf := { (s.chip.slot n).tf with
               phase := .phaseA, tryRate := rate, parked := true } })],
           events := [turfEvent s.chip HTH_TURF_EVT.TRAIN_FAIL n], out := (if (s.chip.slot n).tf.parked = true then [] else [.contact n .lane false]) }))
      ∧ (∀ (rate : Nat), (s.chip.slot n).tf.phase = .linkUp →
          fallback (s.chip.slot n).tf.rates (s.chip.slot n).tf.tryRate = some rate →
          Effect (.linkUpAckTimeout n) s
        ({ regs := [(⟨HTH_TURF_EVT.TRAIN_FAIL, n⟩, 1), (⟨HTH_TURF_LAST.FAIL_PHASE, n⟩, 3)],
           slots := [(n, { s.chip.slot n with tf := { (s.chip.slot n).tf with
               phase := .phaseA, tryRate := rate, parked := true } })],
           events := [turfEvent s.chip HTH_TURF_EVT.TRAIN_FAIL n], out := (if (s.chip.slot n).tf.parked = true then [] else [.contact n .lane false]) }))
      ∧ (∀ (bits : List Bool) (ex : Exch), turfParse bits = .ctrl 2 → (s.chip.slot n).tf.phase = .linkUp →
          (s.chip.slot n).tf.isResume = false → (s.chip.slot n).cur = some ex → ex.use = .turfOpen →
          Effect (.linkUpAckRx ⟨n, bits⟩) s
        ({ regs := [(⟨CRD_SESS_STAT.SESS, n⟩, ssESTABLISHING), (⟨HTH_TURF_EVT.TRAIN_OK, n⟩, 1), (⟨HTH_TURF_LAST.CAUSE, n⟩, 0),
             (⟨HTH_TURF_STAT.SEQ, n⟩, 0), (⟨HTH_TURF_STAT.RATE, n⟩, rateCode (s.chip.slot n).tf.tryRate), (⟨HTH_TURF_STAT.LANE,
                 n⟩, lnUP)],
           slots := [(n, { s.chip.slot n with
             cur := none, t1 := T1X.init, neg := .cinder,
             tf := { (s.chip.slot n).tf with
               phase := .off, lastRate := (s.chip.slot n).tf.tryRate, retrainDue := false, retrainNow := false, openRates := (s.chip.slot n).tf.rates,
               parked := true } })],
           sess := [(n, { s.chip.sessOf n with cin := (s.chip.sessOf n).cin.map (fun k => { k with phase := .beginWait }) })],
           events := [turfEvent s.chip HTH_TURF_EVT.TRAIN_OK n], out := (if (s.chip.slot n).tf.parked = true then [] else [.contact n .lane false]) }))

/-- Where an answer is due on the lane, the bits that arrive decide: a DATA frame with the expected SEQ toggles it, parks
the lane and ends the exchange, the leg it carries ending with OK; one with the other SEQ is discarded; NAK, an
invalid frame and a frame timeout set their event and make a retransmission due while TURF_RETRY allows; WAIT restarts
the timeout while WAIT_LIM allows. A retransmission sends the command frame again and counts. On a lane that is UP
LINK_DOWN parks it with cause 8, a retraining becomes due, and an exchange on it ends with PROTOCOL; an invalid frame
without an exchange is only counted. Bits without a preamble change nothing. 100 ms after a loss the retraining may
start; an idle lane goes to DOZE. Nothing else of the block changes. (R161, R170, R171, R172, R173, R174, R175, R176,
R178, R179, R180, R181) -/
def Obligations.TurfExchange : Prop :=
  ∀ (n : SlotId) (s : State), s.At n →
      (∀ (lead frame bits : List Bool) (seq : Bool) (payload : List Byte) (ex : Exch) (uid : Nat) (second : Bool) (e : Entry) (ks : KeySet) (d : List Byte) (sw : Nat),
          bits = lead ++ frame → turfParse bits = .data seq payload → (s.chip.slot n).tf.phase ≠ .linkUp →
          s.chip.turfDue n = true → s.chip.get HTH_TURF_STAT.SEQ n = seq.toNat → s.chip.Carries n ex uid second e →
          (s.chip.sessOf n).cur = some ks → unwrapRsp ks payload = some (d, sw) → d.length ≤ e.rspMax →
          Effect (.turfDataRx n lead frame) s
        (({ regs := [(⟨HTH_TURF_STAT.SEQ, n⟩,
            (!seq).toNat)], out := (if (s.chip.slot n).tf.parked = true then [] else [.contact n .lane false]) } : Change).plus
           (exchangeEnd (s.chip.setSlot n { s.chip.slot n with tf := { (s.chip.slot n).tf with parked := true } }) n ex uid second
             stsOK d sw)))
      ∧ (∀ (lead frame bits : List Bool) (seq : Bool) (payload : List Byte), bits = lead ++ frame →
          turfParse bits = .data seq payload → s.chip.turfDue n = true → s.chip.get HTH_TURF_STAT.SEQ n ≠ seq.toNat →
          Effect (.turfDataRx n lead frame) s ({}))
      ∧ (∀ (bits : List Bool) (seq : Bool), turfParse bits = .nak seq → s.chip.turfDue n = true →
          (s.chip.slot n).tf.attempts < 1 + s.chip.cfg HTH_TURF_CFG.TURF_RETRY n →
          Effect (.turfNakRx n bits) s
        ({ regs := [(⟨HTH_TURF_EVT.NAK_RX, n⟩, 1)], slots := [(n, { s.chip.slot n with tf := { (s.chip.slot n).tf with
               silent := false, retxDue := true } })],
           events := [turfEvent s.chip HTH_TURF_EVT.NAK_RX n] }))
      ∧ (∀ (bits : List Bool), turfParse bits = .ctrl 3 → s.chip.turfDue n = true →
          (s.chip.slot n).tf.waits < s.chip.cfg HTH_TURF_CFG.WAIT_LIM n → Effect (.turfWaitRx n bits) s
        ({ regs := [(⟨HTH_TURF_EVT.WAIT_RX, n⟩, 1)], slots := [(n, { s.chip.slot n with tf := { (s.chip.slot n).tf with
               waits := (s.chip.slot n).tf.waits + 1 } })],
           events := [turfEvent s.chip HTH_TURF_EVT.WAIT_RX n] }))
      ∧ (∀ (bits : List Bool), turfParse bits = .ctrl 4 → s.chip.laneHears n = true → s.chip.onLane n = false →
          Effect (.turfLinkDownRx ⟨n, bits⟩) s
        ({ regs := [(⟨HTH_TURF_EVT.LOSS, n⟩, 1), (⟨HTH_TURF_STAT.LANE, n⟩, lnDOWN), (⟨HTH_TURF_LAST.CAUSE, n⟩, 0x08),
             (⟨HTH_TURF_EVT.LINK_DOWN_RX, n⟩, 1)],
           slots := [(n, { s.chip.slot n with tf := { (s.chip.slot n).tf with
               retxDue := false, retrainNow := false, parked := true,
               retrainDue := (s.chip.slot n).exchWait.isNone } })],
           events := [turfEvent s.chip HTH_TURF_EVT.LINK_DOWN_RX n,
             turfEvent (s.chip.flag HTH_TURF_EVT.LINK_DOWN_RX n true) HTH_TURF_EVT.LOSS n], out := (if (s.chip.slot n).tf.parked = true then [] else [.contact n .lane false]) }))
      ∧ (∀ (bits : List Bool) (ex : Exch) (uid : Nat) (second : Bool) (e : Entry), turfParse bits = .ctrl 4 →
          s.chip.laneHears n = true → s.chip.onLane n = true → s.chip.Carries n ex uid second e →
          Effect (.turfLinkDownRx ⟨n, bits⟩) s
        (let d := exchangeEnd s.chip n ex uid second stsPROTOCOL [] 0
         { d with
           regs := d.regs ++ [(⟨HTH_TURF_EVT.LOSS, n⟩, 1), (⟨HTH_TURF_STAT.LANE, n⟩, lnDOWN), (⟨HTH_TURF_LAST.CAUSE, n⟩, 0x08),
             (⟨HTH_TURF_EVT.LINK_DOWN_RX, n⟩, 1)],
           slots := [(n, { s.chip.slot n with
             cur := none, t0 := T0X.init, t1 := T1X.init,
             tf := { (s.chip.slot n).tf with retxDue := false, retrainNow := false, retrainDue := true, parked := true } })],
           events := [turfEvent s.chip HTH_TURF_EVT.LINK_DOWN_RX n,
             turfEvent (s.chip.flag HTH_TURF_EVT.LINK_DOWN_RX n true) HTH_TURF_EVT.LOSS n], out := (if (s.chip.slot n).tf.parked = true then [] else [.contact n .lane false]) }))
      ∧ (∀ (bits : List Bool), turfParse bits = .bad → (s.chip.slot n).tf.phase ≠ .linkUp →
          s.chip.laneHears n = true → s.chip.onLane n = false → Effect (.turfInvalidFrame n bits) s
        ({ regs := [(⟨HTH_TURF_EVT.CRC_ERR, n⟩, 1), (⟨HTH_TURF_CNT.INV_CNT, n⟩, s.chip.satInc HTH_TURF_CNT.INV_CNT n)],
           events := [turfEvent s.chip HTH_TURF_EVT.CRC_ERR n] }))
      ∧ (∀ (bits : List Bool), turfParse bits = .bad → (s.chip.slot n).tf.phase ≠ .linkUp →
          s.chip.laneHears n = true → s.chip.turfDue n = true →
          (s.chip.slot n).tf.attempts < 1 + s.chip.cfg HTH_TURF_CFG.TURF_RETRY n →
          Effect (.turfInvalidFrame n bits) s
        ({ regs := [(⟨HTH_TURF_EVT.CRC_ERR, n⟩, 1), (⟨HTH_TURF_CNT.INV_CNT, n⟩, s.chip.satInc HTH_TURF_CNT.INV_CNT n)],
           slots := [(n, { s.chip.slot n with tf := { (s.chip.slot n).tf with
               silent := false, retxDue := true } })],
           events := [turfEvent s.chip HTH_TURF_EVT.CRC_ERR n] }))
      ∧ (∀ (bits : List Bool), turfParse bits = .quiet → Effect (.turfInvalidFrame n bits) s ({}))
      ∧ (s.chip.turfDue n = true → (s.chip.slot n).tf.attempts < 1 + s.chip.cfg HTH_TURF_CFG.TURF_RETRY n →
          Effect (.frameTimeout n) s
        ({ regs := [(⟨HTH_TURF_EVT.FTO, n⟩, 1)], slots := [(n, { s.chip.slot n with tf := { (s.chip.slot n).tf with
               retxDue := true } })],
           events := [turfEvent s.chip HTH_TURF_EVT.FTO n] }))
      ∧ (∀ (ex : Exch), (s.chip.slot n).cur = some ex → ex.sent = true → ex.path = .turf →
          (s.chip.slot n).tf.retxDue = true → Effect (.turfRetx n) s
        ({ regs := [(⟨HTH_TURF_CNT.RETX_CNT, n⟩, s.chip.satInc HTH_TURF_CNT.RETX_CNT n), (⟨HTH_TURF_EVT.RETX, n⟩, 1)],
           slots := [(n, { s.chip.slot n with tf := { (s.chip.slot n).tf with
               retxDue := false, attempts := (s.chip.slot n).tf.attempts + 1, parked := false } })],
           events := [turfEvent s.chip HTH_TURF_EVT.RETX n],
           out := [.lane n (s.chip.get HTH_TURF_STAT.RATE n) (turfFrame 0 (s.chip.on HTH_TURF_STAT.SEQ n) ex.wire)] }))
      ∧ ((s.chip.slot n).tf.retrainDue = true → Effect (.retrain n) s
        ({ slots := [(n, { s.chip.slot n with tf := { (s.chip.slot n).tf with
               retrainDue := false, retrainNow := true } })] }))
      ∧ (s.chip.get HTH_TURF_STAT.LANE n = lnUP → s.chip.slotIdle n = true → s.chip.cfg HTH_TURF_CFG.DOZE_IDLE n ≠ 0 →
          Effect (.dozeIdleExpiry n) s
        ({ regs := [(⟨HTH_TURF_EVT.DOZE_IN, n⟩, 1), (⟨HTH_TURF_STAT.LANE, n⟩, lnDOZE)],
           slots := [(n, { s.chip.slot n with tf := { (s.chip.slot n).tf with
               parked := true } })],
           events := [turfEvent s.chip HTH_TURF_EVT.DOZE_IN n],
           out := [.lane n (s.chip.get HTH_TURF_STAT.RATE n) (turfFrame 2 false [0x04]), .contact n .lane false] }))

/-- For every DATA frame of 1 to 4,224 payload bytes, every NAK and every CTRL frame with the code of LINK_UP_ACK, WAIT or
LINK_DOWN, at either SEQ: the bits that a sender puts on the lane (preamble, SFD 0xF3, the header of FT, SEQ and LEN,
the payload and the CRC-32 of both, stuffed after every run of six equal bits, and the postamble) are read as that
frame by the receiver, which unstuffs them and compares the CRC. (R169, R170, R171, R172, R173) -/
def Obligations.TurfFrameRoundTrip : Prop :=
  ∀ (seq : Bool) (payload : List Byte), payload.length ≤ 4224 →
    (payload ≠ [] → turfParse (turfFrame 0 seq payload) = .data seq payload)
    ∧ turfParse (turfFrame 1 seq []) = .nak seq
    ∧ (∀ code : Byte, 2 ≤ code.toNat → code.toNat ≤ 4 → turfParse (turfFrame 2 seq [code]) = .ctrl code.toNat)

/-- A doorbell of the port that owns the ring, on a ring with no completion waiting: the SQ tail in range with room for
the entries is taken, with an arrival time for each new entry, and where the ring runs, is served and has no fetch
outstanding, the next fetch is issued (up to eight entries in one read that does not run past the queue's end, at most
16 held); the CQ head in range is taken. A doorbell of another path sets NOT_OWNER, one out of range DB_ERR, with
source 0x35, and changes nothing else. (R207, R208, R209, R215, R216, R217) -/
def Obligations.Doorbells : Prop :=
  ∀ (p : Path) (r : RingId) (s : State), s.Takes p blkFLU (s.chip.domUp 16) →
      (∀ (t k : Nat), s.chip.ownerPath p r = true → s.chip.on FLU_RING_STAT.AWAIT_DB r = false →
          (∀ e ∈ s.chip.entries, e.ring = r → e.phase ≠ .ended) → t < s.chip.sqSize r →
          (s.chip.ring r).arrivals.length + (s.chip.unadmitted r).length + (t + s.chip.sqSize r - (s.chip.ring r).sqTail) % s.chip.sqSize r ≤ s.chip.sqSize r - 1 →
          s.chip.ringState r = rsRUNNING → s.chip.ringServed r = true → (s.chip.ring r).fetching = 0 →
          k = min (min 8 ((s.chip.ring r).arrivals.length + (t + s.chip.sqSize r - (s.chip.ring r).sqTail) % s.chip.sqSize r))
            (min (16 - (s.chip.unadmitted r).length) (s.chip.sqSize r - s.chip.get FLU_RING_PTR.SQ_HEAD r)) →0 < k →
          Effect (.sqDoorbell p r t) s
        ({ regs := [(⟨FLU_RING_STAT.CQ_FULL, r⟩, 0)],
           rings := [(r, { s.chip.ring r with
             sqTail := t, fetching := k,
             arrivals := (s.chip.ring r).arrivals
                 ++ List.replicate ((t + s.chip.sqSize r - (s.chip.ring r).sqTail) % s.chip.sqSize r)
               (s.chip.us, s.chip.ringDefer r) })],
           out := [.dmaRead (s.chip.owner r) (s.chip.sqBase r + 64 * s.chip.get FLU_RING_PTR.SQ_HEAD r) (64 * k)] }))
      ∧ (∀ (t : Nat), s.chip.ownerPath p r = true → s.chip.on FLU_RING_STAT.AWAIT_DB r = false →
          (∀ e ∈ s.chip.entries, e.ring = r → e.phase ≠ .ended) → t < s.chip.sqSize r →
          (s.chip.ring r).arrivals.length + (s.chip.unadmitted r).length + (t + s.chip.sqSize r - (s.chip.ring r).sqTail) % s.chip.sqSize r ≤ s.chip.sqSize r - 1 →
          (s.chip.ringState r ≠ rsRUNNING ∨ (s.chip.ring r).fetching ≠ 0) → Effect (.sqDoorbell p r t) s
        ({ regs := [(⟨FLU_RING_STAT.CQ_FULL, r⟩, 0)],
           rings := [(r, { s.chip.ring r with
             sqTail := t,
             arrivals := (s.chip.ring r).arrivals
                 ++ List.replicate ((t + s.chip.sqSize r - (s.chip.ring r).sqTail) % s.chip.sqSize r)
               (s.chip.us, s.chip.ringDefer r) })] }))
      ∧ (∀ (h : Nat), s.chip.ownerPath p r = true → s.chip.on FLU_RING_STAT.AWAIT_DB r = false →
          (∀ e ∈ s.chip.entries, e.ring = r → e.phase ≠ .ended) → h < s.chip.cqSize r →
          (h + s.chip.cqSize r - (s.chip.ring r).cqHead) % s.chip.cqSize r ≤ s.chip.cqWritten r →
          (s.chip.ring r).arrivals = [] → Effect (.cqDoorbell p r h) s
        ({ regs := [(⟨FLU_RING_STAT.CQ_FULL, r⟩, 0)], rings := [(r, { s.chip.ring r with cqHead := h })] }))
      ∧ (∀ (i : Instr) (v : Nat), s.chip.ownerPath p r = false → (i = .sqDoorbell p r v ∨ i = .cqDoorbell p r v) →
          Effect (i) s
        ({ regs := [(⟨FLU_RING_EVT.NOT_OWNER, r⟩, 1)], events := [ringEvent s.chip FLU_RING_EVT.NOT_OWNER r] }))
      ∧ (∀ (i : Instr) (v : Nat), s.chip.ownerPath p r = true →
          ((i = .sqDoorbell p r v ∧ s.chip.sqSize r ≤ v) ∨ (i = .cqDoorbell p r v ∧ s.chip.cqSize r ≤ v)) →
          Effect (i) s
        ({ regs := [(⟨FLU_RING_EVT.DB_ERR, r⟩, 1)], events := [ringEvent s.chip FLU_RING_EVT.DB_ERR r] }))

/-- A fetched entry is held with its index and arrival time, and SQ_HEAD moves on. An admission round in which one ring
has a candidate that passes the checks and may be admitted asks the damper for its tokens, the ring going last among
its equals. A grant of the damper's next request for an Ember job leaves its tokens with the job. A payload received
goes to the entry's staging place, if it has one, makes the entry active and its one queued leg, in the queue of its
local slot, ready. Module-command budget for a leg on the lane sends it: the slot is BUSY, the session's counter and
MCV move on, the leg counts as sent and the frame goes out. Nothing else of the block changes. (R25, R30, R174, R176,
R213, R217, R223, R225, R227, R281, R363) -/
def Obligations.EntriesUpToTheirLegs : Prop :=
  (∀ (r : RingId) (s : State), s.Still → s.chip.domUp 16 = true →
      (∀ (raw : List Byte) (a : Nat × Nat), (s.chip.ring r).fetching = 1 → (s.chip.ring r).arrivals = [a] →
          (leNat ((((List.range 64).map (fun k => raw.getD k 0)).drop 4).take 3) = 0
            ∨ s.chip.us - a.1 < leNat ((((List.range 64).map (fun k => raw.getD k 0)).drop 4).take 3)) →
          Effect (.entryReceived r [raw]) s
        ({ regs := [(⟨FLU_RING_PTR.SQ_HEAD, r⟩, (s.chip.get FLU_RING_PTR.SQ_HEAD r + 1) % s.chip.sqSize r % 4096)],
           rings := [(r, { s.chip.ring r with fetching := 0, arrivals := [] })],
           nextUid := some (s.chip.nextUid + 1),
           entries := some (s.chip.entries ++
             [{ uid := s.chip.nextUid, ring := r, index := s.chip.get FLU_RING_PTR.SQ_HEAD r,
                raw := (List.range 64).map (fun k => raw.getD k 0), arrived := a.1, phase := .fetched, deferUs := a.2, order := 0,
                epoch := 0, prefLeg := false, cqReserved := false, leg0 := Leg.init, leg1 := Leg.init, retried := false,
                dlMissed := false, staleMarked := false, apdu := [], rsp := [], sw := 0, cardUs := 0, status := 0, silent := true,
                counted := false, dmaBad := false, place := none }]) }))
      ∧ (∀ (e : Entry), s.chip.roundOrder = [r.val] → s.chip.ringState r = rsRUNNING → s.chip.ringServed r = true →
          (s.chip.ring r).stalled = false → s.chip.kln.heldRings.contains r.val = false →
          (s.chip.unadmitted r).head? = some e → e.phase = .fetched → s.chip.judgeEntry e = none → e.isNop = false →
          e.flagBit 1 = false → 0 < s.chip.get FLU_SCHED_CFG.BATCH_MAX 0 →
          s.chip.inflight r < s.chip.get FLU_RING_CFG.INFL_MAX r → 0 < s.chip.cqFree r → s.chip.poolUsed < 256 →
          s.chip.on FLU_STACK_ACT.MOVING e.handle = false → Effect (.admissionRound) s
        ({ rings := [(r, { s.chip.ring r with batch := 0, deferSince := some s.chip.us })],
           stack := some { s.chip.stack with rotate := s.chip.stack.rotate.filter (fun q => !([r.val].contains q)) ++ [r.val] },
           entries := some (s.chip.entries.map (fun q => if q.uid = e.uid then { q with phase := .tokens } else q)),
           dmp := some { s.chip.dmp with reqs := s.chip.dmp.reqs ++ [⟨.admission r, s.chip.get FLU_RING_CFG.CLASS r,
             min (s.chip.admCost e) (s.chip.get DRG_DMP_CFG.DEPTH 0 * 1000),
                 decide (s.chip.get FLU_RING_CFG.CLASS r = 0)⟩] } }))
      ∧ (∀ (index : Nat) (payload : List Byte) (e : Entry) (apdu : List Byte),
          (s.chip.ringEntries r).find? (fun e => decide (e.index = index) && decide (e.phase = .payload)) = some e →
          s.chip.entry? e.uid = some e → s.chip.ringServed r = true → e.isInline = false →
          apdu = (if e.flagBit 3 then memReadBytes s.sram e.cmdAddr e.cmdLen else (List.range e.cmdLen).map (fun k => payload.getD k 0)) →
          (match apduOf apdu with | some a => apduPolicy a | none => false) = false → e.leg0.st = .queued →
          e.leg1.st ≠ .queued → e.leg0.slot / 64 = s.chip.grp.dev →
          Effect (.commandPayloadReceived r index payload) s
        ({ slots := [(e.leg0.slot % 64, { s.chip.slot (e.leg0.slot % 64) with
             queue := (s.chip.slot (e.leg0.slot % 64)).queue.map (fun q =>
               if q.src = .entry e.uid false then { q with ready := true, apdu := apdu } else q) })],
           mems := match e.place with
             | some k => [.sram (stageSize * k) apdu]
             | none => [],
           entries := some (s.chip.entries.map (fun q => if q.uid = e.uid then { q with apdu := apdu, phase := .active } else q)) })))
  ∧ (∀ (s : State), s.Still → s.chip.domUp 16 = true →
      ∀ (q : Req) (b : Bool) (k : Nat), s.chip.nextGrant (fun _ => true) = some (q, b) → q.asker = .ember k →
          Effect (.damperGrant) s
        ({ ctxs := [(k, { s.chip.ctx k with hasTokens := true })],
           dmp := some { grantSpent s.chip q b with grants := s.chip.dmp.grants ++ [⟨q.asker, q.cost, b⟩] } }))
  ∧ (∀ (n : SlotId) (s : State), s.At n →
      ∀ (q : Req) (b : Bool) (ex : Exch) (uid : Nat) (second : Bool), s.chip.canGrant (.mcmd n) = some (q, b) →
          (s.chip.slot n).wait = some ex → ex.use = .leg (.entry uid second) → ex.path = .turf → ex.mcv ≠ [] →
          s.chip.kln.heldSlots.contains n.val = false → s.chip.slotState n = stREADY →
          Effect (.mcmdBudgetGrant n) s
        ({ regs := [(⟨HTH_SLOT_STAT.STATE, n⟩, stBUSY), (⟨HTH_SLOT_STAT.BUDGET_WAIT, n⟩, 0)],
           slots := [(n, { s.chip.slot n with
             wait := none, cur := some { ex with sent := true, startUs := s.chip.us },
             held := (s.chip.slot n).held.filter (fun h => decide (h.1.reg = .HTH_PROT_CFG)),
             tf := { (s.chip.slot n).tf with attempts := 1, waits := 0, silent := true, retxDue := false, parked := false } })],
           sess := [(n, { s.chip.sessOf n with
             cur := (s.chip.sessOf n).cur.map (fun k => { k with counter := k.counter + 1, mcv := ex.mcv }) })],
           entries := some (s.chip.entries.map (fun e => if e.uid = uid then
             { e.setLeg second { e.leg second with st := .sent } with silent := false } else e)),
           dmp := some (grantSpent s.chip q b),
           out := [.lane n (s.chip.get HTH_TURF_STAT.RATE n) (turfFrame 0 (s.chip.on HTH_TURF_STAT.SEQ n) ex.wire)] }))

/-- The deadline of a sent entry is remembered for its completion; that of an entry still held ends it with TIMEOUT_RING,
and the cancellation of a ring's candidate whose deferral is above its class's DEFER_MAX ends it with BUDGET, each
counted and with its event; on a ring that is not served the completion waits. COAL_TIME that elapses signals the
completions with the ring's vector. A DMA error on the SQ or the CQ of a ring that runs moves it to ERROR. A ring in
RESETTING whose last entry has ended has its registers reset with OWNER_NOW at OWNER and reads DISABLED. Nothing else
of the block changes. (R207, R218, R221, R222, R228, R231, R237, R238) -/
def Obligations.EntriesThatEndUnsent : Prop :=
  ∀ (r : RingId) (s : State), s.Still → s.chip.domUp 16 = true →
      (∀ (index : Nat) (e : Entry),
          (s.chip.ringEntries r).find? (fun e => decide (e.index = index) && decide (e.phase ≠ .ended) && decide (e.deadline ≠ 0)) = some e →
          e.anySent = true → Effect (.deadlineExpiry r index) s
        ({ entries := some (s.chip.entries.map (fun q => if q.uid = e.uid then { q with dlMissed := true } else q)) }))
      ∧ (∀ (index : Nat) (e : Entry),
          (s.chip.ringEntries r).find? (fun e => decide (e.index = index) && decide (e.phase ≠ .ended) && decide (e.deadline ≠ 0)) = some e →
          e.anySent = false → e.phase = .fetched → e.leg0.st ≠ .queued → e.leg1.st ≠ .queued →
          s.chip.entry? e.uid = some e → s.chip.NoAsk (.entry e.uid) → s.chip.ringServed r = false →
          s.chip.ringState r ≠ rsRESETTING → Effect (.deadlineExpiry r index) s
        ({ regs := [(⟨FLU_RING_EVT.TMO_SEEN, r⟩, 1), (⟨FLU_RING_DCNT.TMO_CNT, r⟩, s.chip.satInc FLU_RING_DCNT.TMO_CNT r)],
           entries := some (parked s.chip e stsTIMEOUTRING),
           events := [ringEvent s.chip FLU_RING_EVT.TMO_SEEN r] }))
      ∧ (∀ (e : Entry), (s.chip.unadmitted r).head? = some e → e.phase = .tokens → e.anySent = false →
          e.leg0.st ≠ .queued → e.leg1.st ≠ .queued → s.chip.entry? e.uid = some e → s.chip.NoAsk (.entry e.uid) →
          s.chip.NoAdmission r → s.chip.deadlinePast e = false →
          s.chip.get FLU_CLASS_CFG.DEFER_MAX (s.chip.get FLU_RING_CFG.CLASS r) ≠ 0 →
          s.chip.get FLU_CLASS_CFG.DEFER_MAX (s.chip.get FLU_RING_CFG.CLASS r) * 1000 < s.chip.ringDefer r - e.deferUs →
          s.chip.ringState r = rsRUNNING → s.chip.ringServed r = false → Effect (.budgetCancel r) s
        ({ regs := [(⟨FLU_RING_EVT.BUDGET_SEEN, r⟩, 1), (⟨FLU_RING_DCNT.BUDGET_CNT, r⟩,
            s.chip.satInc FLU_RING_DCNT.BUDGET_CNT r),
             (⟨FLU_RING_STAT.DEFERRED, r⟩, 0)],
           rings := [(r, { s.chip.ring r with deferUs := s.chip.ringDefer r, deferSince := none })],
           entries := some (parked s.chip e stsBUDGET),
           dmp := some { s.chip.dmp with reqs := s.chip.dmp.reqs.filter (fun q => decide (q.asker ≠ .admission r)) },
           events := [ringEvent s.chip FLU_RING_EVT.BUDGET_SEEN r] }))
      ∧ ((s.chip.ring r).coalRun = true → s.chip.on FLU_RING_CTL.INT_EN r = true →
          s.chip.get FLU_RING_CTL.INT_VEC r ≤ s.chip.get FLU_HP_CFG.MSIX_LAST (s.chip.owner r) →
          s.chip.portOpen (s.chip.owner r) = true →
          s.chip.msixMasked (s.chip.owner r) (s.chip.get FLU_RING_CTL.INT_VEC r) = false →
          Effect (.coalTimeExpiry r) s
        ({ rings := [(r, { s.chip.ring r with coalCount := 0, coalRun := false })],
           out := [.msix (s.chip.owner r) (s.chip.get FLU_RING_CTL.INT_VEC r)] }))
      ∧ (∀ (t : DmaTarget), (t = .sqRead ∨ t = .cqWrite) →
          (s.chip.ringState r = rsRUNNING ∨ s.chip.ringState r = rsPAUSED ∨ s.chip.ringState r = rsORPHANED) →
          s.chip.NoAdmission r → Effect (.dmaError r t) s
        ((unrequested s.chip r).plus
           { regs := [(⟨FLU_RING_EVT.DMA_ERR, r⟩, 1), (⟨FLU_RING_STAT.STATE, r⟩, rsERROR)],
             rings := [(r, { s.chip.ring r with deferUs := s.chip.ringDefer r, deferSince := none, fetching := 0 })],
             events := [ringEvent s.chip FLU_RING_EVT.DMA_ERR r] }))
      ∧ (s.chip.ringState r = rsRESETTING → s.chip.ringEntries r = [] → Effect (.ringResetDone r) s
        (ringsReset s.chip [r.val]))

/-- A write of FLU_RING_CTL with EN in DISABLED to a ring that the image defines, with a vector within the table, stores
sizes and settings within their limits, starts the ring over and enables it; without EN it only stores them. PAUSE of
a RUNNING ring withdraws its token request and pauses it; RESUME of a PAUSED ring with nothing to fetch runs it again.
RESET in DISABLED resets the ring's registers, and a RUNNING ring without entries goes to RESETTING. HANDBACK to the
owner of the image, its link up, moves the ring there to wait for its first doorbell. The commands of another path set
NOT_OWNER. Nothing else of the block changes. (R207, R208, R209, R210, R221, R232, R235, R237, R238) -/
def Obligations.RingCommands : Prop :=
  (∀ (p : Path) (r : RingId) (s : State), s.Takes p blkFLU (s.chip.domUp 16) → s.chip.ownerPath p r = true →
      (∀ (v : Nat), s.chip.ringState r = rsDISABLED → v / 2 ^ 31 % 2 = 1 → s.chip.on FLU_RING_CFG.DEFINED r = true →
          v / 2 ^ 8 % 512 ≤ s.chip.get FLU_HP_CFG.MSIX_LAST (s.chip.owner r) → Effect (.ringEn p r v) s
        ({ regs := [(⟨FLU_RING_STAT.STATE, r⟩, rsRUNNING), (⟨FLU_RING_CTL.EN, r⟩, 1), (⟨FLU_RING_PTR.CQ_PHASE, r⟩, 1),
             (⟨FLU_RING_CTL.COAL_TIME, r⟩, v % 16), (⟨FLU_RING_CTL.COAL_CNT, r⟩, max 1 (v / 2 ^ 4 % 16)),
             (⟨FLU_RING_CTL.INT_VEC, r⟩, v / 2 ^ 8 % 512), (⟨FLU_RING_CTL.INT_EN, r⟩, v / 2 ^ 17 % 2),
             (⟨FLU_RING_CTL.CQ_SIZE, r⟩, min 12 (max 4 (v / 2 ^ 24 % 16))),
             (⟨FLU_RING_CTL.SQ_SIZE, r⟩, min 12 (max 4 (v / 2 ^ 20 % 16)))],
           resets := [(.FLU_RING_PTR, r)], rings := [(r, RingX.init)] }))
      ∧ (∀ (v : Nat), s.chip.ringState r = rsDISABLED → v / 2 ^ 31 % 2 = 0 →
          v / 2 ^ 8 % 512 ≤ s.chip.get FLU_HP_CFG.MSIX_LAST (s.chip.owner r) → Effect (.ringEn p r v) s
        ({ regs := [(⟨FLU_RING_CTL.COAL_TIME, r⟩, v % 16), (⟨FLU_RING_CTL.COAL_CNT, r⟩, max 1 (v / 2 ^ 4 % 16)),
             (⟨FLU_RING_CTL.INT_VEC, r⟩, v / 2 ^ 8 % 512), (⟨FLU_RING_CTL.INT_EN, r⟩, v / 2 ^ 17 % 2),
             (⟨FLU_RING_CTL.CQ_SIZE, r⟩, min 12 (max 4 (v / 2 ^ 24 % 16))),
             (⟨FLU_RING_CTL.SQ_SIZE, r⟩, min 12 (max 4 (v / 2 ^ 20 % 16)))] }))
      ∧ (s.chip.ringState r = rsRUNNING → s.chip.NoAdmission r → Effect (.pause p r) s
        ((unrequested s.chip r).plus { regs := [(⟨FLU_RING_STAT.STATE, r⟩, rsPAUSED)] }))
      ∧ (s.chip.ringState r = rsPAUSED → (s.chip.ring r).arrivals = [] → Effect (.resume p r) s
        ({ regs := [(⟨FLU_RING_STAT.STATE, r⟩, rsRUNNING)] }))
      ∧ (s.chip.ringState r = rsDISABLED → Effect (.reset p r) s (ringsReset s.chip [r.val]))
      ∧ (s.chip.ringState r = rsRUNNING → s.chip.ringEntries r = [] → s.chip.NoAdmission r → Effect (.reset p r) s
        ((unrequested s.chip r).plus
           { regs := [(⟨FLU_RING_STAT.CQ_FULL, r⟩, 0), (⟨FLU_RING_STAT.STATE, r⟩, rsRESETTING)],
             rings := [(r, { s.chip.ring r with
             deferUs := s.chip.ringDefer r, deferSince := none, fetching := 0, arrivals := [], stalled := false, coalRun := false })] }))
      ∧ (s.chip.ringState r = rsRUNNING → s.chip.linkUp (s.chip.get FLU_RING_CFG.OWNER r) = true →
          s.chip.owner r ≠ s.chip.get FLU_RING_CFG.OWNER r → s.chip.NoAdmission r → Effect (.handback p r) s
        ((unrequested s.chip r).plus
           { regs := [(⟨FLU_RING_EVT.MOVED, r⟩, 1), (⟨FLU_RING_STAT.AWAIT_DB, r⟩, 1),
               (⟨FLU_RING_STAT.OWNER_NOW, r⟩, s.chip.get FLU_RING_CFG.OWNER r % 2)],
             rings := [(r, { s.chip.ring r with
             deferUs := s.chip.ringDefer r, deferSince := none, fetching := 0 })],
             events := [ringEvent (s.chip.put FLU_RING_STAT.OWNER_NOW r (s.chip.get FLU_RING_CFG.OWNER r)) FLU_RING_EVT.MOVED r] })))
  ∧ (∀ (p : Path) (r : RingId) (s : State), s.Takes p blkFLU (s.chip.domUp 16) → s.chip.ownerPath p r = false →
      ∀ (i : Instr) (v : Nat),
          (i = .pause p r ∨ i = .resume p r ∨ i = .reset p r ∨ i = .handback p r ∨ i = .ringEn p r v) →
          Effect (i) s
        ({ regs := [(⟨FLU_RING_EVT.NOT_OWNER, r⟩, 1)], events := [ringEvent s.chip FLU_RING_EVT.NOT_OWNER r] }))

/-- When LOSS_TMO expires on a link that is still down the port is lost and source 0x41 goes to Ash: its one running ring
moves to the other port where the image allows it and that link is up, and waits there for its first doorbell
(MOVE_CNT counts), and otherwise is orphaned; a port without running rings only reads LOST. A lost port that serves
again sends source 0x45. Nothing else of the block changes. (R232, R233, R235, R237, R459, R464) -/
def Obligations.PortLossAndReturn : Prop :=
  ∀ (x : PortId) (s : State), s.Still → s.chip.domUp 16 = true →
      (∀ (r : Nat), (s.chip.port x).lossRun = true → s.chip.serving x = false →
          s.chip.on FLU_PORT_STAT.LOST x = false → s.chip.definedRings.filter (fun r => decide (s.chip.owner r = x.val)
            && (decide (s.chip.ringState r = rsRUNNING) || decide (s.chip.ringState r = rsPAUSED))) = [r] →
          s.chip.NoAdmission r → s.chip.on FLU_RING_CFG.ALT_OK r = true → s.chip.linkUp (1 - x) = true →
          Effect (.portLoss x) s
        ((unrequested s.chip r).plus
           { regs := [(⟨FLU_PORT_STAT.MOVE_CNT, x⟩, s.chip.satInc FLU_PORT_STAT.MOVE_CNT x), (⟨FLU_RING_EVT.MOVED, r⟩, 1),
               (⟨FLU_RING_STAT.AWAIT_DB, r⟩, 1), (⟨FLU_RING_STAT.OWNER_NOW, r⟩, 1 - x), (⟨FLU_RING_STAT.STATE, r⟩, rsRUNNING),
               (⟨FLU_PORT_STAT.LOST, x⟩, 1)],
             rings := [(r, { s.chip.ring r with
             deferUs := s.chip.ringDefer r, deferSince := none, fetching := 0 })],
             ports := [(x, { s.chip.port x with lossRun := false })],
             events := [ringEvent (s.chip.put FLU_RING_STAT.OWNER_NOW r (1 - x)) FLU_RING_EVT.MOVED r, ⟨0x41, x, 0, false⟩] }))
      ∧ (∀ (r : Nat), (s.chip.port x).lossRun = true → s.chip.serving x = false →
          s.chip.on FLU_PORT_STAT.LOST x = false → s.chip.definedRings.filter (fun r => decide (s.chip.owner r = x.val)
            && (decide (s.chip.ringState r = rsRUNNING) || decide (s.chip.ringState r = rsPAUSED))) = [r] →
          s.chip.NoAdmission r → (s.chip.on FLU_RING_CFG.ALT_OK r = false ∨ s.chip.linkUp (1 - x) = false) →
          Effect (.portLoss x) s
        ((unrequested s.chip r).plus
           { regs := [(⟨FLU_RING_EVT.ORPHAN, r⟩, 1), (⟨FLU_RING_STAT.STATE, r⟩, rsORPHANED), (⟨FLU_PORT_STAT.LOST, x⟩, 1)],
             rings := [(r, { s.chip.ring r with
             deferUs := s.chip.ringDefer r, deferSince := none, fetching := 0 })],
             ports := [(x, { s.chip.port x with lossRun := false })],
             events := [ringEvent s.chip FLU_RING_EVT.ORPHAN r, ⟨0x41, x, 0, false⟩] }))
      ∧ ((s.chip.port x).lossRun = true → s.chip.serving x = false → s.chip.on FLU_PORT_STAT.LOST x = false →
          s.chip.definedRings.filter (fun r => decide (s.chip.owner r = x.val)
            && (decide (s.chip.ringState r = rsRUNNING) || decide (s.chip.ringState r = rsPAUSED))) = [] →
          Effect (.portLoss x) s
        ({ regs := [(⟨FLU_PORT_STAT.LOST, x⟩, 1)], ports := [(x, { s.chip.port x with lossRun := false })],
           events := [⟨0x41, x, 0, false⟩] }))
      ∧ (s.chip.on FLU_PORT_STAT.LOST x = true → s.chip.serving x = true → Effect (.portServingAgain x) s
        ({ events := [⟨0x45, x, 0, false⟩] }))

/-- CLEAR_STALE of a live, stale leg of a mirrored route without writes in flight and with the right GEN clears the bit,
reports RESULT 0 and triggers a rebuild; on a leg that is not stale it reports RESULT 1. REBUILD triggers one, or one
more while one runs. For a table with one route: the commit plans PREF in the shadow bank by the usable legs and the
swap is pending; the swap exchanges the banks of a route that is not MOVING, the epoch rises and the copy-back runs;
its end copies the active word into the shadow bank and starts a further rebuild if one was asked for. The end of a
move clears MOVING in both banks, and a stalled ring goes on. A LIVE_NOTICE of a keyed peer is accepted and its bits
are taken. Nothing else of the block changes. (R245, R246, R247, R249, R250, R259, R261, R262, R263, R264, R473, R477) -/
def Obligations.StackTable : Prop :=
  (∀ (p : Path) (s : State), s.Takes p blkFLU (s.chip.domUp 16) →
      (∀ (handle gen : Nat) (second : Bool), s.chip.on FLU_STACK_ACT.VALID (handle % 4096) = true →
          s.chip.on FLU_STACK_ACT.MIRROR (handle % 4096) = true → s.chip.on (staleFld second) (handle % 4096) = true →
          s.chip.live (s.chip.get (legSlotFld second) (handle % 4096)) = true →
          s.chip.get FLU_STACK_MARK.WR_INFL (handle % 4096) = 0 →
          s.chip.get FLU_STACK_MARK.GEN (handle % 4096) = gen % 256 → s.chip.get FLU_STACK_STAT.RB_STATE 0 = 0 →
          Effect (.clearStale p handle second gen) s
        ({ regs := [(⟨FLU_STACK_STAT.RB_STATE, 0⟩, 1), (⟨FLU_STACK_EVT.STALE_CLR, 0⟩, 1), (⟨staleFld second, handle % 4096⟩, 0),
             (⟨FLU_STACK_RES.HANDLE, 0⟩, handle % 4096), (⟨FLU_STACK_RES.RESULT, 0⟩, 0), (⟨FLU_STACK_RES.OP, 0⟩, 1)],
           events := [stackEvent s.chip FLU_STACK_EVT.STALE_CLR] }))
      ∧ (∀ (handle gen : Nat) (second : Bool), s.chip.on FLU_STACK_ACT.VALID (handle % 4096) = true →
          s.chip.on FLU_STACK_ACT.MIRROR (handle % 4096) = true → s.chip.on (staleFld second) (handle % 4096) = false →
          Effect (.clearStale p handle second gen) s
        ({ regs := [(⟨FLU_STACK_RES.HANDLE, 0⟩, handle % 4096), (⟨FLU_STACK_RES.RESULT, 0⟩, 1), (⟨FLU_STACK_RES.OP, 0⟩, 1)] }))
      ∧ (s.chip.get FLU_STACK_STAT.RB_STATE 0 = 0 → Effect (.rebuild p) s
        ({ regs := [(⟨FLU_STACK_STAT.RB_STATE, 0⟩, 1), (⟨FLU_STACK_RES.HANDLE, 0⟩, 0), (⟨FLU_STACK_RES.RESULT, 0⟩, 0),
            (⟨FLU_STACK_RES.OP, 0⟩, 2)] }))
      ∧ (s.chip.get FLU_STACK_STAT.RB_STATE 0 ≠ 0 → Effect (.rebuild p) s
        ({ regs := [(⟨FLU_STACK_RES.HANDLE, 0⟩, 0), (⟨FLU_STACK_RES.RESULT, 0⟩, 0), (⟨FLU_STACK_RES.OP, 0⟩, 2)],
           stack := some { s.chip.stack with again := true } })))
  ∧ (∀ (h : Nat) (s : State), s.Still → s.chip.domUp 16 = true → s.chip.routes = [h] →
      (∀ (u0 u1 : Bool), s.chip.get FLU_STACK_STAT.RB_STATE 0 = 1 → s.chip.on FLU_STACK_SHD.VALID h = true →
          s.chip.on FLU_STACK_SHD.MIRROR h = true →
          u0 = (s.chip.live (s.chip.get FLU_STACK_SHD.LEG0_SLOT h) && !s.chip.on FLU_STACK_MARK.STALE0 h) →
          u1 = (s.chip.live (s.chip.get FLU_STACK_SHD.LEG1_SLOT h) && !s.chip.on FLU_STACK_MARK.STALE1 h) →
          Effect (.rebuildCommit) s
        ({ regs := (⟨FLU_STACK_STAT.RB_STATE, 0⟩, 2) :: (if u0 ∨ u1 then
             [(⟨FLU_STACK_SHD.PREF, h⟩, if u0 ∧ u1 then (s.chip.on FLU_STACK_SHD.SEED_PREF h).toNat else u1.toNat)] else []) }))
      ∧ (s.chip.get FLU_STACK_STAT.RB_STATE 0 = 2 → s.chip.on FLU_STACK_ACT.MOVING h = false →
          s.chip.on FLU_STACK_SHD.MOVING h = false → (∀ e ∈ s.chip.entries, e.held = false) →
          Effect (.epochSwap) s
        ({ regs := [(⟨FLU_STACK_STAT.RB_STATE, 0⟩, 3), (⟨FLU_STACK_EVT.SWAP, 0⟩, 1),
             (⟨FLU_STACK_EPOCH.EPOCH, 0⟩, (s.chip.get FLU_STACK_EPOCH.EPOCH 0 + 1) % 2 ^ 32)]
               ++ routeFlds.flatMap (fun lo =>
                 [(⟨⟨.FLU_STACK_ACT, lo⟩, h⟩, s.chip.get ⟨.FLU_STACK_SHD, lo⟩ h % 2 ^ Fld.width ⟨.FLU_STACK_ACT, lo⟩),
                  (⟨⟨.FLU_STACK_SHD, lo⟩, h⟩, s.chip.get ⟨.FLU_STACK_ACT, lo⟩ h % 2 ^ Fld.width ⟨.FLU_STACK_SHD, lo⟩)]),
           stack := some { s.chip.stack with swapUs := s.chip.us },
           events := [stackEvent s.chip FLU_STACK_EVT.SWAP] }))
      ∧ (s.chip.get FLU_STACK_STAT.RB_STATE 0 = 3 → Effect (.copybackEnd) s
        ({ regs := (⟨FLU_STACK_STAT.RB_STATE, 0⟩, s.chip.stack.again.toNat) :: routeFlds.map (fun lo =>
             (⟨⟨.FLU_STACK_SHD, lo⟩, h⟩, s.chip.get ⟨.FLU_STACK_ACT, lo⟩ h % 2 ^ Fld.width ⟨.FLU_STACK_SHD, lo⟩)),
           stack := some { s.chip.stack with again := false } })))
  ∧ (∀ (s : State), s.Still → s.chip.domUp 16 = true →
      (∀ (h elapsed : Nat), s.chip.stack.moving = [h] → (∀ e ∈ s.chip.rings, e.2.stalled = false) →
          Effect (.moveEnd elapsed) s
        ({ regs := [(⟨FLU_STACK_SHD.MOVING, h⟩, 0), (⟨FLU_STACK_ACT.MOVING, h⟩, 0)],
           stack := some { s.chip.stack with moving := [] } }))
      ∧ (∀ (h elapsed r : Nat), s.chip.stack.moving = [h] →
          (s.chip.rings.filter (fun e => e.2.stalled)).map Prod.fst = [r] → Effect (.moveEnd elapsed) s
        ({ regs := [(⟨FLU_STACK_SMAX.STALL_MAX, 0⟩,
               max (s.chip.get FLU_STACK_SMAX.STALL_MAX 0) (min 50 elapsed) % 2 ^ FLU_STACK_SMAX.STALL_MAX.width),
             (⟨FLU_STACK_SHD.MOVING, h⟩, 0), (⟨FLU_STACK_ACT.MOVING, h⟩, 0)],
           rings := [(r, { s.chip.ring r with stalled := false })],
           stack := some { s.chip.stack with moving := [] } }))
      ∧ (∀ (d : DevId) (mask : Nat), s.chip.Hears d → s.chip.orphan = false →
          s.chip.on DRG_KZ_STAT.KEYED (s.chip.kzFor d) = true → s.chip.peerOk d = true →
          Effect (.liveNoticeRx d mask) s
        ((frameAccepted s.chip (s.chip.kzFor d) .fault).plus
           { regs := [(⟨FLU_LIVE.LIVE, 2 * d + 1⟩, mask / 2 ^ 32 % 2 ^ 32), (⟨FLU_LIVE.LIVE, 2 * d⟩, mask % 2 ^ 32)] })))

/-- A session that reaches its age is due for REKEY, its AGE_MIN no less than the age. On a slot in READY that carries
nothing and that no overlay in work holds, a session that is due, ACTIVE and not waiting for a retry begins its REKEY:
SESS reads REKEYING, the exchange waits to send BEGIN, and Stoker's work for its ephemeral pair goes to Ember. The
retry time elapses: the REKEY may be tried again. Nothing else of the block changes. (R285, R286, R287, R274) -/
def Obligations.SessionRekeying : Prop :=
  ∀ (n : SlotId) (s : State), s.Still → s.chip.domUp 16 = true →
      (s.chip.sessHeld n = true → Effect (.rekeyAgeExpiry n) s
        ({ regs := [(⟨CRD_SESS_STAT.REKEY_DUE, n⟩, 1), (⟨CRD_SESS_AGE.AGE_MIN, n⟩,
            max (s.chip.get CRD_SESS_AGE.AGE_MIN n) s.chip.ageLimit % 2 ^ CRD_SESS_AGE.AGE_MIN.width)] }))
      ∧ (s.chip.slotState n = stREADY → (s.chip.slot n).wait = none → (s.chip.slot n).cur = none →
          (s.chip.sessOf n).cin = none → s.chip.kln.heldSlots.contains n.val = false →
          s.chip.on CRD_SESS_STAT.REKEY_DUE n = true → s.chip.on CRD_STAT.DRBG_READY 0 = true →
          (s.chip.sessOf n).rekeyRetry = false → s.chip.get CRD_SESS_STAT.SESS n = ssACTIVE → s.chip.StokerFull →
          Effect (.rekeyStart n) s
        ({ regs := [(⟨CRD_SESS_STAT.SESS, n⟩, ssREKEYING)],
           sess := [(n, { s.chip.sessOf n with cin := some { CinX.start .rekey with phase := .beginWait } })],
           ember := some { s.chip.ember with stokerQ := s.chip.ember.stokerQ ++ [(.cinderGen n, 0x21, [])] } }))
      ∧ ((s.chip.sessOf n).rekeyRetry = true → Effect (.rekeyRetryExpiry n) s
        ({ sess := [(n, { s.chip.sessOf n with rekeyRetry := false })] }))

/-- A failed health test clears ES_OK and DRBG_READY and sets ES_FAIL with source 0x58, at the start-up test too. A test
that passes seeds the DRBG with free bytes, counts a reseed and sets DRBG_READY and ES_OK; after a failure
ES_RECOVERED sets with source 0x59. A reseed takes new free bytes. TAMPER_N zeroises the key store with cause 1 and
operand memory, ends the grants and sends source 0x03, while no Cinder work, no job, no grant and no transition is
under way. Nothing else of the block changes. (R291, R292, R293, R324, R379, R452) -/
def Obligations.EntropySource : Prop :=
  ∀ (s : State), s.Still → s.chip.domUp 16 = true →
      (Effect (.esHealthFail) s
        ({ regs := [(⟨CRD_EVT.ES_FAIL, 0⟩, 1), (⟨CRD_STAT.DRBG_READY, 0⟩, 0), (⟨CRD_STAT.ES_OK, 0⟩, 0)],
           events := [⟨0x58, 0, (s.chip.flag CRD_EVT.ES_FAIL 0 true).word .CRD_EVT 0, false⟩] }))
      ∧ (s.chip.on CRD_STAT.ES_OK 0 = false → s.chip.cord.esTest = false → Effect (.esStartupRetest true) s
        ({ regs := [(⟨CRD_EVT.ES_RECOVERED, 0⟩, 1), (⟨CRD_STAT.ES_OK, 0⟩, 1), (⟨CRD_STAT.DRBG_READY, 0⟩, 1),
             (⟨CRD_DRBG_CNT.RESEED_CNT, 0⟩, (s.chip.get CRD_DRBG_CNT.RESEED_CNT 0 + 1) % 2 ^ 32)],
           cord := some { s.chip.cord with drbg := Config.freeBytes s.chip.free 48, drbgReqs := 0 }, free := some (s.chip.free + 1),
           events := [⟨0x59, 0, (s.chip.flag CRD_EVT.ES_RECOVERED 0 true).word .CRD_EVT 0, false⟩] }))
      ∧ (s.chip.cord.esTest = true → Effect (.esStartupTestEnd true) s
        ({ regs := [(⟨CRD_STAT.ES_OK, 0⟩, 1), (⟨CRD_STAT.DRBG_READY, 0⟩, 1), (⟨CRD_DRBG_CNT.RESEED_CNT, 0⟩,
            (s.chip.get CRD_DRBG_CNT.RESEED_CNT 0 + 1) % 2 ^ 32)],
           cord := some { esTest := false, drbg := Config.freeBytes s.chip.free 48, drbgReqs := 0 }, free := some (s.chip.free + 1) }))
      ∧ (s.chip.cord.esTest = true → Effect (.esStartupTestEnd false) s
        ({ regs := [(⟨CRD_EVT.ES_FAIL, 0⟩, 1), (⟨CRD_STAT.DRBG_READY, 0⟩, 0), (⟨CRD_STAT.ES_OK, 0⟩, 0)],
           cord := some { s.chip.cord with esTest := false },
           events := [⟨0x58, 0, (s.chip.flag CRD_EVT.ES_FAIL 0 true).word .CRD_EVT 0, false⟩] }))
      ∧ (s.chip.on CRD_STAT.ES_OK 0 = true → Effect (.drbgReseed) s
        ({ regs := [(⟨CRD_STAT.DRBG_READY, 0⟩, 1), (⟨CRD_DRBG_CNT.RESEED_CNT, 0⟩,
            (s.chip.get CRD_DRBG_CNT.RESEED_CNT 0 + 1) % 2 ^ 32)],
           cord := some { s.chip.cord with drbg := Config.freeBytes s.chip.free 48, drbgReqs := 0 }, free := some (s.chip.free + 1) }))
      ∧ (s.chip.domUp 17 = true → s.chip.ash.tamper = false → s.chip.NoCinder →
          (∀ k ∈ List.range 8, s.chip.ctxJob k = false) → s.chip.kln.lc = none → s.chip.bscan = false →
          Effect (.tamperN) s
        (((storeWiped s.chip 1).plus (operandsWiped s.chip)).plus
           { regs := [(⟨KLN_DBG_STAT.BOOTS, 0⟩, 0), (⟨KLN_DBG_STAT.HELD, 0⟩, 0)],
             ash := some { s.chip.ash with tamper := true }, events := [⟨0x03, 0, 0, false⟩],
             mems := if s.chip.domUp 19 = true then [.nvsVote 2 0] else [] }))

/-- GO on a free context clears the record of its last job: a library operation takes its regions and asks the damper for
its tokens, a raw list goes to CHECKING, an undefined operation ends with PROTOCOL and cause 8, and with the array
fenced it ends with FENCED. A command that the state refuses sets CMD_REFUSED with source 0x1C. ABORT of a running job
waits for a yield point; of one not running it wipes the destination and scratch regions. A list that passes its check
asks for its tokens, one that breaks a rule ends with PROTOCOL and cause 1, the rule and the word recorded. On a
context of Stoker the write is discarded with source 0x09. Nothing else of the block changes. (R302, R303, R309, R312,
R316, R317, R322, R362, R364) -/
def Obligations.EmberCommands : Prop :=
  ∀ (p : Path) (c : CtxId) (k : Nat) (s : State), s.Takes p blkEMB (s.chip.domUp 17) → k = c.val →
      (∀ (op : Nat) (l : LibOp), s.chip.HostCtx k → s.chip.ctxFree k = true → op = s.chip.get EMB_JOB.OP k →
          op ≠ 3 → s.chip.on EMB_JOB.PAIR k = false → s.chip.arrayFenced = false → libOp op = some l →
          Effect (.go p c) s
        (((jobBegins s.chip k).plus
             { regs := [(⟨EMB_SCR.LEN, k⟩, l.s), (⟨EMB_SCR.BASE, k⟩, l.scr), (⟨EMB_DST.LEN, k⟩, l.d), (⟨EMB_DST.BASE, k⟩,
                 l.dst)]
                 ++ if libOneShot op = true then [(⟨EMB_JOB.ONE_SHOT, k⟩, 1)] else [] }).plus
           { jobAsks s.chip k l.b with
             ctxs := [(k, { s.chip.ctx k with
               goOrder := s.chip.ember.nextGo, goUs := s.chip.us, win := WinX.init, yields := 0, aged := none, started := false,
               hasTokens := false, pace := s.chip.paceDiv, rem := l.b })] }))
      ∧ (s.chip.HostCtx k → s.chip.ctxFree k = true → s.chip.get EMB_JOB.OP k = 0xFF →
          s.chip.on EMB_JOB.PAIR k = false → s.chip.arrayFenced = false → Effect (.go p c) s
        ((jobBegins s.chip k).plus { regs := [(⟨EMB_CSTAT.STATE, k⟩, esCHECKING)] }))
      ∧ (∀ (op : Nat), s.chip.HostCtx k → s.chip.ctxFree k = true → op = s.chip.get EMB_JOB.OP k →
          s.chip.on EMB_JOB.PAIR k = false → ((op ≠ 0xFF ∧ libOp op = none) ∨ s.chip.arrayFenced = true) → op ≠ 3 →
          libOneShot op = false → s.chip.ember.running ≠ some k → Effect (.go p c) s
        ((jobBegins s.chip k).plus
           { regs := [(⟨EMB_JOBCNT.JOB_CNT, 0⟩, (s.chip.get EMB_JOBCNT.JOB_CNT 0 + 1) % 2 ^ 32), (⟨EMB_CSTAT.ABORT_PEND, k⟩, 0),
              (⟨EMB_CSTAT.STATUS, k⟩, if s.chip.arrayFenced = true then stsFENCED else stsPROTOCOL), (⟨EMB_CSTAT.STATE, k⟩,
                  esDONE),
              (⟨EMB_CSTAT.FAIL_CAUSE, k⟩,
                if s.chip.arrayFenced = false then 8 else if s.chip.on EMB_STAT.CLINKER 0 = true then 2 else 6)],
             ctxs := [(k, { s.chip.ctx k with
               goOrder := s.chip.ember.nextGo, goUs := s.chip.us, yields := 0, aged := none, started := false, hasTokens := false,
               pace := s.chip.paceDiv,
               win := ⟨[], if s.chip.arrayFenced = true then stsFENCED else stsPROTOCOL, s.chip.on EMB_JOB.ONE_SHOT k, true,
                   false⟩ })] }))
      ∧ (∀ (i : Instr), s.chip.ctxHost k = true → ((i = .go p c ∧ s.chip.ctxFree k = false)
            ∨ (i = .abort p c ∧ (s.chip.ctxState k = esIDLE ∨ s.chip.ctxState k = esDONE ∨ s.chip.ctxState k = esFENCED))) →
          Effect (i) s
        ({ regs := [(⟨EMB_CSTAT.CMD_REFUSED, k⟩, 1)], events := [⟨0x1C, blkEMB, 0, false⟩] }))
      ∧ (s.chip.ctxHost k = true → s.chip.ctxState k = esRUNNING → Effect (.abort p c) s
        ({ regs := [(⟨EMB_CSTAT.ABORT_PEND, k⟩, 1)] }))
      ∧ (∀ (g : ERegions), s.chip.HostCtx k → s.chip.ember.running ≠ some k → g = s.chip.regionsOf k →
          (s.chip.ctxState k = esCHECKING ∨ s.chip.ctxState k = esTOKENS ∨ s.chip.ctxState k = esQUEUED
            ∨ s.chip.ctxState k = esSUSPENDED) →Effect (.abort p c) s
        ({ regs := [(⟨EMB_CSTAT.STATE, k⟩, esWIPING)],
           mems := [.wipeOp (ctxBase k + 8 * g.dst) (8 * g.dlen), .wipeOp (ctxBase k + 8 * g.scr) (8 * g.slen)] }))
      ∧ (∀ (b : Nat), s.chip.domUp 17 = true → s.chip.HostCtx k → s.chip.ctxState k = esCHECKING →
          s.chip.listVerdict k (s.listWords k) = .inr b → Effect (.listCheckDone c) s (jobAsks s.chip k b))
      ∧ (∀ (rule word : Nat), s.chip.domUp 17 = true → s.chip.HostCtx k → s.chip.ember.running ≠ some k →
          s.chip.ctxState k = esCHECKING → s.chip.listVerdict k (s.listWords k) = .inl (rule, word) →
          Effect (.listCheckDone c) s
        ((jobOver s.chip k stsPROTOCOL 1 []).plus
           { regs := [(⟨EMB_EVT.LIST_ERR, 0⟩, 1), (⟨EMB_LERR.WORD, k⟩, word % 2 ^ 10), (⟨EMB_LERR.RULE, k⟩, rule % 2 ^ 4)],
             events := [emberEvent s.chip EMB_EVT.LIST_ERR 0x55 k] }))
      ∧ (∀ (i : Instr), s.chip.ctxHost k = false → (i = .go p c ∨ i = .abort p c) → Effect (i) s
        ({ events := [⟨0x09, blkEMB, 0, false⟩] }))

/-- The free array takes the job that the order of R313 chooses: it reads RUNNING with its waiting time, its tokens spent
and the pace of the domain. At a yield point with no abort pending the job goes on with its beats to run, or a job
with fewer beats takes the array and the switch is counted. At END of a job of host software its destination is
written, its scratch region wiped, and it is DONE with the status of its flags; a set flag leaves zeros. A wipe that
ends makes the job DONE with ABORTED. A job that has waited AGE_MAX is AGED in order. Nothing else of the block
changes. (R308, R311, R313, R314, R316, R320, R321, R322) -/
def Obligations.EmberArray : Prop :=
  (∀ (k : Nat) (s : State), s.Still → s.chip.domUp 17 = true →
      (s.chip.ember.running = none → s.chip.arrayFenced = false → s.chip.chosen = some k →
          (s.chip.ctx k).started = false → Effect (.arrayDispatch) s
        ({ regs := [(⟨EMB_CSTAT.STATE, k⟩, esRUNNING),
             (⟨EMB_WAIT.WAIT_US, k⟩, min (s.chip.us - (s.chip.ctx k).goUs) 0xFFFFFF)],
           ctxs := [(k, { s.chip.ctx k with started := true, pace := s.chip.paceDiv })],
           ember := some { s.chip.ember with running := some k },
           dmp := some { s.chip.dmp with grants := s.chip.dmp.grants.filter (fun g => decide (g.asker ≠ .ember k)) } }))
      ∧ (s.chip.ember.running = none → s.chip.arrayFenced = false → s.chip.chosen = some k →
          (s.chip.ctx k).started = true → s.chip.get EMB_WAIT.SWITCHES k < 255 → Effect (.arrayDispatch) s
        ({ regs := [(⟨EMB_CSTAT.STATE, k⟩, esRUNNING), (⟨EMB_WAIT.SWITCHES, k⟩, s.chip.get EMB_WAIT.SWITCHES k + 1),
             (⟨EMB_CNT.SWITCH_CNT, 0⟩, (s.chip.get EMB_CNT.SWITCH_CNT 0 + 1) % 2 ^ 16)],
           ember := some { s.chip.ember with running := some k } }))
      ∧ (∀ (rem : Nat), s.chip.ember.running = some k → s.chip.remAfterYield k (s.listWords k) s.opmem = some rem →
          s.chip.on EMB_CSTAT.ABORT_PEND k = false →
          (∀ j, s.chip.chosen = some j → (s.chip.ctx k).aged ≠ none ∨ ((s.chip.ctx j).aged = none ∧ rem ≤ (s.chip.ctx j).rem)) →
          s.chip.ctxState k = esRUNNING → Effect (.yield) s
        ({ ctxs := [(k, { s.chip.ctx k with rem := rem, yields := (s.chip.ctx k).yields + 1 })] }))
      ∧ (∀ (rem j : Nat), s.chip.ember.running = some k → s.chip.remAfterYield k (s.listWords k) s.opmem = some rem →
          s.chip.on EMB_CSTAT.ABORT_PEND k = false → s.chip.ctxState k = esRUNNING → (s.chip.ctx k).aged = none →
          s.chip.chosen = some j → (s.chip.ctx j).rem < rem → (s.chip.ctx j).started = false →
          s.chip.get EMB_WAIT.SWITCHES j < 255 → Effect (.yield) s
        ({ regs := [(⟨EMB_CSTAT.STATE, j⟩, esRUNNING), (⟨EMB_WAIT.SWITCHES, j⟩, s.chip.get EMB_WAIT.SWITCHES j + 1),
             (⟨EMB_CNT.SWITCH_CNT, 0⟩, (s.chip.get EMB_CNT.SWITCH_CNT 0 + 1) % 2 ^ 16),
             (⟨EMB_WAIT.WAIT_US, j⟩, min (s.chip.us - (s.chip.ctx j).goUs) 0xFFFFFF), (⟨EMB_CSTAT.STATE, k⟩, esSUSPENDED)],
           ctxs := [(j, { s.chip.ctx j with started := true, pace := s.chip.paceDiv }),
             (k, { s.chip.ctx k with rem := rem, yields := (s.chip.ctx k).yields + 1 })],
           ember := some { s.chip.ember with running := some j },
           dmp := some { s.chip.dmp with grants := s.chip.dmp.grants.filter (fun g => decide (g.asker ≠ .ember j)) } }))
      ∧ (∀ (g : ERegions) (r : JobEnd) (bytes : List Byte), s.chip.ember.running = some k → s.chip.HostCtx k →
          g = s.chip.regionsOf k → r = s.chip.jobResult k (s.listWords k) s.opmem →
          bytes = (if r.flags = 0 then r.bytes else r.bytes.map (fun _ => 0)) →
          s.chip.on EMB_CSTAT.ABORT_PEND k = false → r.checkFail = false → Effect (.jobEnd) s
        ({ jobOver s.chip k (flagStatus r.flags) (s.chip.get EMB_CSTAT.FAIL_CAUSE k) (bytesWords bytes) with
           free := some (s.chip.free + r.draws),
           mems := [.opWrite (ctxBase k + 8 * g.dst) bytes, .wipeOp (ctxBase k + 8 * g.scr) (8 * g.slen)] })))
  ∧ (∀ (c : CtxId) (k : Nat) (s : State), s.Still → s.chip.domUp 17 = true → k = c.val →
      (s.chip.ctxState k = esWIPING → s.chip.HostCtx k → s.chip.ember.running ≠ some k → Effect (.wipeDone c) s
        ((jobOver s.chip k stsABORTED 0 (List.replicate (2 * s.chip.get EMB_DST.LEN k) 0)).plus
           { regs := [(⟨EMB_CNT.ABORT_CNT, 0⟩, s.chip.satInc EMB_CNT.ABORT_CNT 0)] }))
      ∧ ((s.chip.ctxState k = esQUEUED ∨ s.chip.ctxState k = esSUSPENDED) → (s.chip.ctx k).aged = none →
          Effect (.aged c) s
        ({ regs := [(⟨EMB_CSTAT.AGED, k⟩, 1)], ctxs := [(k, { s.chip.ctx k with aged := some s.chip.ember.nextAged })],
           ember := some { s.chip.ember with nextAged := s.chip.ember.nextAged + 1 } })))

/-- A column fault while a spare column is left and the job has not restarted retires the column, uses the spare up,
restarts the job with all its beats and sends source 0x50. An uncorrectable memory error and the watchdog end the job
of their context with FENCED and cause 4 or 3, its regions wiped, with source 0x53 or 0x54; a corrected error is
counted with 0x52. The wipe of a sealed context without a job clears its space and releases it. Nothing else of the
block changes. (R299, R300, R303, R323, R379) -/
def Obligations.EmberFailures : Prop :=
  (∀ (k : Nat) (col : Fin 17) (s : State), s.Still → s.chip.domUp 17 = true →
      s.chip.bit EMB_COLMAP.RETIRED 0 col = false → s.chip.get EMB_STAT.SPARE_COL 0 ≠ col.val →
          s.chip.ember.running = some k → s.chip.get EMB_STAT.SPARE_COL 0 ≠ 0x1F → s.chip.on EMB_CSTAT.RERUN k = false →
          Effect (.columnFault col) s
        ({ regs := [(⟨EMB_EVT.COL_RETIRED, 0⟩, 1), (⟨EMB_EVT.RERUN, 0⟩, 1), (⟨EMB_CSTAT.RERUN, k⟩, 1), (⟨EMB_STAT.SPARE_COL,
            0⟩, 0x1F),
             (⟨EMB_COLMAP.RETIRED, 0⟩, (s.chip.get EMB_COLMAP.RETIRED 0 + 2 ^ col.val) % 2 ^ 17)],
           ctxs := [(k, { s.chip.ctx k with rem := s.chip.get EMB_BEATS.BEATS k, yields := 0 })],
           wear := some { s.chip.wear with writePend := true },
           events := [emberEvent (s.chip.flag EMB_EVT.RERUN 0 true) EMB_EVT.COL_RETIRED 0x50 col] }))
  ∧ (∀ (c : CtxId) (k : Nat) (s : State), s.Still → s.chip.domUp 17 = true → k = c.val →
      (∀ (g : ERegions), s.chip.HostCtx k → s.chip.ctxJob k = true → g = s.chip.regionsOf k → Effect (.eccUe c) s
        ({ regs := [(⟨EMB_EVT.ECC_UE, 0⟩, 1), (⟨EMB_CSTAT.STATE, k⟩, esFENCED), (⟨EMB_CSTAT.FAIL_CAUSE, k⟩, 4),
            (⟨EMB_CSTAT.STATUS, k⟩, stsFENCED)],
           ctxs := [(k, { s.chip.ctx k with
             use := .host, hasTokens := false, started := false, aged := none, win := ⟨[], stsFENCED, false, true, false⟩ })],
           ember := if s.chip.ember.running = some k then some { s.chip.ember with running := none } else none,
           events := [emberEvent s.chip EMB_EVT.ECC_UE 0x53 k],
           mems := [.wipeOp (ctxBase k + 8 * g.dst) (8 * g.dlen), .wipeOp (ctxBase k + 8 * g.scr) (8 * g.slen)] }))
      ∧ (∀ (g : ERegions), s.chip.HostCtx k → s.chip.ctxJob k = true → g = s.chip.regionsOf k →
          s.chip.ember.running = some k → Effect (.emberWatchdog c) s
        ({ regs := [(⟨EMB_EVT.WDOG, 0⟩, 1), (⟨EMB_CSTAT.STATE, k⟩, esFENCED), (⟨EMB_CSTAT.FAIL_CAUSE, k⟩, 3),
            (⟨EMB_CSTAT.STATUS, k⟩, stsFENCED)],
           ctxs := [(k, { s.chip.ctx k with
             use := .host, hasTokens := false, started := false, aged := none, win := ⟨[], stsFENCED, false, true, false⟩ })],
           ember := if s.chip.ember.running = some k then some { s.chip.ember with running := none } else none,
           events := [emberEvent s.chip EMB_EVT.WDOG 0x54 k],
           mems := [.wipeOp (ctxBase k + 8 * g.dst) (8 * g.dlen), .wipeOp (ctxBase k + 8 * g.scr) (8 * g.slen)] }))
      ∧ (Effect (.eccCe c) s
        ({ regs := [(⟨EMB_EVT.ECC_CE, 0⟩, 1)], events := [emberEvent s.chip EMB_EVT.ECC_CE 0x52 k] }))
      ∧ (∀ (g : ERegions), (s.chip.ctx k).isSealed = true → s.chip.ctxJob k = false → g = s.chip.regionsOf k →
          Effect (.sealedWipeEnd c) s
        ({ ctxs := [(k, { s.chip.ctx k with isSealed := false })],
           mems := [.wipeOp (ctxBase k) (8 * max (g.dst + g.dlen) (g.scr + g.slen))] })))

/-- DRG_MON_SETTLE expires with one monitor of a bank undecided: UNDECIDED sets with source 0x0A, the kind of the monitor
in its DETAIL; an undecided bank monitor of a bank still in isolation fails the bank's rail with NO_PG and source
0x22. With one rail monitor undecided it is reported in the same way. A bank monitor that moves to its alarm side on a
bank out of isolation reports source 0x20 and takes the bank down as a lost rail. Nothing else of the block changes.
(R197, R198, R199, R200, R341, R343, R379, R396) -/
def Obligations.BankPowerMonitors : Prop :=
  (∀ (k : Fin 20) (s : State), s.Still →
      (∀ (n : SlotId) (m : MonId), bankOf n.val = k.val → (m = .vmon n ∨ m = .imon n ∨ m = .iomon n) →
          s.chip.domUp k = true → s.chip.on (monStat m mDECIDED) (monIdx m) = false →
          s.chip.on (monStat m mUNDECIDED) (monIdx m) = false →
          (∀ q ∈ domMons k, q = m ∨ s.chip.on (monStat q mDECIDED) (monIdx q) = true) →
          Effect (.monSettleExpiry k) s
        ({ regs := [(⟨monStat m mUNDECIDED, monIdx m⟩, 1)],
           events := [⟨0x0A, monIdx m, (s.chip.flag (monStat m mUNDECIDED) (monIdx m) true).monWord m, false⟩] }))
      ∧ (∀ (b : BankId), k.val = b.val → s.chip.seq.powered.contains k.val = true → s.chip.domUp k = false →
          s.chip.seqState = sqRUNNING → s.chip.RetryLeft (4 + b) → s.chip.on HTH_BMON_STAT.DECIDED b = false →
          s.chip.on HTH_BMON_STAT.UNDECIDED b = false →
          (∀ q ∈ domMons k, q = .bmon b ∨ s.chip.on (monStat q mDECIDED) (monIdx q) = true) →
          Effect (.monSettleExpiry k) s
        ({ railFailed s.chip (4 + b) DRG_SEQ_EVT.NO_PG with
           regs := (⟨HTH_BMON_STAT.UNDECIDED, b⟩, 1) :: (railFailed s.chip (4 + b) DRG_SEQ_EVT.NO_PG).regs,
           seq := some { s.chip.seq with
             retries := tabPut id 0 s.chip.seq.retries (4 + b) (s.chip.railTries (4 + b)),
             retrying := s.chip.seq.retrying.filter (fun r => decide (r ≠ 4 + b.val)),
             retryWait := s.chip.seq.retryWait.filter (fun r => decide (r ≠ 4 + b.val)) ++ [4 + b.val],
             judged := if s.chip.seq.judged.contains (4 + b.val) = true then s.chip.seq.judged else s.chip.seq.judged
                 ++ [4 + b.val],
             powered := s.chip.seq.powered.filter (fun q => decide (4 + q ≠ 4 + b.val)),
             bmonLate := s.chip.seq.bmonLate ++ [b.val] },
           events := [⟨0x0A, b, (s.chip.flag HTH_BMON_STAT.UNDECIDED b true).monWord (.bmon b) + 2 ^ 20, false⟩,
                      ⟨0x22, b, s.chip.railDetail (4 + b), false⟩] }))
      ∧ (∀ (r : Fin 5), 16 ≤ k.val → s.chip.on DRG_RMON_STAT.DECIDED r = false →
          s.chip.on DRG_RMON_STAT.UNDECIDED r = false → (∀ q : Fin 5, q = r ∨ s.chip.on DRG_RMON_STAT.DECIDED q = true) →
          Effect (.monSettleExpiry k) s
        ({ regs := [(⟨DRG_RMON_STAT.UNDECIDED, r⟩, 1)],
           events := [⟨0x0A, r, (s.chip.flag DRG_RMON_STAT.UNDECIDED r true).monWord (.rmon r) + 2 ^ 21, false⟩] })))
  ∧ (∀ (b : BankId) (x : Sample) (s : State), s.Still → s.chip.Says (.bmon b) x (some true) →
      s.chip.monAlarm (.bmon b) = false →
      ¬(monRail (.bmon b) = some s.chip.pmb.bel.rail ∧ s.chip.pmb.bel.phase = .dwell) →
      s.chip.domUp b = true → s.chip.SlotsOut b → s.chip.RetryLeft (4 + b) → s.chip.seqState = sqRUNNING →
          s.chip.pmb.bel.phase = .none → Effect (.bmonFault b [x]) s
        ((tripped s.chip (.bmon b) x).plus
           ((railFailed s.chip (4 + b) DRG_SEQ_EVT.RAIL_LOST).plus (bankDown s.chip b))))

/-- DOWN and COLD over the SPI start a shutdown of a device that runs and has nothing to stop: the sequencer is in
QUIESCE; DOWN clears UP_PEND, COLD sets COLD_PEND. DOWN in WAIT_START returns to OFF. UP in OFF of a device alone sets
UP_PEND, and is ignored in RUNNING. RETRY of a failed rail powers it up at once. COLD from a host port, and RETRY of a
rail that is good or does not exist, set CMD_REFUSED with source 0x1C. Nothing else of the block changes. (R337, R338,
R339, R343, R345, R346) -/
def Obligations.SequencerCommands : Prop :=
  ∀ (p : Path) (s : State), s.Takes p blkDRG true →
      (s.chip.canDown = true → s.chip.AtRest → Effect (.down p) s
        ((quiesced s.chip).plus { regs := [(⟨DRG_SEQ_STAT.UP_PEND, 0⟩, 0)] }))
      ∧ (s.chip.seqState = sqWAITSTART → Effect (.down p) s
        ({ regs := seqRegs sqOFF ++ [(⟨DRG_SEQ_STAT.UP_PEND, 0⟩, 0)] }))
      ∧ (p = .spi → s.chip.canDown = true → s.chip.AtRest → Effect (.cold p) s
        ((quiesced s.chip).plus { regs := [(⟨DRG_SEQ_STAT.COLD_PEND, 0⟩, 1)] }))
      ∧ (s.chip.seqState = sqOFF → s.chip.grp.size = 0 → Effect (.up p) s
        ({ regs := [(⟨DRG_SEQ_STAT.UP_PEND, 0⟩, 1)] }))
      ∧ (s.chip.seqState = sqRUNNING → Effect (.up p) s ({}))
      ∧ (∀ (i : Fin 32), i.val < 24 → s.chip.railPg i = false → s.chip.inPlan i = true → 1 ≤ s.chip.seqState →
          s.chip.seqState ≤ 4 → s.chip.railEn i = false → s.chip.bit DRG_RAIL_FAIL.RAIL 0 i = true →
          Effect (.retry p i) s
        ({ railOn s.chip i with
           seq := some { s.chip.seq with
             retryWait := s.chip.seq.retryWait.filter (fun r => decide (r ≠ i.val)), retrying := s.chip.seq.retrying
                 ++ [i.val] } }))
      ∧ (∀ (i : Instr) (k : Fin 32),
          ((i = .cold p ∧ p ≠ .spi) ∨ (i = .retry p k ∧ (24 ≤ k.val ∨ s.chip.railPg k = true))) →
          Effect (i) s
        ({ regs := [(⟨DRG_SEQ_EVT.CMD_REFUSED, 0⟩, 1)], events := [⟨0x1C, blkDRG, 0, false⟩] }))

/-- PG_MAIN is good: it reads so, and a shutdown under way records its return with source 0x2D. The common start of a
device alone with a power-up pending enters CORE and starts the period of the rail monitors. A rail's enable rises
when its delay has passed in its stage. A rail whose enable is high is judged good: PG sets, FAIL clears. A rail that
is not good by PG_TMO fails with NO_PG and the source of its kind, and waits for its retry. PD17, PD18 and PD19 come
out of isolation when the conditions of R334 hold, PD17 with an ageing measurement. The first lock of CK_CARD is held.
Nothing else of the block changes. (R36, R203, R328, R329, R331, R334, R335, R336, R339, R343, R371) -/
def Obligations.PowerUp : Prop :=
  (∀ (s : State), s.Still →
      (s.chip.inDown = false → s.chip.grp.size = 0 → Effect (.pgMainGood) s
        ({ regs := [(⟨DRG_RAIL_PG.MAIN, 0⟩, 1)] }))
      ∧ (s.chip.inDown = true → s.chip.on DRG_SEQ_CFG.PG_MAIN_EN 0 = true → s.chip.on DRG_RAIL_PG.MAIN 0 = false →
          Effect (.pgMainGood) s
        ({ regs := [(⟨DRG_SEQ_EVT.MAIN_RETURN, 0⟩, 1), (⟨DRG_RAIL_PG.MAIN, 0⟩,
            1)], events := [seqEvent s.chip DRG_SEQ_EVT.MAIN_RETURN 0x2D] }))
      ∧ (s.chip.alone = true → s.chip.seqState = sqOFF → s.chip.on DRG_SEQ_STAT.UP_PEND 0 = true →
          s.chip.mainOk = true → Effect (.coreCommonStart) s (coreStarted s.chip))
      ∧ (s.chip.domUp 16 = true → Effect (.pllLock) s ({ seq := some { s.chip.seq with cardLock := true } }))
      ∧ (∀ (k : Fin 20) (calOk : Bool) (cells : List CellReading), (k.val = 18 ∨ k.val = 19) →
          s.chip.domReady k = true → Effect (.domainUp k calOk cells) s
        ({ regs := [(⟨DRG_DOM_STAT.UP, 0⟩, s.chip.withBit DRG_DOM_STAT.UP 0 k true)] }))
      ∧ (∀ (calOk : Bool) (cells : List CellReading), s.chip.domReady 17 = true → Effect (.domainUp 17 calOk cells) s
        ({ regs := [(⟨DRG_AGE_STAT.MEAS_REQ, 0⟩, 0), (⟨DRG_AGE_STAT.MEAS_BUSY, 0⟩, 1),
             (⟨DRG_DOM_STAT.UP, 0⟩, s.chip.withBit DRG_DOM_STAT.UP 0 17 true)],
           wear := some { s.chip.wear with measRun := true } })))
  ∧ (∀ (i : RailId) (s : State), s.Still →
      (((s.chip.seqState = sqCORE ∧ i.val < 4) ∨ (s.chip.seqState = sqPLAN ∧ s.chip.seq.planRails.contains i.val = true)) →
          s.chip.railEn i = false → s.chip.seq.judged.contains i.val = false → Effect (.enRise i) s
        (railOn s.chip i))
      ∧ ((i.val = 3 ∨ 20 ≤ i.val) → s.chip.railEn i = true → s.chip.railPg i = false → s.chip.inDown = false →
          s.chip.seqState ≠ sqCORE → s.chip.seqState ≠ sqPLAN → s.chip.seq.retrying.contains i.val = false →
          Effect (.railGood i) s
        ({ regs := [(⟨DRG_RAIL_FAIL.RAIL, 0⟩, s.chip.withBit DRG_RAIL_FAIL.RAIL 0 i false),
             (⟨DRG_RAIL_PG.RAIL, 0⟩, s.chip.withBit DRG_RAIL_PG.RAIL 0 i true)],
           seq := some { s.chip.seq with
             retryWait := s.chip.seq.retryWait.filter (fun r => decide (r ≠ i.val)),
             retrying := s.chip.seq.retrying.filter (fun r => decide (r ≠ i.val)),
             bmonLate := s.chip.seq.bmonLate.filter (fun b => decide (4 + b ≠ i.val)),
             judged := if s.chip.seq.judged.contains i.val = true then s.chip.seq.judged else s.chip.seq.judged ++ [i.val] } }))
      ∧ (s.chip.railPg i = false → s.chip.inDown = false → s.chip.seqState ≠ sqCORE → s.chip.seqState ≠ sqPLAN →
          s.chip.RetryLeft i → Effect (.pgTmo i) s
        ((railFailed s.chip i DRG_SEQ_EVT.NO_PG).plus { events := [⟨railSource i false, railUnit i, s.chip.railDetail i,
            false⟩] })))

/-- PG_MAIN is lost on a device that runs and has nothing to stop: a shutdown starts, and with AUTO_UP a power-up is
pending. An AUX rail is lost: its enable drops, FAIL and RAIL_LOST set with source 0x2B, and it waits for its retry;
the loss of a bank rail also takes its domain down and reports 0x21. The off start enters RAILS_OFF; an enable drops
when its delay has passed; the core off start marks the core rails. When the last enable has dropped the sequencer is
in TOFF_WAIT with DOWN_DONE. A PG that stays high or rises with its enable low is reported with source 0x2D. TOFF ends
in OFF. A waiting retry powers its rail up. Nothing else of the block changes. (R328, R329, R337, R338, R339, R341,
R343, R344, R345) -/
def Obligations.PowerDown : Prop :=
  (∀ (s : State), s.Still →
      (s.chip.on DRG_RAIL_PG.MAIN 0 = true → s.chip.on DRG_SEQ_CFG.PG_MAIN_EN 0 = true → s.chip.canDown = true →
          s.chip.AtRest → Effect (.pgMainLost) s
        ((quiesced s.chip).plus { regs := (if s.chip.on DRG_SEQ_CFG.AUTO_UP 0 = true then [(⟨DRG_SEQ_STAT.UP_PEND, 0⟩,
            1)] else [])
           ++ [(⟨DRG_RAIL_PG.MAIN, 0⟩, 0)] }))
      ∧ (s.chip.seqState = sqQUIESCE → (∀ b ∈ List.range 16, s.chip.domUp b = false) → Effect (.offStart) s
        ({ regs := seqRegs sqRAILSOFF, seq := some { s.chip.seq with coreOff := false } }))
      ∧ (∀ (b : BankId), s.chip.seqState = sqQUIESCE → s.chip.domUp b = true →
          (∀ k ∈ List.range 16, k = b.val ∨ s.chip.domUp k = false) → s.chip.SlotsOut b →
          Effect (.offStart) s
        ((bankDown s.chip b).plus { regs := seqRegs sqRAILSOFF, seq := some { s.chip.seq with coreOff := false } }))
      ∧ (s.chip.seqState = sqRAILSOFF → s.chip.seq.coreOff = false →
          (∀ k ∈ ([16, 17, 18, 19] : List Nat), s.chip.domUp k = false) → s.chip.get DRG_RAIL_EN.RAIL 0 ≠ 0 →
          Effect (.coreOffStart) s ({ seq := some { s.chip.seq with coreOff := true } }))
      ∧ (s.chip.seqState = sqTOFFWAIT → s.chip.on DRG_SEQ_STAT.COLD_PEND 0 = false → s.chip.seq.reducedNext = false →
          s.chip.grp.size = 0 → Effect (.toffExpiry) s ({ regs := seqRegs sqOFF }))
      ∧ (s.chip.seqState = sqTOFFWAIT → s.chip.on DRG_SEQ_STAT.COLD_PEND 0 = false → s.chip.seq.reducedNext = true →
          Effect (.toffExpiry) s
        ({ regs := (⟨DRG_SEQ_EVT.REDUCED_IN, 0⟩, 1) :: seqRegs sqREDUCED, seq := some { s.chip.seq with reducedNext := false },
           events := [seqEvent s.chip DRG_SEQ_EVT.REDUCED_IN 0x2E] })))
  ∧ (∀ (i : RailId) (s : State), s.Still →
      (20 ≤ i.val → s.chip.railPg i = true → s.chip.seqState = sqRUNNING → s.chip.RetryLeft i →
          s.chip.pmb.bel.phase = .none → Effect (.railLost i) s
        ((railFailed s.chip i DRG_SEQ_EVT.RAIL_LOST).plus { events := [⟨0x2B, i, s.chip.railDetail i, false⟩] }))
      ∧ (∀ (b : BankId), i.val = 4 + b.val → s.chip.railPg i = true → s.chip.seqState = sqRUNNING →
          s.chip.RetryLeft i → s.chip.pmb.bel.phase = .none → s.chip.domUp b = true → s.chip.SlotsOut b →
          Effect (.railLost i) s
        (((railFailed s.chip i DRG_SEQ_EVT.RAIL_LOST).plus (bankDown s.chip b)).plus
           { events := [⟨0x21, b, s.chip.railDetail i, false⟩] }))
      ∧ (s.chip.seqState = sqRAILSOFF → (4 ≤ i.val ∨ s.chip.seq.coreOff = true) → s.chip.railEn i = true →
          (s.chip.seq.coreOff = false ∨ s.chip.withBit DRG_RAIL_EN.RAIL 0 i false ≠ 0) → Effect (.enDrop i) s
        ({ regs := [(⟨DRG_RAIL_PG.RAIL, 0⟩, s.chip.withBit DRG_RAIL_PG.RAIL 0 i false),
             (⟨DRG_RAIL_EN.RAIL, 0⟩, s.chip.withBit DRG_RAIL_EN.RAIL 0 i false)],
           seq := some { s.chip.seq with powered := s.chip.seq.powered.filter (fun k => decide (4 + k ≠ i.val)) },
           out := [.rail i false] }))
      ∧ (s.chip.seqState = sqRAILSOFF → s.chip.seq.coreOff = true → s.chip.railEn i = true →
          s.chip.withBit DRG_RAIL_EN.RAIL 0 i false = 0 → Effect (.enDrop i) s
        ({ regs := (⟨DRG_SEQ_EVT.DOWN_DONE, 0⟩, 1) :: seqRegs sqTOFFWAIT ++ [(⟨DRG_RAIL_PG.RAIL, 0⟩,
            s.chip.withBit DRG_RAIL_PG.RAIL 0 i false),
             (⟨DRG_RAIL_EN.RAIL, 0⟩, 0)],
           seq := some { s.chip.seq with powered := s.chip.seq.powered.filter (fun k => decide (4 + k ≠ i.val)) },
           out := [.rail i false] }))
      ∧ (s.chip.railEn i = false → Effect (.stuckOn i) s
        ({ regs := [(⟨DRG_SEQ_EVT.STUCK_ON, 0⟩, 1)], events := [seqEvent s.chip DRG_SEQ_EVT.STUCK_ON 0x2D] }))
      ∧ (s.chip.railEn i = false → Effect (.pgUnexp i) s
        ({ regs := [(⟨DRG_SEQ_EVT.PG_UNEXP, 0⟩, 1)], events := [seqEvent s.chip DRG_SEQ_EVT.PG_UNEXP 0x2D] }))
      ∧ (s.chip.seq.retryWait.contains i.val = true → s.chip.railEn i = false → 1 ≤ s.chip.seqState →
          s.chip.seqState ≤ 4 → Effect (.railRetryStart i) s
        ({ railOn s.chip i with
           seq := some { s.chip.seq with
             retryWait := s.chip.seq.retryWait.filter (fun r => decide (r ≠ i.val)), retrying := s.chip.seq.retrying
                 ++ [i.val] } })))

/-- A poll asks every mapped regulator whose poll does not wait already for STATUS_WORD, after PAGE where it has one. A
transaction on the bus that is answered in form makes way for the next one: a poll clears UNREACH, and bits other than
BUSY set WARN with source 0x2F; VOUT_MODE is remembered. One that fails is sent again up to three times; then the
entry's transactions are dropped, a setpoint of AVS not taken leaves the previous one, and UNREACH sets with source
0x2F. GO that meets conditions 1 to 5 of R349 asks for VOUT_MODE and VOUT_COMMAND, else it is refused with the reason;
on VCORE it suspends AVS and derates both domains. With VOUT_COMMAND read, a target inside the rail's release
thresholds is written with OPERATION; outside, the margin is refused with reason 6. The rounding of the target, the
linear format (after PMBus, presumed) and a free target in another format are the model's choices (log entries 16 and
24). The target set, the dwell starts; at its end READ_VOUT is asked for and OPERATION 0x80 written; the write done,
the margin is DONE. STOP ends a margin with ABORTED and reason 7. Nothing else of the block changes. (R30, R34, R347,
R348, R349, R350, R351, R369, R370) -/
def Obligations.PmbusAndBellows : Prop :=
  (∀ (s : State), s.Still →
      (s.chip.seq.linkLock = true → Effect (.pmbusPoll) s
        (pmbWaits s.chip (((List.range 24).filter (fun j => s.chip.on DRG_PMB_MAP.VALID j
             && !s.chip.pmb.txs.any (fun t => decide (t.entry = j) && decide (t.cmd = 0x79)))).flatMap
           (fun j => s.chip.pmbPaged (pmbGet j 0x79 2)))))
      ∧ (s.chip.pmb.bel.phase = .setting → Effect (.marginSet) s
        ({ (pmbDropped s.chip s.chip.pmb.bel.entry).margin s.chip { s.chip.pmb.bel with phase := .dwell } with regs := [(⟨DRG_BEL_STAT.STATE, 0⟩, 2)] }))
      ∧ (∀ (vout : Nat), s.chip.pmb.bel.phase = .dwell → Effect (.dwellEnd vout) s
        ({ (pmbWaits s.chip ([pmbGet s.chip.pmb.bel.entry 0x8B 2,
            pmbPut s.chip.pmb.bel.entry 0x01 [0x80]].flatMap s.chip.pmbPaged)).margin s.chip
             { s.chip.pmb.bel with phase := .restoring } with
           regs := [(⟨DRG_BEL_STAT.STATE, 0⟩, 3), (⟨DRG_BEL_STAT.REMAIN, 0⟩, 0), (⟨DRG_BEL_RES.VOUT_RAW, 0⟩, vout % 2 ^ 16)] }))
      ∧ (s.chip.pmb.bel.phase = .restoring → Effect (.marginRestored) s
        ({ (pmbDropped s.chip s.chip.pmb.bel.entry).margin s.chip { s.chip.pmb.bel with phase := .none } with
           regs := (⟨DRG_BEL_STAT.STATE, 0⟩, 4) :: (if s.chip.pmb.bel.rail = 1 then [(⟨DRG_AVS_STAT.SUSPENDED, 0⟩,
               0)] else []) })))
  ∧ (∀ (j : RailId) (t : PmbTx) (rest : List PmbTx) (res : PmbResult) (s : State), s.Still →
      (∀ (data : List Byte), s.chip.pmb.txs = t :: rest → t.entry = j.val → s.chip.pmbAnswer t res = some data →
          t.cmd = 0x79 → leNat data - (if (leNat data).testBit 7 = true then 128 else 0) = 0 →
          Effect (.pmbusTransactionEnd j res) s
        ({ pmbLeft s.chip rest 0 with regs := [(⟨DRG_PMB_STAT.ENTRY, 0⟩, s.chip.withBit DRG_PMB_STAT.ENTRY 0 j false)] }))
      ∧ (∀ (data : List Byte), s.chip.pmb.txs = t :: rest → t.entry = j.val → s.chip.pmbAnswer t res = some data →
          t.cmd = 0x79 → leNat data - (if (leNat data).testBit 7 = true then 128 else 0) ≠ 0 →
          Effect (.pmbusTransactionEnd j res) s
        ({ pmbLeft s.chip rest 0 with
           regs := [(⟨DRG_PMB_WARN.ENTRY, 0⟩, s.chip.withBit DRG_PMB_WARN.ENTRY 0 j true),
             (⟨DRG_PMB_STAT.ENTRY, 0⟩, s.chip.withBit DRG_PMB_STAT.ENTRY 0 j false)],
           events := [⟨0x2F, j, s.chip.withBit DRG_PMB_WARN.ENTRY 0 j true, false⟩] }))
      ∧ (∀ (data : List Byte), s.chip.pmb.txs = t :: rest → t.entry = j.val → s.chip.pmbAnswer t res = some data →
          t.cmd = 0x20 → Effect (.pmbusTransactionEnd j res) s
        ({ pmbLeft s.chip rest 0 with
           pmb := some { s.chip.pmb with txs := rest, fails := 0, modes := tabPut id 0 s.chip.pmb.modes j (leNat data) } }))
      ∧ (∀ (data : List Byte), s.chip.pmb.txs = t :: rest → t.entry = j.val → s.chip.pmbAnswer t res = some data →
          t.cmd ≠ 0x79 → t.cmd ≠ 0x20 → (t.cmd ≠ 0x21 ∨ t.read ≠ 2 ∨ s.chip.pmb.bel.phase ≠ .reading) →
          Effect (.pmbusTransactionEnd j res) s (pmbLeft s.chip rest 0))
      ∧ (∀ (data : List Byte) (num den target : Nat), s.chip.pmb.txs = t :: rest → t.entry = j.val →
          s.chip.pmbAnswer t res = some data → t.cmd = 0x21 → t.read = 2 → s.chip.pmb.bel.phase = .reading →
          target = marginTarget (leNat data) (s.chip.get DRG_PMB_MAP.MARGIN s.chip.pmb.bel.entry) s.chip.pmb.bel.dir →
          voutMv (tabGet 0 s.chip.pmb.modes s.chip.pmb.bel.entry) target = some (num, den) →
          s.chip.insideRail s.chip.pmb.bel.rail num den = true → Effect (.pmbusTransactionEnd j res) s
        ((pmbLeft s.chip rest 0).plus
           ((pmbWaits { s.chip with pmb := { s.chip.pmb with txs := rest, fails := 0 } }
               ([pmbPut s.chip.pmb.bel.entry (if s.chip.pmb.bel.dir = 2 then 0x25 else 0x26) (leBytes 2 target),
                 pmbPut s.chip.pmb.bel.entry 0x01 [if s.chip.pmb.bel.dir = 2 then 0xA8 else 0x98]].flatMap s.chip.pmbPaged)).margin s.chip
             { s.chip.pmb.bel with phase := .setting })))
      ∧ (∀ (data : List Byte) (target : Nat), s.chip.pmb.txs = t :: rest → t.entry = j.val →
          s.chip.pmbAnswer t res = some data → t.cmd = 0x21 → t.read = 2 → s.chip.pmb.bel.phase = .reading →
          target = marginTarget (leNat data) (s.chip.get DRG_PMB_MAP.MARGIN s.chip.pmb.bel.entry) s.chip.pmb.bel.dir →
          voutMv (tabGet 0 s.chip.pmb.modes s.chip.pmb.bel.entry) target = none →
          Effect (.pmbusTransactionEnd j res) s
        (if Config.freeNat s.chip.free % 2 = 0 then
           (pmbLeft s.chip rest 0).plus
           { (pmbWaits { s.chip with pmb := { s.chip.pmb with txs := rest, fails := 0 } }
               ([pmbPut s.chip.pmb.bel.entry (if s.chip.pmb.bel.dir = 2 then 0x25 else 0x26) (leBytes 2 (Config.freeNat s.chip.free / 2 % 65536)),
                 pmbPut s.chip.pmb.bel.entry 0x01 [if s.chip.pmb.bel.dir = 2 then 0xA8 else 0x98]].flatMap s.chip.pmbPaged)).margin s.chip
             { s.chip.pmb.bel with phase := .setting } with free := some (s.chip.free + 1) }
         else
           { (pmbLeft s.chip rest 0).margin s.chip { s.chip.pmb.bel with phase := .none } with
             regs := (⟨DRG_BEL_STAT.REASON, 0⟩, 6) :: (⟨DRG_BEL_STAT.STATE, 0⟩, 5)
               :: (if s.chip.pmb.bel.rail = 1 then [(⟨DRG_AVS_STAT.SUSPENDED, 0⟩, 0)] else []),
             free := some (s.chip.free + 1) }))
      ∧ (∀ (data : List Byte) (num den : Nat), s.chip.pmb.txs = t :: rest → t.entry = j.val →
          s.chip.pmbAnswer t res = some data → t.cmd = 0x21 → t.read = 2 → s.chip.pmb.bel.phase = .reading →
          voutMv (tabGet 0 s.chip.pmb.modes s.chip.pmb.bel.entry)
            (marginTarget (leNat data) (s.chip.get DRG_PMB_MAP.MARGIN s.chip.pmb.bel.entry) s.chip.pmb.bel.dir) = some (num,
                den) →
          s.chip.insideRail s.chip.pmb.bel.rail num den = false → Effect (.pmbusTransactionEnd j res) s
        ({ (pmbLeft s.chip rest 0).margin s.chip { s.chip.pmb.bel with phase := .none } with
           regs := (⟨DRG_BEL_STAT.REASON, 0⟩, 6) :: (⟨DRG_BEL_STAT.STATE, 0⟩, 5)
             :: (if s.chip.pmb.bel.rail = 1 then [(⟨DRG_AVS_STAT.SUSPENDED, 0⟩, 0)] else []) })))
  ∧ (∀ (j : RailId) (t : PmbTx) (rest : List PmbTx) (res : PmbResult) (s : State), s.Still →
      s.chip.pmb.txs = t :: rest → t.entry = j.val → s.chip.pmbAnswer t res = none →
      (s.chip.pmb.fails < 3 → Effect (.pmbusTransactionEnd j res) s
        (pmbLeft s.chip s.chip.pmb.txs (s.chip.pmb.fails + 1)))
      ∧ (∀ (undo : Option Nat), 3 ≤ s.chip.pmb.fails → (s.chip.pmb.bel.phase = .none ∨ s.chip.pmb.bel.entry ≠ j.val) →
          undo = (s.chip.pmb.txs.filterMap (fun t => if t.entry = j.val then t.undo else none)).head? →
          Effect (.pmbusTransactionEnd j res) s
        ({ pmbLeft s.chip (s.chip.pmb.txs.filter (fun t => decide (t.entry ≠ j.val))) 0 with
           regs := (⟨DRG_PMB_STAT.ENTRY, 0⟩, s.chip.withBit DRG_PMB_STAT.ENTRY 0 j true)
             :: (match undo with | some v => [(⟨DRG_AVS_STAT.VSET, 0⟩, v % 2 ^ DRG_AVS_STAT.VSET.width)] | none => []),
           wear := match undo with | some v => some { s.chip.wear with writePend := true, vset := v } | none => none,
           events := if s.chip.bit DRG_PMB_STAT.ENTRY 0 j = true then [] else [⟨0x2F, j,
               s.chip.withBit DRG_PMB_STAT.ENTRY 0 j true, false⟩] })))
  ∧ (∀ (p : Path) (s : State), s.Takes p blkDRG true →
      (∀ (dir entry dwell rail : Nat), dir < 4 → entry < 24 → dwell < 65536 → s.chip.bellowsReason dir entry = 0 →
          rail = s.chip.get DRG_PMB_MAP.RAIL entry → Effect (.bellowsGo p dir entry dwell) s
        ({ (pmbWaits s.chip ([pmbGet entry 0x20 1, pmbGet entry 0x21 2].flatMap s.chip.pmbPaged)).margin s.chip
             ⟨.reading, entry, rail, min 60000 (max 1 dwell), dir⟩ with
           regs := (if rail = 1 then [(⟨DRG_AVS_STAT.DER17, 0⟩, max 1 (s.chip.get DRG_AVS_STAT.DER17 0)),
               (⟨DRG_AVS_STAT.DER16, 0⟩, max 1 (s.chip.get DRG_AVS_STAT.DER16 0)), (⟨DRG_AVS_STAT.SUSPENDED, 0⟩, 1)] else [])
             ++ [(⟨DRG_BEL_RES.MON_EVT, 0⟩, 0), (⟨DRG_BEL_STAT.REMAIN, 0⟩, min 60000 (max 1 dwell)), (⟨DRG_BEL_STAT.ENTRY, 0⟩,
                 entry),
               (⟨DRG_BEL_STAT.REASON, 0⟩, 0), (⟨DRG_BEL_STAT.STATE, 0⟩, 1)],
           events := if rail = 1 then
             (if s.chip.get DRG_AVS_STAT.DER16 0 = 0 then [⟨0x0C, 16, 0, false⟩] else [])
               ++ (if s.chip.get DRG_AVS_STAT.DER17 0 = 0 then [⟨0x0C, 17, 0, false⟩] else []) else [] }))
      ∧ (∀ (dir entry dwell reason : Nat), dir < 4 → entry < 32 → reason = s.chip.bellowsReason dir entry →
          reason ≠ 0 → Effect (.bellowsGo p dir entry dwell) s
        ({ regs := [(⟨DRG_BEL_STAT.REASON, 0⟩, reason), (⟨DRG_BEL_STAT.STATE, 0⟩, 5)] }))
      ∧ (∀ (j : Nat), s.chip.pmb.bel.phase ≠ .none → s.chip.pmb.bel.phase ≠ .reading → j = s.chip.pmb.bel.entry →
          Effect (.bellowsStop p) s
        ({ (((pmbDropped s.chip j).plus
               (pmbWaits { s.chip with pmb := (pmbDropped s.chip j).pmb.getD s.chip.pmb } (s.chip.pmbPaged (pmbPut j 0x01 [0x80])))).margin s.chip
             { s.chip.pmb.bel with phase := .none }) with
           regs := (⟨DRG_BEL_STAT.REASON, 0⟩, 7) :: (⟨DRG_BEL_STAT.STATE, 0⟩, 6)
             :: (if s.chip.pmb.bel.rail = 1 then [(⟨DRG_AVS_STAT.SUSPENDED, 0⟩, 0)] else []) }))
      ∧ (s.chip.pmb.bel.phase = .reading → Effect (.bellowsStop p) s
        ({ (pmbDropped s.chip s.chip.pmb.bel.entry).margin s.chip { s.chip.pmb.bel with phase := .none } with
           regs := (⟨DRG_BEL_STAT.REASON, 0⟩, 7) :: (⟨DRG_BEL_STAT.STATE, 0⟩, 6)
             :: (if s.chip.pmb.bel.rail = 1 then [(⟨DRG_AVS_STAT.SUSPENDED, 0⟩, 0)] else []) })))

/-- In a group of two whose link is up and has room, a device in OFF or WAIT_START sends HELLO, a device that waits for a
stage sends JOIN_REQ and remembers that it asked, every heartbeat period sends HEARTBEAT and starts the count of the
frames heard over, and LIVE_NOTICE carries the live bits of the local slots. When a wait is over the supervisor sends
START for the devices heard, or ready, and its strobe is due. It drives SEQ_SYNC for a START that names only the other
device. Nothing else of the block changes. (R250, R352, R353, R354, R399, R472, R473, R474, R477) -/
def Obligations.GroupFramesOut : Prop :=
  (∀ (k : Nat) (s : State), s.Still → s.chip.Pair k .seq →
      ((s.chip.seqState = sqOFF ∨ s.chip.seqState = sqWAITSTART) → Effect (.helloTx) s
        (frameSent s.chip k .seq 1 ([s.chip.grp.dev, s.chip.seqState, s.chip.kln.baseOn.toNat].map (BitVec.ofNat 8))))
      ∧ (∀ (st : Nat), s.chip.orphan = false → s.chip.get DRG_GRP_STAT.SUP_DEV 0 ≠ s.chip.grp.dev →
          ((st = 1 ∧ s.chip.seqState = sqWAITSTART) ∨ (st = 2 ∧ s.chip.seqState = sqWAITIMAGE ∧ s.chip.kln.baseOn = true)) →
          Effect (.joinReqTx) s
        ({ frameSent s.chip k .seq 5 ([BitVec.ofNat 8 st]) with grp := some { s.chip.grp with joinAsked := true } }))
      ∧ (s.chip.isSup = true → s.chip.grp.stage1Sent = false → s.chip.seqState = sqWAITSTART →
          Effect (.grpWaitExpiry) s
        ({ frameSent s.chip k .seq 2 ([1, s.chip.heardMask].map (BitVec.ofNat 8)) with
           grp := some { s.chip.grp with
             startStage := 1, startMask := s.chip.heardMask, strobeDue := true, startJoin := false, stage1Sent := true,
             named := s.chip.grp.named ||| s.chip.heardMask } }))
      ∧ (∀ (m : Nat), s.chip.isSup = true → s.chip.grp.stage1Sent = true → s.chip.grp.stage2Sent = false →
          s.chip.grp.strobeDue = false →
          m = (((List.range 4).filter (fun d => s.chip.grp.named.testBit d)).filter (fun d => s.chip.grp.ready.contains d)).foldl (fun m d => m ||| 2 ^ d) 0 →
          Effect (.stage2WaitExpiry) s
        ({ frameSent s.chip k .seq 2 ([2, m].map (BitVec.ofNat 8)) with
           grp := some { s.chip.grp with startStage := 2, startMask := m, strobeDue := true, startJoin := false, stage2Sent := true } })))
  ∧ (∀ (k : Nat) (s : State), s.Still → s.chip.Pair k .fault →
      (Effect (.heartbeatTx) s
        ({ frameSent s.chip k .fault 1 ([BitVec.ofNat 8 s.chip.grp.dev,
            BitVec.ofNat 8 (s.chip.safe.toNat + 2 * s.chip.orphan.toNat)]) with
           ash := some { s.chip.ash with
             hbRun := s.chip.ash.hbRun.filter (fun p => s.chip.ash.hbSeen.contains p.1), hbSeen := [] } }))
      ∧ (Effect (.liveNoticeTx) s (frameSent s.chip k .fault 2 (s.chip.liveBytes))))
  ∧ (∀ (s : State), s.Still →
      (s.chip.isSup = true → s.chip.grp.strobeDue = true → s.chip.grp.startMask.testBit s.chip.grp.dev = false →
          s.chip.grp.joins = [] → Effect (.seqSyncDrive) s
        ({ regs := (if s.chip.grp.startJoin = true then [(⟨DRG_GRP_EVT.LATE_JOIN, 0⟩, 1)] else []) ++ [(⟨DRG_GRP_EVT.STROBE_TX,
            0⟩, 1)],
           grp := some { s.chip.grp with strobeDue := false, startJoin := false }, out := [.seqSync] }))
      ∧ (s.chip.isSup = true → s.chip.grp.strobeDue = true → s.chip.grp.startStage = 1 →
          s.chip.grp.startJoin = false → s.chip.grp.startMask.testBit s.chip.grp.dev = true →
          s.chip.seqState = sqWAITSTART → s.chip.on DRG_SEQ_STAT.UP_PEND 0 = true → s.chip.mainOk = true →
          s.chip.grp.joins = [] → Effect (.seqSyncDrive) s
        ({ coreStarted s.chip with
           regs := (coreStarted s.chip).regs ++ [(⟨DRG_GRP_EVT.STROBE_TX, 0⟩, 1)],
           grp := some { s.chip.grp with strobeDue := false, startJoin := false }, out := [.seqSync] })))

/-- A frame of a device heard before in the period, on a link that is up and from a peer not declared lost, is
acknowledged and the device counts as heard. HELLO does no more once stage 1 was sent; START arms the device;
STAGE_DONE of stage 2 completes the start of its sender, of stage 1 with its image makes it ready; DOWN_NOTICE
declares the peer lost; JOIN_REQ waits while a strobe is due; SUPERVISE names the supervisor. An edge 100 µs to 2 ms
after a START that names the device is its common start; after one that does not, it only tells the device that the
stage has started. A slave that hears no master in time becomes an orphan. Nothing else of the block changes. (R250,
R352, R354, R355, R356, R399, R474, R477) -/
def Obligations.GroupFramesIn : Prop :=
  (∀ (d : DevId) (k : Nat) (s : State), s.Still → s.chip.Hears d → k = s.chip.kzFor d →
      (s.chip.grp.stage1Sent = true → Effect (.helloRx d) s
        ({ frameAccepted s.chip k .seq with
           regs := [(⟨DRG_GRP_STAT.PRESENT, 0⟩, s.chip.withBit DRG_GRP_STAT.PRESENT 0 d true)],
           grp := some { s.chip.grp with heardMaster := s.chip.grp.heardMaster || decide (d.val = 0) } }))
      ∧ (∀ (stage mask : Nat), d.val = s.chip.get DRG_GRP_STAT.SUP_DEV 0 → Effect (.startRx stage mask) s
        ({ frameAccepted s.chip k .seq with
           regs := [(⟨DRG_GRP_STAT.PRESENT, 0⟩, s.chip.withBit DRG_GRP_STAT.PRESENT 0 d true)],
           grp := some { s.chip.grp with
             heardMaster := s.chip.grp.heardMaster || decide (d.val = 0),
             rxStage := stage % 256, rxMask := mask % 16,
             named := if stage % 256 = 1 then s.chip.grp.named ||| mask % 16 else s.chip.grp.named } }))
      ∧ (∀ (image : Bool), Effect (.stageDoneRx d 2 image) s
        ({ frameAccepted s.chip k .seq with
           regs := [(⟨DRG_GRP_STAT.JOINED, 0⟩, s.chip.withBit DRG_GRP_STAT.JOINED 0 d true), (⟨DRG_GRP_STAT.PRESENT, 0⟩,
               s.chip.withBit DRG_GRP_STAT.PRESENT 0 d true)],
           grp := some { s.chip.grp with heardMaster := s.chip.grp.heardMaster || decide (d.val = 0) } }))
      ∧ (s.chip.isSup = false → Effect (.stageDoneRx d 1 true) s
        ({ frameAccepted s.chip k .seq with
           regs := [(⟨DRG_GRP_STAT.PRESENT, 0⟩, s.chip.withBit DRG_GRP_STAT.PRESENT 0 d true)],
           grp := some { s.chip.grp with
             heardMaster := s.chip.grp.heardMaster || decide (d.val = 0),
             ready := if s.chip.grp.ready.contains d.val = true then s.chip.grp.ready else s.chip.grp.ready ++ [d.val] } }))
      ∧ (∀ (trigger : Nat), s.chip.PeerIdle d → Effect (.downNoticeRx d trigger) s
        ({ peerGone s.chip d with
           regs := (⟨DRG_GRP_STAT.PRESENT, 0⟩, s.chip.withBit DRG_GRP_STAT.PRESENT 0 d true) :: (peerGone s.chip d).regs,
           kz := [(k, { unkeyed (s.chip.kzOf k) with
             unacked := [], txq := [], fwds := [], inbound := [],
             rxSeq := tabPut id 0 (s.chip.kzOf k).rxSeq 0 ((tabGet 0 (s.chip.kzOf k).rxSeq 0 + 1) % 256) })],
           grp := some { s.chip.grp with heardMaster := s.chip.grp.heardMaster || decide (d.val = 0) },
           out := [s.chip.kzAck k .seq (tabGet 0 (s.chip.kzOf k).rxSeq 0) false] }))
      ∧ (∀ (stage : Nat), (stage = 1 ∨ stage = 2) → s.chip.isSup = true → s.chip.grp.strobeDue = true →
          Effect (.joinReqRx d stage) s
        ({ frameAccepted s.chip k .seq with
           regs := [(⟨DRG_GRP_STAT.PRESENT, 0⟩, s.chip.withBit DRG_GRP_STAT.PRESENT 0 d true)],
           grp := some { s.chip.grp with
             heardMaster := s.chip.grp.heardMaster || decide (d.val = 0),
             joins := s.chip.grp.joins ++ [(d.val, stage)] } }))
      ∧ (s.chip.orphan = false → Effect (.superviseRx d) s
        ({ frameAccepted s.chip k .seq with
           regs := [(⟨DRG_GRP_EVT.SUP_TAKEN, 0⟩, 1), (⟨DRG_GRP_STAT.SUP_DEV, 0⟩, d), (⟨DRG_GRP_STAT.PRESENT, 0⟩,
               s.chip.withBit DRG_GRP_STAT.PRESENT 0 d true)],
           grp := some { s.chip.grp with heardMaster := s.chip.grp.heardMaster || decide (d.val = 0) },
           events := [⟨0x4B, d, (s.chip.flag DRG_GRP_EVT.SUP_TAKEN 0 true).word .DRG_GRP_EVT 0, false⟩] })))
  ∧ (∀ (s : State), s.Still →
      (∀ (elapsed : Nat), s.chip.alone = false → s.chip.isSup = false → 100 ≤ elapsed → elapsed ≤ 2000 →
          s.chip.grp.rxMask.testBit s.chip.grp.dev = true → s.chip.grp.rxStage = 1 → s.chip.grp.joinAsked = false →
          s.chip.seqState = sqWAITSTART → s.chip.on DRG_SEQ_STAT.UP_PEND 0 = true → s.chip.mainOk = true →
          Effect (.seqSyncEdge elapsed) s
        ({ coreStarted s.chip with
           regs := (coreStarted s.chip).regs ++ [(⟨DRG_GRP_EVT.STROBE_RX, 0⟩, 1)],
           grp := some { s.chip.grp with rxMask := 0, joinAsked := false, stage1Sent := true } }))
      ∧ (∀ (elapsed : Nat), s.chip.alone = false → s.chip.isSup = false → 100 ≤ elapsed → elapsed ≤ 2000 →
          s.chip.grp.rxMask ≠ 0 → s.chip.grp.rxMask.testBit s.chip.grp.dev = false →
          Effect (.seqSyncEdge elapsed) s
        ({ grp := some { s.chip.grp with
             rxMask := 0, stage1Sent := s.chip.grp.stage1Sent || decide (s.chip.grp.rxStage = 1),
             stage2Sent := s.chip.grp.stage2Sent || decide (s.chip.grp.rxStage = 2) } }))
      ∧ (∀ (elapsed : Nat),
          (s.chip.alone = true ∨ s.chip.isSup = true ∨ elapsed < 100 ∨ 2000 < elapsed ∨ s.chip.grp.rxMask = 0) →
          Effect (.seqSyncEdge elapsed) s ({}))
      ∧ (s.chip.grp.size ≠ 0 → s.chip.grp.dev ≠ 0 → s.chip.orphan = false → s.chip.grp.heardMaster = false →
          s.chip.seqState ≠ sqWAITSTART → s.chip.seqState ≠ sqWAITIMAGE → Effect (.orphanTimer) s
        ({ regs := [(⟨DRG_GRP_EVT.ORPHAN_IN, 0⟩, 1), (⟨DRG_GRP_STAT.ORPHAN, 0⟩, 1)],
           events := [⟨0x4B, s.chip.grp.dev, (s.chip.flag DRG_GRP_EVT.ORPHAN_IN 0 true).word .DRG_GRP_EVT 0, false⟩] })))

/-- A heartbeat of another device of the group, on a link that is up, is acknowledged. The first valid frame of the device
in this period counts one period more for it, a later one changes nothing else. The third period in a row makes a
device that is not present, and one that the loss of CK_LINK lock fenced (the model's choice, log entry 32), present
again with source 0x4A, unless a forced fence of it is held. A frame of the device itself, of a device outside the
group, or on a link that is not up changes nothing. A present peer that misses its periods is declared lost with
source 0x49, its link unkeyed and empty, its live bits 0; the statement is about a peer that does not supervise and
has no remote leg under way. A miss of a device that is not present changes nothing. Nothing else of the block
changes. (R250, R379, R399, R471, R476, R477) -/
def Obligations.Heartbeats : Prop :=
  (∀ (d : DevId) (k n : Nat) (s : State), s.Still → k = s.chip.kzFor d → n = tabGet 0 s.chip.ash.hbRun d.val + 1 →
      (∀ (back : Bool), d.val ≠ s.chip.grp.dev → d.val ≤ s.chip.grp.size → s.chip.on DRG_KZ_STAT.INIT_OK k = true →
          s.chip.ash.hbSeen.contains d.val = false →
          back = (!s.chip.forcedHeld 4 d && (decide (3 ≤ n) && !s.chip.ash.present.contains d.val)) →
          Effect (.heartbeatRx d) s
        ({ frameAccepted s.chip k .fault with
           ash := some { s.chip.ash with
             hbSeen := s.chip.ash.hbSeen ++ [d.val], hbRun := tabPut id 0 s.chip.ash.hbRun d n,
             present := s.chip.ash.present ++ (if back = true then [d.val] else []) },
           events := if back = true ∨ (s.chip.forcedHeld 4 d = false ∧ n = 3 ∧ s.chip.ash.fences.any
               (fun f => decide (f.src = 8) && (match f.unit with | .peer m => decide (m.val = d) | _ => false)) = true) then [⟨0x4A, d, 0, false⟩] else [] }))
      ∧ (d.val ≠ s.chip.grp.dev → d.val ≤ s.chip.grp.size → s.chip.on DRG_KZ_STAT.INIT_OK k = true →
          s.chip.ash.hbSeen.contains d.val = true → Effect (.heartbeatRx d) s
        (frameAccepted s.chip k .fault))
      ∧ ((d.val = s.chip.grp.dev ∨ s.chip.grp.size < d.val ∨ s.chip.on DRG_KZ_STAT.INIT_OK k = false) →
          Effect (.heartbeatRx d) s ({})))
  ∧ (∀ (d : DevId) (s : State), s.Still →
      (s.chip.PeerIdle d → Effect (.heartbeatMiss d) s (peerGone s.chip d))
      ∧ (s.chip.ash.present.contains d.val = false → Effect (.heartbeatMiss d) s ({})))

/-- A used receiver that gains symbol lock sends INIT. The loss of lock ends INIT_OK and KEYED and all the state of the
link but the forwards under way. A matching INIT starts the link over with INIT_OK while keying cannot run; another
bars it with KZ_ERR 1. An ACK releases the frames of its class up to the one it names, a NAK those before the one it
expects; a NAK and a timeout send what still waits again, counted, with source 0x48. A frame that cannot be read
counts in CRC_CNT with source 0x48 and is answered with a NAK. Nothing else of the block changes. (R46, R379, R399,
R471, R472, R476, R477) -/
def Obligations.KuzaganLinks : Prop :=
  ∀ (i : KzId) (k : Nat) (s : State), s.Still → k = i.val →
      (s.chip.seq.linkLock = true → s.chip.kzUsed k = true → s.chip.on DRG_KZ_STAT.SYM_LOCK k = false →
          Effect (.symbolLock i) s ({ regs := [(⟨DRG_KZ_STAT.SYM_LOCK, k⟩, 1)], out := [s.chip.kzInit k] }))
      ∧ (s.chip.on DRG_KZ_STAT.SYM_LOCK k = true → Effect (.symbolLockLoss i) s
        ((linkDown s.chip k).plus { regs := [(⟨DRG_KZ_STAT.SYM_LOCK, k⟩, 0)] }))
      ∧ (∀ (dev size : Nat), s.chip.on DRG_KZ_STAT.SYM_LOCK k = true → s.chip.get DRG_KZ_STAT.KZ_ERR k ≠ 1 →
          dev = s.chip.peerOf k → size = s.chip.grp.size → s.chip.ash.hbSeen.contains (s.chip.peerOf k) = true →
          s.chip.domUp 16 = false → Effect (.initRx i dev size) s
        ((linkDown s.chip k).plus { regs := [(⟨DRG_KZ_STAT.INIT_OK, k⟩, 1)] }))
      ∧ (∀ (dev size : Nat), s.chip.on DRG_KZ_STAT.SYM_LOCK k = true → s.chip.get DRG_KZ_STAT.KZ_ERR k ≠ 1 →
          (dev ≠ s.chip.peerOf k ∨ size ≠ s.chip.grp.size) → Effect (.initRx i dev size) s
        ((linkDown s.chip k).plus { regs := [(⟨DRG_KZ_STAT.KZ_ERR, k⟩, 1)] }))
      ∧ (∀ (cls : KzClass) (seq : Nat), s.chip.LinkHeard k → (s.chip.kzOf k).txq = [] → Effect (.kzAckRx i cls seq) s
        ({ kz := [(k, { s.chip.kzOf k with unacked := ackUpTo cls (seq % 256) (s.chip.kzOf k).unacked })] }))
      ∧ (∀ (cls : KzClass) (f : KzFrame), s.chip.on DRG_KZ_STAT.INIT_OK k = true → cls ≠ .traffic →
          (s.chip.kzOf k).unacked.filter (fun f => decide (f.cls = cls)) = [f] →
          Effect (.kzAckTimeout i cls) s
        ({ regs := [(⟨DRG_KZ_STAT.RETRY_CNT, k⟩, s.chip.satInc DRG_KZ_STAT.RETRY_CNT k)], events := [⟨0x48, k, 0, false⟩],
           out := [kzOut k (s.chip.kzHeader k cls f.typ f.seq f.body.length f.tag) f.body] }))
      ∧ (∀ (cls : KzClass) (seq : Nat) (f : KzFrame), s.chip.LinkHeard k → cls ≠ .traffic → (s.chip.kzOf k).txq = [] →
          (ackUpTo cls ((seq % 256 + 255) % 256) (s.chip.kzOf k).unacked).filter (fun f => decide (f.cls = cls)) = [f] →
          Effect (.kzNakRx i cls seq) s
        ({ regs := [(⟨DRG_KZ_STAT.RETRY_CNT, k⟩, s.chip.satInc DRG_KZ_STAT.RETRY_CNT k)], events := [⟨0x48, k, 0, false⟩],
           kz := [(k, { s.chip.kzOf k with unacked := ackUpTo cls ((seq % 256 + 255) % 256) (s.chip.kzOf k).unacked })],
           out := [kzOut k (s.chip.kzHeader k cls f.typ f.seq f.body.length f.tag) f.body] }))
      ∧ (∀ (cls : KzClass), s.chip.on DRG_KZ_STAT.INIT_OK k = true →
          cls = (if Config.freeNat s.chip.free % 3 = 0 then .seq
            else if Config.freeNat s.chip.free % 3 = 1 then .fault else .traffic) →
          Effect (.kzInvalidFrame i) s
        ({ regs := [(⟨DRG_KZ_STAT.CRC_CNT, k⟩, s.chip.satInc DRG_KZ_STAT.CRC_CNT k)], free := some (s.chip.free + 1),
           events := [⟨0x48, k, 0, false⟩],
           out := [s.chip.kzAck k cls (tabGet 0 (s.chip.kzOf k).rxSeq (clsCode cls)) true] }))

/-- The KEY1 that the keys were derived from, received again, has KEY2 sent again; one whose certificate is out of form or
has no issuer key sets KZ_ERR 2, and unkeys a link that holds another KEY1 first; a first KEY1 in form goes to Ember,
which verifies the certificate. The KEY2 expected makes the link KEYED; another unkeys it with KZ_ERR 3 and keying
waits for its restart. KEY1 is resent until KEY2 has come. After the wait keying may run again. A forwarded segment
with a tag and SEQ that hold is accepted and acknowledged: command data is gathered until the last segment, response
data joins its forward. A segment whose tag does not hold is answered with NAK. Nothing else of the block changes.
(R270, R291, R399, R475, R476, R477) -/
def Obligations.KuzaganKeyingAndForwards : Prop :=
  (∀ (i : KzId) (k : Nat) (s : State), s.Still → k = i.val →
      (∀ (payload : List Byte), s.chip.LinkHeard k → payload.length = 346 → s.chip.domUp 16 = true →
          (s.chip.kzOf k).k1peer = payload → (s.chip.kzOf k).txKey ≠ [] → Effect (.key1Rx i payload) s
        ({ out := [s.chip.kzKey k true (s.chip.kzOf k).myCf] }))
      ∧ (∀ (payload : List Byte), s.chip.LinkHeard k → payload.length = 346 → s.chip.domUp 16 = true →
          ((s.chip.kzOf k).k1peer = [] ∨ ((s.chip.kzOf k).k1peer = payload ∧ (s.chip.kzOf k).txKey = [] ∧
              (s.chip.kzOf k).certOk = false ∧ s.chip.hasJob (.kzVerify k) = false)) →
          ((certForm (key1Cert payload) && decide (certKind (key1Cert payload) = 3)) = false ∨ (key1Eph payload).head? ≠ some 4
            ∨ certKey s.env.issuers (key1Cert payload) = none) →Effect (.key1Rx i payload) s
        ({ regs := [(⟨DRG_KZ_STAT.KZ_ERR, k⟩, 2)], kz := [(k,
            { s.chip.kzOf k with certOk := false, k1peer := [], zee := [], zss := [] })] }))
      ∧ (∀ (payload : List Byte), s.chip.LinkHeard k → payload.length = 346 → s.chip.domUp 16 = true →
          (s.chip.kzOf k).k1peer ≠ [] → (s.chip.kzOf k).k1peer ≠ payload →
          ((certForm (key1Cert payload) && decide (certKind (key1Cert payload) = 3)) = false ∨ (key1Eph payload).head? ≠ some 4
            ∨ certKey s.env.issuers (key1Cert payload) = none) →Effect (.key1Rx i payload) s
        ({ regs := (⟨DRG_KZ_STAT.KZ_ERR, k⟩, 2) :: unkeyedRegs s.chip k,
           kz := [(k, { unkeyed (s.chip.kzOf k) with certOk := false, k1peer := [], zee := [], zss := [] })] }))
      ∧ (∀ (payload key : List Byte), s.chip.LinkHeard k → payload.length = 346 → s.chip.domUp 16 = true →
          (s.chip.kzOf k).k1peer = [] → (s.chip.kzOf k).k1sent ≠ [] → certForm (key1Cert payload) = true →
          certKind (key1Cert payload) = 3 → (key1Eph payload).head? = some 4 →
          certKey s.env.issuers (key1Cert payload) = some key → s.chip.StokerFull →
          Effect (.key1Rx i payload) s
        ({ kz := [(k, { s.chip.kzOf k with certOk := false, k1peer := payload })],
           ember := some { s.chip.ember with stokerQ := s.chip.ember.stokerQ ++ [(.kzVerify k, 0x24,
             limbBytes ((key.drop 1).take 48) ++ limbBytes (key.drop 49) ++ limbBytes (sha384 ((key1Cert payload).take 137))
               ++ limbBytes ((certSig (key1Cert payload)).take 48) ++ limbBytes ((certSig (key1Cert payload)).drop 48))] } }))
      ∧ (∀ (payload : List Byte), s.chip.LinkHeard k → payload.length = 16 → (s.chip.kzOf k).txKey ≠ [] →
          payload = (s.chip.kzOf k).peerCf → (s.chip.kzOf k).txq = [] → Effect (.key2Rx i payload) s
        ({ regs := [(⟨DRG_KZ_STAT.KEYED, k⟩, 1)], kz := [(k, { s.chip.kzOf k with k2ok := true })] }))
      ∧ (∀ (payload : List Byte), s.chip.LinkHeard k → payload.length = 16 → (s.chip.kzOf k).txKey ≠ [] →
          payload ≠ (s.chip.kzOf k).peerCf → Effect (.key2Rx i payload) s
        ({ regs := (⟨DRG_KZ_STAT.KZ_ERR, k⟩, 3) :: unkeyedRegs s.chip k, kz := [(k,
            { unkeyed (s.chip.kzOf k) with restart := true })] }))
      ∧ (s.chip.on DRG_KZ_STAT.INIT_OK k = true → (s.chip.kzOf k).restart = false → (s.chip.kzOf k).k2ok = false →
          (s.chip.kzOf k).k1sent ≠ [] →
          ((s.chip.kzOf k).k1peer = [] ∨ (s.chip.kzOf k).certOk = false ∨ (s.chip.kzOf k).txKey ≠ []) →
          Effect (.key1Resend i) s ({ out := [s.chip.kzKey k false (s.chip.kzOf k).k1sent] }))
      ∧ ((s.chip.kzOf k).restart = true → (s.chip.kzOf k).k1peer = [] →
          (s.chip.domUp 16 = false ∨ s.chip.on DRG_KZ_STAT.INIT_OK k = false) → Effect (.keyingRestart i) s
        ({ kz := [(k, { s.chip.kzOf k with restart := false })] })))
  ∧ (∀ (i : KzId) (k : Nat) (seq tag : Nat) (wire seg : List Byte) (ok : Bool) (s : State), s.Still → k = i.val →
      s.chip.LinkHeard k → s.chip.on DRG_KZ_STAT.KEYED k = true → s.chip.domUp 16 = true →
      s.chip.peerFenced (s.chip.peerOf k) = false → seq < 256 → tag < 65536 → seq = tabGet 0 (s.chip.kzOf k).rxSeq 2 →
      wire.length ≤ 1040 →
      (25 ≤ wire.length → s.chip.opened k 1 seq tag wire = (seg, ok) → ok = true → (seg.getD 1 0).toNat % 2 = 0 →
          (s.chip.kzOf k).inbound = [] → beNat ((seg.drop 4).take 2) = 0 →
          Effect (.fwdCmdRx i seq tag wire) s
        ({ kz := [(k, { s.chip.kzOf k with
             rxCtr := (s.chip.kzOf k).rxCtr + 1, gcmFails := 0, rxSeq := tabPut id 0 (s.chip.kzOf k).rxSeq 2 ((seq + 1) % 256),
             inbound := [⟨tag, .peer k tag, (seg.getD 0 0).toNat, beNat ((seg.drop 2).take 2), seg.drop 8⟩] })],
           out := [s.chip.kzAck k .traffic seq false] }))
      ∧ (∀ (f : Fwd), 24 ≤ wire.length → s.chip.opened k 2 seq tag wire = (seg, ok) → ok = true →
          (seg.getD 1 0).toNat % 2 = 0 → (s.chip.kzOf k).fwds = [f] → f.tag = tag →
          beNat ((seg.drop 4).take 2) = f.got.length → Effect (.fwdRspRx i seq tag wire) s
        ({ kz := [(k, { s.chip.kzOf k with
             rxCtr := (s.chip.kzOf k).rxCtr + 1, gcmFails := 0, rxSeq := tabPut id 0 (s.chip.kzOf k).rxSeq 2 ((seq + 1) % 256),
             fwds := [{ f with got := f.got ++ seg.drop 8, total := beNat ((seg.drop 2).take 2) }] })],
           out := [s.chip.kzAck k .traffic seq false] }))
      ∧ (25 ≤ wire.length → (s.chip.kzOf k).gcmFails < 3 → s.chip.opened k 1 seq tag wire = (seg, ok) → ok = false →
          Effect (.fwdCmdRx i seq tag wire) s
        ({ kz := [(k, { s.chip.kzOf k with gcmFails := (s.chip.kzOf k).gcmFails + 1 })], out := [s.chip.kzAck k .traffic seq true] })))

/-- Each µs, with PD16 up, the damper adds P_WORK tokens: while class 0 has demand CL0_FLOOR percent go to the floor
bucket; what is beyond its depth and the rest go to the main bucket up to its depth. With PD16 off no tokens are
added. A request of an admission that waited makes its ring deferred, with FLOOR_HIT for one of class 0. Each ms, from
whatever the sensors show and whatever the settings are, P_EFF (at least 10 W), P_STAT, P_STAND, P_WORK (at least 0),
TJ_MAX and the hot state follow; THERMAL, THIN and HOT_IN set with source 0x0D when their condition begins, and the
times shown in ms run. Once TJ_MAX is below TJ_HOT − 5 the damper serves every tier again, else HOT_RELEASE does
nothing. A long job that waits at T5 moves to T1 with PROMOTED and source 0x0D; else LONG_STARVE_EXPIRY does nothing.
Nothing else of the block changes. (R229, R350, R358, R359, R360, R361, R366, R367, R379) -/
def Obligations.DamperClock : Prop :=
  ∀ (s : State), s.Still →
      (∀ (z : Bool) (f : Nat), s.chip.domUp 16 = true →
          (∀ q ∈ s.chip.dmp.reqs, ∀ r ∈ s.chip.dmp.reqs, q.asker = r.asker → q.class0 = r.class0) →
          z = { s.chip with us := s.chip.us + 1 }.classZero →
          f = (if z = true then s.chip.dmp.pWork * s.chip.get FLU_SCHED_CFG.CL0_FLOOR 0 / 100 else 0) →
          Effect (.damperRefill) s
        ((deferring s.chip).plus
           { us := some (s.chip.us + 1),
             dmp := some { s.chip.dmp with
               floor := min (s.chip.dmp.floor + f) s.chip.floorDepth,
               main := min (s.chip.dmp.main + (s.chip.dmp.floor + f - s.chip.floorDepth) + (s.chip.dmp.pWork - f)) s.chip.mainDepth } }))
      ∧ (s.chip.domUp 16 = false →
          (∀ q ∈ s.chip.dmp.reqs, ∀ r ∈ s.chip.dmp.reqs, q.asker = r.asker → q.class0 = r.class0) →
          Effect (.damperRefill) s ((deferring s.chip).plus { us := some (s.chip.us + 1) }))
      ∧ (∀ (sensors : List Int) (tj : Int) (cap pe ps st : Nat) (hot : Bool) (a b d : Bool),
          tj = sensors.foldl max (sensors.headD 0) → cap = 5000 * s.chip.get DRG_DMP_CFG.CAP 0 →
          pe = max 100000 (cap - 2500 * s.chip.get DRG_DMP_CFG.SLOPE 0 * (tj - s.chip.get DRG_DMP_CFG.KNEE 0).toNat) →
          ps = 100 * s.chip.get DRG_DMP_STATIC.STATIC_W 0 + s.chip.get DRG_DMP_STATIC.STATIC_SLOPE 0 * (tj - 25).toNat →
          st = (List.range 64).foldl (fun w n => w + s.chip.standOf n) 0 →
          hot = decide ((s.chip.get DRG_DMP_CFG2.TJ_HOT 0 : Int) ≤ tj) → a = (decide (pe < cap) && !s.chip.dmp.thermal) →
          b = (decide (pe ≤ ps + st) && !s.chip.dmp.thin) → d = (hot && !s.chip.dmp.hot) →
          Effect (.damperRecompute sensors) s
        ({ regs := dmpMarks a b d ++ [(⟨DRG_SEQ_STAT.STATE_MS, 0⟩, s.chip.satInc DRG_SEQ_STAT.STATE_MS 0),
            (⟨DRG_DMP_STAT.TJ_MAX, 0⟩, min 255 tj.toNat)]
             ++ (if s.chip.pmb.bel.phase = .dwell then [(⟨DRG_BEL_STAT.REMAIN, 0⟩,
                 s.chip.get DRG_BEL_STAT.REMAIN 0 - 1)] else []),
           dmp := some { s.chip.dmp with
             pWork := pe - ps - st, pEff := pe, pStat := ps, pStand := st, thin := decide (pe ≤ ps + st), thermal := decide (pe < cap),
             hot := s.chip.dmp.hot || hot },
           events := dmpEvents s.chip a b d }))
      ∧ (s.chip.dmp.hot = true → s.chip.get DRG_DMP_STAT.TJ_MAX 0 + 5 < s.chip.get DRG_DMP_CFG2.TJ_HOT 0 →
          Effect (.hotRelease) s ({ dmp := some { s.chip.dmp with hot := false } }))
      ∧ ((s.chip.dmp.hot = false ∨ s.chip.get DRG_DMP_CFG2.TJ_HOT 0 ≤ s.chip.get DRG_DMP_STAT.TJ_MAX 0 + 5) →
          Effect (.hotRelease) s ({}))
      ∧ (∀ (k : CtxId) (d : DamperX), s.chip.dmp.reqs.any (fun r => decide (r.asker = .ember k ∧ r.tier = 5)) = true →
          d = { s.chip.dmp with reqs := s.chip.dmp.reqs.map (fun r => if r.asker = .ember k ∧
              r.tier = 5 then { r with tier := 1 } else r) } →
          Effect (.longStarveExpiry k) s
        ({ regs := [(⟨DRG_DMP_EVT.PROMOTED, 0⟩, 1)], dmp := some d,
           events := [⟨0x0D, 0, ({ s.chip with dmp := d }.flag DRG_DMP_EVT.PROMOTED 0 true).word .DRG_DMP_EVT 0, false⟩] }))
      ∧ (∀ (k : CtxId), s.chip.dmp.reqs.any (fun r => decide (r.asker = .ember k ∧ r.tier = 5)) = false →
          Effect (.longStarveExpiry k) s ({}))

/-- A step of the loop shows the margins of PD16 and PD17. With the loop running it raises the setpoint by 10 mV where the
smaller margin M is below TGT − LOW_OFS, by 5 mV where it is below TGT, and lowers it by 5 mV, not below 0.65 V, where
it is above TGT + 2 %; never above VMAX, where AT_VMAX sets while a raise is due. A setpoint that changes goes to the
regulator as VOUT_COMMAND. The model's choices: the first setpoint, which R368 does not give, is a free value (log
entry 26); the word is the nearest of VOUT_MODE's linear format, and free in another format (log entries 16, 24). A
domain below TGT − CRIT_OFS goes to derate level 2, one below TGT − LOW_OFS that cannot be helped to level 1, each
rise with source 0x0C. Without the loop only the margins and levels follow. A level falls by one, not below 1 while a
VCORE margin runs. With PD16 or PD17 off a step changes nothing. Nothing else of the block changes. (R41, R347, R348,
R368, R369, R370) -/
def Obligations.AvsAndDerating : Prop :=
  (∀ (m16 m17 m : Int) (a b : Nat) (s : State), s.Still → m = min m16 m17 →
      (∀ (j v next : Nat) (top : Bool), s.chip.domUp 16 = true → s.chip.domUp 17 = true → s.chip.avsEntry = some j →
          s.chip.on DRG_AVS_CFG.AVS_EN 0 = true → s.chip.on DRG_AVS_STAT.SUSPENDED 0 = false →
          s.chip.avsUnreach = false → v = s.chip.get DRG_AVS_STAT.VSET 0 → v ≠ 0 →
          next = (if m < s.chip.avsLow then min (s.chip.get DRG_AVS_CFG.VMAX 0) (v + 2)
            else if m < s.chip.avsTgt then min (s.chip.get DRG_AVS_CFG.VMAX 0) (v + 1)
            else if s.chip.avsTgt + 20 < m then min (s.chip.get DRG_AVS_CFG.VMAX 0) (max (min 130 v) (v - 1))
            else min (s.chip.get DRG_AVS_CFG.VMAX 0) v) →
          top = (decide (m < s.chip.avsTgt) && decide (s.chip.get DRG_AVS_CFG.VMAX 0 ≤ v)) →
          a = (if m16 < s.chip.avsCrit then 2 else if m16 < s.chip.avsLow ∧ top = true then 1 else 0) →
          b = (if m17 < s.chip.avsCrit then 2 else if m17 < s.chip.avsLow ∧ top = true then 1 else 0) →
          Effect (.avsStep m16 m17) s
        ((if next = v then {} else avsWrite s.chip j next (s.chip.free + 0)).plus
           { regs := [(⟨DRG_AVS_STAT.DER17, 0⟩, max b (s.chip.get DRG_AVS_STAT.DER17 0)),
               (⟨DRG_AVS_STAT.DER16, 0⟩, max a (s.chip.get DRG_AVS_STAT.DER16 0)),
               (⟨DRG_AVS_STAT.AT_VMAX, 0⟩, top.toNat), (⟨DRG_AVS_STAT.MARGIN17, 0⟩, min 255 m17.toNat),
                   (⟨DRG_AVS_STAT.MARGIN16, 0⟩, min 255 m16.toNat)],
             events := derateEvents s.chip a b,
             wear := some { s.chip.wear with
               fast := decide (m < s.chip.avsLow) || (s.chip.wear.fast && decide (m < s.chip.avsTgt)),
               writePend := s.chip.wear.writePend || decide (next ≠ v), vset := if next = v then s.chip.wear.vset else next } }))
      ∧ (∀ (j v next : Nat) (top : Bool), s.chip.domUp 16 = true → s.chip.domUp 17 = true → s.chip.avsEntry = some j →
          s.chip.on DRG_AVS_CFG.AVS_EN 0 = true → s.chip.on DRG_AVS_STAT.SUSPENDED 0 = false →
          s.chip.avsUnreach = false → s.chip.get DRG_AVS_STAT.VSET 0 = 0 →
          v = 130 + Config.freeNat s.chip.free % (s.chip.get DRG_AVS_CFG.VMAX 0 - 129) →
          next = (if m < s.chip.avsLow then min (s.chip.get DRG_AVS_CFG.VMAX 0) (v + 2)
            else if m < s.chip.avsTgt then min (s.chip.get DRG_AVS_CFG.VMAX 0) (v + 1)
            else if s.chip.avsTgt + 20 < m then min (s.chip.get DRG_AVS_CFG.VMAX 0) (max (min 130 v) (v - 1))
            else min (s.chip.get DRG_AVS_CFG.VMAX 0) v) →
          top = (decide (m < s.chip.avsTgt) && decide (s.chip.get DRG_AVS_CFG.VMAX 0 ≤ v)) →
          a = (if m16 < s.chip.avsCrit then 2 else if m16 < s.chip.avsLow ∧ top = true then 1 else 0) →
          b = (if m17 < s.chip.avsCrit then 2 else if m17 < s.chip.avsLow ∧ top = true then 1 else 0) →
          Effect (.avsStep m16 m17) s
        ((if next = v then { free := some (s.chip.free + 1) } else avsWrite s.chip j next (s.chip.free + 1)).plus
           { regs := [(⟨DRG_AVS_STAT.DER17, 0⟩, max b (s.chip.get DRG_AVS_STAT.DER17 0)),
               (⟨DRG_AVS_STAT.DER16, 0⟩, max a (s.chip.get DRG_AVS_STAT.DER16 0)),
               (⟨DRG_AVS_STAT.AT_VMAX, 0⟩, top.toNat), (⟨DRG_AVS_STAT.MARGIN17, 0⟩, min 255 m17.toNat),
                   (⟨DRG_AVS_STAT.MARGIN16, 0⟩, min 255 m16.toNat)],
             events := derateEvents s.chip a b,
             wear := some { s.chip.wear with
               fast := decide (m < s.chip.avsLow) || (s.chip.wear.fast && decide (m < s.chip.avsTgt)),
               writePend := s.chip.wear.writePend || decide (next ≠ v), vset := if next = v then s.chip.wear.vset else next } }))
      ∧ (s.chip.domUp 16 = true → s.chip.domUp 17 = true →
          (s.chip.avsEntry = none ∨ s.chip.on DRG_AVS_CFG.AVS_EN 0 = false ∨ s.chip.on DRG_AVS_STAT.SUSPENDED 0 = true ∨ s.chip.avsUnreach = true) →
          a = s.chip.derateNeed m16 → b = s.chip.derateNeed m17 → Effect (.avsStep m16 m17) s
        ({ regs := [(⟨DRG_AVS_STAT.DER17, 0⟩, max b (s.chip.get DRG_AVS_STAT.DER17 0)),
             (⟨DRG_AVS_STAT.DER16, 0⟩, max a (s.chip.get DRG_AVS_STAT.DER16 0)), (⟨DRG_AVS_STAT.MARGIN17, 0⟩,
                 min 255 m17.toNat), (⟨DRG_AVS_STAT.MARGIN16, 0⟩, min 255 m16.toNat)],
           events := derateEvents s.chip a b }))
      ∧ ((s.chip.domUp 16 = false ∨ s.chip.domUp 17 = false) → Effect (.avsStep m16 m17) s ({})))
  ∧ (∀ (least : Nat) (s : State), s.Still → least = s.chip.get DRG_AVS_STAT.SUSPENDED 0 →
      (least < s.chip.get DRG_AVS_STAT.DER17 0 → Effect (.derateFall true) s
        ({ regs := [(⟨DRG_AVS_STAT.DER17, 0⟩, s.chip.get DRG_AVS_STAT.DER17 0 - 1)] }))
      ∧ (least < s.chip.get DRG_AVS_STAT.DER16 0 → Effect (.derateFall false) s
        ({ regs := [(⟨DRG_AVS_STAT.DER16, 0⟩, s.chip.get DRG_AVS_STAT.DER16 0 - 1)] }))
      ∧ (∀ (dom17 : Bool),
          (if dom17 = true then s.chip.get DRG_AVS_STAT.DER17 0 else s.chip.get DRG_AVS_STAT.DER16 0) ≤ least →
          Effect (.derateFall dom17) s ({})))

/-- A measurement starts when its period is over and on MEAS_REQ while none runs and PD16 is up; otherwise MEAS_REQ
stands. At its end the drifts and the worst monitor show, and WEAR_WARN with source 0x0C once in a power-up where a
drift exceeds DRIFT_MAX. A drift that differs from the last plan's by 0.5 % or more re-plans: TGT, the lane timeout
and, for a bank that is up, the leg factors from the median ratio of its on-resistances; half a unit of TGT rounds as
a free value (log entry 27). Nothing else of the block changes. (R371, R372, R377) -/
def Obligations.AgeingAndPlanner : Prop :=
  ∀ (s : State), s.Still →
      (s.chip.wear.measRun = false → s.chip.domUp 16 = true → Effect (.agePeriodExpiry) s
        ({ regs := [(⟨DRG_AGE_STAT.MEAS_REQ, 0⟩, 0), (⟨DRG_AGE_STAT.MEAS_BUSY, 0⟩,
            1)], wear := some { s.chip.wear with measRun := true } }))
      ∧ (s.chip.wear.measRun = true → Effect (.agePeriodExpiry) s ({}))
      ∧ (∀ (p : Path), s.chip.served p blkDRG true false = true → s.chip.wear.measRun = false →
          s.chip.domUp 16 = true → Effect (.ageMeasReq p) s
        ({ regs := [(⟨DRG_AGE_STAT.MEAS_REQ, 0⟩, 0), (⟨DRG_AGE_STAT.MEAS_BUSY, 0⟩,
            1)], wear := some { s.chip.wear with measRun := true } }))
      ∧ (∀ (p : Path), s.chip.served p blkDRG true false = true →
          (s.chip.wear.measRun = true ∨ s.chip.domUp 16 = false) → Effect (.ageMeasReq p) s
        ({ regs := [(⟨DRG_AGE_STAT.MEAS_REQ, 0⟩, 1)] }))
      ∧ (∀ (d16 d17 : Int) (worst : Fin 24) (a b : Nat) (w : Bool), s.chip.wear.measRun = true →
          s.chip.on DRG_AGE_STAT.MEAS_REQ 0 = false → a = min 255 d16.toNat → b = min 255 d17.toNat →
          w = decide (s.chip.get DRG_AGE_CFG.DRIFT_MAX 0 < a ∨ s.chip.get DRG_AGE_CFG.DRIFT_MAX 0 < b) →
          (a < s.chip.wear.lastPlan16 + 5 ∧ s.chip.wear.lastPlan16 < a + 5 ∧ b < s.chip.wear.lastPlan17 + 5 ∧
              s.chip.wear.lastPlan17 < b + 5) →
          (w = false ∨ s.chip.wear.warned = true) → Effect (.ageMeasEnd d16 d17 worst) s
        ({ regs := [(⟨DRG_WEAR_STAT.WEAR_WARN, 0⟩, w.toNat), (⟨DRG_AGE_STAT.MEAS_BUSY, 0⟩, 0), (⟨DRG_AGE_STAT.WORST_DM, 0⟩,
            worst),
             (⟨DRG_AGE_STAT.DRIFT17, 0⟩, b), (⟨DRG_AGE_STAT.DRIFT16, 0⟩,
                 a)], wear := some { s.chip.wear with measRun := false, writePend := true } }))
      ∧ (∀ (d16 d17 : Int) (worst : Fin 24) (a b : Nat) (w : Bool), s.chip.wear.measRun = true →
          s.chip.on DRG_AGE_STAT.MEAS_REQ 0 = false → a = min 255 d16.toNat → b = min 255 d17.toNat →
          w = decide (s.chip.get DRG_AGE_CFG.DRIFT_MAX 0 < a ∨ s.chip.get DRG_AGE_CFG.DRIFT_MAX 0 < b) →
          (a < s.chip.wear.lastPlan16 + 5 ∧ s.chip.wear.lastPlan16 < a + 5 ∧ b < s.chip.wear.lastPlan17 + 5 ∧
              s.chip.wear.lastPlan17 < b + 5) →
          w = true → s.chip.wear.warned = false → Effect (.ageMeasEnd d16 d17 worst) s
        ({ regs := [(⟨DRG_WEAR_STAT.WEAR_WARN, 0⟩, w.toNat), (⟨DRG_AGE_STAT.MEAS_BUSY, 0⟩, 0), (⟨DRG_AGE_STAT.WORST_DM, 0⟩,
            worst),
             (⟨DRG_AGE_STAT.DRIFT17, 0⟩, b), (⟨DRG_AGE_STAT.DRIFT16, 0⟩,
                 a)], wear := some { s.chip.wear with measRun := false, writePend := true, warned := true },
           events := [⟨0x0C, if s.chip.get DRG_AGE_CFG.DRIFT_MAX 0 < a then 16 else 17, 0, false⟩] }))
      ∧ (∀ (d16 d17 : Int) (worst : Fin 24) (a b : Nat) (w : Bool), s.chip.wear.measRun = true →
          s.chip.on DRG_AGE_STAT.MEAS_REQ 0 = false → a = min 255 d16.toNat → b = min 255 d17.toNat →
          w = decide (s.chip.get DRG_AGE_CFG.DRIFT_MAX 0 < a ∨ s.chip.get DRG_AGE_CFG.DRIFT_MAX 0 < b) →
          (s.chip.wear.lastPlan16 + 5 ≤ a ∨ a + 5 ≤ s.chip.wear.lastPlan16 ∨ s.chip.wear.lastPlan17 + 5 ≤ b ∨ b + 5 ≤ s.chip.wear.lastPlan17) →
          w = false → s.chip.domUp 16 = true → max a b % 2 = 0 →
          (∀ k ∈ List.range 16, s.chip.domUp k = false ∨ s.chip.legRatios k = []) →
          Effect (.ageMeasEnd d16 d17 worst) s
        ({ regs := [(⟨DRG_PLAN_STAT.REPLANS, 0⟩, (s.chip.get DRG_PLAN_STAT.REPLANS 0 + 1) % 256),
             (⟨FLU_LANE_TMO.TMO, 0⟩, min 255 ((s.chip.get DRG_AGE_CFG.TMO_BASE 0 * 5 * (1000 + a) + 3999) / 4000)),
             (⟨DRG_PLAN_STAT.TGT, 0⟩, min 255 (s.chip.get DRG_AVS_CFG.TGT_BASE 0 + max a b / 2)),
             (⟨DRG_WEAR_STAT.WEAR_WARN, 0⟩, w.toNat), (⟨DRG_AGE_STAT.MEAS_BUSY, 0⟩, 0), (⟨DRG_AGE_STAT.WORST_DM, 0⟩, worst),
             (⟨DRG_AGE_STAT.DRIFT17, 0⟩, b), (⟨DRG_AGE_STAT.DRIFT16, 0⟩, a)],
           wear := some { s.chip.wear with measRun := false, writePend := true, lastPlan16 := a, lastPlan17 := b } }))
      ∧ (∀ (d16 d17 : Int) (worst : Fin 24) (a b : Nat) (w : Bool), s.chip.wear.measRun = true →
          s.chip.on DRG_AGE_STAT.MEAS_REQ 0 = false → a = min 255 d16.toNat → b = min 255 d17.toNat →
          w = decide (s.chip.get DRG_AGE_CFG.DRIFT_MAX 0 < a ∨ s.chip.get DRG_AGE_CFG.DRIFT_MAX 0 < b) →
          (s.chip.wear.lastPlan16 + 5 ≤ a ∨ a + 5 ≤ s.chip.wear.lastPlan16 ∨ s.chip.wear.lastPlan17 + 5 ≤ b ∨ b + 5 ≤ s.chip.wear.lastPlan17) →
          w = false → s.chip.domUp 16 = true → max a b % 2 = 1 →
          (∀ k ∈ List.range 16, s.chip.domUp k = false ∨ s.chip.legRatios k = []) →
          Effect (.ageMeasEnd d16 d17 worst) s
        ({ regs := [(⟨DRG_PLAN_STAT.REPLANS, 0⟩, (s.chip.get DRG_PLAN_STAT.REPLANS 0 + 1) % 256),
             (⟨FLU_LANE_TMO.TMO, 0⟩, min 255 ((s.chip.get DRG_AGE_CFG.TMO_BASE 0 * 5 * (1000 + a) + 3999) / 4000)),
             (⟨DRG_PLAN_STAT.TGT, 0⟩, min 255 (s.chip.get DRG_AVS_CFG.TGT_BASE 0 + (max a b / 2 + Config.freeNat s.chip.free % 2))),
             (⟨DRG_WEAR_STAT.WEAR_WARN, 0⟩, w.toNat), (⟨DRG_AGE_STAT.MEAS_BUSY, 0⟩, 0), (⟨DRG_AGE_STAT.WORST_DM, 0⟩, worst),
             (⟨DRG_AGE_STAT.DRIFT17, 0⟩, b), (⟨DRG_AGE_STAT.DRIFT16, 0⟩, a)],
           wear := some { s.chip.wear with measRun := false, writePend := true, lastPlan16 := a, lastPlan17 := b }, free := some (s.chip.free + 1) }))
      ∧ (∀ (d16 d17 : Int) (worst : Fin 24) (a b : Nat) (k : BankId) (hi lo : Nat) (w : Bool),
          s.chip.wear.measRun = true → s.chip.on DRG_AGE_STAT.MEAS_REQ 0 = false → a = min 255 d16.toNat →
          b = min 255 d17.toNat →
          w = decide (s.chip.get DRG_AGE_CFG.DRIFT_MAX 0 < a ∨ s.chip.get DRG_AGE_CFG.DRIFT_MAX 0 < b) →
          (s.chip.wear.lastPlan16 + 5 ≤ a ∨ a + 5 ≤ s.chip.wear.lastPlan16 ∨ s.chip.wear.lastPlan17 + 5 ≤ b ∨ b + 5 ≤ s.chip.wear.lastPlan17) →
          w = false → s.chip.domUp 16 = true → max a b % 2 = 0 → s.chip.domUp k = true →
          (hi, lo) = (match fracMedian (s.chip.legRatios k) with
            | some (p, q) => (clampNat 20 32 ((2 * (16 * p + 8 * q) + q) / (2 * q)), clampNat 4 12 ((2 * 8 * p + q) / (2 * q)))
            | none => (s.chip.get HTH_BANK_LEGLIM.HI_FACTOR k, s.chip.get HTH_BANK_LEGLIM.LO_FACTOR k)) →
          (∀ i ∈ List.range 16, i = k.val ∨ s.chip.domUp i = false) → Effect (.ageMeasEnd d16 d17 worst) s
        ({ regs := [(⟨HTH_BANK_LEGLIM.HI_FACTOR, k⟩, hi), (⟨HTH_BANK_LEGLIM.LO_FACTOR, k⟩, lo),
             (⟨DRG_PLAN_STAT.REPLANS, 0⟩, (s.chip.get DRG_PLAN_STAT.REPLANS 0 + 1) % 256),
             (⟨FLU_LANE_TMO.TMO, 0⟩, min 255 ((s.chip.get DRG_AGE_CFG.TMO_BASE 0 * 5 * (1000 + a) + 3999) / 4000)),
             (⟨DRG_PLAN_STAT.TGT, 0⟩, min 255 (s.chip.get DRG_AVS_CFG.TGT_BASE 0 + max a b / 2)),
             (⟨DRG_WEAR_STAT.WEAR_WARN, 0⟩, w.toNat), (⟨DRG_AGE_STAT.MEAS_BUSY, 0⟩, 0), (⟨DRG_AGE_STAT.WORST_DM, 0⟩, worst),
             (⟨DRG_AGE_STAT.DRIFT17, 0⟩, b), (⟨DRG_AGE_STAT.DRIFT16, 0⟩, a)],
           wear := some { s.chip.wear with measRun := false, writePend := true, lastPlan16 := a, lastPlan17 := b } }))

/-- A pass of the patrol is counted. A corrected error of a row sends source 0x32 and counts for 24 hours; the one that
reaches ROW_CE_LIM takes a spare row with source 0x33, or without a spare sends source 0x34, as an uncorrectable error
does; a fenced group sends nothing. A lane that times out takes a spare lane with source 0x30, or without one sends
source 0x31. The wear record is written to the NVS, or waits for PD19. Each minute EQ_HOURS grows by the temperature,
the sessions held grow older and the time of overlays runs. Nothing else of the block changes. (R2, R39, R296, R373,
R374, R375, R416) -/
def Obligations.SparesAndWear : Prop :=
  (∀ (s : State), s.Still →
      (s.chip.domUp 16 = true → Effect (.patrolPass) s
        ({ regs := [(⟨DRG_SRAM_STAT.PATROL_CNT, 0⟩, (s.chip.get DRG_SRAM_STAT.PATROL_CNT 0 + 1) % 256)],
           wear := some { s.chip.wear with
             rowCe := s.chip.wear.rowCe.filter (fun e => decide (s.chip.wear.minutes < e.2 + 1440)) } }))
      ∧ (∀ (g : Fin 256), s.chip.domUp 16 = true → s.chip.wear.groupsOut.contains g.val = false →
          Effect (.sramEccError g .uncorrectable) s ({ events := [⟨0x34, g, 0, false⟩] }))
      ∧ (∀ (g : Fin 256) (k : EccKind), s.chip.wear.groupsOut.contains g.val = true → Effect (.sramEccError g k) s
        ({}))
      ∧ (∀ (g : Fin 256) (row : Nat), s.chip.domUp 16 = true → s.chip.wear.groupsOut.contains g.val = false →
          s.chip.rowErrors g row + 1 < s.chip.get DRG_AGE_CFG.ROW_CE_LIM 0 →
          Effect (.sramEccError g (.corrected row)) s
        ({ wear := some { s.chip.wear with rowCe := s.chip.wear.rowCe ++ [((g.val, row),
            s.chip.wear.minutes)] }, events := [⟨0x32, g, 0, false⟩] }))
      ∧ (∀ (g : Fin 256) (row used : Nat), s.chip.domUp 16 = true → s.chip.wear.groupsOut.contains g.val = false →
          s.chip.get DRG_AGE_CFG.ROW_CE_LIM 0 ≤ s.chip.rowErrors g row + 1 → used = tabGet 0 s.chip.wear.rows g.val →
          used < 4 → Effect (.sramEccError g (.corrected row)) s
        ({ regs := [(⟨DRG_SRAM_STAT.ROWS_USED, 0⟩, s.chip.satInc DRG_SRAM_STAT.ROWS_USED 0)],
           wear := some { s.chip.wear with
             rowCe := s.chip.wear.rowCe.filter (fun e => decide (e.1 ≠ (g.val, row))),
             rows := tabPut id 0 s.chip.wear.rows g (used + 1), writePend := true },
           events := [⟨0x32, g, 0, false⟩, ⟨0x33, g, 0, false⟩] }))
      ∧ (∀ (g : Fin 256) (row : Nat), s.chip.domUp 16 = true → s.chip.wear.groupsOut.contains g.val = false →
          s.chip.get DRG_AGE_CFG.ROW_CE_LIM 0 ≤ s.chip.rowErrors g row + 1 → 4 ≤ tabGet 0 s.chip.wear.rows g.val →
          Effect (.sramEccError g (.corrected row)) s
        ({ wear := some { s.chip.wear with
             rowCe := s.chip.wear.rowCe.filter (fun e => decide (e.1 ≠ (g.val, row))) },
           events := [⟨0x32, g, 0, false⟩, ⟨0x34, g, 0, false⟩] }))
      ∧ (s.chip.domUp 19 = true → Effect (.wearRecordWrite) s
        ({ regs := [(⟨DRG_WEAR_STAT.NVS_PEND, 0⟩,
            0)], wear := some { s.chip.wear with writePend := false }, mems := [.nvsWear s.chip.wearRec] }))
      ∧ (s.chip.domUp 19 = false → Effect (.wearRecordWrite) s ({ regs := [(⟨DRG_WEAR_STAT.NVS_PEND, 0⟩, 1)] }))
      ∧ (∀ (t : Nat), s.chip.domUp 16 = true → t = s.chip.wear.hrsFrac + eqGrowth (s.chip.get DRG_DMP_STAT.TJ_MAX 0) →
          Effect (.eqHoursUpdate) s
        ({ regs := (⟨DRG_WEAR_HRS.EQ_HOURS, 0⟩, min 0xFFFFFFFF (s.chip.get DRG_WEAR_HRS.EQ_HOURS 0 + t / 2 ^ 48)) ::
             ((List.range 64).filter s.chip.sessHeld).map (fun n => (⟨CRD_SESS_AGE.AGE_MIN, n⟩,
                 s.chip.satInc CRD_SESS_AGE.AGE_MIN n))
             ++ (List.range 8).map (fun i => (⟨KLN_OVL_STAT.REMAIN, i⟩, s.chip.get KLN_OVL_STAT.REMAIN i - 1)),
           wear := some { s.chip.wear with minutes := s.chip.wear.minutes + 1, hrsFrac := t % 2 ^ 48 } })))
  ∧ (∀ (l : LaneId) (s : State), s.Still → s.chip.domUp 16 = true → s.chip.bit FLU_LANE_STAT.RETIRED 0 l = false →
      (s.chip.get FLU_LANE_STAT.SPARES 0 ≠ 0 → Effect (.laneHandshakeTimeout l) s
        ({ regs := [(⟨FLU_LANE_STAT.SPARES, 0⟩, s.chip.get FLU_LANE_STAT.SPARES 0 - 1), (⟨FLU_LANE_STAT.RETIRED, 0⟩,
            s.chip.withBit FLU_LANE_STAT.RETIRED 0 l true)],
           wear := some { s.chip.wear with writePend := true }, events := [⟨0x30, l, 0, false⟩] }))
      ∧ (s.chip.get FLU_LANE_STAT.SPARES 0 = 0 → Effect (.laneHandshakeTimeout l) s
        ({ events := [⟨0x31, l, 0, false⟩] })))

/-- Ash takes the oldest event that waits. In the safe state and inside a window of its unit it is counted and journalled
and has no other effect, a banked one in CONSEQ_CNT. Otherwise it is counted by class and journalled with its
reaction; a UC event pulses ALERT_N and with AUTO_HOLD sets HOLD. NONE and OWN do no more; 0x28 opens the windows of
all banks; the FENCE reactions fence the unit and open its window, with the effect that R381 gives the fence; LIFT
lifts it. An event of class FA enters the safe state. A UC event that a port asks for goes out as MSI-X. Nothing else
of the block changes. (R291, R324, R373, R379, R380, R381, R382, R383, R384, R388, R391, R392) -/
def Obligations.AshJudgesEvents : Prop :=
  (∀ (s : State), s.Still →
      s.chip.ash.inbox = [] → Effect (.ashEvent) s ({}))
  ∧ (∀ (e : AshEv) (cls react : Nat) (s : State), s.Still → s.chip.ash.inbox.head? = some e →
      srcRow e.src = some (cls, react) →
      (s.chip.ash.safe = true → Effect (.ashEvent) s
        ({ taken := 1, regs := eventRegs s.chip e cls false,
           ash := some (eventAsh s.chip e cls 0 false) }))
      ∧ (s.chip.ash.safe = false → s.chip.banked e = true → Effect (.ashEvent) s
        ({ taken := 1, regs := eventRegs s.chip e cls true, ash := some (eventAsh s.chip e cls 0 true) })))
  ∧ (∀ (e : AshEv) (s : State), s.Still →
      (∀ (react : Nat), (react = 0 ∨ react = 1) → s.chip.Judges e 1 react → Effect (.ashEvent) s
        (judged s.chip e 1 react))
      ∧ (∀ (react : Nat), (react = 0 ∨ react = 1) → e.src ≠ 0x28 → s.chip.Judges e 2 react → Effect (.ashEvent) s
        (judged s.chip e 2 react))
      ∧ (e.src = 0x28 → s.chip.Judges e 2 1 → s.chip.ash.windows = [] → Effect (.ashEvent) s
        ({ judged s.chip e 2 1 with
           ash := some { eventAsh s.chip e 2 1 false with
             pulse := true, windows := (List.finRange 16).map .bank } }))
      ∧ (∀ (n : SlotId), e.src = 0x18 → e.unit = n.val → s.chip.Judges e 2 2 → s.chip.slotState n = stCLINKER →
          (∀ f ∈ s.chip.ash.fences, f.unit ≠ .slot n) → s.chip.ash.windows.contains (.slot n) = false →
          Effect (.ashEvent) s
        ({ judged s.chip e 2 2 with
           regs := (judged s.chip e 2 2).regs,
           ash := some { eventAsh s.chip e 2 2 false with
             pulse := true, fences := s.chip.ash.fences ++ [⟨.slot n, e.src, e.forced⟩], windows := s.chip.ash.windows
                 ++ [.slot n] } }))
      ∧ (∀ (n : SlotId), e.src = 0x18 → e.unit = n.val → s.chip.Judges e 2 2 →
          s.chip.ash.fences.any (fun f => decide (f.unit = .slot n)) = true → Effect (.ashEvent) s
        (judged s.chip e 2 2))
      ∧ (∀ (n : SlotId), e.src = 0x18 → e.unit = n.val → s.chip.Judges e 2 2 → 1 ≤ s.chip.slotState n →
          s.chip.slotState n ≤ stBUSY → s.chip.Bare n → (∀ f ∈ s.chip.ash.fences, f.unit ≠ .slot n) →
          s.chip.ash.windows.contains (.slot n) = false → Effect (.ashEvent) s
        (({ judged s.chip e 2 2 with
           regs := (judged s.chip e 2 2).regs,
           ash := some { eventAsh s.chip e 2 2 false with
             pulse := true, fences := s.chip.ash.fences ++ [⟨.slot n, e.src, e.forced⟩], windows := s.chip.ash.windows
                 ++ [.slot n] } } : Change).plus
           (deactivation s.chip n .fence cauFENCE)))
      ∧ (∀ (b : BankId), (e.src = 0x20 ∨ e.src = 0x21 ∨ e.src = 0x22) → e.unit = b.val → s.chip.Judges e 2 3 →
          s.chip.domUp b = true → s.chip.railEn (4 + b) = true → s.chip.SlotsOut b →
          (∀ f ∈ s.chip.ash.fences, f.unit ≠ .bank b) → s.chip.ash.windows.contains (.bank b) = false →
          Effect (.ashEvent) s
        (({ judged s.chip e 2 3 with
           regs := [(⟨DRG_RAIL_PG.RAIL, 0⟩, s.chip.withBit DRG_RAIL_PG.RAIL 0 (4 + b) false),
             (⟨DRG_RAIL_EN.RAIL, 0⟩, s.chip.withBit DRG_RAIL_EN.RAIL 0 (4 + b) false)] ++ (judged s.chip e 2 3).regs,
           ash := some { eventAsh s.chip e 2 3 false with
             pulse := true, fences := s.chip.ash.fences ++ [⟨.bank b, e.src, e.forced⟩], windows := s.chip.ash.windows
                 ++ [.bank b] },
           out := (judged s.chip e 2 3).out ++ [.rail (4 + b) false] } : Change).plus (bankDown s.chip b)))
      ∧ (∀ (k : CtxId) (g : ERegions), (e.src = 0x53 ∨ e.src = 0x54) → e.unit = k.val → s.chip.Judges e 2 4 →
          s.chip.ctxPaired k = false → s.chip.ctxJob k = false → s.chip.ctxState k ≠ esFENCED → g = s.chip.regionsOf k →
          (∀ f ∈ s.chip.ash.fences, f.unit ≠ .ctx k) → s.chip.ash.windows.contains (.ctx k) = false →
          Effect (.ashEvent) s
        ({ judged s.chip e 2 4 with
           regs := [(⟨EMB_CSTAT.STATE, k⟩, esFENCED), (⟨EMB_CSTAT.FAIL_CAUSE, k⟩, if e.src = 0x54 then 3 else 4)]
               ++ (judged s.chip e 2 4).regs,
           ash := some { eventAsh s.chip e 2 4 false with
             pulse := true, fences := s.chip.ash.fences ++ [⟨.ctx k, e.src, e.forced⟩], windows := s.chip.ash.windows
                 ++ [.ctx k] },
           ctxs := [(k, { s.chip.ctx k with win := { (s.chip.ctx k).win with words := (s.chip.ctx k).win.words.map (fun _ => 0) } })],
           mems := [.wipeOp (ctxBase k + 8 * g.dst) (8 * g.dlen), .wipeOp (ctxBase k + 8 * g.scr) (8 * g.slen)] }))
      ∧ (∀ (l : LaneId), e.src = 0x31 → e.unit = l.val → s.chip.Judges e 2 5 →
          s.chip.bit FLU_LANE_STAT.RETIRED 0 l = false → 9 ≤ s.chip.lanesUp →
          (∀ f ∈ s.chip.ash.fences, f.unit ≠ .lane l) → s.chip.ash.windows.contains (.lane l) = false →
          Effect (.ashEvent) s
        ({ judged s.chip e 2 5 with
           regs := [(⟨FLU_LANE_STAT.RETIRED, 0⟩, s.chip.withBit FLU_LANE_STAT.RETIRED 0 l true)] ++ (judged s.chip e 2 5).regs,
           ash := some { eventAsh s.chip e 2 5 false with
             pulse := true, fences := s.chip.ash.fences ++ [⟨.lane l, e.src, e.forced⟩], windows := s.chip.ash.windows
                 ++ [.lane l] },
           wear := some { s.chip.wear with writePend := true } }))
      ∧ (∀ (x : PortId), (e.src = 0x41 ∨ e.src = 0x44) → e.unit = x.val → s.chip.Judges e 2 6 →
          (∀ r ∈ s.chip.definedRings, s.chip.owner r ≠ x.val) → (∀ f ∈ s.chip.ash.fences, f.unit ≠ .port x) →
          s.chip.ash.windows.contains (.port x) = false → Effect (.ashEvent) s
        ({ judged s.chip e 2 6 with
           regs := [(⟨FLU_PORT_STAT.LOST, x⟩, 1)] ++ (judged s.chip e 2 6).regs,
           ash := some { eventAsh s.chip e 2 6 false with
             pulse := true, fences := s.chip.ash.fences ++ [⟨.port x, e.src, e.forced⟩], windows := s.chip.ash.windows
                 ++ [.port x] },
           ports := [(x, { s.chip.port x with lossRun := false })] }))
      ∧ (∀ (d : DevId) (k : Nat), e.src = 0x49 → e.unit = d.val → s.chip.Judges e 2 7 → k = s.chip.kzFor d →
          d.val ≠ s.chip.grp.dev → d.val ≤ s.chip.grp.size → (s.chip.kzOf k).fwds = [] →
          (∀ f ∈ s.chip.ash.fences, f.unit ≠ .peer d) → s.chip.ash.windows.contains (.peer d) = false →
          Effect (.ashEvent) s
        ({ judged s.chip e 2 7 with
           regs := [(⟨FLU_STACK_EVT.PEER_DROP, 0⟩, 1), (⟨FLU_LIVE.LIVE, 2 * d + 1⟩, 0), (⟨FLU_LIVE.LIVE, 2 * d⟩, 0)]
               ++ (judged s.chip e 2 7).regs,
           ash := some { eventAsh s.chip e 2 7 false with
             pulse := true, fences := s.chip.ash.fences ++ [⟨.peer d, e.src, e.forced⟩], windows := s.chip.ash.windows
                 ++ [.peer d] },
           kz := [(k, { s.chip.kzOf k with inbound := [] })], events := [stackEvent s.chip FLU_STACK_EVT.PEER_DROP] }))
      ∧ (∀ (g : Fin 256), e.src = 0x34 → e.unit = g.val → s.chip.Judges e 2 8 → 64 ≤ g.val →
          s.chip.wear.groupsOut.contains g.val = false → (∀ f ∈ s.chip.ash.fences, f.unit ≠ .group g) →
          s.chip.ash.windows.contains (.group g) = false → Effect (.ashEvent) s
        ({ judged s.chip e 2 8 with
           regs := [(⟨DRG_SRAM_STAT.GROUPS_OUT, 0⟩, s.chip.satInc DRG_SRAM_STAT.GROUPS_OUT 0)] ++ (judged s.chip e 2 8).regs,
           ash := some { eventAsh s.chip e 2 8 false with
             pulse := true, fences := s.chip.ash.fences ++ [⟨.group g, e.src, e.forced⟩], windows := s.chip.ash.windows
                 ++ [.group g] },
           wear := some { s.chip.wear with groupsOut := s.chip.wear.groupsOut ++ [g.val] } }))
      ∧ ((e.src = 0x24 ∨ e.src = 0x4A) → (e.src = 0x4A → s.chip.orphan = false) → s.chip.Judges e 1 10 →
          Effect (.ashEvent) s
        ({ judged s.chip e 1 10 with
           ash := some { eventAsh s.chip e 1 10 false with
             fences := s.chip.ash.fences.filter (fun f => !liftPick e.src e.unit f) } }))
      ∧ (e.src = 0x4A → s.chip.orphan = true → s.chip.Judges e 1 10 → Effect (.ashEvent) s (judged s.chip e 1 0))
      ∧ (∀ (x v : Nat), x < 2 → s.chip.ash.inbox.head? = some e → srcRow e.src = some (2, 0) →
          s.chip.ash.safe = false → s.chip.banked e = false → e.forced = false → s.chip.pmb.bel.phase = .none →
          s.chip.on ASH_IRQ_CFG.EN x = true → s.chip.on ASH_IRQ_CFG.EN (1 - x) = false →
          v = s.chip.get ASH_IRQ_CFG.VEC x →
          (tabGet 0 s.chip.ash.irqUs x = 0 ∨ tabGet 0 s.chip.ash.irqUs x + 3 ≤ s.chip.us) →
          v ≤ s.chip.get FLU_HP_CFG.MSIX_LAST x → s.chip.portOpen x = true → s.chip.msixMasked x v = false →
          Effect (.ashEvent) s
        ({ judged s.chip e 2 0 with
           ash := some { eventAsh s.chip e 2 0 false with pulse := true, irqUs := tabPut id 0 s.chip.ash.irqUs x (s.chip.us + 1) },
           out := (judged s.chip e 2 0).out ++ [.msix x v] }))
      ∧ (s.chip.ash.inbox.head? = some e → srcRow e.src = some (3, 9) → (6 ≤ e.src → s.chip.banked e = false) →
          s.chip.Quiet e → Effect (.ashEvent) s (safeEntered s.chip e 1)))

/-- The pulse ends and ALERT_N is released unless HOLD or an FA event keeps it low. A window ends. The records that wait
go to the persistent journal while PD19 is up. A period of CK_AON passes; a mismatch of Ash's copies enters the safe
state directly for source 0x00. The detectors send sources 0x01, 0x02, 0x04; the loss and relock of CK_CARD send 0x06
and 0x07; the loss of CK_LINK unkeys and downs the links and sends 0x08. TAMPER_N is released. Nothing else of the
block changes. (R24, R36, R379, R383, R387, R388, R391, R394, R471) -/
def Obligations.AshTimersAndDetectors : Prop :=
  ∀ (s : State), s.Still →
      (s.chip.ash.pulse = true → Effect (.alertPulseEnd) s
        ({ ash := some { s.chip.ash with pulse := false },
           out := if s.chip.ash.fatal = true ∨ s.chip.on ASH_PIN_CTL.HOLD 0 = true then [] else [.alertN false] }))
      ∧ (∀ (u : FUnit), Effect (.consequenceWindowEnd u) s
        ({ ash := some { s.chip.ash with windows := s.chip.ash.windows.filter (fun w => decide (w ≠ u)) } }))
      ∧ (s.chip.domUp 19 = true → Effect (.nvsJournalCopy) s
        ({ regs := [(⟨ASH_JRN_HEAD.NVS_NEXT, 0⟩, (s.chip.get ASH_JRN_HEAD.NVS_NEXT 0 + s.chip.ash.nvsPend.length) % 2 ^ 12)],
           ash := some { s.chip.ash with nvsPend := [] }, mems := s.chip.ash.nvsPend.map .nvsJournal }))
      ∧ (s.chip.domUp 19 = false → Effect (.nvsJournalCopy) s ({}))
      ∧ (Effect (.ashSelfCheck false) s ({ tick := some (s.chip.tick + 1) }))
      ∧ (∀ (e : AshEv), e = ⟨0, 0, 0, false⟩ → s.chip.Quiet e → Effect (.ashSelfCheck true) s
        ({ safeEntered { s.chip with tick := s.chip.tick + 1 } e 0 with tick := some (s.chip.tick + 1) }))
      ∧ (s.chip.domUp 16 = true → Effect (.stokerWatchdog) s ({ events := [⟨0x02, 0, 0, false⟩] }))
      ∧ (s.chip.domUp 16 = true → Effect (.lockstepMismatch) s ({ events := [⟨0x01, 0, 0, false⟩] }))
      ∧ (∀ (k : Fin 8), Effect (.thermalTrip k) s ({ events := [⟨0x04, k, 0, false⟩] }))
      ∧ (s.chip.seq.cardLock = true → (∀ k ∈ List.range 8, s.chip.ctxJob k = false) → Effect (.ckCardLockLost) s
        ({ seq := some { s.chip.seq with cardLock := false }, events := [⟨0x06, 0, 0, false⟩] }))
      ∧ (s.chip.seq.cardLock = false → s.chip.domUp 16 = true → Effect (.ckCardRelock) s
        ({ seq := some { s.chip.seq with cardLock := true }, events := [⟨0x07, 0, 0, false⟩] }))
      ∧ (s.chip.seq.linkLock = true → s.chip.grp.size = 0 → Effect (.ckLinkLockLost) s
        ({ seq := some { s.chip.seq with linkLock := false }, ash := some { s.chip.ash with hbRun := [] }, events := [⟨0x08, 0,
            0, false⟩] }))
      ∧ (∀ (k : Nat), s.chip.seq.linkLock = true → s.chip.grp.size = 1 → s.chip.grp.dev ≤ 1 →
          k = s.chip.kzFor (1 - s.chip.grp.dev) → Effect (.ckLinkLockLost) s
        ((linkDown s.chip k).plus
           { regs := [(⟨DRG_KZ_STAT.SYM_LOCK, k⟩, 0)], seq := some { s.chip.seq with linkLock := false },
             ash := some { s.chip.ash with hbRun := [] }, events := [⟨0x08, 0, 0, false⟩] }))
      ∧ (Effect (.ckLinkRelock) s ({ seq := some { s.chip.seq with linkLock := true } }))
      ∧ (Effect (.tamperNRelease) s ({ ash := some { s.chip.ash with tamper := false } }))

/-- A write that R398 refuses records its RESULT and sends source 0x71 with the word and the result. An accepted force
sends source 0x70 and has the effect of the real event with FORCED: the short and the removal deactivate their slot,
the bank rail fails, the peer or the port is lost, the job ends FENCED with cause 7. LIFT lifts a forced fence of a
peer, or of a port that does not serve. An injection that R397 refuses sends 0x71; an accepted one sends 0x70 and its
event, and the sources of a detector output also run their block's reaction, shown for the entropy source. Nothing
else of the block changes. (R104, R105, R293, R323, R341, R343, R396, R397, R398, R399, R402) -/
def Obligations.ForceAndInjection : Prop :=
  ∀ (p : Path) (s : State), s.Takes p blkASH true →
      (∀ (i : Instr) (u kind r : Nat),
          (i, kind) ∈ ([(.forceSlotShort p u, 1), (.forceSlotRemoval p u, 2), (.forceBankRailFault p u, 3),
            (.forcePeerLoss p u, 4), (.forcePortLoss p u, 5), (.forceEmberJobFailure p u, 6)] : List (Instr × Nat)) →
          r = s.chip.forceResult false kind u → r ≠ 0 → Effect (i) s
        ({ regs := [(⟨ASH_FORCE_STAT.RESULT, 0⟩, r), (⟨ASH_FORCE_STAT.KIND, 0⟩, kind), (⟨ASH_FORCE_STAT.UNIT, 0⟩, u % 256)],
           events := [⟨0x71, kind, kind * 2 ^ 24 + u % 256 + r * 2 ^ 28, false⟩] }))
      ∧ (∀ (n : SlotId), s.chip.forceResult false 1 n = 0 → 1 ≤ s.chip.slotState n → s.chip.slotState n ≤ stBUSY →
          s.chip.Bare n → Effect (.forceSlotShort p n) s
        (({ regs := [(⟨ASH_FORCE_STAT.RESULT, 0⟩, 0), (⟨ASH_FORCE_STAT.KIND, 0⟩, 1), (⟨ASH_FORCE_STAT.UNIT, 0⟩, n)],
             events := [⟨0x70, 1, 2 ^ 31 + 1 * 2 ^ 24 + n, false⟩,
             ⟨0x10, n, s.chip.monWord (.imon n), true⟩] } : Change).plus
           (deactivation s.chip n .fault cauSHORT)))
      ∧ (∀ (n : SlotId) (w : Nat), s.chip.forceResult false 2 n = 0 → 1 ≤ s.chip.slotState n →
          s.chip.slotState n ≤ stBUSY → s.chip.Bare n →
          w = (if h : n.val < 4 then s.chip.monWord (.pmon ⟨n.val, h⟩) else 0) →
          Effect (.forceSlotRemoval p n) s
        (({ regs := [(⟨ASH_FORCE_STAT.RESULT, 0⟩, 0), (⟨ASH_FORCE_STAT.KIND, 0⟩, 2), (⟨ASH_FORCE_STAT.UNIT, 0⟩, n)],
             events := [⟨0x70, 2, 2 ^ 31 + 2 * 2 ^ 24 + n, false⟩, ⟨0x13, n, w, true⟩] } : Change).plus
           (deactivation (s.chip.setSlot n { s.chip.slot n with
             forcedRemoval := true, forcedAbsent := (s.chip.slot n).forcedAbsent || isOperator n, reinserted := false }) n .removal cauREMOVAL)))
      ∧ (∀ (b : BankId) (i : Nat), s.chip.forceResult false 3 b = 0 → i = 4 + b.val → s.chip.railPg i = true →
          s.chip.seqState = sqRUNNING → s.chip.RetryLeft i → s.chip.pmb.bel.phase = .none → s.chip.SlotsOut b →
          Effect (.forceBankRailFault p b) s
        (((({ regs := [(⟨ASH_FORCE_STAT.RESULT, 0⟩, 0), (⟨ASH_FORCE_STAT.KIND, 0⟩, 3), (⟨ASH_FORCE_STAT.UNIT, 0⟩,
            b)], events := [⟨0x70, 3, 2 ^ 31 + 3 * 2 ^ 24 + b,
                false⟩] } : Change).plus (railFailed s.chip i DRG_SEQ_EVT.RAIL_LOST)).plus (bankDown s.chip b)).plus
           { events := [⟨0x21, b, s.chip.railDetail i, true⟩] }))
      ∧ (∀ (d : DevId), s.chip.forceResult false 4 d = 0 → s.chip.PeerIdle d → Effect (.forcePeerLoss p d) s
        ({ peerGone s.chip d with
           ash := some { s.chip.ash with
             present := s.chip.ash.present.filter (fun p => decide (p ≠ d.val)), hbRun := tabPut id 0 s.chip.ash.hbRun d 0,
             drilled := s.chip.ash.drilled.filter (fun u => decide (u ≠ .peer d)) ++ [.peer d] },
           regs := (⟨ASH_FORCE_STAT.RESULT, 0⟩, 0) :: (⟨ASH_FORCE_STAT.KIND, 0⟩, 4) :: (⟨ASH_FORCE_STAT.UNIT, 0⟩,
               d) :: (peerGone s.chip d).regs,
           events := [⟨0x70, 4, 2 ^ 31 + 4 * 2 ^ 24 + d, false⟩, stackEvent s.chip FLU_STACK_EVT.PEER_DROP, ⟨0x49, d, 0,
               true⟩] }))
      ∧ (∀ (x : PortId), s.chip.forceResult false 5 x = 0 → (∀ r ∈ s.chip.definedRings, s.chip.owner r ≠ x.val) →
          Effect (.forcePortLoss p x) s
        ({ regs := (⟨FLU_PORT_STAT.LOST, x⟩, 1) :: [(⟨ASH_FORCE_STAT.RESULT, 0⟩, 0), (⟨ASH_FORCE_STAT.KIND, 0⟩, 5),
            (⟨ASH_FORCE_STAT.UNIT, 0⟩, x)],
           ports := [(x, { s.chip.port x with lossRun := false })],
           ash := some { s.chip.ash with
             drilled := s.chip.ash.drilled.filter (fun u => decide (u ≠ .port x)) ++ [.port x] },
           events := [⟨0x70, 5, 2 ^ 31 + 5 * 2 ^ 24 + x, false⟩, ⟨0x41, x, 0, true⟩] }))
      ∧ (∀ (k : CtxId) (g : ERegions), s.chip.forceResult false 6 k = 0 → s.chip.domUp 17 = true → s.chip.HostCtx k →
          s.chip.ctxJob k = true → g = s.chip.regionsOf k → Effect (.forceEmberJobFailure p k) s
        ({ regs := [(⟨EMB_EVT.WDOG, 0⟩, 1), (⟨EMB_CSTAT.STATE, k⟩, esFENCED), (⟨EMB_CSTAT.FAIL_CAUSE, k⟩, 7),
            (⟨EMB_CSTAT.STATUS, k⟩, stsFENCED),
             (⟨ASH_FORCE_STAT.RESULT, 0⟩, 0), (⟨ASH_FORCE_STAT.KIND, 0⟩, 6), (⟨ASH_FORCE_STAT.UNIT, 0⟩, k)],
           ctxs := [(k, { s.chip.ctx k with
             use := .host, hasTokens := false, started := false, aged := none, win := ⟨[], stsFENCED, false, true, false⟩ })],
           ember := if s.chip.ember.running = some k.val then some { s.chip.ember with running := none } else none,
           events := [⟨0x70, 6, 2 ^ 31 + 6 * 2 ^ 24 + k, false⟩, { emberEvent s.chip EMB_EVT.WDOG 0x54 k with forced := true }],
           mems := [.wipeOp (ctxBase k + 8 * g.dst) (8 * g.dlen), .wipeOp (ctxBase k + 8 * g.scr) (8 * g.slen)] }))
      ∧ (∀ (kind u : Nat), kind < 16 → s.chip.forceResult true kind u = 0 → (kind = 4 ∨ s.chip.serving u = false) →
          Effect (.forceLift p kind u) s
        ({ regs := [(⟨ASH_FORCE_STAT.RESULT, 0⟩, 0), (⟨ASH_FORCE_STAT.KIND, 0⟩, kind), (⟨ASH_FORCE_STAT.UNIT, 0⟩, u)],
           ash := some { s.chip.ash with fences := s.chip.ash.fences.filter (fun f => !forcedPick kind (some u) f) },
           events := [⟨0x70, kind, 2 ^ 30 + kind * 2 ^ 24 + u, false⟩] }))
      ∧ (∀ (kind u r : Nat), kind < 16 → r = s.chip.forceResult true kind u → r ≠ 0 → Effect (.forceLift p kind u) s
        ({ regs := [(⟨ASH_FORCE_STAT.RESULT, 0⟩, r), (⟨ASH_FORCE_STAT.KIND, 0⟩, kind), (⟨ASH_FORCE_STAT.UNIT, 0⟩, u % 256)],
           events := [⟨0x71, kind, (2 ^ 30 + kind * 2 ^ 24 + u % 256) % 2 ^ 28 + r * 2 ^ 28, false⟩] }))
      ∧ (∀ (src u r : Nat), src < 256 → u < 256 →
          r = (if s.chip.forceAllowed true = false then 1 else if srcRow src = none then 2 else if unitOk src u = false then 3 else 0) →
          r ≠ 0 → Effect (.inject p src u) s
        ({ events := [⟨0x71, 0xF0, src * 2 ^ 16 + u + r * 2 ^ 28, false⟩] }))
      ∧ (∀ (src u : Nat), src < 256 → u < 256 → s.chip.forceAllowed true = true → (srcRow src).isSome = true →
          unitOk src u = true →
          ([0x10, 0x11, 0x12, 0x13, 0x20, 0x21, 0x28, 0x2A, 0x2B, 0x58] : List Nat).contains src = false →
          Effect (.inject p src u) s
        ({ events := [⟨0x70, 0xF0, 2 ^ 31 + src * 2 ^ 16 + u, false⟩, ⟨src, u, s.chip.get ASH_INJ_DETAIL.DETAIL 0, true⟩] }))
      ∧ (∀ (src u : Nat), src < 256 → u < 256 → s.chip.forceAllowed true = true → (srcRow src).isSome = true →
          unitOk src u = true → src = 0x58 → u = 0 → Effect (.inject p src u) s
        ({ regs := [(⟨CRD_EVT.ES_FAIL, 0⟩, 1), (⟨CRD_STAT.DRBG_READY, 0⟩, 0), (⟨CRD_STAT.ES_OK, 0⟩, 0)], events := [⟨0x70,
            0xF0, 2 ^ 31 + src * 2 ^ 16 + u, false⟩, ⟨src, u, s.chip.get ASH_INJ_DETAIL.DETAIL 0, true⟩] }))
      ∧ (∀ (n : SlotId), s.chip.forceAllowed true = true → 1 ≤ s.chip.slotState n → s.chip.slotState n ≤ stBUSY →
          s.chip.Bare n → Effect (.inject p 0x10 n) s
        (({ events := [⟨0x70, 0xF0, 2 ^ 31 + 0x10 * 2 ^ 16 + n, false⟩, ⟨0x10, n, s.chip.get ASH_INJ_DETAIL.DETAIL 0,
            true⟩] } : Change).plus
           (deactivation s.chip n .fault cauSHORT)))

/-- A write of ASH_CMD with a wrong KEY, and WARM while TAMPER_N is asserted, is discarded with source 0x1C; during a
transition past its staging WARM does nothing. Otherwise a warm reset is pending, and an active slot that carries no
leg deactivates with cause WARM_DEV. LIFT_PORT lifts the fences of source 0x44 of the ports it names that do not
serve. While no warm reset is pending or a slot is active, WARM_RESET_PROCEED does nothing. A pending warm reset
proceeds once every slot is inactive, shown on a device without Cinder work, margin or transition: the registers that
R11 and log entry 31 keep stay, every other returns to its reset value, and a lost port that does not serve stays
lost. Slots keep only what makes them clinkers and what their last cold activation latched; rings, entries, sessions,
contexts, overlays and waiting requests are gone, the key store, operand memory and list memory are zeroised. The
fences that R390 lifts are lifted, the safe state ends and ALERT_N is released. On a device that was past its core
stage the selection of a base image follows. Nothing else of the block changes. (R10, R11, R112, R291, R381, R390,
R402, R414, R445) -/
def Obligations.AshCommandsAndWarmReset : Prop :=
  (∀ (p : Path) (key : Nat) (s : State), s.Still → s.chip.served p blkASH true true = true →
      (∀ (i : Instr), key ≠ 0x5A → (i = .warm p key ∨ i = .liftPort p key 3) → Effect (i) s
        ({ events := [⟨0x1C, 2, 0, false⟩] }))
      ∧ (key = 0x5A → s.chip.ash.tamper = true → Effect (.warm p key) s ({ events := [⟨0x1C, 2, 0, false⟩] }))
      ∧ (key = 0x5A → s.chip.ash.tamper = false → s.chip.kln.lc.isSome = true → 1 < s.chip.get KLN_LC_STAT.PHASE 0 →
          Effect (.warm p key) s ({}))
      ∧ (key = 0x5A → s.chip.ash.tamper = false → (s.chip.kln.lc = none ∨ s.chip.get KLN_LC_STAT.PHASE 0 ≤ 1) →
          (∀ n ∈ List.range 64, s.chip.slotState n = stOFF ∨ s.chip.slotState n = stABSENT ∨ s.chip.slotState n = stCLINKER) →
          Effect (.warm p key) s ({ ash := some { s.chip.ash with warmPend := true } }))
      ∧ (∀ (n : SlotId), key = 0x5A → s.chip.ash.tamper = false →
          (s.chip.kln.lc = none ∨ s.chip.get KLN_LC_STAT.PHASE 0 ≤ 1) → 1 ≤ s.chip.slotState n →
          s.chip.slotState n ≤ stBUSY → s.chip.Bare n →
          (∀ m ∈ List.range 64, m = n.val ∨ s.chip.slotState m = stOFF ∨ s.chip.slotState m = stABSENT ∨ s.chip.slotState m = stCLINKER) →
          Effect (.warm p key) s
        (({ ash := some { s.chip.ash with warmPend := true } } : Change).plus (deactivation s.chip n .commanded cauWARMDEV)))
      ∧ (∀ (ports : Nat), key = 0x5A → (∀ x ∈ List.range 2, s.chip.serving x = false) →
          Effect (.liftPort p key ports) s
        ({ ash := some { s.chip.ash with
             fences := s.chip.ash.fences.filter (fun f => match f.unit with
               | .port x => !(decide (f.src = 0x44) && !f.forced && ports.testBit x)
               | _ => true) } })))
  ∧ (∀ (s : State), s.Still →
      (s.chip.ash.warmPend = false ∨ s.chip.allInactive = false) → Effect (.warmResetProceed) s ({}))
  ∧ (∀ (s : State), s.Still → s.chip.ash.warmPend = true →
    (∀ n ∈ List.range 64, s.chip.slotState n = stOFF ∨ s.chip.slotState n = stABSENT ∨ s.chip.slotState n = stCLINKER) →
    s.chip.pmb.bel.phase = .none → s.chip.domUp 16 = true → s.chip.NoCinder → s.chip.dmp.grants = [] →
    s.chip.get KLN_LC_STAT.PHASE 0 = 0 →
    ∃ c' : Chip, exec .warmResetProceed s
        = .next ([MemOp.wipeOp 0 0x10000, .wipeList 0 0x8000].foldl State.applyMem { s with chip := c' }).settle.coldDue
      ∧ (∀ f i, c'.get f i =
          if f = FLU_PORT_STAT.LOST ∧ i < 2 ∧ s.chip.on FLU_PORT_STAT.LOST i = true ∧ s.chip.serving i = false then 1
          else if warmKept ⟨f, i⟩ = true then (storeWiped s.chip 3).reg s.chip f i else f.resetAt i)
      ∧ (∀ n, c'.slot n = if n < 64 then (s.chip.slot n).restarted else s.chip.slot n)
      ∧ (∀ k, c'.kzOf k = if k < 3 then unkeyed (s.chip.kzOf k) else s.chip.kzOf k) ∧ (∀ x, c'.port x = s.chip.port x)
      ∧ c'.rings = [] ∧ c'.entries = [] ∧ c'.stack = StackX.init ∧ c'.sess = [] ∧ c'.ctxs = [] ∧ c'.ember = EmberX.init
      ∧ c'.cord = { drbg := [], drbgReqs := 0, esTest := true } ∧ c'.dmp = { s.chip.dmp with reqs := [], grants := [] }
      ∧ c'.ash = { s.chip.ash with
          inbox := s.chip.ash.inbox ++ (storeWiped s.chip 3).events, fences := s.chip.ash.fences.filter s.chip.warmFence,
          windows := [], pulse := false, fatal := false, drilled := [], safe := false, warmPend := false }
      ∧ c'.kln = { s.chip.kln with
          img := if (s.chip.seqState = sqWAITIMAGE ∨ s.chip.seqState = sqPLAN ∨ s.chip.seqState = sqRUNNING)
            ∧ s.chip.lcRuns = true then some ⟨.select, []⟩ else none,
          ovls := [], job := none, heldRings := [], heldSlots := [], removals := [], baseOn := false, nonce := none, xfer := none,
          mbx := WinX.init }
      ∧ c'.nextUid = s.chip.nextUid ∧ c'.nextOrder = s.chip.nextOrder ∧ c'.seq = s.chip.seq ∧ c'.pmb = s.chip.pmb
      ∧ c'.grp = s.chip.grp ∧ c'.wear = s.chip.wear ∧ c'.blanked = [] ∧ c'.stage = s.chip.stage ∧ c'.mons = s.chip.mons
      ∧ c'.base = s.chip.base ∧ c'.us = s.chip.us ∧ c'.tick = s.chip.tick
      ∧ c'.free = s.chip.free ∧ c'.memq = []
      ∧ c'.out = s.chip.out ++ (if s.chip.alertLow = true then [.alertN false] else []))

/-- An image command starts with the image that KLN_IMG_ADDR names, or ends at once with BUSY or with NOT_NOW. A check
that fails records its RESULT and REC; with no valid image in the store NO_BASE sets; an overlay that passes gets the
lowest free index, is APPLYING and holds what it changes. The commit, once nothing it holds is busy, writes the record
under its mask, keeps the value before, raises the epoch and ends with DONE, a persistent overlay in a free slot of
its store; a removal writes the value back and frees the index. 50 ms without a commit end an application with
QUIET_TIMEOUT. A lifetime that ends starts a removal, or makes it wait. Nothing else of the block changes. (R191,
R403, R404, R409, R410, R413, R416, R417, R418, R419) -/
def Obligations.ImagesAndOverlays : Prop :=
  (∀ (p : Path) (s : State), s.Takes p blkKLN true →
      (∀ (i : Instr) (op : ImgOp),
          (i, op) ∈ ([(.applyBase p, .applyBase), (.storeBase p, .storeBase), (.applyOvl p,
              .applyOvl)] : List (Instr × ImgOp)) →
          s.chip.KilnIdle → (op = .applyBase → s.chip.kln.baseOn = false) → (op = .applyOvl → s.chip.kln.baseOn = true) →
          (op ≠ .applyOvl → s.chip.domUp 19 = true) → Effect (i) s
        ({ regs := [(⟨KLN_IMG_RES.BUSY, 0⟩, 1), (⟨KLN_IMG_RES.OVL, 0⟩, 0), (⟨KLN_IMG_RES.REC, 0⟩, 0), (⟨KLN_IMG_RES.RESULT, 0⟩,
            0),
             (⟨KLN_IMG_RES.OP, 0⟩, op.code)],
           kln := some { s.chip.kln with img := some ⟨op, imgBytes s.sram (s.chip.get KLN_IMG_ADDR.OFFSET 0 * 64)⟩ } }))
      ∧ (∀ (i : Instr) (op : Nat),
          (i, op) ∈ ([(.applyBase p, 1), (.storeBase p, 2), (.applyOvl p, 3), (.removeOvl p 3, 4)] : List (Instr × Nat)) →
          (s.chip.kln.img.isSome = true ∨ s.chip.kln.job.isSome = true ∨ s.chip.on KLN_IMG_RES.BUSY 0 = true) →
          Effect (i) s
        ({ regs := [(⟨KLN_IMG_RES.REC, 0⟩, 0), (⟨KLN_IMG_RES.RESULT, 0⟩, 0xE), (⟨KLN_IMG_RES.OP, 0⟩, op)] }))
      ∧ (∀ (i : Instr) (op : Nat), ((i, op) = (.applyBase p, 1) ∧ (s.chip.kln.baseOn = true ∨ s.chip.domUp 19 = false)
            ∨ (i, op) = (.storeBase p, 2) ∧ s.chip.domUp 19 = false ∨ (i, op) = (.applyOvl p, 3) ∧ s.chip.kln.baseOn = false) →
          s.chip.KilnIdle → Effect (i) s
        ({ regs := [(⟨KLN_IMG_RES.REC, 0⟩, 0), (⟨KLN_IMG_RES.RESULT, 0⟩, 0xF), (⟨KLN_IMG_RES.OP, 0⟩, op)] }))
      ∧ (∀ (k : Nat) (o : OvlX), k < 8 → s.chip.KilnIdle → s.chip.ovl? k = some o →
          s.chip.get KLN_OVL_STAT.STATE k = 2 → o.mode ≠ 2 → Effect (.removeOvl p k) s
        ({ regs := (⟨KLN_OVL_STAT.STATE, k⟩, 3) :: [(⟨KLN_IMG_RES.BUSY, 0⟩, 1), (⟨KLN_IMG_RES.OVL, 0⟩, 0), (⟨KLN_IMG_RES.REC,
            0⟩, 0), (⟨KLN_IMG_RES.RESULT, 0⟩, 0),
             (⟨KLN_IMG_RES.OP, 0⟩, 4)],
           kln := some { heldBy s.chip o with job := some ⟨k, true, true⟩ } }))
      ∧ (∀ (k : Nat), k < 8 → s.chip.KilnIdle → s.chip.get KLN_OVL_STAT.STATE k ≠ 2 → Effect (.removeOvl p k) s
        ({ regs := [(⟨KLN_IMG_RES.REC, 0⟩, 0), (⟨KLN_IMG_RES.RESULT, 0⟩, 0xF), (⟨KLN_IMG_RES.OP, 0⟩, 4)] })))
  ∧ (∀ (s : State), s.Still → s.chip.kln.removals = [] →
      (s.chip.kln.img = none → Effect (.imageCheckEnd) s ({}))
      ∧ (∀ (j : ImgJob), s.chip.kln.img = some j → j.op = .select → s.chip.domUp 19 = false →
          Effect (.imageCheckEnd) s
        ({ regs := [(⟨KLN_CFG_STAT.NO_BASE, 0⟩, 1), (⟨KLN_CFG_STAT.SLOT1_OK, 0⟩, 0), (⟨KLN_CFG_STAT.SLOT0_OK, 0⟩, 0)],
           kln := some { s.chip.kln with img := none } }))
      ∧ (∀ (j : ImgJob) (res num : Nat), s.chip.kln.img = some j → (j.op = .applyBase ∨ j.op = .storeBase) →
          s.chip.imgCheck s.otp s.nvs true false j.bytes = .inl (res, num) → Effect (.imageCheckEnd) s
        ({ regs := imgEnds s.chip res num, kln := some { s.chip.kln with img := none } }))
      ∧ (∀ (j : ImgJob) (res num : Nat), s.chip.kln.img = some j → j.op = .applyOvl →
          s.chip.imgCheck s.otp s.nvs false false j.bytes = .inl (res, num) → (match imgForm false j.bytes with
            | .inr m => decide (m.mode ≠ 2)
            | .inl _ => true) = true →Effect (.imageCheckEnd) s
        ({ regs := imgEnds s.chip res num, kln := some { s.chip.kln with img := none } }))
      ∧ (∀ (j : ImgJob) (m : Img) (k : Nat) (o : OvlX), s.chip.kln.img = some j → j.op = .applyOvl →
          imgForm false j.bytes = .inr m → s.chip.imgCheck s.otp s.nvs false false j.bytes = .inr m → m.mode = 1 →
          m.persist = false → s.chip.ovlFree = some k → o = ⟨k, 1, m.recs, m.routes, [], [], false, j.bytes⟩ →
          Effect (.imageCheckEnd) s
        ({ regs := [(⟨KLN_IMG_RES.OVL, 0⟩, k), (⟨KLN_OVL_STAT.REMAIN, k⟩, m.lifetime), (⟨KLN_OVL_STAT.MODE, k⟩, 1),
            (⟨KLN_OVL_STAT.STATE, k⟩, 1)],
           resets := [(.KLN_OVL_STAT, k)],
           kln := some { heldBy s.chip o with img := none, ovls := s.chip.kln.ovls ++ [o], job := some ⟨k, false, true⟩ } }))
      ∧ (s.chip.kln.job = none → Effect (.overlayCommit) s ({}))
      ∧ (∀ (j : OvlJob) (o : OvlX), s.chip.kln.job = some j → s.chip.ovl? j.index = some o → s.chip.quiet o = false →
          Effect (.overlayCommit) s ({}))
      ∧ (∀ (j : OvlJob) (o : OvlX) (addr v old : Nat), s.chip.kln.job = some j → j.removing = false →
          s.chip.ovl? j.index = some o → s.chip.quiet o = true → o.mode = 1 → o.persist = false →
          regAt addr = some (.FLU_SCHED_CFG, 0) → v < 51 → o.recs = [⟨addr, 2 ^ 16 * v, 0x00FF0000⟩] → o.routes = [] →
          old = s.chip.word .FLU_SCHED_CFG 0 → s.chip.on HTH_MON_GSTAT.FIXED_M1 0 = decide (32 < s.chip.activeSlots) →
          Effect (.overlayCommit) s
        ({ regs := imgEnds s.chip 0 0 ++ [(⟨KLN_OVL_STAT.STATE, o.index⟩, 2), (⟨HTH_MON_GSTAT.ACTIVE, 0⟩, s.chip.activeSlots),
             (⟨KLN_OVL_EPOCH.EPOCH, 0⟩, (s.chip.get KLN_OVL_EPOCH.EPOCH 0 + 1) % 2 ^ 32), (⟨FLU_SCHED_CFG.CL0_FLOOR, 0⟩, v)],
           kln := some { s.chip.kln with
             job := none, heldRings := [], heldSlots := [],
             ovls := s.chip.kln.ovls.map (fun q => if q.index = o.index then
               { q with saved := [⟨addr, old, 0x00FF0000⟩], savedRoutes := [] } else q) } }))
      ∧ (∀ (j : OvlJob) (o : OvlX) (k : Nat), s.chip.kln.job = some j → j.removing = false →
          s.chip.ovl? j.index = some o → s.chip.quiet o = true → o.mode = 1 → o.persist = true → o.recs = [] →
          o.routes = [] → (List.range 16).find? (fun k => (tabFind s.nvs.ovl k).isNone) = some k →
          s.chip.on HTH_MON_GSTAT.FIXED_M1 0 = decide (32 < s.chip.activeSlots) → Effect (.overlayCommit) s
        ({ regs := imgEnds s.chip 0 0 ++ [(⟨KLN_CFG_STAT.STORED, 0⟩, s.chip.satInc KLN_CFG_STAT.STORED 0),
            (⟨KLN_OVL_STAT.STORE, o.index⟩, k),
             (⟨KLN_OVL_STAT.STATE, o.index⟩, 2), (⟨HTH_MON_GSTAT.ACTIVE, 0⟩, s.chip.activeSlots), (⟨KLN_OVL_EPOCH.EPOCH, 0⟩,
                 (s.chip.get KLN_OVL_EPOCH.EPOCH 0 + 1) % 2 ^ 32)],
           kln := some { s.chip.kln with
             job := none, heldRings := [], heldSlots := [],
             ovls := s.chip.kln.ovls.map (fun q => if q.index = o.index then { q with saved := [], savedRoutes := [] } else q) },
           mems := [.nvsOvl k o.image] }))
      ∧ (∀ (j : OvlJob) (o : OvlX) (addr v : Nat), s.chip.kln.job = some j → j.removing = true →
          s.chip.ovl? j.index = some o → s.chip.quiet o = true → o.mode = 1 → regAt addr = some (.FLU_SCHED_CFG, 0) →
          v < 51 → o.recs.any recPins = false → o.saved = [⟨addr, 2 ^ 16 * v, 0x00FF0000⟩] → o.savedRoutes = [] →
          o.routes = [] → 16 ≤ s.chip.get KLN_OVL_STAT.STORE o.index →
          s.chip.on HTH_MON_GSTAT.FIXED_M1 0 = decide (32 < s.chip.activeSlots) → Effect (.overlayCommit) s
        ({ regs := imgEnds s.chip 0 0 ++ [(⟨HTH_MON_GSTAT.ACTIVE, 0⟩, s.chip.activeSlots), (⟨KLN_OVL_EPOCH.EPOCH, 0⟩,
            (s.chip.get KLN_OVL_EPOCH.EPOCH 0 + 1) % 2 ^ 32),
             (⟨FLU_SCHED_CFG.CL0_FLOOR, 0⟩, v)],
           resets := [(.KLN_OVL_STAT, o.index)],
           kln := some { s.chip.kln with
             job := none, heldRings := [], heldSlots := [], ovls := s.chip.kln.ovls.filter (fun q => decide (q.index ≠ o.index)) } }))
      ∧ (∀ (j : OvlJob) (o : OvlX), s.chip.kln.job = some j → j.removing = false → s.chip.ovl? j.index = some o →
          Effect (.quietTimeout) s
        ({ regs := imgEnds s.chip 0xC 0, resets := [(.KLN_OVL_STAT, o.index)],
           kln := some { s.chip.kln with
             job := none, heldRings := [], heldSlots := [], ovls := s.chip.kln.ovls.filter (fun q => decide (q.index ≠ o.index)) } }))
      ∧ ((s.chip.kln.job = none ∨ s.chip.kln.job.any (fun j => j.removing) = true) → Effect (.quietTimeout) s ({}))
      ∧ (∀ (k : Fin 8) (o : OvlX), s.chip.KilnIdle → s.chip.ovl? k = some o → s.chip.get KLN_OVL_STAT.STATE k = 2 →
          o.mode ≠ 2 → Effect (.lifetimeExpiry k) s
        ({ regs := [(⟨KLN_OVL_STAT.STATE, k⟩, 3)], kln := some { heldBy s.chip o with job := some ⟨k, true, true⟩ } }))
      ∧ (∀ (k : Fin 8) (o : OvlX), s.chip.kln.job.isSome = true → s.chip.ovl? k = some o →
          s.chip.get KLN_OVL_STAT.STATE k = 2 → Effect (.lifetimeExpiry k) s
        ({ kln := some { s.chip.kln with removals := [k.val] } })))

/-- A GO while a request or a transition runs sets CMD_REFUSED with source 0x1C. A request that a check of R441 turns away
ends with its LC_ERR and uses up the nonce. CHALLENGE gives a new nonce of free bytes; ATTEST hands the state to Ember
for its signature and stays busy. With all checks passed GRANT stores and shows its mask and boots, TENANT_LOCK its
bits, VOTE_REPAIR its value, ROOT_REVOKE burns the bits of its root; ROOT_LOAD stores a key that matches a live root,
else ends with NO_ROOT; REVOKE_GRANTS ends the grants. KEY_XFER without a ceremony in force ends with POLICY; else the
release goes to the leg queue of its card. Nothing else of the block changes. (R424, R425, R426, R436, R437, R439,
R441, R442, R449, R452, R453, R454) -/
def Obligations.MailboxRequests : Prop :=
  (∀ (p : Path) (s : State), s.Takes p blkSTK (s.chip.domUp 16) →
      (∀ (i : Instr),
          i ∈ ([.keyXfer p, .challenge p, .attest p, .grant p, .revokeGrants p, .transition p, .tenantLock p, .rootLoad p,
            .rootRevoke p, .voteRepair p] : List Instr) →
          (s.chip.on STK_MBX_STAT.BUSY 0 = true ∨ s.chip.kln.lc.isSome = true) → Effect (i) s
        ({ regs := [(⟨STK_MBX_STAT.CMD_REFUSED, 0⟩, 1)], events := [⟨0x1C, blkSTK, 0, false⟩] }))
      ∧ (∀ (i : Instr) (op err : Nat),
          (i, op) ∈ ([(.grant p, 3), (.tenantLock p, 6), (.rootRevoke p, 8), (.voteRepair p, 9)] : List (Instr × Nat)) →
          s.chip.MbxFree → s.chip.mbxTokens ≠ [] → err = s.chip.requestErr s.otp s.nvs op → err ≠ 0 →
          Effect (i) s (tokenUsed s.chip op err))
      ∧ (∀ (i : Instr) (op : Nat),
          (i, op) ∈ ([(.grant p, 3), (.tenantLock p, 6), (.rootRevoke p, 8), (.voteRepair p, 9)] : List (Instr × Nat)) →
          s.chip.MbxFree → s.chip.mbxTokens = [] → Effect (i) s (mbxVerdict s.chip op 1))
      ∧ (s.chip.MbxFree → s.chip.opActs 1 = true → s.chip.on CRD_STAT.DRBG_READY 0 = true → Effect (.challenge p) s
        ({ regs := (⟨KLN_DBG_STAT.CHAL_LIVE, 0⟩, 1) :: (mbxAnswer s.chip 1 stsOK [] true).regs,
           kln := some { s.chip.kln with
             mbx := ⟨bytesWords (Config.freeBytes s.chip.free 32), stsOK, true, true,
                 false⟩, nonce := some (Config.freeBytes s.chip.free 32) },
           cord := some { s.chip.cord with drbgReqs := s.chip.cord.drbgReqs + 1 }, free := some (s.chip.free + 1) }))
      ∧ (s.chip.MbxFree → s.chip.opActs 1 = false → Effect (.challenge p) s (mbxVerdict s.chip 1 6))
      ∧ (∀ (d : Nat) (dev st : List Byte), s.chip.MbxFree → s.chip.opActs 2 = true → idPriv s.otp = some d →
          devIdOf s.otp = some dev →
          st = [0xA7, BitVec.ofNat 8 s.chip.lcState, 0, 0] ++ beBytes 4 (s.chip.get KLN_LC_MARK.VALUE 0) ++ s.chip.mbxBytes 0 32
              ++ dev →
          s.chip.StokerFull → Effect (.attest p) s
        ({ regs := [(⟨STK_MBX_STAT.BUSY, 0⟩, 1), (⟨STK_MBX_STAT.OP, 0⟩, 2)],
           kln := some { s.chip.kln with mbx := WinX.init },
           ember := some { s.chip.ember with
             stokerQ := s.chip.ember.stokerQ ++ [(.attest st, 0x23, leBytes 48 d ++ limbBytes (sha384 st))] } }))
      ∧ (s.chip.MbxFree → s.chip.opActs 2 = true → idPriv s.otp = none → Effect (.attest p) s
        ({ mbxVerdict s.chip 2 0 with kln := some { s.chip.kln with mbx := ⟨[0x200], stsPOLICY, false, true, false⟩ } }))
      ∧ (∀ (t : Token), s.chip.MbxFree → s.chip.requestErr s.otp s.nvs 3 = 0 → t = s.chip.token →
          s.chip.bscan = false → (t.num 4).testBit 1 = false → Effect (.grant p) s
        ({ tokenUsed s.chip 3 0 with
           regs := (⟨KLN_DBG_STAT.BOOTS, 0⟩, t.arg0) :: (⟨KLN_DBG_STAT.HELD, 0⟩, t.num 4) :: (tokenUsed s.chip 3 0).regs,
           mems := [.nvsVote 2 (t.num 4 + t.arg0 * 2 ^ 32)] }))
      ∧ (s.chip.MbxFree → s.chip.opActs 4 = true → s.chip.domUp 19 = true → s.chip.bscan = false →
          Effect (.revokeGrants p) s
        ({ mbxVerdict s.chip 4 0 with
           regs := (⟨KLN_DBG_STAT.BOOTS, 0⟩, 0) :: (⟨KLN_DBG_STAT.HELD, 0⟩,
               0) :: (mbxVerdict s.chip 4 0).regs, mems := [.nvsVote 2 0] }))
      ∧ (s.chip.MbxFree → s.chip.opActs 4 = true → s.chip.domUp 19 = false → Effect (.revokeGrants p) s
        (mbxVerdict s.chip 4 7))
      ∧ (∀ (t : Token), s.chip.MbxFree → s.chip.requestErr s.otp s.nvs 6 = 0 → t = s.chip.token →
          Effect (.tenantLock p) s
        ({ tokenUsed s.chip 6 0 with
           regs := (⟨KLN_TLOCK.LOCK, 1⟩, t.num 8 / 2 ^ 32) :: (⟨KLN_TLOCK.LOCK, 0⟩,
               t.num 8 % 2 ^ 32) :: (tokenUsed s.chip 6 0).regs,
           mems := [.nvsVote 3 (t.num 8)] }))
      ∧ (∀ (k : Nat) (key : List Byte), s.chip.MbxFree → k = (s.chip.mbxByte 0).toNat → k < 4 →
          (∀ b ∈ s.chip.mbxBytes 1 3, b = 0) → s.chip.opActs 7 = true → s.chip.domUp 19 = true →
          key = s.chip.mbxBytes 4 97 → rootStat s.otp k = 1 → wordsBytes (otpWords s.otp (otpRoot k) 12) = sha384 key →
          Effect (.rootLoad p) s ({ mbxVerdict s.chip 7 0 with mems := [.nvsKey k key] }))
      ∧ (∀ (k : Nat), s.chip.MbxFree → k = (s.chip.mbxByte 0).toNat → k < 4 → (∀ b ∈ s.chip.mbxBytes 1 3, b = 0) →
          s.chip.opActs 7 = true → s.chip.domUp 19 = true → rootStat s.otp k ≠ 1 → Effect (.rootLoad p) s
        ({ mbxVerdict s.chip 7 9 with kln := some { s.chip.kln with mbx := ⟨[0x709], stsPOLICY, false, true, false⟩ } }))
      ∧ (∀ (t : Token), s.chip.MbxFree → s.chip.requestErr s.otp s.nvs 8 = 0 → t = s.chip.token →
          Effect (.rootRevoke p) s
        ({ tokenUsed s.chip 8 0 with mems := [.burn otpRootCtl (3 * 2 ^ (16 + 4 * t.arg0))] }))
      ∧ (∀ (t : Token), s.chip.MbxFree → s.chip.requestErr s.otp s.nvs 9 = 0 → t = s.chip.token →
          Effect (.voteRepair p) s
        ({ tokenUsed s.chip 9 0 with
           regs := (⟨if t.arg0 = 0 then KLN_VER_FLOOR.VALUE else KLN_CER_SEQ.COUNTER, 0⟩,
               t.num 4) :: (tokenUsed s.chip 9 0).regs,
           mems := [.nvsVote t.arg0 (t.num 4)] }))
      ∧ (s.chip.MbxFree → s.chip.on KLN_CER_STAT.CER_ON 0 = false → Effect (.keyXfer p) s
        (mbxAnswer s.chip 0x21 stsPOLICY [0, 0] false))
      ∧ (∀ (n : Fin 4) (hdr rel : List Byte) (a b : Apdu), s.chip.MbxFree → s.chip.on KLN_CER_STAT.CER_ON 0 = true →
          (s.chip.inQuorum n (s.chip.get KLN_CER_STAT.ROLE_X 0) = true
            ∨ s.chip.inQuorum n (s.chip.get KLN_CER_STAT.ROLE_Y 0) = true) →s.chip.mbxByte 0 = BitVec.ofNat 8 n →
          s.chip.mbxByte 1 = 0 → leNat (s.chip.mbxBytes 2 2) < 4096 → 4 ≤ leNat (s.chip.mbxBytes 4 2) →
          leNat (s.chip.mbxBytes 4 2) ≤ 255 → hdr = s.chip.mbxBytes 6 4 →
          rel = s.chip.mbxBytes 10 (leNat (s.chip.mbxBytes 4 2)) → apduOf rel = some a → apduPolicy a = false →
          apduOf (hdr ++ [1, 0]) = some b → apduPolicy b = false → s.chip.grp.dev < 4 →
          (∀ e ∈ s.chip.entries, e.uid ≠ s.chip.nextUid) → Effect (.keyXfer p) s
        ({ regs := [(⟨STK_MBX_STAT.BUSY, 0⟩, 1), (⟨STK_MBX_STAT.OP, 0⟩, 0x21)],
           kln := some { s.chip.kln with
             mbx := WinX.init, xfer := some ⟨n, leNat (s.chip.mbxBytes 2 2), hdr, .release, 0, 0, none⟩ },
           entries := some (s.chip.entries ++ [releaseEntry s.chip n rel]), nextUid := some (s.chip.nextUid + 1),
           nextOrder := some (s.chip.nextOrder + 1),
           slots := [(n, { s.chip.slot n with queue :=
             (s.chip.slot n).queue ++ [⟨.entry s.chip.nextUid false, 512, 0, 0, s.chip.nextOrder + 1, false, true,
                 rel⟩] })] })))
  ∧ (∀ (s : State), s.Still →
      Effect (.nonceExpiry) s
        ({ regs := [(⟨KLN_DBG_STAT.CHAL_LIVE, 0⟩, 0)], kln := some { s.chip.kln with nonce := none } }))

/-- A transition that passes its checks on a device with inactive slots, disabled rings and no overlay enters the quiesce,
without a token over the SPI from Blank or with an owner's token to End of life. Step 1 zeroises the key store with
cause 4; step 2 burns the roots and their controls, 3 the private identity, 5 the live bits of the staged roots; 4
erases the NVS and, for Analysis and End of life, keeps the wear record; 6 has Ember make a new identity, which is
burned into a blank slot. The done mark and the state word are burned, and a cold reset is requested. Steps other than
1 wait for PD19. Nothing else of the block changes. (R291, R338, R430, R431, R438, R441, R443, R444, R445) -/
def Obligations.LifeCycleTransition : Prop :=
  (∀ (p : Path) (s : State), s.Takes p blkSTK (s.chip.domUp 16) → s.chip.MbxFree →
      (∀ n ∈ List.range 64, s.chip.slotState n = stOFF ∨ s.chip.slotState n = stABSENT ∨ s.chip.slotState n = stCLINKER) →
      (∀ r ∈ s.chip.definedRings, s.chip.ringState r = rsDISABLED) → s.chip.kln.ovls = [] →
      s.chip.on KLN_CER_STAT.CER_ON 0 = false →
      (∀ (j : LcJob), p = .spi → s.chip.mbxTokens = [] → s.chip.requestErr s.otp s.nvs 5 = 0 →
          j = ⟨lcTest, .quiesce, false, false, false⟩ → Effect (.transition p) s
        ({ regs := lcRegs j ++ [(⟨STK_MBX_STAT.BUSY, 0⟩, 1), (⟨STK_MBX_STAT.OP, 0⟩, 5)],
           kln := some { s.chip.kln with mbx := WinX.init, lc := some j, job := none, heldRings := [], heldSlots := [], removals := [] } }))
      ∧ (∀ (j : LcJob), s.chip.lcState ≠ lcBlank → s.chip.requestErr s.otp s.nvs 5 = 0 → s.chip.token.arg0 = lcEnd →
          j = ⟨lcEnd, .quiesce, false, false, false⟩ → Effect (.transition p) s
        ({ regs := lcRegs j ++ [(⟨KLN_DBG_STAT.CHAL_LIVE, 0⟩, 0), (⟨STK_MBX_STAT.BUSY, 0⟩, 1), (⟨STK_MBX_STAT.OP, 0⟩, 5)],
           kln := some { s.chip.kln with
             mbx := WinX.init, nonce := none, lc := some j, job := none, heldRings := [], heldSlots := [], removals := [] } })))
  ∧ (∀ (s : State), s.Still →
      s.chip.kln.lc = none → Effect (.transitionStepEnd) s ({}))
  ∧ (∀ (j : LcJob) (s : State), s.Still → s.chip.kln.lc = some j →
      (j.phase = .step 1 → s.chip.domUp 16 = true → s.chip.NoCinder → Effect (.transitionStepEnd) s
        ((storeWiped s.chip 4).plus (lcGoes s.chip { j with phase := lcNext j.target j.phase })))
      ∧ (∀ (k : Nat), j.phase = .step k → k ≠ 1 → s.chip.domUp 19 = false → Effect (.transitionStepEnd) s ({})))
  ∧ (∀ (j : LcJob) (s : State), s.Still → s.chip.kln.lc = some j → s.chip.domUp 19 = true →
      (j.phase = .step 2 → Effect (.transitionStepEnd) s
        ({ lcGoes s.chip { j with phase := lcNext j.target j.phase } with
           mems := .burn otpRootCtl 0xFFFFFFFF :: (List.range 48).map (fun i => .burn (otpRoot (i / 12) + i % 12) 0xFFFFFFFF) }))
      ∧ (j.phase = .step 3 → idInUse s.otp < 3 → Effect (.transitionStepEnd) s
        ({ lcGoes s.chip { j with phase := lcNext j.target j.phase } with
           mems := (List.range 12).map (fun i => .burn (otpId (idInUse s.otp) + i) 0xFFFFFFFF) }))
      ∧ (j.phase = .step 4 → s.chip.bscan = false →
          lcNext j.target j.phase = .step 6 → s.chip.on CRD_STAT.DRBG_READY 0 = false →
          Effect (.transitionStepEnd) s
        ({ lcGoes s.chip { j with phase := lcNext j.target j.phase } with
           regs := lcRegs { j with phase := lcNext j.target j.phase } ++ [(⟨ASH_JRN_HEAD.NVS_NEXT, 0⟩, 0),
               (⟨KLN_CFG_STAT.STORED, 0⟩, 0),
             (⟨KLN_DBG_STAT.BOOTS, 0⟩, 0), (⟨KLN_DBG_STAT.HELD, 0⟩, 0), (⟨KLN_TLOCK.LOCK, 1⟩, 0), (⟨KLN_TLOCK.LOCK, 0⟩, 0),
             (⟨KLN_CER_SEQ.COUNTER, 0⟩, 0), (⟨KLN_VER_FLOOR.VALUE, 0⟩, 0)],
           mems := .nvsErase (decide (j.target = lcProduction)) ::
             (if j.target = lcAnalysis ∨ j.target = lcEnd then [.nvsWear s.chip.wearRec] else []) }))
      ∧ (j.phase = .step 5 → Effect (.transitionStepEnd) s
        ({ lcGoes s.chip { j with phase := lcNext j.target j.phase } with
           mems := ((List.range 4).filter (fun k => !(allZero (otpWords s.otp (otpRoot k) 12) || allOnes (otpWords s.otp (otpRoot k) 12)))).map
             (fun k => .burn otpRootCtl (3 * 2 ^ (4 * k))) }))
      ∧ (j.phase = .step 6 → s.chip.safe = false → s.chip.arrayFenced = false →
          s.chip.on CRD_STAT.DRBG_READY 0 = true → s.chip.hasJob .identity = false → s.chip.StokerFull →
          s.env.blankId = true → s.chip.kln.idGen = none → Effect (.transitionStepEnd) s
        ({ ember := some { s.chip.ember with stokerQ := s.chip.ember.stokerQ ++ [(.identity, 0x21, [])] } }))
      ∧ (j.phase = .step 4 → j.target = lcTest ∨ j.target = lcAnalysis → s.env.blankId = true →
          s.chip.kln.idGen = none → s.chip.safe = false → s.chip.arrayFenced = false →
          s.chip.on CRD_STAT.DRBG_READY 0 = true → s.chip.hasJob .identity = false → s.chip.StokerFull →
          s.chip.bscan = false → Effect (.transitionStepEnd) s
        ({ lcGoes s.chip { j with phase := lcNext j.target j.phase } with
           regs := lcRegs { j with phase := lcNext j.target j.phase } ++ [(⟨ASH_JRN_HEAD.NVS_NEXT, 0⟩, 0),
               (⟨KLN_CFG_STAT.STORED, 0⟩, 0),
             (⟨KLN_DBG_STAT.BOOTS, 0⟩, 0), (⟨KLN_DBG_STAT.HELD, 0⟩, 0), (⟨KLN_TLOCK.LOCK, 1⟩, 0), (⟨KLN_TLOCK.LOCK, 0⟩, 0),
             (⟨KLN_CER_SEQ.COUNTER, 0⟩, 0), (⟨KLN_VER_FLOOR.VALUE, 0⟩, 0)],
           mems := .nvsErase (decide (j.target = lcProduction)) ::
             (if j.target = lcAnalysis ∨ j.target = lcEnd then [.nvsWear s.chip.wearRec] else []),
           ember := some { s.chip.ember with stokerQ := s.chip.ember.stokerQ ++ [(.identity, 0x21, [])] } }))
      ∧ (∀ (k : Nat) (pair : List Byte), j.phase = .step 6 → s.chip.safe = false → s.chip.kln.idGen = some pair →
          (∀ i ∈ List.range 3, idStat s.otp i ≠ 3) →
          (List.range 3).find? (fun i => decide (idStat s.otp i = 0)) = some k →
          Effect (.transitionStepEnd) s
        ({ lcGoes s.chip { j with phase := lcNext j.target j.phase } with
           kln := some { s.chip.kln with lc := some { j with phase := lcNext j.target j.phase }, idGen := none },
           mems := (bytesWords pair).zipIdx.map (fun w => .burn (otpId k + w.2) w.1) ++ [.burn (otpId k + 36) 0xF] }))
      ∧ (∀ (v : Nat), j.phase = .doneMark → v = 0xF * 2 ^ (8 * (j.target - 2) + 4) → Effect (.transitionStepEnd) s
        ({ lcGoes s.chip { j with phase := lcNext j.target j.phase } with
           regs := (⟨KLN_LC_MARK.VALUE, 0⟩,
               (s.chip.get KLN_LC_MARK.VALUE 0 ||| v) % 2 ^ 32) :: lcRegs { j with phase := .stateBurn },
           kln := some { s.chip.kln with lc := some { j with phase := .stateBurn } }, mems := [.burn otpLcMark v] }))
      ∧ (j.phase = .stateBurn → s.chip.canDown = false → Effect (.transitionStepEnd) s
        ({ regs := (⟨DRG_SEQ_STAT.COLD_PEND, 0⟩, 1) :: lcRegs { j with phase := .coldReset }
             ++ [(⟨KLN_LC_WORD.VALUE, 0⟩, (s.chip.get KLN_LC_WORD.VALUE 0 ||| lcPattern j.target) % 2 ^ 32)],
           kln := some { s.chip.kln with lc := some { j with phase := .coldReset } }, mems := [.burn otpLcWord (lcPattern j.target)] }))
      ∧ (j.phase = .stateBurn → s.chip.canDown = true → s.chip.AtRest → Effect (.transitionStepEnd) s
        ((quiesced s.chip).plus
           { regs := (⟨DRG_SEQ_STAT.COLD_PEND, 0⟩, 1) :: lcRegs { j with phase := .coldReset }
               ++ [(⟨KLN_LC_WORD.VALUE, 0⟩, (s.chip.get KLN_LC_WORD.VALUE 0 ||| lcPattern j.target) % 2 ^ 32)],
             kln := some { s.chip.kln with lc := some { j with phase := .coldReset } }, mems := [.burn otpLcWord (lcPattern j.target)] })))

/-- PERST_N is what the port last saw. A link that was up and goes down, by PERST_N low or by itself, takes FLU_HP_STAT
back to reset, starts LOSS_TMO and sends source 0x40; one that was down does nothing. A port of a powered device,
outside Blank and with PERST_N high, trains at a speed up to MAX_SPEED and a width of 1, 2 or 4, and at no other. A
configuration write on a link that is up moves D-state, BME and MSE: a port that stops serving starts LOSS_TMO, one
that serves again stops it and sends the messages of its vectors that are pending and unmasked; a port whose link is
down keeps all. Correctable, uncorrectable and fatal errors count in CE_CNT or UE_CNT up to the field's end and send
0x42, 0x43 or 0x44; an unsupported request on a link that is up counts as correctable (R464). Nothing else changes.
(R429, R457, R459, R461, R464) -/
def Obligations.HostPortLinks : Prop :=
  ∀ (x : PortId) (s : State), s.Still →
      (Effect (.perstN x true) s ({ ports := [(x, { s.chip.port x with perstLow := false })] }))
      ∧ (s.chip.on FLU_HP_STAT.DL_UP x = false → Effect (.perstN x false) s
        ({ ports := [(x, { s.chip.port x with perstLow := true })] }))
      ∧ (s.chip.on FLU_HP_STAT.DL_UP x = true → Effect (.perstN x false) s
        ({ resets := [(.FLU_HP_STAT, x)], ports := [(x,
            { s.chip.port x with perstLow := true, lossRun := true })], events := [⟨0x40, x, 0, false⟩] }))
      ∧ (s.chip.on FLU_HP_STAT.DL_UP x = true → Effect (.pcieLinkDown x) s
        ({ resets := [(.FLU_HP_STAT, x)], ports := [(x, { s.chip.port x with lossRun := true })], events := [⟨0x40, x, 0,
            false⟩] }))
      ∧ (s.chip.on FLU_HP_STAT.DL_UP x = false → Effect (.pcieLinkDown x) s ({}))
      ∧ (∀ (speed width : Nat), s.chip.domUp 18 = true → (s.chip.port x).perstLow = false → s.chip.lcState ≠ lcBlank →
          (width = 1 ∨ width = 2 ∨ width = 4) → 1 ≤ speed → speed ≤ s.chip.get FLU_HP_CFG.MAX_SPEED x + 1 → speed ≤ 4 →
          Effect (.linkTrained x speed width) s
        ({ regs := [(⟨FLU_HP_STAT.WIDTH, x⟩, width), (⟨FLU_HP_STAT.SPEED, x⟩, speed), (⟨FLU_HP_STAT.DL_UP, x⟩, 1)] }))
      ∧ (∀ (speed width : Nat),
          (s.chip.domUp 18 = false ∨ (s.chip.port x).perstLow = true ∨ s.chip.lcState = lcBlank ∨ (width ≠ 1 ∧ width ≠ 2 ∧
              width ≠ 4) ∨ speed = 0
            ∨ s.chip.get FLU_HP_CFG.MAX_SPEED x + 1 < speed) →Effect (.linkTrained x speed width) s ({}))
      ∧ (∀ (d3hot bme mse : Bool), s.chip.serving x = true → (d3hot = true ∨ bme = false ∨ mse = false) →
          Effect (.pcieConfigChange x d3hot bme mse) s
        ({ regs := [(⟨FLU_HP_STAT.DSTATE, x⟩, if d3hot = true then 3 else 0), (⟨FLU_HP_STAT.BME, x⟩, bme.toNat),
            (⟨FLU_HP_STAT.MSE, x⟩, mse.toNat)],
           ports := [(x, { s.chip.port x with lossRun := true })] }))
      ∧ (s.chip.domUp 18 = true → s.chip.on FLU_HP_STAT.DL_UP x = true → s.chip.serving x = false →
          s.chip.portFenced x = false → s.chip.on FLU_PORT_STAT.LOST x = false → s.chip.safe = false →
          s.chip.NoRingWork x → Effect (.pcieConfigChange x false true true) s
        ({ regs := [(⟨FLU_HP_STAT.DSTATE, x⟩, 0), (⟨FLU_HP_STAT.BME, x⟩, 1), (⟨FLU_HP_STAT.MSE, x⟩, 1)],
           ports := [(x, { s.chip.port x with lossRun := false, pba := (s.chip.port x).pba.filter (s.chip.msixMasked x) })],
           out := ((s.chip.port x).pba.filter (fun v => !s.chip.msixMasked x v)).map (Out.msix x) }))
      ∧ (∀ (d3hot bme mse : Bool), s.chip.domUp 18 = true → s.chip.on FLU_HP_STAT.DL_UP x = true →
          s.chip.serving x = false → (d3hot = true ∨ bme = false ∨ mse = false) →
          Effect (.pcieConfigChange x d3hot bme mse) s
        ({ regs := [(⟨FLU_HP_STAT.DSTATE, x⟩, if d3hot = true then 3 else 0), (⟨FLU_HP_STAT.BME, x⟩, bme.toNat),
            (⟨FLU_HP_STAT.MSE, x⟩, mse.toNat)] }))
      ∧ (∀ (d3hot bme mse : Bool), (s.chip.domUp 18 = false ∨ s.chip.on FLU_HP_STAT.DL_UP x = false) →
          Effect (.pcieConfigChange x d3hot bme mse) s ({}))
      ∧ (∀ (kind : PcieErr) (f : Fld) (src : Nat), s.chip.domUp 18 = true →
          (kind, f, src) ∈ ([(.correctable, FLU_HP_ERR.CE_CNT, 0x42), (.uncorrectable, FLU_HP_ERR.UE_CNT, 0x43), (.fatal,
              FLU_HP_ERR.UE_CNT, 0x44)]
            : List (PcieErr × Fld × Nat)) →Effect (.pcieError x kind) s
        ({ regs := [(⟨f, x⟩, s.chip.satInc f x)], events := [⟨src, x, 0, false⟩] }))
      ∧ (∀ (kind : InboundKind), s.chip.domUp 18 = true → s.chip.on FLU_HP_STAT.DL_UP x = true →
          Effect (.inboundUnsupported x kind) s
        ({ regs := [(⟨FLU_HP_ERR.CE_CNT, x⟩, s.chip.satInc FLU_HP_ERR.CE_CNT x)], events := [⟨0x42, x, 0, false⟩] }))

/-- An aligned 32-bit write of a register of settings stores the RW fields, and the RWL fields while the configuration
lock is clear, each its bits of the word within its limits; every other field stays. A narrower write of a register is
discarded and sends source 0x09 with the UNIT of its range; so does any write that meets no register or a domain that
is off. An aligned write of 1, 2, 4 or 8 bytes to an SRAM address that no repair group shadows and that lies in the
host's part, or to the operand or list memory of a context of host software that is open, stores those bytes; another
is discarded with source 0x09. A request that reaches past its first access is that access, then the request for the
rest. A write to the MSI-X table sets its word, and one that unmasks a pending vector of an open port sends its
message. A write that is not served does nothing. Nothing else changes. (R5, R6, R7, R9, R22, R44, R302, R460, R461,
R462, R495) -/
def Obligations.RegisterWrites : Prop :=
  (∀ (p : Path) (addr v : Nat) (s : State), s.Still →
      (∀ (r : RegName) (i : Nat), s.chip.served p (blkOf addr) true (decide (addr = 0x200004)) = true →
          s.chip.holdsNothing p addr = none → addr < 0xD80000 → addr % 4 = 0 → regAt addr = some (r, i) →
          r ∈ settingRegs → Effect (.registerWrite p addr 4 v) s
        ({ regs := stored s.chip r i (v % 2 ^ 32) }))
      ∧ (∀ (size : Nat), s.chip.served p (blkOf addr) true (decide (addr = 0x200004)) = true →
          s.chip.holdsNothing p addr = none → addr < 0xD80000 → 1 ≤ size → size < 4 → addr % 4 + size ≤ 4 →
          Effect (.registerWrite p addr size v) s ({ events := [⟨0x09, blkOf addr, 0, false⟩] }))
      ∧ (∀ (size u : Nat), s.chip.served p (blkOf addr) true (decide (addr = 0x200004)) = true → OneAccess addr size →
          s.chip.holdsNothing p addr = some u → Effect (.registerWrite p addr size v) s
        ({ events := [⟨0x09, u, 0, false⟩] }))
      ∧ (∀ (size : Nat), s.chip.served p (blkOf addr) true (decide (addr = 0x200004)) = false → OneAccess addr size →
          Effect (.registerWrite p addr size v) s ({}))
      ∧ (∀ (size off : Nat), s.chip.served p (blkOf addr) true (decide (addr = 0x200004)) = true →
          s.chip.domUp 16 = true → addr = 0x1000000 + off → 0x400000 ≤ off → off < 0x1000000 →
          s.chip.wear.groupsOut.contains (off / 65536) = false → (size = 1 ∨ size = 2 ∨ size = 4 ∨ size = 8) →
          addr % size = 0 → Effect (.registerWrite p addr size v) s
        ({ mems := [.sram off (leBytes size v)] }))
      ∧ (∀ (size off : Nat), s.chip.served p (blkOf addr) true (decide (addr = 0x200004)) = true →
          OneAccess addr size → s.chip.domUp 16 = true → addr = 0x1000000 + off → off < 0x1000000 →
          (off < 0x400000 ∨ s.chip.wear.groupsOut.contains (off / 65536) = true ∨ (size ≠ 1 ∧ size ≠ 2 ∧ size ≠ 4 ∧
              size ≠ 8) ∨ addr % size ≠ 0) →
          Effect (.registerWrite p addr size v) s ({ events := [⟨0x09, 0x08, 0, false⟩] }))
      ∧ (∀ (size : Nat) (k : CtxId) (off : Nat), s.chip.served p (blkOf addr) true (decide (addr = 0x200004)) = true →
          s.chip.domUp 17 = true → s.chip.ctxHost k = true → s.chip.ctxPaired k = false →
          (s.chip.ctxState k = esIDLE ∨ s.chip.ctxState k = esDONE ∨ s.chip.ctxState k = esFENCED) →
          (size = 1 ∨ size = 2 ∨ size = 4 ∨ size = 8) → addr % size = 0 → addr = 0xD80000 + 0x2000 * k.val + off →
          off < 0x2000 → Effect (.registerWrite p addr size v) s
        ({ mems := [.opWrite (0x2000 * k.val + off) (leBytes size v)] }))
      ∧ (∀ (size : Nat) (k : CtxId) (off : Nat), s.chip.served p (blkOf addr) true (decide (addr = 0x200004)) = true →
          s.chip.domUp 17 = true → s.chip.ctxHost k = true → s.chip.ctxPaired k = false →
          (s.chip.ctxState k = esIDLE ∨ s.chip.ctxState k = esDONE ∨ s.chip.ctxState k = esFENCED) →
          (size = 1 ∨ size = 2 ∨ size = 4 ∨ size = 8) → addr % size = 0 → addr = 0xDC0000 + 0x1000 * k.val + off →
          off < 0x1000 → Effect (.registerWrite p addr size v) s
        ({ mems := [.listWrite (0x1000 * k.val + off) (leBytes size v)] }))
      ∧ (∀ (size : Nat) (k : CtxId) (off : Nat), s.chip.served p (blkOf addr) true (decide (addr = 0x200004)) = true →
          OneAccess addr size → s.chip.domUp 17 = true →
          ((addr = 0xD80000 + 0x2000 * k.val + off ∧ off < 0x2000) ∨ (addr = 0xDC0000 + 0x1000 * k.val + off ∧ off < 0x1000)) →
          (s.chip.ctxHost k = false ∨ s.chip.ctxPaired k = true ∨ (s.chip.ctxState k ≠ esIDLE ∧ s.chip.ctxState k ≠ esDONE ∧
              s.chip.ctxState k ≠ esFENCED)
            ∨ (size ≠ 1 ∧ size ≠ 2 ∧ size ≠ 4 ∧ size ≠ 8) ∨ addr % size ≠ 0) →
          Effect (.registerWrite p addr size v) s ({ events := [⟨0x09, blkEMB, 0, false⟩] }))
      ∧ (∀ (size n : Nat) (t u : State), n = (if isMemory addr = true then 8 - addr % 8 else 4 - addr % 4) →
          n < size → exec (.registerWrite p addr n v) s = .next t →
          exec (.registerWrite p (addr + n) (size - n) (v / 256 ^ n)) t = .next u →
        exec (.registerWrite p addr size v) s = .next u))
  ∧ (∀ (x : PortId) (off v : Nat) (s : State), s.Still →
      s.chip.served (if x.val = 0 then .portA else .portB) 0x09 true false = true → off % 4 = 0 →
      (off < 16 * (s.chip.get FLU_HP_CFG.MSIX_LAST x + 1) → off < 0x8000 →
          (off / 4 % 4 ≠ 3 ∨ v % 2 = 1 ∨ (s.chip.port x).pba.contains (off / 16) = false ∨ s.chip.portOpen x = false) →
          Effect (.msixTableWrite x off v) s
        ({ ports := [(x, { s.chip.port x with msix := tabPut id (if off / 4 % 4 = 3 then 1 else 0) (s.chip.port x).msix (off / 4) (v % 2 ^ 32) })] }))
      ∧ (off < 16 * (s.chip.get FLU_HP_CFG.MSIX_LAST x + 1) → off < 0x8000 → off / 4 % 4 = 3 → v % 2 = 0 →
          (s.chip.port x).pba.contains (off / 16) = true → s.chip.portOpen x = true →
          Effect (.msixTableWrite x off v) s
        ({ ports := [(x, { s.chip.port x with
             msix := tabPut id 1 (s.chip.port x).msix (off / 4) (v % 2 ^ 32),
             pba := (s.chip.port x).pba.filter (fun k => decide (k ≠ off / 16)) })],
           out := [.msix x (off / 16)] }))
      ∧ (16 * (s.chip.get FLU_HP_CFG.MSIX_LAST x + 1) ≤ off → off < 0x8000 → Effect (.msixTableWrite x off v) s
        ({ events := [⟨0x09, 0x09, 0, false⟩] })))

/-- A request of one access that is not served answers zero; a write then does nothing. One that is served and meets no
register, or a domain that is off, sends source 0x09 with the UNIT of its range; a read answers zero. The mailbox
status word reads NOT_READY by the SPI while PD16 is off. A read of a register that is served answers the word as it
reads, a narrower one the bytes it addresses of that word, and consumes nothing outside the result windows. An aligned
read of 1, 2, 4 or 8 bytes answers those bytes of the SRAM in the host's part, with no repair group over them, or of
the operand or list memory of an open context of host software that hides no such word; a read of the device's part
without the grant MEMREAD answers zero with source 0x09. A read that reaches past its first access is that access,
then the read of the rest. The read of the last word of a one-shot result answers that word, or the bytes of it that
it addresses: the window reads CONSUMED from then on, and the destination of an Ember result is zeroed. Nothing else
changes. (R6, R7, R22, R44, R243, R302, R450, R462) -/
def Obligations.Reads : Prop :=
  (∀ (p : Path) (addr size : Nat) (s : State), s.Still →
      (∀ (u : Nat), s.chip.served p (blkOf addr) true (decide (addr = 0x200004)) = true → OneAccess addr size →
          s.chip.holdsNothing p addr = some u → Effect (.unmappedAccess p addr ⟨size, true⟩) s
        ({ events := [⟨0x09, u, 0, false⟩] }))
      ∧ (s.chip.served p (blkOf addr) true (decide (addr = 0x200004)) = false → OneAccess addr size →
          Effect (.unmappedAccess p addr ⟨size, true⟩) s ({}))
      ∧ (∀ (u : Nat), s.chip.served p (blkOf addr) false false = true → mailboxWord p addr = false →
          OneAccess addr size → s.chip.holdsNothing p addr = some u →
          Effect (.unmappedAccess p addr ⟨size, false⟩) s
        ({ out := [.value p addr 0], events := [⟨0x09, u, 0, false⟩] }))
      ∧ (s.chip.served p (blkOf addr) false false = false → mailboxWord p addr = false → OneAccess addr size →
          Effect (.unmappedAccess p addr ⟨size, false⟩) s ({ out := [.value p addr 0] }))
      ∧ (p = .spi → addr = 0x301000 → size = 4 → s.chip.domUp 16 = false →
          Effect (.unmappedAccess p addr ⟨size, false⟩) s ({ out := [.value p addr stsNOTREADY] }))
      ∧ (∀ (r : RegName) (i : Nat), s.chip.served p (blkOf addr) false false = true →
          s.chip.holdsNothing p addr = none → OneAccess addr size → addr < 0xD80000 →
          regAt (addr / 4 * 4) = some (r, i) → ctxOfReg r i = none → r ≠ .STK_MBX_RES →
          Effect (.unmappedAccess p addr ⟨size, false⟩) s
        ({ out := [.value p addr (if size = 4 then s.regWord r i else s.regWord r i / 256 ^ (addr % 4) % 256 ^ size)] }))
      ∧ (∀ (off : Nat), s.chip.served p (blkOf addr) false false = true → s.chip.domUp 16 = true →
          addr = 0x1000000 + off → 0x400000 ≤ off → off < 0x1000000 →
          s.chip.wear.groupsOut.contains (off / 65536) = false → (size = 1 ∨ size = 2 ∨ size = 4 ∨ size = 8) →
          addr % size = 0 → Effect (.unmappedAccess p addr ⟨size, false⟩) s
        ({ out := [.value p addr (leNat (memReadBytes s.sram off size))] }))
      ∧ (∀ (off : Nat), s.chip.served p (blkOf addr) false false = true → OneAccess addr size →
          s.chip.domUp 16 = true → addr = 0x1000000 + off → off < 0x400000 → s.chip.granted 4 = false →
          Effect (.unmappedAccess p addr ⟨size, false⟩) s
        ({ out := [.value p addr 0], events := [⟨0x09, 0x08, 0, false⟩] }))
      ∧ (∀ (k : CtxId) (off : Nat), s.chip.served p (blkOf addr) false false = true → s.chip.domUp 17 = true →
          s.chip.ctxHost k = true → s.chip.ctxPaired k = false →
          (s.chip.ctxState k = esIDLE ∨ s.chip.ctxState k = esDONE ∨ s.chip.ctxState k = esFENCED) →
          (size = 1 ∨ size = 2 ∨ size = 4 ∨ size = 8) → addr % size = 0 → addr = 0xD80000 + 0x2000 * k.val + off →
          off < 0x2000 → s.chip.opHidden k (off / 8) = false →
          Effect (.unmappedAccess p addr ⟨size, false⟩) s
        ({ out := [.value p addr (leNat (memReadBytes s.opmem (0x2000 * k.val + off) size))] }))
      ∧ (∀ (k : CtxId) (off : Nat), s.chip.served p (blkOf addr) false false = true → s.chip.domUp 17 = true →
          s.chip.ctxHost k = true → s.chip.ctxPaired k = false →
          (s.chip.ctxState k = esIDLE ∨ s.chip.ctxState k = esDONE ∨ s.chip.ctxState k = esFENCED) →
          (size = 1 ∨ size = 2 ∨ size = 4 ∨ size = 8) → addr % size = 0 → addr = 0xDC0000 + 0x1000 * k.val + off →
          off < 0x1000 → (s.chip.ctx k).isSealed = false → Effect (.unmappedAccess p addr ⟨size, false⟩) s
        ({ out := [.value p addr (leNat (memReadBytes s.listmem (0x1000 * k.val + off) size))] }))
      ∧ (∀ (n : Nat) (t u : State), n = (if isMemory addr = true then 8 - addr % 8 else 4 - addr % 4) → n < size →
          exec (.unmappedAccess p addr ⟨n, false⟩) s = .next t →
          exec (.unmappedAccess p (addr + n) ⟨size - n, false⟩) t = .next u →
        exec (.unmappedAccess p addr ⟨size, false⟩) s = .next u))
  ∧ (∀ (p : Path) (w : WinX) (off size v a : Nat) (s : State), s.Still → w.ready = true → w.oneShot = true →
      w.words ≠ [] → w.words.length < 512 → 1 ≤ size → off + size ≤ 4 →
      v = (if size = 4 then w.words.getLastD 0 else w.words.getLastD 0 / 256 ^ off % 256 ^ size) →
      (∀ (k : CtxId), s.chip.domUp 17 = true → s.chip.served p blkEMB false false = true → s.chip.ctxHost k = true →
          w = (s.chip.ctx k).win → (s.chip.ctx k).isSealed = false → a = 0xD04000 + 0x800 * k.val + 4 * w.words.length →
          Effect (.resultLastWordRead p ⟨.ember k, off, size⟩) s
        ({ ctxs := [(k, { s.chip.ctx k with win := ⟨[], stsCONSUMED, true, false, true⟩ })],
           mems := match (s.chip.ctx k).shy with
             | some (b, l, _) => [.wipeOp (0x2000 * k.val + 8 * b) (8 * l)]
             | none => [],
           out := [.value p (a + off) v] }))
      ∧ (s.chip.domUp 16 = true → s.chip.served p blkSTK false false = true → w = s.chip.kln.mbx →
          a = 0x301000 + 4 * w.words.length → Effect (.resultLastWordRead p ⟨.mailbox, off, size⟩) s
        ({ kln := some { s.chip.kln with mbx := ⟨[], stsCONSUMED, true, false, true⟩ }, out := [.value p (a + off) v] })))

/-- A read or write frame whose CRC is wrong answers 0x5A, one with an undefined OPC or an ADDR that is no multiple of 4
answers 0xE1, and neither reads nor writes; a frame cut before its CRC byte changes nothing and answers nothing. A
whole write frame of one word answers 0xA5 after the state that the 32-bit write of the word to ADDR leads to. A whole
read frame of one word at a register that is powered and whose reading consumes nothing answers 0xA5, the word as it
reads and the CRC, and only settles. Without the lock of CK_LINK no frame is received. A cold reset completes in every
state: it empties the memories and keeps OTP, the journal of NVS and the queue, and, with no debug grant kept, every
field holds its reset value but those of the registers that show what OTP and NVS hold. Nothing else changes at the
others. (R10, R11, R34, R466, R467, R468) -/
def Obligations.FramesAndColdReset : Prop :=
  (∀ (b : List Byte) (s : State), s.Still → s.chip.seq.linkLock = true →
      (∀ (i : Instr), (i = .spiRead b ∨ i = .spiWrite b) →
          (b.head? = some 0x0B ∧ 7 ≤ b.length ∧ crc8 (b.take 6) ≠ (b.getD 6 0).toNat
            ∨ b.head? = some 0x02 ∧ 7 + 4 * ((b.getD 5 0).toNat + 1) ≤ b.length
            ∧ crc8 (b.take (6 + 4 * ((b.getD 5 0).toNat + 1))) ≠ (b.getD (6 + 4 * ((b.getD 5 0).toNat + 1)) 0).toNat) →
        exec (i) s = .next ({ s with
            chip := { s.chip with out := s.chip.out ++ [.spiReply [0x5A]] } }))
      ∧ (∀ (i : Instr), (i = .spiRead b ∨ i = .spiWrite b) → b ≠ [] →
          (b.head? ≠ some 0x0B ∧ b.head? ≠ some 0x02 ∧ b.head? ≠ some 0x05
            ∨ b.head? = some 0x0B ∧ 7 ≤ b.length ∧ crc8 (b.take 6) = (b.getD 6 0).toNat ∧ beNat ((b.drop 1).take 4) % 4 ≠ 0) →
        exec (i) s = .next ({ s with
            chip := { s.chip with out := s.chip.out ++ [.spiReply [0xE1]] } }))
      ∧ (∀ (i : Instr), (i = .spiRead b ∨ i = .spiWrite b ∨ i = .spiFrameCut) →
          (i = .spiFrameCut ∨ b = [] ∨ b.head? = some 0x0B ∧ b.length < 7
            ∨ b.head? = some 0x02 ∧ b.length < 7 + 4 * ((b.getD 5 0).toNat + 1)) →
        exec (i) s = .next (s))
      ∧ (∀ (a v : Nat) (t : State), a < 2 ^ 32 → a % 4 = 0 → v < 2 ^ 32 →
          b = [0x02] ++ beBytes 4 a ++ [0] ++ beBytes 4 v ++ [BitVec.ofNat 8 (crc8 ([0x02] ++ beBytes 4 a ++ [0]
              ++ beBytes 4 v))] →
          exec (.registerWrite .spi a 4 v) s = .next t →
        exec (.spiWrite b) s = .next ({ t with
            chip := { t.chip with out := t.chip.out ++ [.spiReply [0xA5]] } }))
      ∧ (∀ (a : Nat) (r : RegName) (i : Nat), a < 0xD80000 → a % 4 = 0 → regAt a = some (r, i) →
          s.chip.regUp r i a = true → ctxOfReg r i = none → r ≠ .STK_MBX_RES →
          s.chip.served .spi (blkOf a) false false = true →
          b = [0x0B] ++ beBytes 4 a ++ [0] ++ [BitVec.ofNat 8 (crc8 ([0x0B] ++ beBytes 4 a ++ [0]))] →
        exec (.spiRead b) s = .next { s.settle.coldDue with
                  chip := { s.settle.coldDue.chip with
                    out := s.settle.coldDue.chip.out ++ [.spiReply ([0xA5] ++ beBytes 4 (s.regWord r i)
                      ++ [BitVec.ofNat 8 (crc8 ([0xA5] ++ beBytes 4 (s.regWord r i)))])] } }))
  ∧ (∀ (b : List Byte) (s : State), s.Still → s.chip.seq.linkLock = false →
      ∀ (i : Instr), (i = .spiRead b ∨ i = .spiWrite b ∨ i = .spiStatus) →
        exec (i) s = .next (s))
  ∧ (∀ (s : State),
      (
        exec .coldReset s = .next s.coldReset
                ∧ s.coldReset.sram = [] ∧ s.coldReset.opmem = [] ∧ s.coldReset.listmem = [] ∧ s.coldReset.otp = s.otp
                ∧ s.coldReset.nvs.journal = s.nvs.journal ∧ s.coldReset.nvs.journalNext = s.nvs.journalNext
                ∧ s.coldReset.pending = s.pending)
      ∧ (∀ (f : Fld) (i : Nat), voteValue s.nvs.repairVotes 2 = 0 →
          f.reg ∉ [RegName.KLN_LC_WORD, .KLN_LC_MARK, .KLN_VER_FLOOR, .KLN_CER_SEQ, .KLN_TLOCK, .KLN_CFG_STAT, .ASH_JRN_HEAD,
              .DRG_WEAR_STAT,
            .DRG_WEAR_HRS, .DRG_AGE_STAT, .DRG_SRAM_STAT, .HTH_LEG_STAT, .EMB_COLMAP, .FLU_LANE_STAT, .EMB_STAT,
                .HTH_BANK_RICK] →
        s.coldReset.chip.get f i = f.resetAt i))

/-- On any state with no change of a memory left to carry out and CK_LINK locked, a status request answers one byte and
changes nothing else. Its bits 0 to 5 are SAFE, TAMPER, ALERT and REDUCED of ASH_STAT, whether the life-cycle STATE is
LOCKED, and BUSY of STK_MBX_STAT while PD16 is on; bits 6 and 7 are 0 (R469). The CRC of no byte is 0. Appending a
byte adds it to the CRC and shifts eight bits out at the top, each that was 1 adding the polynomial x^8 + x^2 + x + 1
(0x107). Over the ASCII bytes 123456789 it gives 0xF4 (R468). (R468, R469) -/
def Obligations.SpiStatusAndCrc : Prop :=
  (∀ s : State, s.Still → s.chip.seq.linkLock = true → ∃ b : Byte,
    exec .spiStatus s = .next { s with chip := { s.chip with out := s.chip.out ++ [.spiReply [b]] } }
    ∧ (b.getLsbD 0 ↔ (s.regWord .ASH_STAT 0).testBit 31 = true) ∧ (b.getLsbD 1 ↔ (s.regWord .ASH_STAT 0).testBit 30 = true)
    ∧ (b.getLsbD 2 ↔ (s.regWord .ASH_STAT 0).testBit 29 = true) ∧ (b.getLsbD 3 ↔ (s.regWord .ASH_STAT 0).testBit 28 = true)
    ∧ (b.getLsbD 4 ↔ s.chip.lcState = lcLocked)
    ∧ (b.getLsbD 5 ↔ s.chip.domUp 16 = true ∧ s.chip.get STK_MBX_STAT.BUSY 0 = 1)
    ∧ b.getLsbD 6 = false ∧ b.getLsbD 7 = false)
  ∧ crc8 [] = 0
  ∧ (∀ (m : List Byte) (b : Byte), crc8 (m ++ [b])
      = (List.range 8).foldl (fun c _ => if c < 128 then 2 * c else (2 * c) ^^^ 0x107) (crc8 m ^^^ b.toNat))
  ∧ crc8 ((List.range 9).map (fun k => BitVec.ofNat 8 (0x31 + k))) = 0xF4

/-- In every state a bit that no field of a register's table covers reads as zero, in every instance. Two 32-bit writes to
a register by the same path that differ in such bits only lead to the same next state (R5). The result windows, which
are not tables of fields, are left aside. (R5) -/
def Obligations.ReservedBits : Prop :=
  (∀ (s : State) (r : RegName) (i k : Nat), regFields r ≠ [] → tableBit r k = false → (s.regWord r i).testBit k = false)
  ∧ (∀ (s : State) (p : Path) (a : Nat) (r : RegName) (i v w : Nat), regAt a = some (r, i) →
      (∀ k, tableBit r k = true → v.testBit k = w.testBit k) →
      exec (.registerWrite p a 4 v) s = exec (.registerWrite p a 4 w) s)

/-- For every command and state, a step of the state with the command at the front of its queue is exec of the command on
the state with the rest of the queue. On an empty queue the state stays as it is: the table has no row for a tick (the
model's choice, log entry 3). (00_scope_and_conventions) -/
def Obligations.StepTakesTheFrontCommand : Prop :=
  (∀ (i : Instr) (rest : List Instr) (s : State),
      step { s with pending := i :: rest } = exec i { s with pending := rest })
  ∧ (∀ s : State, s.pending = [] → step s = .next s)

/-- Every step answers a next state, and the commands that wait after it are those that waited before but for the front
one. (R20) -/
def Obligations.EveryCommandCompletes : Prop :=
  ∀ s : State, ∃ t, step s = .next t ∧ t.pending = s.pending.tail

/-- For every state whose memories (the SRAM, Ember's operand memory, Ember's list memory) list rising addresses and no
byte that an unlisted address reads as, the memories of the state after a step are so too: a write, a wipe, a job, an
image, a reset. (R22, R44, R302) -/
def Obligations.MemoriesStayCanonical : Prop :=
  ∀ s t : State, s.MemOk → step s = .next t → t.MemOk

/-- For every state and step, every bit of every OTP word that is 1 before is 1 after: identity slots, root hashes, REVOKE
bits, life-cycle words and marks are only ever burned. (R431, R433, R437) -/
def Obligations.BurnedOtpStaysBurned : Prop :=
  ∀ s t : State, step s = .next t → s.OtpGrows t

/-- If the next record of the persistent journal goes to a place below 4,096 and no record stands at or past 4,096, the
same holds after a step. (R394) -/
def Obligations.JournalStaysARing : Prop :=
  ∀ s t : State, s.JournalOk → step s = .next t → t.JournalOk

/-- If no change of a memory was left to carry out before a step, none is left after it. (R20) -/
def Obligations.NoMemoryWorkIsLeft : Prop :=
  ∀ s t : State, s.Still → step s = .next t → t.Still

/-- In the state after reset every field of every register instance holds its reset value; the memories are in canonical
form, the journal is in its ring and no memory work is left. (R10, R394) -/
def Obligations.ResetMeetsTheInvariants : Prop :=
  (∀ (f : Fld) (i : Nat), State.reset.chip.get f i = f.resetAt i)
  ∧ State.reset.MemOk ∧ State.reset.JournalOk ∧ State.reset.Still

/-- Of every command that is a register write by a path: where the life-cycle state, the safe state or the fence of the
port does not serve the write, nothing changes; where it is served but the register's power domain is off, the write
is discarded and source 0x09 goes to Ash with the number of the block. (R6, R44, R381, R389, R429) -/
def Obligations.CommandsMeetTheirGate : Prop :=
  ∀ (i : Instr) (p : Path) (blk : Nat) (isAshCmd : Bool) (dom : Option Nat) (s : State), s.Still →
      registerCommand i = some (p, blk, isAshCmd, dom) →
      (s.chip.served p blk true isAshCmd = false → Effect i s {})
      ∧ (∀ k, dom = some k → s.chip.served p blk true isAshCmd = true → s.chip.domUp k = false →
          Effect i s { events := [⟨0x09, blk, 0, false⟩] })
end

