-- ==== Sys2Proof/Laws/Tab.lean ====
section
/-! SUPPORT. The laws of sparse tables: what a find, an erase, an insert and a put do to what a key reads as, and that
they keep the canonical form. -/

namespace Sys2Proof.Machine

variable {κ α : Type} [DecidableEq κ]

theorem tabFind_tabErase_self (t : List (κ × α)) (k : κ) : tabFind (tabErase t k) k = none := by
  induction t with
  | nil => rfl
  | cons e t ih =>
    by_cases h : e.1 = k
    · simpa [tabErase, h] using ih
    · simpa [tabErase, h, tabFind] using ih

theorem tabFind_tabErase_ne (t : List (κ × α)) {k k' : κ} (hk : k' ≠ k) :
    tabFind (tabErase t k) k' = tabFind t k' := by
  induction t with
  | nil => rfl
  | cons e t ih =>
    by_cases h : e.1 = k
    · have h' : e.1 ≠ k' := fun he => hk (he ▸ h)
      have : tabErase (e :: t) k = tabErase t k := by simp [tabErase, h]
      rw [this, ih]; simp [tabFind, h']
    · have : tabErase (e :: t) k = e :: tabErase t k := by simp [tabErase, h]
      rw [this]; simp only [tabFind, ih]

theorem tabFind_tabInsert_ne (rank : κ → Nat) (t : List (κ × α)) (v : α) {k k' : κ} (hk : k' ≠ k) :
    tabFind (tabInsert rank k v t) k' = tabFind t k' := by
  induction t with
  | nil => simp [tabInsert, tabFind, Ne.symm hk]
  | cons e t ih =>
    unfold tabInsert
    split
    · simp [tabFind, Ne.symm hk]
    · simp only [tabFind, ih]

theorem tabFind_tabInsert_self (rank : κ → Nat) (t : List (κ × α)) (k : κ) (v : α) (h : tabFind t k = none) :
    tabFind (tabInsert rank k v t) k = some v := by
  induction t with
  | nil => simp [tabInsert, tabFind]
  | cons e t ih =>
    have he : e.1 ≠ k := by
      intro he; simp [tabFind, he] at h
    have ht : tabFind t k = none := by simpa [tabFind, he] using h
    unfold tabInsert
    split
    · simp [tabFind]
    · simp [tabFind, he, ih ht]

/-- What a put leaves a key reading as: the new value at its key, everything else as before. -/
theorem tabGet_tabPut [DecidableEq α] (rank : κ → Nat) (dflt d' : α) (t : List (κ × α)) (k k' : κ) (v : α) :
    tabGet d' (tabPut rank dflt t k v) k'
      = if k' = k then (if v = dflt then d' else v) else tabGet d' t k' := by
  unfold tabGet tabPut
  by_cases hk : k' = k
  · subst hk
    by_cases hv : v = dflt
    · simp [hv, tabFind_tabErase_self]
    · simp [hv, tabFind_tabInsert_self _ _ _ _ (tabFind_tabErase_self t k')]
  · by_cases hv : v = dflt
    · simp [hv, hk, tabFind_tabErase_ne t hk]
    · simp [hv, hk, tabFind_tabInsert_ne rank _ v hk, tabFind_tabErase_ne t hk]

theorem tabGet_tabPut_self [DecidableEq α] (rank : κ → Nat) (dflt : α) (t : List (κ × α)) (k : κ) (v : α) :
    tabGet dflt (tabPut rank dflt t k v) k = v := by
  rw [tabGet_tabPut]; simp +contextual

theorem tabGet_tabPut_ne [DecidableEq α] (rank : κ → Nat) (dflt d' : α) (t : List (κ × α)) {k k' : κ} (v : α)
    (hk : k' ≠ k) : tabGet d' (tabPut rank dflt t k v) k' = tabGet d' t k' := by
  rw [tabGet_tabPut]; simp [hk]

@[simp] theorem tabGet_nil (d : α) (k : κ) : tabGet d ([] : List (κ × α)) k = d := rfl

end Sys2Proof.Machine

namespace Sys2Proof.Machine

variable {κ α : Type}

/-! ## The canonical form -/

/-- The head of a rising table ranks below every later entry. -/
theorem tabRising_cons (rank : κ → Nat) (e : κ × α) (t : List (κ × α)) :
    tabRising rank (e :: t) = true ↔ (∀ f ∈ t, rank e.1 < rank f.1) ∧ tabRising rank t = true := by
  induction t generalizing e with
  | nil => simp [tabRising]
  | cons f t ih =>
    rw [tabRising]
    simp only [Bool.and_eq_true, decide_eq_true_eq, List.mem_cons, forall_eq_or_imp]
    constructor
    · rintro ⟨h, hr⟩
      exact ⟨⟨h, fun g hg => h.trans (((ih f).1 hr).1 g hg)⟩, hr⟩
    · rintro ⟨⟨h, -⟩, hr⟩; exact ⟨h, hr⟩

theorem tabRising_filter (rank : κ → Nat) (p : κ × α → Bool) (t : List (κ × α)) (h : tabRising rank t = true) :
    tabRising rank (t.filter p) = true := by
  induction t with
  | nil => rfl
  | cons e t ih =>
    have h' := (tabRising_cons rank e t).1 h
    by_cases hp : p e = true
    · rw [List.filter_cons_of_pos hp, tabRising_cons]
      exact ⟨fun f hf => h'.1 f (List.mem_of_mem_filter hf), ih h'.2⟩
    · rw [List.filter_cons_of_neg hp]; exact ih h'.2

theorem mem_tabInsert (rank : κ → Nat) (k : κ) (v : α) (t : List (κ × α)) (e : κ × α) :
    e ∈ tabInsert rank k v t ↔ e = (k, v) ∨ e ∈ t := by
  induction t with
  | nil => simp [tabInsert]
  | cons f t ih =>
    unfold tabInsert
    split
    · simp
    · simp only [List.mem_cons, ih]; tauto

theorem tabRising_tabInsert (rank : κ → Nat) (k : κ) (v : α) (t : List (κ × α)) (h : tabRising rank t = true)
    (hk : ∀ e ∈ t, rank e.1 ≠ rank k) : tabRising rank (tabInsert rank k v t) = true := by
  induction t with
  | nil => rfl
  | cons e t ih =>
    have h' := (tabRising_cons rank e t).1 h
    unfold tabInsert
    split
    · rename_i hlt
      rw [tabRising_cons]
      refine ⟨?_, h⟩
      intro f hf
      rcases List.mem_cons.1 hf with rfl | hf
      · exact hlt
      · exact Nat.lt_trans hlt (h'.1 f hf)
    · rename_i hge
      rw [tabRising_cons]
      refine ⟨?_, ih h'.2 (fun f hf => hk f (List.mem_cons_of_mem _ hf))⟩
      intro f hf
      rcases (mem_tabInsert rank k v t f).1 hf with rfl | hf
      · exact Nat.lt_of_le_of_ne (Nat.le_of_not_lt hge) (hk e List.mem_cons_self)
      · exact h'.1 f hf

/-- A put keeps a table rising where the rank tells keys apart. -/
theorem tabRising_tabPut [DecidableEq κ] [DecidableEq α] (rank : κ → Nat) (dflt : α) (t : List (κ × α)) (k : κ) (v : α)
    (hinj : ∀ a b, rank a = rank b → a = b) (h : tabRising rank t = true) :
    tabRising rank (tabPut rank dflt t k v) = true := by
  unfold tabPut
  split
  · exact tabRising_filter rank _ t h
  · refine tabRising_tabInsert rank k v _ (tabRising_filter rank _ t h) ?_
    intro e he hr
    have := (List.mem_filter.1 he).2
    simp [hinj _ _ hr] at this

/-- A put lists nothing that an unlisted key reads as. -/
theorem tabPut_ne_dflt [DecidableEq κ] [DecidableEq α] (rank : κ → Nat) (dflt : α) (t : List (κ × α)) (k : κ) (v : α)
    (h : ∀ e ∈ t, e.2 ≠ dflt) : ∀ e ∈ tabPut rank dflt t k v, e.2 ≠ dflt := by
  intro e he
  unfold tabPut at he
  split at he
  · exact h e (List.mem_of_mem_filter he)
  · rename_i hv
    rcases (mem_tabInsert rank k v _ e).1 he with rfl | he
    · exact hv
    · exact h e (List.mem_of_mem_filter he)

end Sys2Proof.Machine
end

