-- ==== Sys2Proof/Laws/State.lean ====
section
/-! SUPPORT. The laws of the operations of Machine/Ops.lean on the chip: for each operation, the fields it leaves alone,
what a register reads as after a write, and what a unit's part reads as after it is replaced. -/

namespace Sys2Proof.Machine

/-! ## One lemma for each field and each operation that leaves it alone -/

@[simp] theorem Chip.put_slots (c : Chip) (f : Fld) (i v : Nat) : (c.put f i v).slots = c.slots := rfl
@[simp] theorem Chip.put_rings (c : Chip) (f : Fld) (i v : Nat) : (c.put f i v).rings = c.rings := rfl
@[simp] theorem Chip.put_entries (c : Chip) (f : Fld) (i v : Nat) : (c.put f i v).entries = c.entries := rfl
@[simp] theorem Chip.put_nextUid (c : Chip) (f : Fld) (i v : Nat) : (c.put f i v).nextUid = c.nextUid := rfl
@[simp] theorem Chip.put_nextOrder (c : Chip) (f : Fld) (i v : Nat) : (c.put f i v).nextOrder = c.nextOrder := rfl
@[simp] theorem Chip.put_stack (c : Chip) (f : Fld) (i v : Nat) : (c.put f i v).stack = c.stack := rfl
@[simp] theorem Chip.put_dmp (c : Chip) (f : Fld) (i v : Nat) : (c.put f i v).dmp = c.dmp := rfl
@[simp] theorem Chip.put_sess (c : Chip) (f : Fld) (i v : Nat) : (c.put f i v).sess = c.sess := rfl
@[simp] theorem Chip.put_cord (c : Chip) (f : Fld) (i v : Nat) : (c.put f i v).cord = c.cord := rfl
@[simp] theorem Chip.put_ctxs (c : Chip) (f : Fld) (i v : Nat) : (c.put f i v).ctxs = c.ctxs := rfl
@[simp] theorem Chip.put_ember (c : Chip) (f : Fld) (i v : Nat) : (c.put f i v).ember = c.ember := rfl
@[simp] theorem Chip.put_seq (c : Chip) (f : Fld) (i v : Nat) : (c.put f i v).seq = c.seq := rfl
@[simp] theorem Chip.put_pmb (c : Chip) (f : Fld) (i v : Nat) : (c.put f i v).pmb = c.pmb := rfl
@[simp] theorem Chip.put_grp (c : Chip) (f : Fld) (i v : Nat) : (c.put f i v).grp = c.grp := rfl
@[simp] theorem Chip.put_wear (c : Chip) (f : Fld) (i v : Nat) : (c.put f i v).wear = c.wear := rfl
@[simp] theorem Chip.put_ash (c : Chip) (f : Fld) (i v : Nat) : (c.put f i v).ash = c.ash := rfl
@[simp] theorem Chip.put_ports (c : Chip) (f : Fld) (i v : Nat) : (c.put f i v).ports = c.ports := rfl
@[simp] theorem Chip.put_kz (c : Chip) (f : Fld) (i v : Nat) : (c.put f i v).kz = c.kz := rfl
@[simp] theorem Chip.put_kln (c : Chip) (f : Fld) (i v : Nat) : (c.put f i v).kln = c.kln := rfl
@[simp] theorem Chip.put_blanked (c : Chip) (f : Fld) (i v : Nat) : (c.put f i v).blanked = c.blanked := rfl
@[simp] theorem Chip.put_stage (c : Chip) (f : Fld) (i v : Nat) : (c.put f i v).stage = c.stage := rfl
@[simp] theorem Chip.put_mons (c : Chip) (f : Fld) (i v : Nat) : (c.put f i v).mons = c.mons := rfl
@[simp] theorem Chip.put_base (c : Chip) (f : Fld) (i v : Nat) : (c.put f i v).base = c.base := rfl
@[simp] theorem Chip.put_us (c : Chip) (f : Fld) (i v : Nat) : (c.put f i v).us = c.us := rfl
@[simp] theorem Chip.put_tick (c : Chip) (f : Fld) (i v : Nat) : (c.put f i v).tick = c.tick := rfl
@[simp] theorem Chip.put_free (c : Chip) (f : Fld) (i v : Nat) : (c.put f i v).free = c.free := rfl
@[simp] theorem Chip.put_memq (c : Chip) (f : Fld) (i v : Nat) : (c.put f i v).memq = c.memq := rfl
@[simp] theorem Chip.put_out (c : Chip) (f : Fld) (i v : Nat) : (c.put f i v).out = c.out := rfl

@[simp] theorem Chip.resetReg_slots (c : Chip) (r : RegName) (i : Nat) (keep : List Nat) : (c.resetReg r i keep).slots = c.slots := rfl
@[simp] theorem Chip.resetReg_rings (c : Chip) (r : RegName) (i : Nat) (keep : List Nat) : (c.resetReg r i keep).rings = c.rings := rfl
@[simp] theorem Chip.resetReg_entries (c : Chip) (r : RegName) (i : Nat) (keep : List Nat) : (c.resetReg r i keep).entries = c.entries := rfl
@[simp] theorem Chip.resetReg_nextUid (c : Chip) (r : RegName) (i : Nat) (keep : List Nat) : (c.resetReg r i keep).nextUid = c.nextUid := rfl
@[simp] theorem Chip.resetReg_nextOrder (c : Chip) (r : RegName) (i : Nat) (keep : List Nat) : (c.resetReg r i keep).nextOrder = c.nextOrder := rfl
@[simp] theorem Chip.resetReg_stack (c : Chip) (r : RegName) (i : Nat) (keep : List Nat) : (c.resetReg r i keep).stack = c.stack := rfl
@[simp] theorem Chip.resetReg_dmp (c : Chip) (r : RegName) (i : Nat) (keep : List Nat) : (c.resetReg r i keep).dmp = c.dmp := rfl
@[simp] theorem Chip.resetReg_sess (c : Chip) (r : RegName) (i : Nat) (keep : List Nat) : (c.resetReg r i keep).sess = c.sess := rfl
@[simp] theorem Chip.resetReg_cord (c : Chip) (r : RegName) (i : Nat) (keep : List Nat) : (c.resetReg r i keep).cord = c.cord := rfl
@[simp] theorem Chip.resetReg_ctxs (c : Chip) (r : RegName) (i : Nat) (keep : List Nat) : (c.resetReg r i keep).ctxs = c.ctxs := rfl
@[simp] theorem Chip.resetReg_ember (c : Chip) (r : RegName) (i : Nat) (keep : List Nat) : (c.resetReg r i keep).ember = c.ember := rfl
@[simp] theorem Chip.resetReg_seq (c : Chip) (r : RegName) (i : Nat) (keep : List Nat) : (c.resetReg r i keep).seq = c.seq := rfl
@[simp] theorem Chip.resetReg_pmb (c : Chip) (r : RegName) (i : Nat) (keep : List Nat) : (c.resetReg r i keep).pmb = c.pmb := rfl
@[simp] theorem Chip.resetReg_grp (c : Chip) (r : RegName) (i : Nat) (keep : List Nat) : (c.resetReg r i keep).grp = c.grp := rfl
@[simp] theorem Chip.resetReg_wear (c : Chip) (r : RegName) (i : Nat) (keep : List Nat) : (c.resetReg r i keep).wear = c.wear := rfl
@[simp] theorem Chip.resetReg_ash (c : Chip) (r : RegName) (i : Nat) (keep : List Nat) : (c.resetReg r i keep).ash = c.ash := rfl
@[simp] theorem Chip.resetReg_ports (c : Chip) (r : RegName) (i : Nat) (keep : List Nat) : (c.resetReg r i keep).ports = c.ports := rfl
@[simp] theorem Chip.resetReg_kz (c : Chip) (r : RegName) (i : Nat) (keep : List Nat) : (c.resetReg r i keep).kz = c.kz := rfl
@[simp] theorem Chip.resetReg_kln (c : Chip) (r : RegName) (i : Nat) (keep : List Nat) : (c.resetReg r i keep).kln = c.kln := rfl
@[simp] theorem Chip.resetReg_blanked (c : Chip) (r : RegName) (i : Nat) (keep : List Nat) : (c.resetReg r i keep).blanked = c.blanked := rfl
@[simp] theorem Chip.resetReg_stage (c : Chip) (r : RegName) (i : Nat) (keep : List Nat) : (c.resetReg r i keep).stage = c.stage := rfl
@[simp] theorem Chip.resetReg_mons (c : Chip) (r : RegName) (i : Nat) (keep : List Nat) : (c.resetReg r i keep).mons = c.mons := rfl
@[simp] theorem Chip.resetReg_base (c : Chip) (r : RegName) (i : Nat) (keep : List Nat) : (c.resetReg r i keep).base = c.base := rfl
@[simp] theorem Chip.resetReg_us (c : Chip) (r : RegName) (i : Nat) (keep : List Nat) : (c.resetReg r i keep).us = c.us := rfl
@[simp] theorem Chip.resetReg_tick (c : Chip) (r : RegName) (i : Nat) (keep : List Nat) : (c.resetReg r i keep).tick = c.tick := rfl
@[simp] theorem Chip.resetReg_free (c : Chip) (r : RegName) (i : Nat) (keep : List Nat) : (c.resetReg r i keep).free = c.free := rfl
@[simp] theorem Chip.resetReg_memq (c : Chip) (r : RegName) (i : Nat) (keep : List Nat) : (c.resetReg r i keep).memq = c.memq := rfl
@[simp] theorem Chip.resetReg_out (c : Chip) (r : RegName) (i : Nat) (keep : List Nat) : (c.resetReg r i keep).out = c.out := rfl

@[simp] theorem Chip.emit_regs (c : Chip) (o : Out) : (c.emit o).regs = c.regs := rfl
@[simp] theorem Chip.emit_slots (c : Chip) (o : Out) : (c.emit o).slots = c.slots := rfl
@[simp] theorem Chip.emit_rings (c : Chip) (o : Out) : (c.emit o).rings = c.rings := rfl
@[simp] theorem Chip.emit_entries (c : Chip) (o : Out) : (c.emit o).entries = c.entries := rfl
@[simp] theorem Chip.emit_nextUid (c : Chip) (o : Out) : (c.emit o).nextUid = c.nextUid := rfl
@[simp] theorem Chip.emit_nextOrder (c : Chip) (o : Out) : (c.emit o).nextOrder = c.nextOrder := rfl
@[simp] theorem Chip.emit_stack (c : Chip) (o : Out) : (c.emit o).stack = c.stack := rfl
@[simp] theorem Chip.emit_dmp (c : Chip) (o : Out) : (c.emit o).dmp = c.dmp := rfl
@[simp] theorem Chip.emit_sess (c : Chip) (o : Out) : (c.emit o).sess = c.sess := rfl
@[simp] theorem Chip.emit_cord (c : Chip) (o : Out) : (c.emit o).cord = c.cord := rfl
@[simp] theorem Chip.emit_ctxs (c : Chip) (o : Out) : (c.emit o).ctxs = c.ctxs := rfl
@[simp] theorem Chip.emit_ember (c : Chip) (o : Out) : (c.emit o).ember = c.ember := rfl
@[simp] theorem Chip.emit_seq (c : Chip) (o : Out) : (c.emit o).seq = c.seq := rfl
@[simp] theorem Chip.emit_pmb (c : Chip) (o : Out) : (c.emit o).pmb = c.pmb := rfl
@[simp] theorem Chip.emit_grp (c : Chip) (o : Out) : (c.emit o).grp = c.grp := rfl
@[simp] theorem Chip.emit_wear (c : Chip) (o : Out) : (c.emit o).wear = c.wear := rfl
@[simp] theorem Chip.emit_ash (c : Chip) (o : Out) : (c.emit o).ash = c.ash := rfl
@[simp] theorem Chip.emit_ports (c : Chip) (o : Out) : (c.emit o).ports = c.ports := rfl
@[simp] theorem Chip.emit_kz (c : Chip) (o : Out) : (c.emit o).kz = c.kz := rfl
@[simp] theorem Chip.emit_kln (c : Chip) (o : Out) : (c.emit o).kln = c.kln := rfl
@[simp] theorem Chip.emit_blanked (c : Chip) (o : Out) : (c.emit o).blanked = c.blanked := rfl
@[simp] theorem Chip.emit_stage (c : Chip) (o : Out) : (c.emit o).stage = c.stage := rfl
@[simp] theorem Chip.emit_mons (c : Chip) (o : Out) : (c.emit o).mons = c.mons := rfl
@[simp] theorem Chip.emit_base (c : Chip) (o : Out) : (c.emit o).base = c.base := rfl
@[simp] theorem Chip.emit_us (c : Chip) (o : Out) : (c.emit o).us = c.us := rfl
@[simp] theorem Chip.emit_tick (c : Chip) (o : Out) : (c.emit o).tick = c.tick := rfl
@[simp] theorem Chip.emit_free (c : Chip) (o : Out) : (c.emit o).free = c.free := rfl
@[simp] theorem Chip.emit_memq (c : Chip) (o : Out) : (c.emit o).memq = c.memq := rfl

@[simp] theorem Chip.mem_regs (c : Chip) (q : MemOp) : (c.mem q).regs = c.regs := rfl
@[simp] theorem Chip.mem_slots (c : Chip) (q : MemOp) : (c.mem q).slots = c.slots := rfl
@[simp] theorem Chip.mem_rings (c : Chip) (q : MemOp) : (c.mem q).rings = c.rings := rfl
@[simp] theorem Chip.mem_entries (c : Chip) (q : MemOp) : (c.mem q).entries = c.entries := rfl
@[simp] theorem Chip.mem_nextUid (c : Chip) (q : MemOp) : (c.mem q).nextUid = c.nextUid := rfl
@[simp] theorem Chip.mem_nextOrder (c : Chip) (q : MemOp) : (c.mem q).nextOrder = c.nextOrder := rfl
@[simp] theorem Chip.mem_stack (c : Chip) (q : MemOp) : (c.mem q).stack = c.stack := rfl
@[simp] theorem Chip.mem_dmp (c : Chip) (q : MemOp) : (c.mem q).dmp = c.dmp := rfl
@[simp] theorem Chip.mem_sess (c : Chip) (q : MemOp) : (c.mem q).sess = c.sess := rfl
@[simp] theorem Chip.mem_cord (c : Chip) (q : MemOp) : (c.mem q).cord = c.cord := rfl
@[simp] theorem Chip.mem_ctxs (c : Chip) (q : MemOp) : (c.mem q).ctxs = c.ctxs := rfl
@[simp] theorem Chip.mem_ember (c : Chip) (q : MemOp) : (c.mem q).ember = c.ember := rfl
@[simp] theorem Chip.mem_seq (c : Chip) (q : MemOp) : (c.mem q).seq = c.seq := rfl
@[simp] theorem Chip.mem_pmb (c : Chip) (q : MemOp) : (c.mem q).pmb = c.pmb := rfl
@[simp] theorem Chip.mem_grp (c : Chip) (q : MemOp) : (c.mem q).grp = c.grp := rfl
@[simp] theorem Chip.mem_wear (c : Chip) (q : MemOp) : (c.mem q).wear = c.wear := rfl
@[simp] theorem Chip.mem_ash (c : Chip) (q : MemOp) : (c.mem q).ash = c.ash := rfl
@[simp] theorem Chip.mem_ports (c : Chip) (q : MemOp) : (c.mem q).ports = c.ports := rfl
@[simp] theorem Chip.mem_kz (c : Chip) (q : MemOp) : (c.mem q).kz = c.kz := rfl
@[simp] theorem Chip.mem_kln (c : Chip) (q : MemOp) : (c.mem q).kln = c.kln := rfl
@[simp] theorem Chip.mem_blanked (c : Chip) (q : MemOp) : (c.mem q).blanked = c.blanked := rfl
@[simp] theorem Chip.mem_stage (c : Chip) (q : MemOp) : (c.mem q).stage = c.stage := rfl
@[simp] theorem Chip.mem_mons (c : Chip) (q : MemOp) : (c.mem q).mons = c.mons := rfl
@[simp] theorem Chip.mem_base (c : Chip) (q : MemOp) : (c.mem q).base = c.base := rfl
@[simp] theorem Chip.mem_us (c : Chip) (q : MemOp) : (c.mem q).us = c.us := rfl
@[simp] theorem Chip.mem_tick (c : Chip) (q : MemOp) : (c.mem q).tick = c.tick := rfl
@[simp] theorem Chip.mem_free (c : Chip) (q : MemOp) : (c.mem q).free = c.free := rfl
@[simp] theorem Chip.mem_out (c : Chip) (q : MemOp) : (c.mem q).out = c.out := rfl

@[simp] theorem Chip.draw_regs (c : Chip) : (c.draw).regs = c.regs := rfl
@[simp] theorem Chip.draw_slots (c : Chip) : (c.draw).slots = c.slots := rfl
@[simp] theorem Chip.draw_rings (c : Chip) : (c.draw).rings = c.rings := rfl
@[simp] theorem Chip.draw_entries (c : Chip) : (c.draw).entries = c.entries := rfl
@[simp] theorem Chip.draw_nextUid (c : Chip) : (c.draw).nextUid = c.nextUid := rfl
@[simp] theorem Chip.draw_nextOrder (c : Chip) : (c.draw).nextOrder = c.nextOrder := rfl
@[simp] theorem Chip.draw_stack (c : Chip) : (c.draw).stack = c.stack := rfl
@[simp] theorem Chip.draw_dmp (c : Chip) : (c.draw).dmp = c.dmp := rfl
@[simp] theorem Chip.draw_sess (c : Chip) : (c.draw).sess = c.sess := rfl
@[simp] theorem Chip.draw_cord (c : Chip) : (c.draw).cord = c.cord := rfl
@[simp] theorem Chip.draw_ctxs (c : Chip) : (c.draw).ctxs = c.ctxs := rfl
@[simp] theorem Chip.draw_ember (c : Chip) : (c.draw).ember = c.ember := rfl
@[simp] theorem Chip.draw_seq (c : Chip) : (c.draw).seq = c.seq := rfl
@[simp] theorem Chip.draw_pmb (c : Chip) : (c.draw).pmb = c.pmb := rfl
@[simp] theorem Chip.draw_grp (c : Chip) : (c.draw).grp = c.grp := rfl
@[simp] theorem Chip.draw_wear (c : Chip) : (c.draw).wear = c.wear := rfl
@[simp] theorem Chip.draw_ash (c : Chip) : (c.draw).ash = c.ash := rfl
@[simp] theorem Chip.draw_ports (c : Chip) : (c.draw).ports = c.ports := rfl
@[simp] theorem Chip.draw_kz (c : Chip) : (c.draw).kz = c.kz := rfl
@[simp] theorem Chip.draw_kln (c : Chip) : (c.draw).kln = c.kln := rfl
@[simp] theorem Chip.draw_blanked (c : Chip) : (c.draw).blanked = c.blanked := rfl
@[simp] theorem Chip.draw_stage (c : Chip) : (c.draw).stage = c.stage := rfl
@[simp] theorem Chip.draw_mons (c : Chip) : (c.draw).mons = c.mons := rfl
@[simp] theorem Chip.draw_base (c : Chip) : (c.draw).base = c.base := rfl
@[simp] theorem Chip.draw_us (c : Chip) : (c.draw).us = c.us := rfl
@[simp] theorem Chip.draw_tick (c : Chip) : (c.draw).tick = c.tick := rfl
@[simp] theorem Chip.draw_memq (c : Chip) : (c.draw).memq = c.memq := rfl
@[simp] theorem Chip.draw_out (c : Chip) : (c.draw).out = c.out := rfl

@[simp] theorem Chip.raise_regs (c : Chip) (src unit detail : Nat) (forced : Bool) : (c.raise src unit detail forced).regs = c.regs := rfl
@[simp] theorem Chip.raise_slots (c : Chip) (src unit detail : Nat) (forced : Bool) : (c.raise src unit detail forced).slots = c.slots := rfl
@[simp] theorem Chip.raise_rings (c : Chip) (src unit detail : Nat) (forced : Bool) : (c.raise src unit detail forced).rings = c.rings := rfl
@[simp] theorem Chip.raise_entries (c : Chip) (src unit detail : Nat) (forced : Bool) : (c.raise src unit detail forced).entries = c.entries := rfl
@[simp] theorem Chip.raise_nextUid (c : Chip) (src unit detail : Nat) (forced : Bool) : (c.raise src unit detail forced).nextUid = c.nextUid := rfl
@[simp] theorem Chip.raise_nextOrder (c : Chip) (src unit detail : Nat) (forced : Bool) : (c.raise src unit detail forced).nextOrder = c.nextOrder := rfl
@[simp] theorem Chip.raise_stack (c : Chip) (src unit detail : Nat) (forced : Bool) : (c.raise src unit detail forced).stack = c.stack := rfl
@[simp] theorem Chip.raise_dmp (c : Chip) (src unit detail : Nat) (forced : Bool) : (c.raise src unit detail forced).dmp = c.dmp := rfl
@[simp] theorem Chip.raise_sess (c : Chip) (src unit detail : Nat) (forced : Bool) : (c.raise src unit detail forced).sess = c.sess := rfl
@[simp] theorem Chip.raise_cord (c : Chip) (src unit detail : Nat) (forced : Bool) : (c.raise src unit detail forced).cord = c.cord := rfl
@[simp] theorem Chip.raise_ctxs (c : Chip) (src unit detail : Nat) (forced : Bool) : (c.raise src unit detail forced).ctxs = c.ctxs := rfl
@[simp] theorem Chip.raise_ember (c : Chip) (src unit detail : Nat) (forced : Bool) : (c.raise src unit detail forced).ember = c.ember := rfl
@[simp] theorem Chip.raise_seq (c : Chip) (src unit detail : Nat) (forced : Bool) : (c.raise src unit detail forced).seq = c.seq := rfl
@[simp] theorem Chip.raise_pmb (c : Chip) (src unit detail : Nat) (forced : Bool) : (c.raise src unit detail forced).pmb = c.pmb := rfl
@[simp] theorem Chip.raise_grp (c : Chip) (src unit detail : Nat) (forced : Bool) : (c.raise src unit detail forced).grp = c.grp := rfl
@[simp] theorem Chip.raise_wear (c : Chip) (src unit detail : Nat) (forced : Bool) : (c.raise src unit detail forced).wear = c.wear := rfl
@[simp] theorem Chip.raise_ports (c : Chip) (src unit detail : Nat) (forced : Bool) : (c.raise src unit detail forced).ports = c.ports := rfl
@[simp] theorem Chip.raise_kz (c : Chip) (src unit detail : Nat) (forced : Bool) : (c.raise src unit detail forced).kz = c.kz := rfl
@[simp] theorem Chip.raise_kln (c : Chip) (src unit detail : Nat) (forced : Bool) : (c.raise src unit detail forced).kln = c.kln := rfl
@[simp] theorem Chip.raise_blanked (c : Chip) (src unit detail : Nat) (forced : Bool) : (c.raise src unit detail forced).blanked = c.blanked := rfl
@[simp] theorem Chip.raise_stage (c : Chip) (src unit detail : Nat) (forced : Bool) : (c.raise src unit detail forced).stage = c.stage := rfl
@[simp] theorem Chip.raise_mons (c : Chip) (src unit detail : Nat) (forced : Bool) : (c.raise src unit detail forced).mons = c.mons := rfl
@[simp] theorem Chip.raise_base (c : Chip) (src unit detail : Nat) (forced : Bool) : (c.raise src unit detail forced).base = c.base := rfl
@[simp] theorem Chip.raise_us (c : Chip) (src unit detail : Nat) (forced : Bool) : (c.raise src unit detail forced).us = c.us := rfl
@[simp] theorem Chip.raise_tick (c : Chip) (src unit detail : Nat) (forced : Bool) : (c.raise src unit detail forced).tick = c.tick := rfl
@[simp] theorem Chip.raise_free (c : Chip) (src unit detail : Nat) (forced : Bool) : (c.raise src unit detail forced).free = c.free := rfl
@[simp] theorem Chip.raise_memq (c : Chip) (src unit detail : Nat) (forced : Bool) : (c.raise src unit detail forced).memq = c.memq := rfl
@[simp] theorem Chip.raise_out (c : Chip) (src unit detail : Nat) (forced : Bool) : (c.raise src unit detail forced).out = c.out := rfl

@[simp] theorem Chip.setSlot_regs (c : Chip) (n : Nat) (x : SlotX) : (c.setSlot n x).regs = c.regs := rfl
@[simp] theorem Chip.setSlot_rings (c : Chip) (n : Nat) (x : SlotX) : (c.setSlot n x).rings = c.rings := rfl
@[simp] theorem Chip.setSlot_entries (c : Chip) (n : Nat) (x : SlotX) : (c.setSlot n x).entries = c.entries := rfl
@[simp] theorem Chip.setSlot_nextUid (c : Chip) (n : Nat) (x : SlotX) : (c.setSlot n x).nextUid = c.nextUid := rfl
@[simp] theorem Chip.setSlot_nextOrder (c : Chip) (n : Nat) (x : SlotX) : (c.setSlot n x).nextOrder = c.nextOrder := rfl
@[simp] theorem Chip.setSlot_stack (c : Chip) (n : Nat) (x : SlotX) : (c.setSlot n x).stack = c.stack := rfl
@[simp] theorem Chip.setSlot_dmp (c : Chip) (n : Nat) (x : SlotX) : (c.setSlot n x).dmp = c.dmp := rfl
@[simp] theorem Chip.setSlot_sess (c : Chip) (n : Nat) (x : SlotX) : (c.setSlot n x).sess = c.sess := rfl
@[simp] theorem Chip.setSlot_cord (c : Chip) (n : Nat) (x : SlotX) : (c.setSlot n x).cord = c.cord := rfl
@[simp] theorem Chip.setSlot_ctxs (c : Chip) (n : Nat) (x : SlotX) : (c.setSlot n x).ctxs = c.ctxs := rfl
@[simp] theorem Chip.setSlot_ember (c : Chip) (n : Nat) (x : SlotX) : (c.setSlot n x).ember = c.ember := rfl
@[simp] theorem Chip.setSlot_seq (c : Chip) (n : Nat) (x : SlotX) : (c.setSlot n x).seq = c.seq := rfl
@[simp] theorem Chip.setSlot_pmb (c : Chip) (n : Nat) (x : SlotX) : (c.setSlot n x).pmb = c.pmb := rfl
@[simp] theorem Chip.setSlot_grp (c : Chip) (n : Nat) (x : SlotX) : (c.setSlot n x).grp = c.grp := rfl
@[simp] theorem Chip.setSlot_wear (c : Chip) (n : Nat) (x : SlotX) : (c.setSlot n x).wear = c.wear := rfl
@[simp] theorem Chip.setSlot_ash (c : Chip) (n : Nat) (x : SlotX) : (c.setSlot n x).ash = c.ash := rfl
@[simp] theorem Chip.setSlot_ports (c : Chip) (n : Nat) (x : SlotX) : (c.setSlot n x).ports = c.ports := rfl
@[simp] theorem Chip.setSlot_kz (c : Chip) (n : Nat) (x : SlotX) : (c.setSlot n x).kz = c.kz := rfl
@[simp] theorem Chip.setSlot_kln (c : Chip) (n : Nat) (x : SlotX) : (c.setSlot n x).kln = c.kln := rfl
@[simp] theorem Chip.setSlot_blanked (c : Chip) (n : Nat) (x : SlotX) : (c.setSlot n x).blanked = c.blanked := rfl
@[simp] theorem Chip.setSlot_stage (c : Chip) (n : Nat) (x : SlotX) : (c.setSlot n x).stage = c.stage := rfl
@[simp] theorem Chip.setSlot_mons (c : Chip) (n : Nat) (x : SlotX) : (c.setSlot n x).mons = c.mons := rfl
@[simp] theorem Chip.setSlot_base (c : Chip) (n : Nat) (x : SlotX) : (c.setSlot n x).base = c.base := rfl
@[simp] theorem Chip.setSlot_us (c : Chip) (n : Nat) (x : SlotX) : (c.setSlot n x).us = c.us := rfl
@[simp] theorem Chip.setSlot_tick (c : Chip) (n : Nat) (x : SlotX) : (c.setSlot n x).tick = c.tick := rfl
@[simp] theorem Chip.setSlot_free (c : Chip) (n : Nat) (x : SlotX) : (c.setSlot n x).free = c.free := rfl
@[simp] theorem Chip.setSlot_memq (c : Chip) (n : Nat) (x : SlotX) : (c.setSlot n x).memq = c.memq := rfl
@[simp] theorem Chip.setSlot_out (c : Chip) (n : Nat) (x : SlotX) : (c.setSlot n x).out = c.out := rfl

@[simp] theorem Chip.setRing_regs (c : Chip) (r : Nat) (x : RingX) : (c.setRing r x).regs = c.regs := rfl
@[simp] theorem Chip.setRing_slots (c : Chip) (r : Nat) (x : RingX) : (c.setRing r x).slots = c.slots := rfl
@[simp] theorem Chip.setRing_entries (c : Chip) (r : Nat) (x : RingX) : (c.setRing r x).entries = c.entries := rfl
@[simp] theorem Chip.setRing_nextUid (c : Chip) (r : Nat) (x : RingX) : (c.setRing r x).nextUid = c.nextUid := rfl
@[simp] theorem Chip.setRing_nextOrder (c : Chip) (r : Nat) (x : RingX) : (c.setRing r x).nextOrder = c.nextOrder := rfl
@[simp] theorem Chip.setRing_stack (c : Chip) (r : Nat) (x : RingX) : (c.setRing r x).stack = c.stack := rfl
@[simp] theorem Chip.setRing_dmp (c : Chip) (r : Nat) (x : RingX) : (c.setRing r x).dmp = c.dmp := rfl
@[simp] theorem Chip.setRing_sess (c : Chip) (r : Nat) (x : RingX) : (c.setRing r x).sess = c.sess := rfl
@[simp] theorem Chip.setRing_cord (c : Chip) (r : Nat) (x : RingX) : (c.setRing r x).cord = c.cord := rfl
@[simp] theorem Chip.setRing_ctxs (c : Chip) (r : Nat) (x : RingX) : (c.setRing r x).ctxs = c.ctxs := rfl
@[simp] theorem Chip.setRing_ember (c : Chip) (r : Nat) (x : RingX) : (c.setRing r x).ember = c.ember := rfl
@[simp] theorem Chip.setRing_seq (c : Chip) (r : Nat) (x : RingX) : (c.setRing r x).seq = c.seq := rfl
@[simp] theorem Chip.setRing_pmb (c : Chip) (r : Nat) (x : RingX) : (c.setRing r x).pmb = c.pmb := rfl
@[simp] theorem Chip.setRing_grp (c : Chip) (r : Nat) (x : RingX) : (c.setRing r x).grp = c.grp := rfl
@[simp] theorem Chip.setRing_wear (c : Chip) (r : Nat) (x : RingX) : (c.setRing r x).wear = c.wear := rfl
@[simp] theorem Chip.setRing_ash (c : Chip) (r : Nat) (x : RingX) : (c.setRing r x).ash = c.ash := rfl
@[simp] theorem Chip.setRing_ports (c : Chip) (r : Nat) (x : RingX) : (c.setRing r x).ports = c.ports := rfl
@[simp] theorem Chip.setRing_kz (c : Chip) (r : Nat) (x : RingX) : (c.setRing r x).kz = c.kz := rfl
@[simp] theorem Chip.setRing_kln (c : Chip) (r : Nat) (x : RingX) : (c.setRing r x).kln = c.kln := rfl
@[simp] theorem Chip.setRing_blanked (c : Chip) (r : Nat) (x : RingX) : (c.setRing r x).blanked = c.blanked := rfl
@[simp] theorem Chip.setRing_stage (c : Chip) (r : Nat) (x : RingX) : (c.setRing r x).stage = c.stage := rfl
@[simp] theorem Chip.setRing_mons (c : Chip) (r : Nat) (x : RingX) : (c.setRing r x).mons = c.mons := rfl
@[simp] theorem Chip.setRing_base (c : Chip) (r : Nat) (x : RingX) : (c.setRing r x).base = c.base := rfl
@[simp] theorem Chip.setRing_us (c : Chip) (r : Nat) (x : RingX) : (c.setRing r x).us = c.us := rfl
@[simp] theorem Chip.setRing_tick (c : Chip) (r : Nat) (x : RingX) : (c.setRing r x).tick = c.tick := rfl
@[simp] theorem Chip.setRing_free (c : Chip) (r : Nat) (x : RingX) : (c.setRing r x).free = c.free := rfl
@[simp] theorem Chip.setRing_memq (c : Chip) (r : Nat) (x : RingX) : (c.setRing r x).memq = c.memq := rfl
@[simp] theorem Chip.setRing_out (c : Chip) (r : Nat) (x : RingX) : (c.setRing r x).out = c.out := rfl

@[simp] theorem Chip.setSess_regs (c : Chip) (n : Nat) (x : SessX) : (c.setSess n x).regs = c.regs := rfl
@[simp] theorem Chip.setSess_slots (c : Chip) (n : Nat) (x : SessX) : (c.setSess n x).slots = c.slots := rfl
@[simp] theorem Chip.setSess_rings (c : Chip) (n : Nat) (x : SessX) : (c.setSess n x).rings = c.rings := rfl
@[simp] theorem Chip.setSess_entries (c : Chip) (n : Nat) (x : SessX) : (c.setSess n x).entries = c.entries := rfl
@[simp] theorem Chip.setSess_nextUid (c : Chip) (n : Nat) (x : SessX) : (c.setSess n x).nextUid = c.nextUid := rfl
@[simp] theorem Chip.setSess_nextOrder (c : Chip) (n : Nat) (x : SessX) : (c.setSess n x).nextOrder = c.nextOrder := rfl
@[simp] theorem Chip.setSess_stack (c : Chip) (n : Nat) (x : SessX) : (c.setSess n x).stack = c.stack := rfl
@[simp] theorem Chip.setSess_dmp (c : Chip) (n : Nat) (x : SessX) : (c.setSess n x).dmp = c.dmp := rfl
@[simp] theorem Chip.setSess_cord (c : Chip) (n : Nat) (x : SessX) : (c.setSess n x).cord = c.cord := rfl
@[simp] theorem Chip.setSess_ctxs (c : Chip) (n : Nat) (x : SessX) : (c.setSess n x).ctxs = c.ctxs := rfl
@[simp] theorem Chip.setSess_ember (c : Chip) (n : Nat) (x : SessX) : (c.setSess n x).ember = c.ember := rfl
@[simp] theorem Chip.setSess_seq (c : Chip) (n : Nat) (x : SessX) : (c.setSess n x).seq = c.seq := rfl
@[simp] theorem Chip.setSess_pmb (c : Chip) (n : Nat) (x : SessX) : (c.setSess n x).pmb = c.pmb := rfl
@[simp] theorem Chip.setSess_grp (c : Chip) (n : Nat) (x : SessX) : (c.setSess n x).grp = c.grp := rfl
@[simp] theorem Chip.setSess_wear (c : Chip) (n : Nat) (x : SessX) : (c.setSess n x).wear = c.wear := rfl
@[simp] theorem Chip.setSess_ash (c : Chip) (n : Nat) (x : SessX) : (c.setSess n x).ash = c.ash := rfl
@[simp] theorem Chip.setSess_ports (c : Chip) (n : Nat) (x : SessX) : (c.setSess n x).ports = c.ports := rfl
@[simp] theorem Chip.setSess_kz (c : Chip) (n : Nat) (x : SessX) : (c.setSess n x).kz = c.kz := rfl
@[simp] theorem Chip.setSess_kln (c : Chip) (n : Nat) (x : SessX) : (c.setSess n x).kln = c.kln := rfl
@[simp] theorem Chip.setSess_blanked (c : Chip) (n : Nat) (x : SessX) : (c.setSess n x).blanked = c.blanked := rfl
@[simp] theorem Chip.setSess_stage (c : Chip) (n : Nat) (x : SessX) : (c.setSess n x).stage = c.stage := rfl
@[simp] theorem Chip.setSess_mons (c : Chip) (n : Nat) (x : SessX) : (c.setSess n x).mons = c.mons := rfl
@[simp] theorem Chip.setSess_base (c : Chip) (n : Nat) (x : SessX) : (c.setSess n x).base = c.base := rfl
@[simp] theorem Chip.setSess_us (c : Chip) (n : Nat) (x : SessX) : (c.setSess n x).us = c.us := rfl
@[simp] theorem Chip.setSess_tick (c : Chip) (n : Nat) (x : SessX) : (c.setSess n x).tick = c.tick := rfl
@[simp] theorem Chip.setSess_free (c : Chip) (n : Nat) (x : SessX) : (c.setSess n x).free = c.free := rfl
@[simp] theorem Chip.setSess_memq (c : Chip) (n : Nat) (x : SessX) : (c.setSess n x).memq = c.memq := rfl
@[simp] theorem Chip.setSess_out (c : Chip) (n : Nat) (x : SessX) : (c.setSess n x).out = c.out := rfl

@[simp] theorem Chip.setCtx_regs (c : Chip) (k : Nat) (x : CtxX) : (c.setCtx k x).regs = c.regs := rfl
@[simp] theorem Chip.setCtx_slots (c : Chip) (k : Nat) (x : CtxX) : (c.setCtx k x).slots = c.slots := rfl
@[simp] theorem Chip.setCtx_rings (c : Chip) (k : Nat) (x : CtxX) : (c.setCtx k x).rings = c.rings := rfl
@[simp] theorem Chip.setCtx_entries (c : Chip) (k : Nat) (x : CtxX) : (c.setCtx k x).entries = c.entries := rfl
@[simp] theorem Chip.setCtx_nextUid (c : Chip) (k : Nat) (x : CtxX) : (c.setCtx k x).nextUid = c.nextUid := rfl
@[simp] theorem Chip.setCtx_nextOrder (c : Chip) (k : Nat) (x : CtxX) : (c.setCtx k x).nextOrder = c.nextOrder := rfl
@[simp] theorem Chip.setCtx_stack (c : Chip) (k : Nat) (x : CtxX) : (c.setCtx k x).stack = c.stack := rfl
@[simp] theorem Chip.setCtx_dmp (c : Chip) (k : Nat) (x : CtxX) : (c.setCtx k x).dmp = c.dmp := rfl
@[simp] theorem Chip.setCtx_sess (c : Chip) (k : Nat) (x : CtxX) : (c.setCtx k x).sess = c.sess := rfl
@[simp] theorem Chip.setCtx_cord (c : Chip) (k : Nat) (x : CtxX) : (c.setCtx k x).cord = c.cord := rfl
@[simp] theorem Chip.setCtx_ember (c : Chip) (k : Nat) (x : CtxX) : (c.setCtx k x).ember = c.ember := rfl
@[simp] theorem Chip.setCtx_seq (c : Chip) (k : Nat) (x : CtxX) : (c.setCtx k x).seq = c.seq := rfl
@[simp] theorem Chip.setCtx_pmb (c : Chip) (k : Nat) (x : CtxX) : (c.setCtx k x).pmb = c.pmb := rfl
@[simp] theorem Chip.setCtx_grp (c : Chip) (k : Nat) (x : CtxX) : (c.setCtx k x).grp = c.grp := rfl
@[simp] theorem Chip.setCtx_wear (c : Chip) (k : Nat) (x : CtxX) : (c.setCtx k x).wear = c.wear := rfl
@[simp] theorem Chip.setCtx_ash (c : Chip) (k : Nat) (x : CtxX) : (c.setCtx k x).ash = c.ash := rfl
@[simp] theorem Chip.setCtx_ports (c : Chip) (k : Nat) (x : CtxX) : (c.setCtx k x).ports = c.ports := rfl
@[simp] theorem Chip.setCtx_kz (c : Chip) (k : Nat) (x : CtxX) : (c.setCtx k x).kz = c.kz := rfl
@[simp] theorem Chip.setCtx_kln (c : Chip) (k : Nat) (x : CtxX) : (c.setCtx k x).kln = c.kln := rfl
@[simp] theorem Chip.setCtx_blanked (c : Chip) (k : Nat) (x : CtxX) : (c.setCtx k x).blanked = c.blanked := rfl
@[simp] theorem Chip.setCtx_stage (c : Chip) (k : Nat) (x : CtxX) : (c.setCtx k x).stage = c.stage := rfl
@[simp] theorem Chip.setCtx_mons (c : Chip) (k : Nat) (x : CtxX) : (c.setCtx k x).mons = c.mons := rfl
@[simp] theorem Chip.setCtx_base (c : Chip) (k : Nat) (x : CtxX) : (c.setCtx k x).base = c.base := rfl
@[simp] theorem Chip.setCtx_us (c : Chip) (k : Nat) (x : CtxX) : (c.setCtx k x).us = c.us := rfl
@[simp] theorem Chip.setCtx_tick (c : Chip) (k : Nat) (x : CtxX) : (c.setCtx k x).tick = c.tick := rfl
@[simp] theorem Chip.setCtx_free (c : Chip) (k : Nat) (x : CtxX) : (c.setCtx k x).free = c.free := rfl
@[simp] theorem Chip.setCtx_memq (c : Chip) (k : Nat) (x : CtxX) : (c.setCtx k x).memq = c.memq := rfl
@[simp] theorem Chip.setCtx_out (c : Chip) (k : Nat) (x : CtxX) : (c.setCtx k x).out = c.out := rfl

@[simp] theorem Chip.setPort_regs (c : Chip) (x : Nat) (v : PortX) : (c.setPort x v).regs = c.regs := rfl
@[simp] theorem Chip.setPort_slots (c : Chip) (x : Nat) (v : PortX) : (c.setPort x v).slots = c.slots := rfl
@[simp] theorem Chip.setPort_rings (c : Chip) (x : Nat) (v : PortX) : (c.setPort x v).rings = c.rings := rfl
@[simp] theorem Chip.setPort_entries (c : Chip) (x : Nat) (v : PortX) : (c.setPort x v).entries = c.entries := rfl
@[simp] theorem Chip.setPort_nextUid (c : Chip) (x : Nat) (v : PortX) : (c.setPort x v).nextUid = c.nextUid := rfl
@[simp] theorem Chip.setPort_nextOrder (c : Chip) (x : Nat) (v : PortX) : (c.setPort x v).nextOrder = c.nextOrder := rfl
@[simp] theorem Chip.setPort_stack (c : Chip) (x : Nat) (v : PortX) : (c.setPort x v).stack = c.stack := rfl
@[simp] theorem Chip.setPort_dmp (c : Chip) (x : Nat) (v : PortX) : (c.setPort x v).dmp = c.dmp := rfl
@[simp] theorem Chip.setPort_sess (c : Chip) (x : Nat) (v : PortX) : (c.setPort x v).sess = c.sess := rfl
@[simp] theorem Chip.setPort_cord (c : Chip) (x : Nat) (v : PortX) : (c.setPort x v).cord = c.cord := rfl
@[simp] theorem Chip.setPort_ctxs (c : Chip) (x : Nat) (v : PortX) : (c.setPort x v).ctxs = c.ctxs := rfl
@[simp] theorem Chip.setPort_ember (c : Chip) (x : Nat) (v : PortX) : (c.setPort x v).ember = c.ember := rfl
@[simp] theorem Chip.setPort_seq (c : Chip) (x : Nat) (v : PortX) : (c.setPort x v).seq = c.seq := rfl
@[simp] theorem Chip.setPort_pmb (c : Chip) (x : Nat) (v : PortX) : (c.setPort x v).pmb = c.pmb := rfl
@[simp] theorem Chip.setPort_grp (c : Chip) (x : Nat) (v : PortX) : (c.setPort x v).grp = c.grp := rfl
@[simp] theorem Chip.setPort_wear (c : Chip) (x : Nat) (v : PortX) : (c.setPort x v).wear = c.wear := rfl
@[simp] theorem Chip.setPort_ash (c : Chip) (x : Nat) (v : PortX) : (c.setPort x v).ash = c.ash := rfl
@[simp] theorem Chip.setPort_kz (c : Chip) (x : Nat) (v : PortX) : (c.setPort x v).kz = c.kz := rfl
@[simp] theorem Chip.setPort_kln (c : Chip) (x : Nat) (v : PortX) : (c.setPort x v).kln = c.kln := rfl
@[simp] theorem Chip.setPort_blanked (c : Chip) (x : Nat) (v : PortX) : (c.setPort x v).blanked = c.blanked := rfl
@[simp] theorem Chip.setPort_stage (c : Chip) (x : Nat) (v : PortX) : (c.setPort x v).stage = c.stage := rfl
@[simp] theorem Chip.setPort_mons (c : Chip) (x : Nat) (v : PortX) : (c.setPort x v).mons = c.mons := rfl
@[simp] theorem Chip.setPort_base (c : Chip) (x : Nat) (v : PortX) : (c.setPort x v).base = c.base := rfl
@[simp] theorem Chip.setPort_us (c : Chip) (x : Nat) (v : PortX) : (c.setPort x v).us = c.us := rfl
@[simp] theorem Chip.setPort_tick (c : Chip) (x : Nat) (v : PortX) : (c.setPort x v).tick = c.tick := rfl
@[simp] theorem Chip.setPort_free (c : Chip) (x : Nat) (v : PortX) : (c.setPort x v).free = c.free := rfl
@[simp] theorem Chip.setPort_memq (c : Chip) (x : Nat) (v : PortX) : (c.setPort x v).memq = c.memq := rfl
@[simp] theorem Chip.setPort_out (c : Chip) (x : Nat) (v : PortX) : (c.setPort x v).out = c.out := rfl

@[simp] theorem Chip.setKz_regs (c : Chip) (k : Nat) (v : KzX) : (c.setKz k v).regs = c.regs := rfl
@[simp] theorem Chip.setKz_slots (c : Chip) (k : Nat) (v : KzX) : (c.setKz k v).slots = c.slots := rfl
@[simp] theorem Chip.setKz_rings (c : Chip) (k : Nat) (v : KzX) : (c.setKz k v).rings = c.rings := rfl
@[simp] theorem Chip.setKz_entries (c : Chip) (k : Nat) (v : KzX) : (c.setKz k v).entries = c.entries := rfl
@[simp] theorem Chip.setKz_nextUid (c : Chip) (k : Nat) (v : KzX) : (c.setKz k v).nextUid = c.nextUid := rfl
@[simp] theorem Chip.setKz_nextOrder (c : Chip) (k : Nat) (v : KzX) : (c.setKz k v).nextOrder = c.nextOrder := rfl
@[simp] theorem Chip.setKz_stack (c : Chip) (k : Nat) (v : KzX) : (c.setKz k v).stack = c.stack := rfl
@[simp] theorem Chip.setKz_dmp (c : Chip) (k : Nat) (v : KzX) : (c.setKz k v).dmp = c.dmp := rfl
@[simp] theorem Chip.setKz_sess (c : Chip) (k : Nat) (v : KzX) : (c.setKz k v).sess = c.sess := rfl
@[simp] theorem Chip.setKz_cord (c : Chip) (k : Nat) (v : KzX) : (c.setKz k v).cord = c.cord := rfl
@[simp] theorem Chip.setKz_ctxs (c : Chip) (k : Nat) (v : KzX) : (c.setKz k v).ctxs = c.ctxs := rfl
@[simp] theorem Chip.setKz_ember (c : Chip) (k : Nat) (v : KzX) : (c.setKz k v).ember = c.ember := rfl
@[simp] theorem Chip.setKz_seq (c : Chip) (k : Nat) (v : KzX) : (c.setKz k v).seq = c.seq := rfl
@[simp] theorem Chip.setKz_pmb (c : Chip) (k : Nat) (v : KzX) : (c.setKz k v).pmb = c.pmb := rfl
@[simp] theorem Chip.setKz_grp (c : Chip) (k : Nat) (v : KzX) : (c.setKz k v).grp = c.grp := rfl
@[simp] theorem Chip.setKz_wear (c : Chip) (k : Nat) (v : KzX) : (c.setKz k v).wear = c.wear := rfl
@[simp] theorem Chip.setKz_ash (c : Chip) (k : Nat) (v : KzX) : (c.setKz k v).ash = c.ash := rfl
@[simp] theorem Chip.setKz_ports (c : Chip) (k : Nat) (v : KzX) : (c.setKz k v).ports = c.ports := rfl
@[simp] theorem Chip.setKz_kln (c : Chip) (k : Nat) (v : KzX) : (c.setKz k v).kln = c.kln := rfl
@[simp] theorem Chip.setKz_blanked (c : Chip) (k : Nat) (v : KzX) : (c.setKz k v).blanked = c.blanked := rfl
@[simp] theorem Chip.setKz_stage (c : Chip) (k : Nat) (v : KzX) : (c.setKz k v).stage = c.stage := rfl
@[simp] theorem Chip.setKz_mons (c : Chip) (k : Nat) (v : KzX) : (c.setKz k v).mons = c.mons := rfl
@[simp] theorem Chip.setKz_base (c : Chip) (k : Nat) (v : KzX) : (c.setKz k v).base = c.base := rfl
@[simp] theorem Chip.setKz_us (c : Chip) (k : Nat) (v : KzX) : (c.setKz k v).us = c.us := rfl
@[simp] theorem Chip.setKz_tick (c : Chip) (k : Nat) (v : KzX) : (c.setKz k v).tick = c.tick := rfl
@[simp] theorem Chip.setKz_free (c : Chip) (k : Nat) (v : KzX) : (c.setKz k v).free = c.free := rfl
@[simp] theorem Chip.setKz_memq (c : Chip) (k : Nat) (v : KzX) : (c.setKz k v).memq = c.memq := rfl
@[simp] theorem Chip.setKz_out (c : Chip) (k : Nat) (v : KzX) : (c.setKz k v).out = c.out := rfl

/-! ## What changes -/

@[simp] theorem Chip.emit_out (c : Chip) (o : Out) : (c.emit o).out = c.out ++ [o] := rfl
@[simp] theorem Chip.mem_memq (c : Chip) (m : MemOp) : (c.mem m).memq = c.memq ++ [m] := rfl
@[simp] theorem Chip.draw_free (c : Chip) : c.draw.free = c.free + 1 := rfl
/-- An event sent to Ash joins its inbox (R378). -/
@[simp] theorem Chip.raise_ash (c : Chip) (src unit detail : Nat) (forced : Bool) :
    (c.raise src unit detail forced).ash = { c.ash with inbox := c.ash.inbox ++ [⟨src, unit, detail, forced⟩] } := rfl

/-! ## Registers -/

/-- Two chips whose registers are the same read the same. -/
theorem Chip.get_congr {c d : Chip} (h : c.regs = d.regs) (f : Fld) (i : Nat) : c.get f i = d.get f i := by
  unfold Chip.get; rw [h]

/-- A field reads what was stored last, cut to its width; every other field of every instance reads as before. -/
theorem Chip.get_put (c : Chip) (f : Fld) (i v : Nat) (g : Fld) (j : Nat) :
    (c.put f i v).get g j = if g = f ∧ j = i then v % 2 ^ f.width else c.get g j := by
  unfold Chip.get Chip.put
  rw [tabGet_tabPut]
  by_cases h : g = f ∧ j = i
  · obtain ⟨rfl, rfl⟩ := h
    simp +contextual
  · have : (⟨g, j⟩ : Key) ≠ ⟨f, i⟩ := by
      intro he; exact h ⟨congrArg Key.fld he, congrArg Key.idx he⟩
    simp [h, this]

@[simp] theorem Chip.get_put_self (c : Chip) (f : Fld) (i v : Nat) : (c.put f i v).get f i = v % 2 ^ f.width := by
  simp [Chip.get_put]

theorem Chip.get_put_ne (c : Chip) (f : Fld) (i v : Nat) (g : Fld) (j : Nat) (h : ¬(g = f ∧ j = i)) :
    (c.put f i v).get g j = c.get g j := by
  simp [Chip.get_put, h]

theorem tabFind_filter {κ α : Type} [DecidableEq κ] (p : κ → Bool) (t : List (κ × α)) (k : κ) :
    tabFind (t.filter (fun e => p e.1)) k = if p k then tabFind t k else none := by
  induction t with
  | nil => simp [tabFind]
  | cons e t ih =>
    by_cases hk : e.1 = k
    · subst hk
      by_cases hp : p e.1 = true
      · simp [tabFind, hp]
      · simp [hp, ih]
    · by_cases hp : p e.1 = true
      · simp [tabFind, hp, hk, ih]
      · simp [tabFind, hp, hk, ih]

/-- The fields of a register instance that was reset read as their reset values, but for those kept. -/
theorem Chip.get_resetReg (c : Chip) (r : RegName) (i : Nat) (keep : List Nat) (g : Fld) (j : Nat) :
    (c.resetReg r i keep).get g j
      = if g.reg = r ∧ j = i ∧ keep.contains g.lo = false then g.resetAt j else c.get g j := by
  unfold Chip.get Chip.resetReg tabGet
  have := tabFind_filter (fun k : Key => !(decide (k.fld.reg = r) && decide (k.idx = i) && !(keep.contains k.fld.lo)))
    c.regs ⟨g, j⟩
  rw [this]
  by_cases h1 : g.reg = r <;> by_cases h2 : j = i <;> simp [h1, h2]
  split <;> simp_all

/-- A one-bit field is written as a number. -/
@[simp] theorem Chip.flag_eq (c : Chip) (f : Fld) (i : Nat) (b : Bool) : c.flag f i b = c.put f i b.toNat := rfl
@[simp] theorem Chip.incWrap_eq (c : Chip) (f : Fld) (i : Nat) : c.incWrap f i = c.put f i (c.get f i + 1) := rfl
@[simp] theorem Chip.setSlotState_eq (c : Chip) (n st : Nat) : c.setSlotState n st = c.put HTH_SLOT_STAT.STATE n st := rfl
@[simp] theorem Chip.refuse_eq (c : Chip) (blk : Nat) : c.refuse blk = c.raise 0x1C blk 0 false := rfl

@[simp] theorem Chip.get_emit (c : Chip) (o : Out) (g : Fld) (j : Nat) : (c.emit o).get g j = c.get g j := rfl
@[simp] theorem Chip.get_mem (c : Chip) (q : MemOp) (g : Fld) (j : Nat) : (c.mem q).get g j = c.get g j := rfl
@[simp] theorem Chip.get_draw (c : Chip) (g : Fld) (j : Nat) : (c.draw).get g j = c.get g j := rfl
@[simp] theorem Chip.get_raise (c : Chip) (src unit detail : Nat) (forced : Bool) (g : Fld) (j : Nat) : (c.raise src unit detail forced).get g j = c.get g j := rfl
@[simp] theorem Chip.get_setSlot (c : Chip) (n : Nat) (x : SlotX) (g : Fld) (j : Nat) : (c.setSlot n x).get g j = c.get g j := rfl
@[simp] theorem Chip.get_setRing (c : Chip) (r : Nat) (x : RingX) (g : Fld) (j : Nat) : (c.setRing r x).get g j = c.get g j := rfl
@[simp] theorem Chip.get_setSess (c : Chip) (n : Nat) (x : SessX) (g : Fld) (j : Nat) : (c.setSess n x).get g j = c.get g j := rfl
@[simp] theorem Chip.get_setCtx (c : Chip) (k : Nat) (x : CtxX) (g : Fld) (j : Nat) : (c.setCtx k x).get g j = c.get g j := rfl
@[simp] theorem Chip.get_setPort (c : Chip) (x : Nat) (v : PortX) (g : Fld) (j : Nat) : (c.setPort x v).get g j = c.get g j := rfl
@[simp] theorem Chip.get_setKz (c : Chip) (k : Nat) (v : KzX) (g : Fld) (j : Nat) : (c.setKz k v).get g j = c.get g j := rfl

/-! ## Parts of units -/

@[simp] theorem Chip.slot_setSlot_self (c : Chip) (n : Nat) (x : SlotX) : (c.setSlot n x).slot n = x :=
  tabGet_tabPut_self id SlotX.init c.slots n x
theorem Chip.slot_setSlot_ne (c : Chip) (n m : Nat) (x : SlotX) (h : m ≠ n) : (c.setSlot n x).slot m = c.slot m :=
  tabGet_tabPut_ne id SlotX.init SlotX.init c.slots x h
@[simp] theorem Chip.modSlot_eq (c : Chip) (n : Nat) (f : SlotX → SlotX) : c.modSlot n f = c.setSlot n (f (c.slot n)) := rfl
@[simp] theorem Chip.slot_put (c : Chip) (f : Fld) (i v : Nat) (m : Nat) : (c.put f i v).slot m = c.slot m := rfl
@[simp] theorem Chip.slot_resetReg (c : Chip) (r : RegName) (i : Nat) (keep : List Nat) (m : Nat) : (c.resetReg r i keep).slot m = c.slot m := rfl
@[simp] theorem Chip.slot_emit (c : Chip) (o : Out) (m : Nat) : (c.emit o).slot m = c.slot m := rfl
@[simp] theorem Chip.slot_mem (c : Chip) (q : MemOp) (m : Nat) : (c.mem q).slot m = c.slot m := rfl
@[simp] theorem Chip.slot_draw (c : Chip) (m : Nat) : (c.draw).slot m = c.slot m := rfl
@[simp] theorem Chip.slot_raise (c : Chip) (src unit detail : Nat) (forced : Bool) (m : Nat) : (c.raise src unit detail forced).slot m = c.slot m := rfl
@[simp] theorem Chip.slot_setRing (c : Chip) (r : Nat) (x : RingX) (m : Nat) : (c.setRing r x).slot m = c.slot m := rfl
@[simp] theorem Chip.slot_setSess (c : Chip) (n : Nat) (x : SessX) (m : Nat) : (c.setSess n x).slot m = c.slot m := rfl
@[simp] theorem Chip.slot_setCtx (c : Chip) (k : Nat) (x : CtxX) (m : Nat) : (c.setCtx k x).slot m = c.slot m := rfl
@[simp] theorem Chip.slot_setPort (c : Chip) (x : Nat) (v : PortX) (m : Nat) : (c.setPort x v).slot m = c.slot m := rfl
@[simp] theorem Chip.slot_setKz (c : Chip) (k : Nat) (v : KzX) (m : Nat) : (c.setKz k v).slot m = c.slot m := rfl

@[simp] theorem Chip.ring_setRing_self (c : Chip) (n : Nat) (x : RingX) : (c.setRing n x).ring n = x :=
  tabGet_tabPut_self id RingX.init c.rings n x
theorem Chip.ring_setRing_ne (c : Chip) (n m : Nat) (x : RingX) (h : m ≠ n) : (c.setRing n x).ring m = c.ring m :=
  tabGet_tabPut_ne id RingX.init RingX.init c.rings x h
@[simp] theorem Chip.modRing_eq (c : Chip) (n : Nat) (f : RingX → RingX) : c.modRing n f = c.setRing n (f (c.ring n)) := rfl
@[simp] theorem Chip.ring_put (c : Chip) (f : Fld) (i v : Nat) (m : Nat) : (c.put f i v).ring m = c.ring m := rfl
@[simp] theorem Chip.ring_resetReg (c : Chip) (r : RegName) (i : Nat) (keep : List Nat) (m : Nat) : (c.resetReg r i keep).ring m = c.ring m := rfl
@[simp] theorem Chip.ring_emit (c : Chip) (o : Out) (m : Nat) : (c.emit o).ring m = c.ring m := rfl
@[simp] theorem Chip.ring_mem (c : Chip) (q : MemOp) (m : Nat) : (c.mem q).ring m = c.ring m := rfl
@[simp] theorem Chip.ring_draw (c : Chip) (m : Nat) : (c.draw).ring m = c.ring m := rfl
@[simp] theorem Chip.ring_raise (c : Chip) (src unit detail : Nat) (forced : Bool) (m : Nat) : (c.raise src unit detail forced).ring m = c.ring m := rfl
@[simp] theorem Chip.ring_setSlot (c : Chip) (n : Nat) (x : SlotX) (m : Nat) : (c.setSlot n x).ring m = c.ring m := rfl
@[simp] theorem Chip.ring_setSess (c : Chip) (n : Nat) (x : SessX) (m : Nat) : (c.setSess n x).ring m = c.ring m := rfl
@[simp] theorem Chip.ring_setCtx (c : Chip) (k : Nat) (x : CtxX) (m : Nat) : (c.setCtx k x).ring m = c.ring m := rfl
@[simp] theorem Chip.ring_setPort (c : Chip) (x : Nat) (v : PortX) (m : Nat) : (c.setPort x v).ring m = c.ring m := rfl
@[simp] theorem Chip.ring_setKz (c : Chip) (k : Nat) (v : KzX) (m : Nat) : (c.setKz k v).ring m = c.ring m := rfl

@[simp] theorem Chip.sessOf_setSess_self (c : Chip) (n : Nat) (x : SessX) : (c.setSess n x).sessOf n = x :=
  tabGet_tabPut_self id SessX.init c.sess n x
theorem Chip.sessOf_setSess_ne (c : Chip) (n m : Nat) (x : SessX) (h : m ≠ n) : (c.setSess n x).sessOf m = c.sessOf m :=
  tabGet_tabPut_ne id SessX.init SessX.init c.sess x h
@[simp] theorem Chip.modSess_eq (c : Chip) (n : Nat) (f : SessX → SessX) : c.modSess n f = c.setSess n (f (c.sessOf n)) := rfl
@[simp] theorem Chip.sessOf_put (c : Chip) (f : Fld) (i v : Nat) (m : Nat) : (c.put f i v).sessOf m = c.sessOf m := rfl
@[simp] theorem Chip.sessOf_resetReg (c : Chip) (r : RegName) (i : Nat) (keep : List Nat) (m : Nat) : (c.resetReg r i keep).sessOf m = c.sessOf m := rfl
@[simp] theorem Chip.sessOf_emit (c : Chip) (o : Out) (m : Nat) : (c.emit o).sessOf m = c.sessOf m := rfl
@[simp] theorem Chip.sessOf_mem (c : Chip) (q : MemOp) (m : Nat) : (c.mem q).sessOf m = c.sessOf m := rfl
@[simp] theorem Chip.sessOf_draw (c : Chip) (m : Nat) : (c.draw).sessOf m = c.sessOf m := rfl
@[simp] theorem Chip.sessOf_raise (c : Chip) (src unit detail : Nat) (forced : Bool) (m : Nat) : (c.raise src unit detail forced).sessOf m = c.sessOf m := rfl
@[simp] theorem Chip.sessOf_setSlot (c : Chip) (n : Nat) (x : SlotX) (m : Nat) : (c.setSlot n x).sessOf m = c.sessOf m := rfl
@[simp] theorem Chip.sessOf_setRing (c : Chip) (r : Nat) (x : RingX) (m : Nat) : (c.setRing r x).sessOf m = c.sessOf m := rfl
@[simp] theorem Chip.sessOf_setCtx (c : Chip) (k : Nat) (x : CtxX) (m : Nat) : (c.setCtx k x).sessOf m = c.sessOf m := rfl
@[simp] theorem Chip.sessOf_setPort (c : Chip) (x : Nat) (v : PortX) (m : Nat) : (c.setPort x v).sessOf m = c.sessOf m := rfl
@[simp] theorem Chip.sessOf_setKz (c : Chip) (k : Nat) (v : KzX) (m : Nat) : (c.setKz k v).sessOf m = c.sessOf m := rfl

@[simp] theorem Chip.ctx_setCtx_self (c : Chip) (n : Nat) (x : CtxX) : (c.setCtx n x).ctx n = x :=
  tabGet_tabPut_self id CtxX.init c.ctxs n x
theorem Chip.ctx_setCtx_ne (c : Chip) (n m : Nat) (x : CtxX) (h : m ≠ n) : (c.setCtx n x).ctx m = c.ctx m :=
  tabGet_tabPut_ne id CtxX.init CtxX.init c.ctxs x h
@[simp] theorem Chip.modCtx_eq (c : Chip) (n : Nat) (f : CtxX → CtxX) : c.modCtx n f = c.setCtx n (f (c.ctx n)) := rfl
@[simp] theorem Chip.ctx_put (c : Chip) (f : Fld) (i v : Nat) (m : Nat) : (c.put f i v).ctx m = c.ctx m := rfl
@[simp] theorem Chip.ctx_resetReg (c : Chip) (r : RegName) (i : Nat) (keep : List Nat) (m : Nat) : (c.resetReg r i keep).ctx m = c.ctx m := rfl
@[simp] theorem Chip.ctx_emit (c : Chip) (o : Out) (m : Nat) : (c.emit o).ctx m = c.ctx m := rfl
@[simp] theorem Chip.ctx_mem (c : Chip) (q : MemOp) (m : Nat) : (c.mem q).ctx m = c.ctx m := rfl
@[simp] theorem Chip.ctx_draw (c : Chip) (m : Nat) : (c.draw).ctx m = c.ctx m := rfl
@[simp] theorem Chip.ctx_raise (c : Chip) (src unit detail : Nat) (forced : Bool) (m : Nat) : (c.raise src unit detail forced).ctx m = c.ctx m := rfl
@[simp] theorem Chip.ctx_setSlot (c : Chip) (n : Nat) (x : SlotX) (m : Nat) : (c.setSlot n x).ctx m = c.ctx m := rfl
@[simp] theorem Chip.ctx_setRing (c : Chip) (r : Nat) (x : RingX) (m : Nat) : (c.setRing r x).ctx m = c.ctx m := rfl
@[simp] theorem Chip.ctx_setSess (c : Chip) (n : Nat) (x : SessX) (m : Nat) : (c.setSess n x).ctx m = c.ctx m := rfl
@[simp] theorem Chip.ctx_setPort (c : Chip) (x : Nat) (v : PortX) (m : Nat) : (c.setPort x v).ctx m = c.ctx m := rfl
@[simp] theorem Chip.ctx_setKz (c : Chip) (k : Nat) (v : KzX) (m : Nat) : (c.setKz k v).ctx m = c.ctx m := rfl

@[simp] theorem Chip.port_setPort_self (c : Chip) (n : Nat) (x : PortX) : (c.setPort n x).port n = x :=
  tabGet_tabPut_self id PortX.init c.ports n x
theorem Chip.port_setPort_ne (c : Chip) (n m : Nat) (x : PortX) (h : m ≠ n) : (c.setPort n x).port m = c.port m :=
  tabGet_tabPut_ne id PortX.init PortX.init c.ports x h
@[simp] theorem Chip.port_put (c : Chip) (f : Fld) (i v : Nat) (m : Nat) : (c.put f i v).port m = c.port m := rfl
@[simp] theorem Chip.port_resetReg (c : Chip) (r : RegName) (i : Nat) (keep : List Nat) (m : Nat) : (c.resetReg r i keep).port m = c.port m := rfl
@[simp] theorem Chip.port_emit (c : Chip) (o : Out) (m : Nat) : (c.emit o).port m = c.port m := rfl
@[simp] theorem Chip.port_mem (c : Chip) (q : MemOp) (m : Nat) : (c.mem q).port m = c.port m := rfl
@[simp] theorem Chip.port_draw (c : Chip) (m : Nat) : (c.draw).port m = c.port m := rfl
@[simp] theorem Chip.port_raise (c : Chip) (src unit detail : Nat) (forced : Bool) (m : Nat) : (c.raise src unit detail forced).port m = c.port m := rfl
@[simp] theorem Chip.port_setSlot (c : Chip) (n : Nat) (x : SlotX) (m : Nat) : (c.setSlot n x).port m = c.port m := rfl
@[simp] theorem Chip.port_setRing (c : Chip) (r : Nat) (x : RingX) (m : Nat) : (c.setRing r x).port m = c.port m := rfl
@[simp] theorem Chip.port_setSess (c : Chip) (n : Nat) (x : SessX) (m : Nat) : (c.setSess n x).port m = c.port m := rfl
@[simp] theorem Chip.port_setCtx (c : Chip) (k : Nat) (x : CtxX) (m : Nat) : (c.setCtx k x).port m = c.port m := rfl
@[simp] theorem Chip.port_setKz (c : Chip) (k : Nat) (v : KzX) (m : Nat) : (c.setKz k v).port m = c.port m := rfl

@[simp] theorem Chip.kzOf_setKz_self (c : Chip) (n : Nat) (x : KzX) : (c.setKz n x).kzOf n = x :=
  tabGet_tabPut_self id KzX.init c.kz n x
theorem Chip.kzOf_setKz_ne (c : Chip) (n m : Nat) (x : KzX) (h : m ≠ n) : (c.setKz n x).kzOf m = c.kzOf m :=
  tabGet_tabPut_ne id KzX.init KzX.init c.kz x h
@[simp] theorem Chip.kzOf_put (c : Chip) (f : Fld) (i v : Nat) (m : Nat) : (c.put f i v).kzOf m = c.kzOf m := rfl
@[simp] theorem Chip.kzOf_resetReg (c : Chip) (r : RegName) (i : Nat) (keep : List Nat) (m : Nat) : (c.resetReg r i keep).kzOf m = c.kzOf m := rfl
@[simp] theorem Chip.kzOf_emit (c : Chip) (o : Out) (m : Nat) : (c.emit o).kzOf m = c.kzOf m := rfl
@[simp] theorem Chip.kzOf_mem (c : Chip) (q : MemOp) (m : Nat) : (c.mem q).kzOf m = c.kzOf m := rfl
@[simp] theorem Chip.kzOf_draw (c : Chip) (m : Nat) : (c.draw).kzOf m = c.kzOf m := rfl
@[simp] theorem Chip.kzOf_raise (c : Chip) (src unit detail : Nat) (forced : Bool) (m : Nat) : (c.raise src unit detail forced).kzOf m = c.kzOf m := rfl
@[simp] theorem Chip.kzOf_setSlot (c : Chip) (n : Nat) (x : SlotX) (m : Nat) : (c.setSlot n x).kzOf m = c.kzOf m := rfl
@[simp] theorem Chip.kzOf_setRing (c : Chip) (r : Nat) (x : RingX) (m : Nat) : (c.setRing r x).kzOf m = c.kzOf m := rfl
@[simp] theorem Chip.kzOf_setSess (c : Chip) (n : Nat) (x : SessX) (m : Nat) : (c.setSess n x).kzOf m = c.kzOf m := rfl
@[simp] theorem Chip.kzOf_setCtx (c : Chip) (k : Nat) (x : CtxX) (m : Nat) : (c.setCtx k x).kzOf m = c.kzOf m := rfl
@[simp] theorem Chip.kzOf_setPort (c : Chip) (x : Nat) (v : PortX) (m : Nat) : (c.setPort x v).kzOf m = c.kzOf m := rfl

end Sys2Proof.Machine
end

