-- ==== Sys2Proof/Laws/Change.lean ====
section
/-! SUPPORT. The calculus of changes: each operation of Machine/Ops.lean adds its own change to those made before it. -/

namespace Sys2Proof.Machine

/-! ## Changes, one after another -/

def Change.put (d : Change) (f : Fld) (i v : Nat) : Change := { d with regs := (⟨f, i⟩, v % 2 ^ f.width) :: d.regs }
def Change.resetReg (d : Change) (r : RegName) (i : Nat) : Change :=
  { d with regs := d.regs.filter (fun e => !(decide (e.1.fld.reg = r) && decide (e.1.idx = i))), resets := (r, i) :: d.resets }
def Change.emit (d : Change) (o : Out) : Change := { d with out := d.out ++ [o] }
def Change.mem (d : Change) (m : MemOp) : Change := { d with mems := d.mems ++ [m] }
def Change.event (d : Change) (e : AshEv) : Change := { d with events := d.events ++ [e] }
def Change.setSlot (d : Change) (n : Nat) (x : SlotX) : Change := { d with slots := (n, x) :: d.slots }
def Change.setRing (d : Change) (n : Nat) (x : RingX) : Change := { d with rings := (n, x) :: d.rings }
def Change.setSess (d : Change) (n : Nat) (x : SessX) : Change := { d with sess := (n, x) :: d.sess }
def Change.setCtx (d : Change) (n : Nat) (x : CtxX) : Change := { d with ctxs := (n, x) :: d.ctxs }
def Change.setPort (d : Change) (n : Nat) (x : PortX) : Change := { d with ports := (n, x) :: d.ports }
def Change.setKz (d : Change) (n : Nat) (x : KzX) : Change := { d with kz := (n, x) :: d.kz }

variable {d : Change} {c c' : Chip}

/-- No change. -/
theorem Change.Of.refl (c : Chip) : ({} : Change).Of c c where
  reg := fun f i => by simp [Change.reg, tabFind]
  slot := fun _ => rfl
  ring := fun _ => rfl
  sessOf := fun _ => rfl
  ctx := fun _ => rfl
  port := fun _ => rfl
  kzOf := fun _ => rfl
  entries := rfl
  nextUid := rfl
  nextOrder := rfl
  stack := rfl
  dmp := rfl
  cord := rfl
  ember := rfl
  seq := rfl
  pmb := rfl
  grp := rfl
  wear := rfl
  kln := rfl
  blanked := rfl
  stage := fun _ => rfl
  monHist := fun _ => rfl
  base := rfl
  us := rfl
  tick := rfl
  free := rfl
  ash := by simp
  memq := by simp
  out := by simp

theorem Change.Of.put (h : d.Of c c') (f : Fld) (i v : Nat) : (d.put f i v).Of c (c'.put f i v) :=
  { h with
    reg := fun g j => by
      rw [Chip.get_put]
      unfold Change.reg Change.put
      simp only [tabFind]
      by_cases hk : g = f ∧ j = i
      · obtain ⟨rfl, rfl⟩ := hk; simp
      · have : (⟨f, i⟩ : Key) ≠ ⟨g, j⟩ := fun he => hk ⟨(congrArg Key.fld he).symm, (congrArg Key.idx he).symm⟩
        simp only [hk, this, if_false]
        exact h.reg g j }

theorem Change.Of.resetReg (h : d.Of c c') (r : RegName) (i : Nat) : (d.resetReg r i).Of c (c'.resetReg r i) :=
  { h with
    reg := fun g j => by
      rw [Chip.get_resetReg, h.reg]
      unfold Change.reg Change.resetReg
      have := tabFind_filter (fun k : Key => !(decide (k.fld.reg = r) && decide (k.idx = i))) d.regs ⟨g, j⟩
      rw [this]
      by_cases h1 : g.reg = r <;> by_cases h2 : j = i <;> simp [h1, h2] }

/-- A register instance returns to its reset values, but for the fields kept. -/
theorem Change.Of.resetKeep (h : d.Of c c') (r : RegName) (i : Nat) (keep : List Nat) :
    ({ d with
        regs := keep.map (fun lo => (⟨⟨r, lo⟩, i⟩, c'.get ⟨r, lo⟩ i))
          ++ d.regs.filter (fun e => !(decide (e.1.fld.reg = r) && decide (e.1.idx = i))),
        resets := (r, i) :: d.resets } : Change).Of c (c'.resetReg r i keep) :=
  { h with
    reg := fun g j => by
      rw [Chip.get_resetReg]
      have hr := (h.resetReg r i).reg g j
      rw [Chip.get_resetReg] at hr
      have : ∀ l : List Nat, tabFind (l.map (fun lo => ((⟨⟨r, lo⟩, i⟩ : Key), c'.get ⟨r, lo⟩ i))
          ++ d.regs.filter (fun e => !(decide (e.1.fld.reg = r) && decide (e.1.idx = i)))) ⟨g, j⟩
          = if g.reg = r ∧ j = i ∧ l.contains g.lo = true then some (c'.get g j)
            else tabFind (d.regs.filter (fun e => !(decide (e.1.fld.reg = r) && decide (e.1.idx = i)))) ⟨g, j⟩ := by
        intro l
        induction l with
        | nil => simp
        | cons a l ih =>
          simp only [List.map_cons, List.cons_append, tabFind, ih]
          by_cases hk : (⟨⟨r, a⟩, i⟩ : Key) = ⟨g, j⟩
          · have h1 : g = ⟨r, a⟩ := (congrArg Key.fld hk).symm
            have h2 : j = i := (congrArg Key.idx hk).symm
            subst h1 h2; simp
          · have : ¬(g.reg = r ∧ j = i ∧ g.lo = a) := by
              rintro ⟨rfl, rfl, rfl⟩; exact hk rfl
            simp only [hk, if_false, List.contains_cons, Bool.or_eq_true, beq_iff_eq]
            by_cases h1 : g.reg = r <;> by_cases h2 : j = i <;> simp_all
      unfold Change.reg
      rw [this]
      by_cases h1 : g.reg = r ∧ j = i
      · obtain ⟨rfl, rfl⟩ := h1
        cases h2 : keep.contains g.lo with
        | true => simp
        | false =>
          simp only [List.contains_nil, and_self, if_true] at hr
          rw [if_pos (by simp)]
          refine hr.trans ?_
          simp [Change.reg, Change.resetReg]
      · have hn : ∀ b : Bool, ¬(g.reg = r ∧ j = i ∧ b = true) := fun b hh => h1 ⟨hh.1, hh.2.1⟩
        have hn' : ∀ b : Bool, ¬(g.reg = r ∧ j = i ∧ b = false) := fun b hh => h1 ⟨hh.1, hh.2.1⟩
        simp only [hn, hn', if_false]
        simp only [hn', if_false] at hr
        exact hr }

theorem Change.Of.emit (h : d.Of c c') (o : Out) : (d.emit o).Of c (c'.emit o) :=
  { h with out := by simp [Change.emit, h.out] }

theorem Change.Of.mem (h : d.Of c c') (m : MemOp) : (d.mem m).Of c (c'.mem m) :=
  { h with memq := by simp [Change.mem, h.memq] }

theorem Change.Of.raise (h : d.Of c c') (src unit detail : Nat) (forced : Bool) :
    (d.event ⟨src, unit, detail, forced⟩).Of c (c'.raise src unit detail forced) :=
  { h with ash := by simp [Change.event, h.ash] }

theorem Change.Of.setSlot (h : d.Of c c') (n : Nat) (x : SlotX) : (d.setSlot n x).Of c (c'.setSlot n x) :=
  { h with
    slot := fun m => by
      by_cases hm : m = n
      · subst hm; simp [Change.setSlot, tabFind]
      · rw [Chip.slot_setSlot_ne _ _ _ _ hm, h.slot]
        simp [Change.setSlot, tabFind, Ne.symm hm] }

theorem Change.Of.setRing (h : d.Of c c') (n : Nat) (x : RingX) : (d.setRing n x).Of c (c'.setRing n x) :=
  { h with
    ring := fun m => by
      by_cases hm : m = n
      · subst hm; simp [Change.setRing, tabFind]
      · rw [Chip.ring_setRing_ne _ _ _ _ hm, h.ring]
        simp [Change.setRing, tabFind, Ne.symm hm] }

theorem Change.Of.setSess (h : d.Of c c') (n : Nat) (x : SessX) : (d.setSess n x).Of c (c'.setSess n x) :=
  { h with
    sessOf := fun m => by
      by_cases hm : m = n
      · subst hm; simp [Change.setSess, tabFind]
      · rw [Chip.sessOf_setSess_ne _ _ _ _ hm, h.sessOf]
        simp [Change.setSess, tabFind, Ne.symm hm] }

theorem Change.Of.setCtx (h : d.Of c c') (n : Nat) (x : CtxX) : (d.setCtx n x).Of c (c'.setCtx n x) :=
  { h with
    ctx := fun m => by
      by_cases hm : m = n
      · subst hm; simp [Change.setCtx, tabFind]
      · rw [Chip.ctx_setCtx_ne _ _ _ _ hm, h.ctx]
        simp [Change.setCtx, tabFind, Ne.symm hm] }

theorem Change.Of.setPort (h : d.Of c c') (n : Nat) (x : PortX) : (d.setPort n x).Of c (c'.setPort n x) :=
  { h with
    port := fun m => by
      by_cases hm : m = n
      · subst hm; simp [Change.setPort, tabFind]
      · rw [Chip.port_setPort_ne _ _ _ _ hm, h.port]
        simp [Change.setPort, tabFind, Ne.symm hm] }

theorem Change.Of.setKz (h : d.Of c c') (n : Nat) (x : KzX) : (d.setKz n x).Of c (c'.setKz n x) :=
  { h with
    kzOf := fun m => by
      by_cases hm : m = n
      · subst hm; simp [Change.setKz, tabFind]
      · rw [Chip.kzOf_setKz_ne _ _ _ _ hm, h.kzOf]
        simp [Change.setKz, tabFind, Ne.symm hm] }

theorem Change.Of.set_entries (h : d.Of c c') (x : List Entry) : ({ d with entries := some x } : Change).Of c { c' with entries := x } :=
  { h with entries := rfl }

theorem Change.Of.set_nextUid (h : d.Of c c') (x : Nat) : ({ d with nextUid := some x } : Change).Of c { c' with nextUid := x } :=
  { h with nextUid := rfl }

theorem Change.Of.set_nextOrder (h : d.Of c c') (x : Nat) : ({ d with nextOrder := some x } : Change).Of c { c' with nextOrder := x } :=
  { h with nextOrder := rfl }

theorem Change.Of.set_stack (h : d.Of c c') (x : StackX) : ({ d with stack := some x } : Change).Of c { c' with stack := x } :=
  { h with stack := rfl }

theorem Change.Of.set_dmp (h : d.Of c c') (x : DamperX) : ({ d with dmp := some x } : Change).Of c { c' with dmp := x } :=
  { h with dmp := rfl }

theorem Change.Of.set_cord (h : d.Of c c') (x : CordX) : ({ d with cord := some x } : Change).Of c { c' with cord := x } :=
  { h with cord := rfl }

theorem Change.Of.set_ember (h : d.Of c c') (x : EmberX) : ({ d with ember := some x } : Change).Of c { c' with ember := x } :=
  { h with ember := rfl }

theorem Change.Of.set_seq (h : d.Of c c') (x : SeqX) : ({ d with seq := some x } : Change).Of c { c' with seq := x } :=
  { h with seq := rfl }

theorem Change.Of.set_pmb (h : d.Of c c') (x : PmbX) : ({ d with pmb := some x } : Change).Of c { c' with pmb := x } :=
  { h with pmb := rfl }

theorem Change.Of.set_grp (h : d.Of c c') (x : GrpX) : ({ d with grp := some x } : Change).Of c { c' with grp := x } :=
  { h with grp := rfl }

theorem Change.Of.set_wear (h : d.Of c c') (x : WearX) : ({ d with wear := some x } : Change).Of c { c' with wear := x } :=
  { h with wear := rfl }

theorem Change.Of.set_kln (h : d.Of c c') (x : KlnX) : ({ d with kln := some x } : Change).Of c { c' with kln := x } :=
  { h with kln := rfl }

theorem Change.Of.set_blanked (h : d.Of c c') (x : List MonId) : ({ d with blanked := some x } : Change).Of c { c' with blanked := x } :=
  { h with blanked := rfl }

theorem Change.Of.set_base (h : d.Of c c') (x : List ((Nat × Nat × Bool) × Nat)) :
    ({ d with base := some x } : Change).Of c { c' with base := x } :=
  { h with base := rfl }

/-- Monitors have numbers of their own. -/
theorem monKey_inj {a b : MonId} (h : monKey a = monKey b) : a = b := by
  cases a <;> cases b <;> simp only [monKey] at h <;> first | (exfalso; omega) | (congr 1; apply Fin.ext; omega)

theorem Chip.monHist_setMonHist (c : Chip) (m k : MonId) (x : List SampleClass) :
    (c.setMonHist m x).monHist k = if k = m then x else c.monHist k := by
  unfold Chip.monHist Chip.setMonHist
  by_cases hk : k = m
  · subst hk; simp only [if_true]; exact tabGet_tabPut_self id [] c.mons _ x
  · rw [if_neg hk]
    exact tabGet_tabPut_ne id [] [] c.mons x (fun e => hk (monKey_inj e))

theorem Change.Of.setMonHist (h : d.Of c c') (m : MonId) (x : List SampleClass) :
    ({ d with mons := (m, x) :: d.mons } : Change).Of c (c'.setMonHist m x) :=
  { h with
    monHist := fun k => by
      rw [Chip.monHist_setMonHist]
      simp only [tabFind]
      by_cases hk : k = m
      · subst hk; simp
      · rw [if_neg hk, if_neg (Ne.symm hk)]; exact h.monHist k }

/-- The slots whose commands the staging buffers of a place hold. -/
theorem Change.Of.setStage (h : d.Of c c') (p : Nat) (x : List Nat) :
    ({ d with stage := (p, x) :: d.stage } : Change).Of c { c' with stage := tabPut id [] c'.stage p x } :=
  { h with
    stage := fun q => by
      simp only [tabFind]
      by_cases hq : p = q
      · subst hq; simp only [if_true, Option.getD_some]; exact tabGet_tabPut_self id [] c'.stage _ x
      · rw [if_neg hq]
        exact (tabGet_tabPut_ne id [] [] c'.stage x (fun e => hq e.symm)).trans (h.stage q) }

theorem Change.Of.set_us (h : d.Of c c') (x : Nat) : ({ d with us := some x } : Change).Of c { c' with us := x } :=
  { h with us := rfl }

theorem Change.Of.set_tick (h : d.Of c c') (x : Nat) : ({ d with tick := some x } : Change).Of c { c' with tick := x } :=
  { h with tick := rfl }

theorem Change.Of.set_free (h : d.Of c c') (x : Nat) : ({ d with free := some x } : Change).Of c { c' with free := x } :=
  { h with free := rfl }

/-- Ash's part changes, but for its inbox. -/
theorem Change.Of.set_ash (h : d.Of c c') (x : AshX) (hx : x.inbox = c'.ash.inbox) :
    ({ d with ash := some x } : Change).Of c { c' with ash := x } :=
  { h with
    ash := by
      have := congrArg AshX.inbox h.ash
      simp only at this
      rw [this] at hx
      simp only [Option.getD_some]; rw [← hx] }

theorem Change.reg_congr {d d' : Change} (h1 : d.regs = d'.regs) (h2 : d.resets = d'.resets) (c : Chip) (f : Fld) (i : Nat) :
    d.reg c f i = d'.reg c f i := by
  unfold Change.reg; rw [h1, h2]

theorem Change.Of.eq {c'' : Chip} (h : d.Of c c') (e : c'' = c') : d.Of c c'' := by subst e; exact h

/-- The registers of a change, said another way. -/
theorem Change.Of.regs_eq (h : d.Of c c') {l : List (Key × Nat)} (e : d.regs = l) : ({ d with regs := l } : Change).Of c c' := by
  subst e; exact h

/-- The slots of a change, said another way. -/
theorem Change.Of.slots_eq (h : d.Of c c') {l : List (Nat × SlotX)}
    (e : ∀ i, (tabFind d.slots i).getD (c.slot i) = (tabFind l i).getD (c.slot i)) : ({ d with slots := l } : Change).Of c c' :=
  { h with slot := fun i => (h.slot i).trans (e i) }

/-- What goes out in a change, said another way. -/
theorem Change.Of.out_eq (h : d.Of c c') {l : List Out} (e : d.out = l) : ({ d with out := l } : Change).Of c c' := by
  subst e; exact h

/-- Two changes that leave everything reading the same are the same. -/
theorem Change.Of.congr {d' : Change} (h : d.Of c c') (hreg : ∀ f i, d.reg c f i = d'.reg c f i)
    (hslots : ∀ i, (tabFind d.slots i).getD (c.slot i) = (tabFind d'.slots i).getD (c.slot i))
    (hrings : ∀ i, (tabFind d.rings i).getD (c.ring i) = (tabFind d'.rings i).getD (c.ring i))
    (hsess : ∀ i, (tabFind d.sess i).getD (c.sessOf i) = (tabFind d'.sess i).getD (c.sessOf i))
    (hctxs : ∀ i, (tabFind d.ctxs i).getD (c.ctx i) = (tabFind d'.ctxs i).getD (c.ctx i))
    (hports : ∀ i, (tabFind d.ports i).getD (c.port i) = (tabFind d'.ports i).getD (c.port i))
    (hkz : ∀ i, (tabFind d.kz i).getD (c.kzOf i) = (tabFind d'.kz i).getD (c.kzOf i))
    (hentries : d.entries.getD c.entries = d'.entries.getD c.entries)
    (hnextUid : d.nextUid.getD c.nextUid = d'.nextUid.getD c.nextUid)
    (hnextOrder : d.nextOrder.getD c.nextOrder = d'.nextOrder.getD c.nextOrder)
    (hstack : d.stack.getD c.stack = d'.stack.getD c.stack)
    (hdmp : d.dmp.getD c.dmp = d'.dmp.getD c.dmp)
    (hcord : d.cord.getD c.cord = d'.cord.getD c.cord)
    (hember : d.ember.getD c.ember = d'.ember.getD c.ember)
    (hseq : d.seq.getD c.seq = d'.seq.getD c.seq)
    (hpmb : d.pmb.getD c.pmb = d'.pmb.getD c.pmb)
    (hgrp : d.grp.getD c.grp = d'.grp.getD c.grp)
    (hwear : d.wear.getD c.wear = d'.wear.getD c.wear)
    (hkln : d.kln.getD c.kln = d'.kln.getD c.kln)
    (hblanked : d.blanked.getD c.blanked = d'.blanked.getD c.blanked)
    (hstage : ∀ p, (tabFind d.stage p).getD (tabGet [] c.stage p) = (tabFind d'.stage p).getD (tabGet [] c.stage p))
    (hmons : ∀ m, (tabFind d.mons m).getD (c.monHist m) = (tabFind d'.mons m).getD (c.monHist m))
    (hbase : d.base.getD c.base = d'.base.getD c.base)
    (hus : d.us.getD c.us = d'.us.getD c.us)
    (htick : d.tick.getD c.tick = d'.tick.getD c.tick)
    (hfree : d.free.getD c.free = d'.free.getD c.free)
    (hash : d.ash.getD c.ash = d'.ash.getD c.ash) (htaken : d.taken = d'.taken) (hevents : d.events = d'.events) (hout : d.out = d'.out)
    (hmems : d.mems = d'.mems) : d'.Of c c' where
  reg := fun f i => (h.reg f i).trans (hreg f i)
  slot := fun i => (h.slot i).trans (hslots i)
  ring := fun i => (h.ring i).trans (hrings i)
  sessOf := fun i => (h.sessOf i).trans (hsess i)
  ctx := fun i => (h.ctx i).trans (hctxs i)
  port := fun i => (h.port i).trans (hports i)
  kzOf := fun i => (h.kzOf i).trans (hkz i)
  entries := h.entries.trans hentries
  nextUid := h.nextUid.trans hnextUid
  nextOrder := h.nextOrder.trans hnextOrder
  stack := h.stack.trans hstack
  dmp := h.dmp.trans hdmp
  cord := h.cord.trans hcord
  ember := h.ember.trans hember
  seq := h.seq.trans hseq
  pmb := h.pmb.trans hpmb
  grp := h.grp.trans hgrp
  wear := h.wear.trans hwear
  kln := h.kln.trans hkln
  blanked := h.blanked.trans hblanked
  stage := fun p => (h.stage p).trans (hstage p)
  monHist := fun m => (h.monHist m).trans (hmons m)
  base := h.base.trans hbase
  us := h.us.trans hus
  tick := h.tick.trans htick
  free := h.free.trans hfree
  ash := by rw [h.ash, hash, htaken, hevents]
  memq := by rw [h.memq, hmems]
  out := by rw [h.out, hout]

/-! ## From the chip to the state -/

/-- What acting on the chip leaves: the new chip with no change of a memory left, and the changes it asked for carried out. -/
theorem State.act_eq (s : State) (f : Chip → Chip) :
    s.act f = (f s.chip).memq.foldl State.applyMem { s with chip := { f s.chip with memq := [] } } := rfl

/-- A command whose action on the chip makes the changes named completes with them. -/
theorem Effect.of_run {i : Instr} {s : State} {f : Chip → Chip} {d : Change} (he : exec i s = .next (s.run f))
    (hs : s.Still) (ho : d.Of s.chip (f s.chip)) : Effect i s d := by
  refine ⟨_, ho, ?_⟩
  have hm : (f s.chip).memq = d.mems := by rw [ho.memq, hs]; rfl
  rw [he, State.run, State.act_eq, hm]

/-- Withdrawing what an asker has neither asked for nor been granted changes nothing. -/
theorem Chip.withdraw_of_noAsk (c : Chip) (a : Asker) (h : c.NoAsk a) : c.withdraw a = c := by
  obtain ⟨h1, h2⟩ := h
  have e1 : c.dmp.reqs.filter (fun r => decide (r.asker ≠ a)) = c.dmp.reqs :=
    List.filter_eq_self.2 (fun r hr => by simpa using h1 r hr)
  have e2 : c.dmp.grants.filter (fun g => decide (g.asker ≠ a)) = c.dmp.grants :=
    List.filter_eq_self.2 (fun g hg => by simpa using h2 g hg)
  have e3 : c.dmp.grants.filter (fun g => decide (g.asker = a)) = [] :=
    List.filter_eq_nil_iff.2 (fun g hg => by simpa using h2 g hg)
  unfold Chip.withdraw
  simp only [e1, e2, e3, List.foldl_nil]

theorem Chip.NoAsk.congr {c c' : Chip} {a : Asker} (h : c.NoAsk a) (e : c'.dmp = c.dmp) : c'.NoAsk a := by
  unfold Chip.NoAsk at *; rw [e]; exact h

/-- What a slot carries depends on its part, the damper and Ember alone. -/
theorem Chip.Bare.congr {c c' : Chip} {n : Nat} (hb : c.Bare n) (q1 : (c'.slot n).queue = []) (q2 : (c'.slot n).wait = none)
    (q3 : ∀ ex src, (c'.slot n).cur = some ex → ex.use ≠ .leg src ∧ ex.use ≠ .dozeResume src) (q4 : (c'.slot n).measuring = false) (h2 : c'.dmp = c.dmp) (h3 : ∀ k, c'.ctx k = c.ctx k)
    (h4 : c'.ember = c.ember) : c'.Bare n where
  queue := q1
  wait := q2
  cur := q3
  measuring := q4
  mcmd := hb.mcmd.congr h2
  cordJob := hb.cordJob.congr h2
  host := fun k => by rw [h3]; exact hb.host k
  stokerQ := by rw [h4]; exact hb.stokerQ
  finished := by rw [h4]; exact hb.finished

theorem Chip.Bare.of_slot {c c' : Chip} {n : Nat} (hb : c.Bare n) (h1 : c'.slot n = c.slot n) (h2 : c'.dmp = c.dmp)
    (h3 : ∀ k, c'.ctx k = c.ctx k) (h4 : c'.ember = c.ember) : c'.Bare n :=
  hb.congr (by rw [h1]; exact hb.queue) (by rw [h1]; exact hb.wait) (by rw [h1]; exact hb.cur)
    (by rw [h1]; exact hb.measuring) h2 h3 h4

/-- A key of a table of changes. -/
theorem Key.mk_eq (f g : Fld) (i j : Nat) : (⟨f, i⟩ : Key) = ⟨g, j⟩ ↔ g = f ∧ j = i := by
  constructor
  · intro h; exact ⟨(congrArg Key.fld h).symm, (congrArg Key.idx h).symm⟩
  · rintro ⟨rfl, rfl⟩; rfl

end Sys2Proof.Machine
end

