-- ==== Sys2Proof/Laws/Memory.lean ====
section
/-! SUPPORT. The laws of the memories: a read after a write, the canonical form that every operation keeps, and what an action
of the block can do to its memories and stores. -/

namespace Sys2Proof.Machine

/-! ## Reads after writes -/

@[simp] theorem memRead_memWrite_self (m : List Host.Cell) (a : Nat) (b : Byte) : memRead (memWrite m a b) a = b :=
  tabGet_tabPut_self id memBlank m a b

theorem memRead_memWrite_ne (m : List Host.Cell) {a a' : Nat} (b : Byte) (h : a' ≠ a) :
    memRead (memWrite m a b) a' = memRead m a' :=
  tabGet_tabPut_ne id memBlank memBlank m b h

/-! ## The canonical form -/

theorem Memory.wf_iff (m : List Host.Cell) :
    Memory.wf m = true ↔ tabRising id m = true ∧ ∀ e ∈ m, e.2 ≠ memBlank := by
  simp [Memory.wf]

theorem Memory.wf_nil : Memory.wf [] = true := rfl

theorem memWrite_wf (m : List Host.Cell) (a : Nat) (b : Byte) (h : Memory.wf m = true) : Memory.wf (memWrite m a b) = true := by
  rw [Memory.wf_iff] at *
  exact ⟨tabRising_tabPut id memBlank m a b (fun _ _ h => h) h.1, tabPut_ne_dflt id memBlank m a b h.2⟩

theorem memWriteBytes_wf (m : List Host.Cell) (a : Nat) (bs : List Byte) (h : Memory.wf m = true) :
    Memory.wf (memWriteBytes m a bs) = true := by
  unfold memWriteBytes
  generalize bs.zipIdx a = l
  induction l generalizing m with
  | nil => exact h
  | cons p l ih => exact ih _ (memWrite_wf m p.2 p.1 h)

theorem memWipe_wf (m : List Host.Cell) (a len : Nat) (h : Memory.wf m = true) : Memory.wf (memWipe m a len) = true := by
  rw [Memory.wf_iff] at *
  exact ⟨tabRising_filter id _ m h.1, fun e he => h.2 e (List.mem_of_mem_filter he)⟩

theorem State.applyMem_memOk (s : State) (m : MemOp) (h : s.MemOk) : (s.applyMem m).MemOk := by
  obtain ⟨h1, h2, h3⟩ := h
  cases m
  case sram off bytes => exact ⟨memWriteBytes_wf _ _ _ h1, h2, h3⟩
  case sramClear => exact ⟨rfl, h2, h3⟩
  case opWrite off bytes => exact ⟨h1, memWriteBytes_wf _ _ _ h2, h3⟩
  case listWrite off bytes => exact ⟨h1, h2, memWriteBytes_wf _ _ _ h3⟩
  case wipeOp off len => exact ⟨h1, memWipe_wf _ _ _ h2, h3⟩
  case wipeList off len => exact ⟨h1, h2, memWipe_wf _ _ _ h3⟩
  all_goals exact ⟨h1, h2, h3⟩

/-! ## What an action can do to the memories, the stores and the queue -/

/-- A property of the state that no change of the chip touches and every change of a memory keeps is kept by a flush. -/
theorem State.flush_keeps (P : State → Prop) (hc : ∀ s c, P s → P { s with chip := c }) (hm : ∀ s m, P s → P (s.applyMem m))
    (s : State) (h : P s) : P s.flush := by
  unfold State.flush
  generalize s.chip.memq = l
  have := hc s { s.chip with memq := [] } h
  generalize ({ s with chip := { s.chip with memq := [] } } : State) = t at this
  induction l generalizing t with
  | nil => exact this
  | cons m l ih => exact ih _ (hm _ m this)

/-- And by an action, by the rounds that follow it, and by a run if the cold reset keeps it too. -/
theorem State.act_keeps (P : State → Prop) (hc : ∀ s c, P s → P { s with chip := c }) (hm : ∀ s m, P s → P (s.applyMem m))
    (s : State) (f : Chip → Chip) (h : P s) : P (s.act f) :=
  State.flush_keeps P hc hm _ (hc s _ h)

theorem State.settle_keeps (P : State → Prop) (hc : ∀ s c, P s → P { s with chip := c }) (hm : ∀ s m, P s → P (s.applyMem m))
    (s : State) (h : P s) : P s.settle := by
  unfold State.settle State.settle1
  exact State.act_keeps P hc hm _ _ (State.act_keeps P hc hm _ _ (State.act_keeps P hc hm _ _ (State.act_keeps P hc hm _ _ h)))

theorem State.run_keeps (P : State → Prop) (hc : ∀ s c, P s → P { s with chip := c }) (hm : ∀ s m, P s → P (s.applyMem m))
    (hr : ∀ s, P s → P s.coldReset) (s : State) (f : Chip → Chip) (h : P s) : P (s.run f) := by
  have h' := State.settle_keeps P hc hm _ (State.act_keeps P hc hm s f h)
  unfold State.run State.coldDue
  split
  · exact hr _ h'
  · exact h'

theorem State.coldReset_memOk (s : State) : s.coldReset.MemOk :=
  State.flush_keeps State.MemOk (fun _ _ h => h) State.applyMem_memOk _ ⟨rfl, rfl, rfl⟩

theorem State.run_memOk (s : State) (f : Chip → Chip) (h : s.MemOk) : (s.run f).MemOk :=
  State.run_keeps State.MemOk (fun _ _ h => h) State.applyMem_memOk (fun s _ => s.coldReset_memOk) s f h

theorem State.reset_memOk : State.reset.MemOk := ⟨rfl, rfl, rfl⟩

/-- No action changes the commands that wait. -/
theorem State.applyMem_pending (s : State) (m : MemOp) : (s.applyMem m).pending = s.pending := by cases m <;> rfl

theorem State.run_pending (s : State) (f : Chip → Chip) : (s.run f).pending = s.pending := by
  refine State.run_keeps (fun t => t.pending = s.pending) (fun _ _ h => h) (fun t m h => (t.applyMem_pending m).trans h)
    (fun t h => ?_) s f rfl
  exact State.flush_keeps (fun u => u.pending = s.pending) (fun _ _ h => h) (fun u m h => (u.applyMem_pending m).trans h) _ h

/-! ## OTP -/

theorem otpWord_otpBurn (otp : List (Nat × Nat)) (w v w' : Nat) :
    otpWord (otpBurn otp w v) w' = if w' = w then otpWord otp w ||| (v % 2 ^ 32) else otpWord otp w' := by
  unfold otpWord otpBurn
  split
  · subst_vars; exact tabGet_tabPut_self id 0 otp _ _
  · exact tabGet_tabPut_ne id 0 0 otp _ ‹_›

/-- A burned bit stays burned through a burn. -/
theorem otpBurn_keeps (otp : List (Nat × Nat)) (w v w' k : Nat) (h : (otpWord otp w').testBit k = true) :
    (otpWord (otpBurn otp w v) w').testBit k = true := by
  rw [otpWord_otpBurn]
  split
  · subst_vars; simp [h]
  · exact h

end Sys2Proof.Machine
end

