-- ==== Sys2Proof/Laws/Slot.lean ====
section
/-! SUPPORT. What the shared operations of a slot channel do: retirement of a session, a cut, the contacts, the lane, and a
deactivation of a slot that carries no work. -/

namespace Sys2Proof.Machine

/-- Stoker has no work to abandon where no context carries any and none waits. -/
theorem Chip.abandonJobs_eq (c : Chip) (mine : EmbUse → Bool) (hh : mine .host = false) (h2 : ∀ k, (c.ctx k).use = .host)
    (h3 : c.ember.stokerQ = []) (h4 : c.ember.finished = []) : c.abandonJobs mine = c := by
  have e : ({ c with ember := { c.ember with stokerQ := c.ember.stokerQ, finished := c.ember.finished } } : Chip) = c := rfl
  unfold Chip.abandonJobs
  simp only [h3, h4, List.filter_nil] at e ⊢
  rw [e]
  unfold Chip.forN
  have : ∀ (l : List Nat), l.foldl (fun c k =>
    if mine (c.ctx k).use && c.ctxJob k then (c.setCtx k { c.ctx k with use := .host }).jobAbort k else c) c = c := by
    intro l
    induction l with
    | nil => rfl
    | cons k l ih => rw [List.foldl_cons]; simp only [h2, hh, Bool.false_and]; exact ih
  exact this _

theorem Chip.abandonCinder_eq (c : Chip) (n : Nat) (h1 : c.NoAsk (.cordJob n)) (h2 : ∀ k, (c.ctx k).use = .host)
   (h3 : c.ember.stokerQ = []) (h4 : c.ember.finished = []) : c.abandonCinder n = c := by
  unfold Chip.abandonCinder
  rw [Chip.withdraw_of_noAsk _ _ h1]
  exact Chip.abandonJobs_eq c _ rfl h2 h3 h4

theorem Chip.retireSession_eq (c : Chip) (n : Nat) (h1 : c.NoAsk (.cordJob n)) (h2 : ∀ k, (c.ctx k).use = .host)
   (h3 : c.ember.stokerQ = []) (h4 : c.ember.finished = []) :
   c.retireSession n = (((c.setSess n { c.sessOf n with zss := [], cur := none, old := none, cin := none, rekeyRetry := false }).put
     CRD_SESS_STAT.SESS n ssNONE).put CRD_SESS_STAT.OLD_HELD n 0).put CRD_SESS_STAT.REKEY_DUE n 0 := by
  unfold Chip.retireSession
  rw [Chip.abandonCinder_eq c n h1 h2 h3 h4]; rfl

theorem Chip.cutExchange_eq (c : Chip) (n st : Nat) (h1 : c.NoAsk (.mcmd n)) (hw : (c.slot n).wait = none) (hc : ∀ ex src, (c.slot n).cur = some ex → ex.use ≠ .leg src ∧ ex.use ≠ .dozeResume src)
  (hs : c.slotState n ≠ stOFF) : c.cutExchange n st = (c.setSlot n { c.slot n with wait := none, cur := none, t0 := T0X.init, t1 := T1X.init }).put HTH_SLOT_STAT.BUDGET_WAIT n 0 := by
  unfold Chip.cutExchange
  simp only [hw, Chip.withdraw_of_noAsk _ _ h1]
  have : ((c.modSlot n (fun x => { x with wait := none, cur := none, t0 := T0X.init, t1 := T1X.init })).slotState n) ≠ stOFF := hs
  simp only [this, if_false]
  cases hx : (c.slot n).cur with
  | none => rfl
  | some ex =>
    cases hu : ex.use with
    | leg src => exact absurd hu (hc ex src hx).1
    | dozeResume src => exact absurd hu (hc ex src hx).2
    | _ => simp only [hu]; rfl

theorem Change.Of.evict {d : Change} {c c' : Chip} (h : d.Of c c') (n : Nat) (hq : (c'.slot n).queue = []) : d.Of c (c'.evict n) := by
  unfold Chip.evict
  split
  · exact h
  · rw [hq]
    simp only [List.foldl_nil]
    exact { h with
      slot := by
        intro m
        rw [← h.slot m]
        show ((c'.setSlot n _).slot m) = _
        by_cases hm : m = n
        · subst hm
          rw [Chip.slot_setSlot_self]
          rw [← hq]
        · rw [Chip.slot_setSlot_ne _ _ _ _ hm] }

theorem Change.Of.contactsLow {d : Change} {c c' : Chip} (h : d.Of c c') (n : Nat) (cut : Bool) :
   ({ d with regs := lowRegs n ++ d.regs, out := d.out ++ (if cut then switchOpen n ++ signalsLow n else signalsLow n ++ switchOpen n) } : Change).Of c (c'.contactsLow n cut) := by
  unfold Chip.contactsLow
  have fin : ∀ {d1 : Change} {c2 : Chip}, d1.Of c c2 →
      (((((d1.put HTH_SLOT_ESTAT.SW_CLOSED n 0).put HTH_SLOT_ESTAT.DISCHARGE n 1).put HTH_SLOT_ESTAT.CLASS_APPLIED n 0).put HTH_SLOT_ESTAT.LIMITING n 0).put HTH_PROT_CLKDIV.RUN n 0).Of c
      (((((c2.put HTH_SLOT_ESTAT.SW_CLOSED n 0).put HTH_SLOT_ESTAT.DISCHARGE n 1).put HTH_SLOT_ESTAT.CLASS_APPLIED n 0).put HTH_SLOT_ESTAT.LIMITING n 0).put HTH_PROT_CLKDIV.RUN n 0) :=
    fun h1 => ((((h1.put _ _ _).put _ _ _).put _ _ _).put _ _ _).put _ _ _
  cases hop : isOperator n <;> cases cut
  · have := fin ((((((h.emit (.contact n .rst false)).emit (.contact n .clk false)).emit (.contact n .io false)).emit (.contact n .lane false)).emit (.contact n .vcc false)).emit (.contact n .discharge true))
    dsimp only [Change.put, Change.emit] at this
    exact (this.regs_eq (by simp [lowRegs, Fld.width, Fld.spec, regFields])).out_eq (by simp [signalsLow, hop, switchOpen])
  · have := fin ((((((h.emit (.contact n .vcc false)).emit (.contact n .discharge true)).emit (.contact n .rst false)).emit (.contact n .clk false)).emit (.contact n .io false)).emit (.contact n .lane false))
    dsimp only [Change.put, Change.emit] at this
    exact (this.regs_eq (by simp [lowRegs, Fld.width, Fld.spec, regFields])).out_eq (by simp [signalsLow, hop, switchOpen])
  · have := fin (((((h.emit (.contact n .rst false)).emit (.contact n .clk false)).emit (.contact n .io false)).emit (.contact n .vcc false)).emit (.contact n .discharge true))
    dsimp only [Change.put, Change.emit] at this
    exact (this.regs_eq (by simp [lowRegs, Fld.width, Fld.spec, regFields])).out_eq (by simp [signalsLow, hop, switchOpen])
  · have := fin (((((h.emit (.contact n .vcc false)).emit (.contact n .discharge true)).emit (.contact n .rst false)).emit (.contact n .clk false)).emit (.contact n .io false))
    dsimp only [Change.put, Change.emit] at this
    exact (this.regs_eq (by simp [lowRegs, Fld.width, Fld.spec, regFields])).out_eq (by simp [signalsLow, hop, switchOpen])

theorem Change.Of.stopLane {d : Change} {c c' : Chip} (h : d.Of c c') (n : Nat) :
   ({ d with regs := laneRegs c' n ++ d.regs, slots := (if isOperator n then [] else [(n, { c'.slot n with tf := TurfX.init })]) ++ d.slots } : Change).Of c (c'.stopLane n) := by
  unfold Chip.stopLane laneRegs
  cases hop : isOperator n
  · simp only [Bool.false_eq_true, if_false]
    split
    · have := ((((h.put HTH_TURF_LAST.FAIL_PHASE n 4).put HTH_TURF_STAT.LANE n 0).put HTH_TURF_STAT.RATE n 0).put HTH_TURF_STAT.SEQ n 0).setSlot n { c'.slot n with tf := TurfX.init }
      exact this
    · have := (((h.put HTH_TURF_STAT.LANE n 0).put HTH_TURF_STAT.RATE n 0).put HTH_TURF_STAT.SEQ n 0).setSlot n { c'.slot n with tf := TurfX.init }
      exact this
  · simpa using h

theorem Change.Of.seqBits {d : Change} {c c' : Chip} (h : d.Of c c') (n : Nat) (k : SeqKind) :
   ({ d with regs := evtRegs n k ++ d.regs } : Change).Of c (c'.seqBits n k) := by
  cases k <;> first | exact h | (have := h.put HTH_SLOT_EVT.EMERG n 1; exact this) | (have := (h.put HTH_SLOT_EVT.EMERG n 1).put HTH_SLOT_EVT.REMOVED n 1; exact this)

theorem Chip.retireSession_bare (c : Chip) (n : Nat) (hb : c.Bare n) : c.retireSession n = (((c.setSess n { c.sessOf n with zss := [], cur := none, old := none, cin := none, rekeyRetry := false }).put
     CRD_SESS_STAT.SESS n ssNONE).put CRD_SESS_STAT.OLD_HELD n 0).put CRD_SESS_STAT.REKEY_DUE n 0 := Chip.retireSession_eq c n hb.cordJob hb.host hb.stokerQ hb.finished

theorem Chip.seqBits_eq (c : Chip) (n : Nat) (k) : c.seqBits n k = 
  (let c := if k = .commanded then c else c.put HTH_SLOT_EVT.EMERG n 1
   if k = .removal then c.put HTH_SLOT_EVT.REMOVED n 1 else c) := by
  cases k <;> rfl

theorem Change.Of.retireSession {d : Change} {c c' : Chip} (h : d.Of c c') (n : Nat) (hb : c'.Bare n) :
   ({ d with regs := sessRegs n ++ d.regs, sess := (n, noSess (c'.sessOf n)) :: d.sess } : Change).Of c (c'.retireSession n) := by
  rw [Chip.retireSession_bare c' n hb]
  have := (((h.setSess n (noSess (c'.sessOf n))).put CRD_SESS_STAT.SESS n ssNONE).put CRD_SESS_STAT.OLD_HELD n 0).put CRD_SESS_STAT.REKEY_DUE n 0
  exact this

theorem Change.Of.cutExchange {d : Change} {c c' : Chip} (h : d.Of c c') (n st : Nat) (hb : c'.Bare n) (hs : c'.slotState n ≠ stOFF) :
   ({ d with regs := (⟨HTH_SLOT_STAT.BUDGET_WAIT, n⟩, 0) :: d.regs, slots := (n, { c'.slot n with wait := none, cur := none, t0 := T0X.init, t1 := T1X.init }) :: d.slots } : Change).Of c (c'.cutExchange n st) := by
  rw [Chip.cutExchange_eq c' n st hb.mcmd hb.wait hb.cur hs]
  have := (h.setSlot n { c'.slot n with wait := none, cur := none, t0 := T0X.init, t1 := T1X.init }).put HTH_SLOT_STAT.BUDGET_WAIT n 0
  exact this

/-- The part of a slot once a sequence has started and before its exchange is cut. -/
def deactPart (c : Chip) (n : Nat) (k : SeqKind) : SlotX :=
  let x := c.slot n
  { x with
    seq := some k, measuring := false, measAtRamp := false, rstHigh := false, rampDone := false,
    opening := c.on HTH_SLOT_ESTAT.SW_CLOSED n && !decide (k = .kill ∨ k = .fence),
    armed := x.armed && !decide (k = .kill ∨ k = .fence), exchWait := none, clockPend := false, pps := [], neg := .none }

theorem Chip.startDeact_stages (c : Chip) (n : Nat) (k : SeqKind) (cause : Nat) (hb : c.Bare n)
   (h1 : 1 ≤ c.slotState n) (h7 : c.slotState n ≤ 7) : ∃ c1 c2 c3 c4, 
   c1 = ((((c.put HTH_SLOT_CAUSE.CAUSE n cause).put HTH_SLOT_CAUSE.SECOND n 0).put HTH_SLOT_CAUSE.STATE_AT n (c.slotState n)).put HTH_SLOT_STAT.STATE n stDEACT).setSlot n (deactPart c n k) ∧
   c2 = ((c1.put HTH_SLOT_STAT.EXCH_WAIT n 0).seqBits n k).retireSession n ∧
   c3 = (c2.contactsLow n (decide (k = .kill ∨ k = .fence))).stopLane n ∧
   c4 = c3.cutExchange n (cutStatus k cause) ∧ c.startDeact n k cause = c4.evict n := by
  refine ⟨_, _, _, _, rfl, rfl, rfl, rfl, ?_⟩
  have hst : ¬ c.slotState n = stDEACT := by unfold stDEACT; omega
  unfold Chip.startDeact
  simp only [hst, if_false, h1, h7, and_self, if_true]
  have hm : ((((c.put HTH_SLOT_CAUSE.CAUSE n cause).put HTH_SLOT_CAUSE.SECOND n 0).put HTH_SLOT_CAUSE.STATE_AT n (c.slotState n)).setSlotState n stDEACT).slot n = c.slot n := rfl
  have hcl : ((((c.put HTH_SLOT_CAUSE.CAUSE n cause).put HTH_SLOT_CAUSE.SECOND n 0).put HTH_SLOT_CAUSE.STATE_AT n
      (c.slotState n)).setSlotState n stDEACT).on HTH_SLOT_ESTAT.SW_CLOSED n = c.on HTH_SLOT_ESTAT.SW_CLOSED n := by
    simp [Chip.on, Chip.setSlotState, Chip.get_put]
  simp only [hm, hb.measuring, hcl]
  rfl


theorem tabFind_one {α : Type} (n i : Nat) (x : α) (d : α) : (tabFind [(n, x)] i).getD d = if n = i then x else d := by
  simp only [tabFind]; split <;> rfl

theorem Chip.startDeact_of (c : Chip) (n : Nat) (k : SeqKind) (cause : Nat) (hb : c.Bare n) (hc : cause < 64)
   (h1 : 1 ≤ c.slotState n) (h7 : c.slotState n ≤ 7) : (deactivation c n k cause).Of c (c.startDeact n k cause) := by
  obtain ⟨c1, c2, c3, c4, e1, e2, e3, e4, e⟩ := Chip.startDeact_stages c n k cause hb h1 h7
  rw [e]
  have O1 := (((((Change.Of.refl c).put HTH_SLOT_CAUSE.CAUSE n cause).put HTH_SLOT_CAUSE.SECOND n 0).put HTH_SLOT_CAUSE.STATE_AT n (c.slotState n)).put HTH_SLOT_STAT.STATE n stDEACT).setSlot n (deactPart c n k)
  replace O1 := Change.Of.eq O1 e1
  dsimp only [Change.put, Change.setSlot] at O1
  have s1 : c1.slot n = deactPart c n k := by
    rw [e1, Chip.slot_setSlot_self]
  have B1 : c1.Bare n := by
    apply Chip.Bare.congr hb <;> first | (intro ex src; rw [s1]; exact hb.cur ex src) | (rw [s1]; first | exact hb.queue | exact hb.wait | rfl) | (rw [e1]; rfl) | (intro k; rw [e1]; rfl)
  have O2 := Change.Of.seqBits (O1.put HTH_SLOT_STAT.EXCH_WAIT n 0) n k
  dsimp only [Change.put] at O2
  have B1' : ((c1.put HTH_SLOT_STAT.EXCH_WAIT n 0).seqBits n k).Bare n := by
    rw [Chip.seqBits_eq]; cases k <;> exact Chip.Bare.of_slot B1 rfl rfl (fun _ => rfl) rfl
  have O3 := Change.Of.eq (Change.Of.retireSession O2 n B1') e2
  have hse : ((c1.put HTH_SLOT_STAT.EXCH_WAIT n 0).seqBits n k).sessOf n = c.sessOf n := by
    rw [Chip.seqBits_eq, e1]; cases k <;> rfl
  rw [hse] at O3
  dsimp only at O3
  have hlane2 : c2.get HTH_TURF_STAT.LANE n = c.get HTH_TURF_STAT.LANE n := by
    rw [O3.reg]; cases k <;> rfl
  have s2 : c2.slot n = c1.slot n := by
    rw [O3.slot, O1.slot]
  rw [Chip.retireSession_bare _ _ B1', Chip.seqBits_eq] at e2
  have B2 : c2.Bare n := by
    rw [e2]; cases k <;> exact Chip.Bare.of_slot B1 rfl rfl (fun _ => rfl) rfl
  have O4 := Change.Of.contactsLow O3 n (decide (k = .kill ∨ k = .fence))
  generalize hc5 : c2.contactsLow n (decide (k = .kill ∨ k = .fence)) = c5 at O4 e3
  dsimp only at O4
  have O5 := Change.Of.eq (Change.Of.stopLane O4 n) e3
  have s5 : c5.slot n = c2.slot n := by rw [O4.slot, O3.slot]
  have l5 : laneRegs c5 n = laneRegs c n := by
    unfold laneRegs
    have : c5.get HTH_TURF_STAT.LANE n = c.get HTH_TURF_STAT.LANE n := by
      rw [← hlane2, O4.reg, O3.reg]; cases k <;> rfl
    rw [this]
  dsimp only at O5
  rw [l5] at O5
  have s3 : c3.slot n = { c2.slot n with tf := if isOperator n then (c2.slot n).tf else TurfX.init } := by
    rw [e3, ← s5]
    unfold Chip.stopLane
    cases hop : isOperator n <;> simp; split <;> simp
  have B3 : c3.Bare n := by
    have : c3.dmp = c2.dmp ∧ (∀ k, c3.ctx k = c2.ctx k) ∧ c3.ember = c2.ember := by
      refine ⟨by rw [O5.dmp, O3.dmp], fun k => by rw [O5.ctx, O3.ctx], by rw [O5.ember, O3.ember]⟩
    apply Chip.Bare.congr B2 _ _ _ _ this.1 this.2.1 this.2.2 <;> first | (intro ex src; rw [s3]; exact B2.cur ex src) | (rw [s3]; first | exact B2.queue | exact B2.wait | exact B2.measuring)
  have st3 : c3.slotState n ≠ stOFF := by
    have : c3.slotState n = stDEACT := by
      unfold Chip.slotState
      rw [O5.reg]
      unfold laneRegs
      cases hop : isOperator n <;> cases k <;> by_cases hl : c.get HTH_TURF_STAT.LANE n = 2 <;> simp [Change.reg, hl, lowRegs, sessRegs, evtRegs, tabFind] <;> rfl
    rw [this]; decide
  have O6 := Change.Of.eq (Change.Of.cutExchange O5 n (cutStatus k cause) B3 st3) e4
  have hq : (c4.slot n).queue = [] := by rw [O6.slot]; simp only [tabFind, if_true, Option.getD_some]; exact B3.queue
  apply Change.Of.evict _ n hq
  dsimp only [Change.put, Change.setSlot] at O6
  have O7 := O6.regs_eq (l := (deactivation c n k cause).regs) (by
    simp [deactivation, Fld.width, Fld.spec, regFields, stDEACT]; omega)
  have O8 := O7.slots_eq (l := (deactivation c n k cause).slots) (by
    intro m
    rw [s3, s2, s1]
    cases hop : isOperator n <;> simp [deactivation, deactPart, tabFind, hop] <;> split <;> simp_all)
  cases k <;> exact O8

theorem clkDivOf_lt (f10 : Nat) : clkDivOf f10 / 1024 < 1024 := by
  have : clkDivOf f10 ≤ 800 * 1024 := Nat.min_le_right _ _
  omega

theorem Change.Of.setClk {d : Change} {c c' : Chip} (h : d.Of c c') (n f10 : Nat) :
    ({ d with regs := clkRegs n f10 ++ d.regs,
              slots := (n, { c'.slot n with fastEdges := fastAt (c'.slot n) f10 }) :: d.slots } : Change).Of c (c'.setClk n f10) := by
  have := (((h.setSlot n { c'.slot n with fastEdges := fastAt (c'.slot n) f10 }).put HTH_PROT_CLKDIV.DIV_INT n
    (clkDivOf f10 / 1024)).put HTH_PROT_CLKDIV.DIV_FRAC n (clkDivOf f10 % 1024)).put HTH_PROT_CLKDIV.RUN n 1
  dsimp only [Change.put, Change.setSlot] at this
  have h1 : clkDivOf f10 / 1024 % 1024 = clkDivOf f10 / 1024 := Nat.mod_eq_of_lt (clkDivOf_lt f10)
  exact this.regs_eq (by simp [clkRegs, Fld.width, Fld.spec, regFields, h1])

/-- The part of a slot whose card is warm reset, before its clock is set. -/
def warmPart (x : SlotX) : SlotX := { noAtr x with coldAct := false, trial := false, exchWait := none, rstHigh := false }

/-- A warm reset of the card of a slot that carries no work. -/
theorem Chip.warmCard_of (c : Chip) (n : Nat) (hb : c.Bare n) : (cardReset c n).Of c (c.warmCard n) := by
  obtain ⟨c1, e1⟩ : ∃ c1, c1 = (c.setSlotState n stRESETHELD).retireSession n := ⟨_, rfl⟩
  obtain ⟨c2, e2⟩ : ∃ c2, c2 = (c1.flag HTH_SLOT_STAT.EXCH_WAIT n false).stopLane n := ⟨_, rfl⟩
  obtain ⟨c3, e3⟩ : ∃ c3, c3 = ((c2.resetReg .HTH_SLOT_ATRLEN n).resetReg .HTH_PROT_STAT n).resetReg .HTH_PROT_WT n := ⟨_, rfl⟩
  have hb0 : (c.put HTH_SLOT_STAT.STATE n stRESETHELD).Bare n := hb.of_slot rfl rfl (fun _ => rfl) rfl
  have O1 := (((Change.Of.refl c).put HTH_SLOT_STAT.STATE n stRESETHELD).retireSession n hb0).eq e1
  dsimp only [Change.put] at O1
  have O2 := ((O1.put HTH_SLOT_STAT.EXCH_WAIT n 0).stopLane n).eq e2
  have hl : laneRegs (c1.put HTH_SLOT_STAT.EXCH_WAIT n 0) n = laneRegs c n := by
    unfold laneRegs
    rw [Chip.get_put, O1.reg]; rfl
  have hs : (c1.put HTH_SLOT_STAT.EXCH_WAIT n 0).slot n = c.slot n := by
    show c1.slot n = c.slot n
    rw [O1.slot]; rfl
  dsimp only [Change.put] at O2
  rw [hl, hs] at O2
  have O3 := (((O2.resetReg .HTH_SLOT_ATRLEN n).resetReg .HTH_PROT_STAT n).resetReg .HTH_PROT_WT n).eq e3
  dsimp only [Change.resetReg] at O3
  have hsn : ((c3.modSlot n (fun x => { x with atr := [], atrDone := false, spoke := false, clockPend := false, pps := [], neg := .none, t0 := T0X.init, t1 := T1X.init, tf := TurfX.init, held := [] })).modSlot n (fun x => { x with coldAct := false, trial := false, exchWait := none, rstHigh := false })).slot n = warmPart (c.slot n) := by
    simp only [Chip.modSlot_eq, Chip.slot_setSlot_self, O3.slot]
    cases hop : isOperator n <;> simp [tabFind, noAtr, warmPart]
  obtain ⟨c4, e4⟩ : ∃ c4, c4 = ((c3.modSlot n (fun x => { x with atr := [], atrDone := false, spoke := false, clockPend := false, pps := [], neg := .none, t0 := T0X.init, t1 := T1X.init, tf := TurfX.init, held := [] })).modSlot n (fun x => { x with coldAct := false, trial := false, exchWait := none, rstHigh := false })) := ⟨_, rfl⟩
  have O4 := ((O3.setSlot n _).setSlot n _).eq e4
  dsimp only [Change.setSlot] at O4
  have hs4 : c4.slot n = warmPart (c.slot n) := by rw [e4]; exact hsn
  have hc : c.warmCard n = ((if isOperator n then c4 else c4.contact n .lane false).contact n .rst false).setClk n (actClk (c4.get HTH_SLOT_CTL.ACT_CLK n)) := by
    rw [e4, e3, e2, e1]
    cases hop : isOperator n <;> simp [Chip.warmCard, hop, Chip.clearAtr, Chip.contact]
  have hact : c4.get HTH_SLOT_CTL.ACT_CLK n = c.get HTH_SLOT_CTL.ACT_CLK n := by
    rw [O4.reg]
    unfold laneRegs
    cases hop : isOperator n <;> by_cases hl : c.get HTH_TURF_STAT.LANE n = 2 <;> simp [hl, Change.reg, sessRegs, tabFind, List.filter]
  rw [hc, hact]
  cases hop : isOperator n
  · obtain ⟨c5, e5⟩ : ∃ c5, c5 = (c4.emit (.contact n .lane false)).emit (.contact n .rst false) := ⟨_, rfl⟩
    have O5 := ((O4.emit (.contact n .lane false)).emit (.contact n .rst false)).eq e5
    have hs5 : c5.slot n = c4.slot n := by rw [e5]; rfl
    rw [show (if false = true then c4 else c4.contact n .lane false).contact n .rst false = c5 from by rw [e5]; rfl]
    have O6 := O5.setClk n (actClk (c.get HTH_SLOT_CTL.ACT_CLK n))
    rw [hs5, hs4] at O6
    dsimp only [Change.emit] at O6
    have O7 := O6.slots_eq (l := (cardReset c n).slots) (by
      intro i
      by_cases hi : i = n
      · subst hi; simp [cardReset, warmPart, noAtr, fastAt, tabFind]
      · simp [cardReset, tabFind, Ne.symm hi, hop])
    have O8 := O7.regs_eq (l := (cardReset c n).regs) (by
      by_cases hl : c.get HTH_TURF_STAT.LANE n = 2 <;>
        simp [cardReset, laneRegs, hop, hl, sessRegs, List.filter, Fld.width, Fld.spec, regFields, stRESETHELD])
    exact O8.out_eq (l := (cardReset c n).out) (by simp [cardReset, hop])
  · obtain ⟨c5, e5⟩ : ∃ c5, c5 = c4.emit (.contact n .rst false) := ⟨_, rfl⟩
    have O5 := (O4.emit (.contact n .rst false)).eq e5
    have hs5 : c5.slot n = c4.slot n := by rw [e5]; rfl
    rw [show (if true = true then c4 else c4.contact n .lane false).contact n .rst false = c5 from by rw [e5]; rfl]
    have O6 := O5.setClk n (actClk (c.get HTH_SLOT_CTL.ACT_CLK n))
    rw [hs5, hs4] at O6
    dsimp only [Change.emit] at O6
    have O7 := O6.slots_eq (l := (cardReset c n).slots) (by
      intro i
      by_cases hi : i = n
      · subst hi; simp [cardReset, warmPart, noAtr, fastAt, tabFind]
      · simp [cardReset, tabFind, Ne.symm hi, hop])
    have O8 := O7.regs_eq (l := (cardReset c n).regs) (by
      by_cases hl : c.get HTH_TURF_STAT.LANE n = 2 <;>
        simp [cardReset, laneRegs, hop, hl, sessRegs, List.filter, Fld.width, Fld.spec, regFields, stRESETHELD])
    exact O8.out_eq (l := (cardReset c n).out) (by simp [cardReset, hop])

end Sys2Proof.Machine
end

