-- ==== Sys2Proof/Machine/Ident.lean ====
section
/-! DEFINITION. What identifies the block outside its register map: the configuration header of a PCIe port (R457, R458, R461) and the
test access port (R484). No row of the opcode table reads either, so they are functions of the state alone (log entries 122, 123). -/

namespace Sys2Proof.Machine

/-- The DWs of the configuration header that R458 fixes: Vendor and Device ID at 0, Revision ID and Class Code at 2, Subsystem Vendor
and Subsystem ID at 11; BAR1 to BAR5 beyond the 64-bit BAR0 read as zero (R457). Nothing is served while PD18 is off (R459). -/
def Chip.configWord (c : Chip) (x dw : Nat) : Option Nat :=
  if !c.domUp 18 then none
  else match dw with
    | 0 => some (0x6440 * 2 ^ 16 + 0x1D4B)
    | 2 => some (0x108000 * 2 ^ 8 + 0x01)
    | 6 | 7 | 8 | 9 => some 0
    | 11 => some (c.get FLU_HP_ID.SSID x * 2 ^ 16 + c.get FLU_HP_ID.SSVID x)
    | _ => none

/-- The MSI-X Table Size field of a port, which holds the number of the last entry (R461). -/
def Chip.msixTableSize (c : Chip) (x : Nat) : Nat := c.get FLU_HP_CFG.MSIX_LAST x

/-- The Device Serial Number of a port: bytes 0 to 7 of DEV_ID (R403, R457). -/
def deviceSerial (otp : List (Nat × Nat)) : Option (List Byte) := (idPub otp).map (fun p => (sha384 p).take 8)

/-! ## DMA on the link (R463) -/

/-- The requests of a transfer of `len` bytes: none is longer than `most`, and none of a transfer that `pages` crosses 4 KiB. -/
def dmaSplit (most : Nat) (pages : Bool) : Nat → Nat → Nat → List (Nat × Nat)
  | 0, _, _ => []
  | fuel + 1, addr, len =>
    if len = 0 then []
    else
      let k := min len (if pages then min most (4096 - addr % 4096) else most)
      (addr, k) :: dmaSplit most pages fuel (addr + k) (len - k)

/-- The read requests of a transfer: at most Max Read Request Size each, within one page of 4 KiB. -/
def dmaReads (maxRead addr len : Nat) : List (Nat × Nat) := dmaSplit (max 1 maxRead) true len addr len

/-- The write requests of a transfer: at most Max Payload Size each. -/
def dmaWrites (maxPayload addr len : Nat) : List (Nat × Nat) := dmaSplit (max 1 maxPayload) false len addr len

/-- Attributes of a request: No Snoop is never set, and Relaxed Ordering only on response data while the port enables it. -/
def dmaRelaxed (response enabled : Bool) : Bool := response && enabled

/-! ## The test access port -/

/-- The instructions of the test access port. -/
inductive TapIns where
  | bypass | idcode | boundary
  deriving DecidableEq, Repr

/-- What the test access port offers, powered from VIO (R484): BYPASS and IDCODE always, boundary scan under the grant BSCAN
(R450). -/
def Chip.tapOffers (c : Chip) : List TapIns :=
  if !c.railPg 0 then [] else [.bypass, .idcode] ++ (if c.granted 1 then [.boundary] else [])

/-- What an instruction of the port selects, as its length in bits and its captured value: the one bit of BYPASS, the IDCODE; the
boundary register is the package's (R486). -/
def tapRegister : TapIns → Option (Nat × Nat)
  | .bypass => some (1, 0)
  | .idcode => some (32, 0x06440A3B)
  | .boundary => none

end Sys2Proof.Machine
end

