-- ==== Sys2Proof/WellFormed.lean ====
section
/-! DEFINITION. Which commands are well formed: each operand fits the field, frame or word that carries it. -/

namespace Sys2Proof

/-- A value of an 8-bit field. -/
def fits8 (v : Nat) : Bool := decide (v < 256)
/-- A value of a 16-bit field. -/
def fits16 (v : Nat) : Bool := decide (v < 65536)
/-- A value of a register word (R3). -/
def fits32 (v : Nat) : Bool := decide (v < 2 ^ 32)
/-- The size of a request in bytes: up to the largest Max Payload Size of a port (R462). -/
def sizeOk (size : Nat) : Bool := decide (1 ≤ size ∧ size ≤ 512)

/-- An on-resistance that the measurement delivers, in 1/16 Ω (R84). -/
def fitsRaws (raws : List Nat) : Bool := decide (raws.length ≤ 3) && raws.all fits16
/-- The sides of a rick cell. -/
def fitsCell (cell : List CellSide) : Bool := decide (cell.length ≤ 2) && cell.all (fun x => fitsRaws x.raws)
/-- The bits of a Turf frame: LEN has 13 bits, and stuffing adds at most one bit in seven (R169, R171). -/
def fitsFrame (bits : List Bool) : Bool := decide (bits.length < 2 ^ 17)

/-- A command whose operands fit what carries them. A command with operands of fixed ranges alone is always well formed. -/
def Instr.wf : Instr → Bool
  | .registerWrite _ addr size value => decide (addr < 2 ^ 32) && sizeOk size && decide (value < 2 ^ (8 * size))
  | .unmappedAccess _ addr req => fits32 addr && sizeOk req.size
  | .resultLastWordRead _ x => decide (1 ≤ x.size ∧ x.off + x.size ≤ 4)
  | .coldReset => true
  | .warm _ key => fits8 key
  | .warmResetProceed => true
  | .liftPort _ key ports => fits8 key && decide (ports < 4)
  | .activate _ _ => true
  | .warmReset _ _ _ => true
  | .deactivate _ _ _ => true
  | .slotReset _ _ => true
  | .force _ _ => true
  | .legMeasReq _ _ => true
  | .presRise _ => true
  | .removal _ => true
  | .imonHigh _ => true
  | .vmonFault _ _ => true
  | .iomonFault _ _ => true
  | .bmonFault _ _ => true
  | .rmonAlarm _ _ => true
  | .monitorGood _ => true
  | .rawSeen _ => true
  | .monSettleExpiry _ => true
  | .monitorModeWrite _ _ mode => decide (mode < 4)
  | .monitorBlankEnd _ => true
  | .latchedClear _ _ => true
  | .insertionTimerExpiry _ => true
  | .inrushBudgetGrant _ => true
  | .legMeasurementEnd _ rs => rs.all (fun r => fitsRaws r.raws && fitsCell r.cell)
  | .vccGood _ => true
  | .vccTmo _ => true
  | .rstRise _ => true
  | .atrCharReceived _ _ _ _ => true
  | .atrWindowClose _ => true
  | .initialWtExpiry _ => true
  | .policyDecision _ _ => true
  | .policyTimeout _ => true
  | .negTmo _ => true
  | .inactiveRise _ => true
  | .reactMinExpiry _ => true
  | .clockChange _ => true
  | .ppsResponseReceived _ bytes _ => decide (bytes.length ≤ 6)
  | .t0CharReceived _ _ _ => true
  | .t0ErrorSignal x => fits16 x.index
  | .wtExpiry _ => true
  | .t1BlockReceived _ bytes _ => decide (bytes.length ≤ 259)
  | .cwtExpiry _ => true
  | .bwtExpiry _ => true
  | .phaseAStart _ => true
  | .phaseBReceived _ bits => decide (bits.length ≤ 1024)
  | .phaseBTimeout _ => true
  | .linkUpAckRx x => fitsFrame x.bits
  | .linkUpAckTimeout _ => true
  | .turfDataRx _ lead frame => fitsFrame (lead ++ frame)
  | .turfNakRx _ bits => fitsFrame bits
  | .turfWaitRx _ bits => fitsFrame bits
  | .turfLinkDownRx x => fitsFrame x.bits
  | .turfInvalidFrame _ bits => fitsFrame bits
  | .frameTimeout _ => true
  | .turfRetx _ => true
  | .retrain _ => true
  | .dozeIdleExpiry _ => true
  | .sqDoorbell _ _ value => fits32 value
  | .cqDoorbell _ _ value => fits32 value
  | .entryReceived _ es => es.all (fun e => decide (e.length = 64))
  | .admissionRound => true
  | .damperGrant => true
  | .commandPayloadReceived _ index payload => fits16 index && decide (payload.length ≤ 65535)
  | .mcmdBudgetGrant _ => true
  | .deadlineExpiry _ index => fits16 index
  | .budgetCancel _ => true
  | .coalTimeExpiry _ => true
  | .portLoss _ => true
  | .portServingAgain _ => true
  | .ringEn _ _ ctl => fits32 ctl
  | .pause _ _ => true
  | .resume _ _ => true
  | .reset _ _ => true
  | .handback _ _ => true
  | .ringResetDone _ => true
  | .dmaError _ t => match t with | .buffer k => fits16 k | _ => true
  | .clearStale _ handle _ gen => decide (handle < 4096) && fits8 gen
  | .rebuild _ => true
  | .rebuildCommit => true
  | .epochSwap => true
  | .copybackEnd => true
  | .moveEnd _ => true
  | .liveNoticeRx _ mask => decide (mask < 2 ^ 64)
  | .rekeyAgeExpiry _ => true
  | .rekeyStart _ => true
  | .rekeyRetryExpiry _ => true
  | .esHealthFail => true
  | .esStartupRetest _ => true
  | .drbgReseed => true
  | .tamperN => true
  | .go _ _ => true
  | .abort _ _ => true
  | .listCheckDone _ => true
  | .arrayDispatch => true
  | .yield => true
  | .jobEnd => true
  | .wipeDone _ => true
  | .aged _ => true
  | .columnFault _ => true
  | .eccUe _ => true
  | .emberWatchdog _ => true
  | .down _ => true
  | .up _ => true
  | .cold _ => true
  | .retry _ _ => true
  | .pgMainLost => true
  | .pgMainGood => true
  | .coreCommonStart => true
  | .enRise _ => true
  | .railGood _ => true
  | .pgTmo _ => true
  | .railLost _ => true
  | .domainUp _ _ cells => cells.all (fun x => fitsRaws x.side.raws)
  | .pllLock => true
  | .offStart => true
  | .enDrop _ => true
  | .coreOffStart => true
  | .stuckOn _ => true
  | .toffExpiry => true
  | .railRetryStart _ => true
  | .pgUnexp _ => true
  | .pmbusPoll => true
  | .pmbusTransactionEnd _ r => match r with | .ack bytes => decide (bytes.length ≤ 3) | .nack => true
  | .bellowsGo _ dir entry dwell => decide (dir < 4) && decide (entry < 32) && fits16 dwell
  | .bellowsStop _ => true
  | .marginSet => true
  | .dwellEnd vout => fits16 vout
  | .marginRestored => true
  | .seqSyncDrive => true
  | .seqSyncEdge _ => true
  | .helloTx => true
  | .joinReqTx => true
  | .helloRx _ => true
  | .startRx stage mask => decide (stage = 1 ∨ stage = 2) && decide (mask < 16)
  | .stageDoneRx _ stage _ => decide (stage = 1 ∨ stage = 2)
  | .downNoticeRx _ trigger => fits8 trigger
  | .joinReqRx _ stage => decide (stage = 1 ∨ stage = 2)
  | .superviseRx _ => true
  | .grpWaitExpiry => true
  | .stage2WaitExpiry => true
  | .orphanTimer => true
  | .damperRefill => true
  | .damperRecompute sensors => decide (sensors.length = 8)
  | .hotRelease => true
  | .longStarveExpiry _ => true
  | .avsStep _ _ => true
  | .derateFall _ => true
  | .agePeriodExpiry => true
  | .ageMeasReq _ => true
  | .ageMeasEnd _ _ _ => true
  | .patrolPass => true
  | .sramEccError _ k => match k with | .corrected row => fits8 row | .uncorrectable => true
  | .wearRecordWrite => true
  | .eqHoursUpdate => true
  | .laneHandshakeTimeout _ => true
  | .ashEvent => true
  | .alertPulseEnd => true
  | .consequenceWindowEnd _ => true
  | .nvsJournalCopy => true
  | .ashSelfCheck _ => true
  | .stokerWatchdog => true
  | .lockstepMismatch => true
  | .thermalTrip _ => true
  | .ckCardLockLost => true
  | .ckCardRelock => true
  | .ckLinkLockLost => true
  | .forceSlotShort _ u => fits8 u
  | .forceSlotRemoval _ u => fits8 u
  | .forceBankRailFault _ u => fits8 u
  | .forcePeerLoss _ u => fits8 u
  | .forcePortLoss _ u => fits8 u
  | .forceEmberJobFailure _ u => fits8 u
  | .forceLift _ kind u => decide (kind < 16) && fits8 u
  | .inject _ src u => fits8 src && fits8 u
  | .heartbeatTx => true
  | .heartbeatRx _ => true
  | .heartbeatMiss _ => true
  | .applyBase _ => true
  | .storeBase _ => true
  | .applyOvl _ => true
  | .removeOvl _ i => decide (i < 8)
  | .imageCheckEnd => true
  | .overlayCommit => true
  | .quietTimeout => true
  | .lifetimeExpiry _ => true
  | .keyXfer _ => true
  | .challenge _ => true
  | .nonceExpiry => true
  | .attest _ => true
  | .grant _ => true
  | .revokeGrants _ => true
  | .transition _ => true
  | .transitionStepEnd => true
  | .tenantLock _ => true
  | .rootLoad _ => true
  | .rootRevoke _ => true
  | .voteRepair _ => true
  | .perstN _ _ => true
  | .linkTrained _ speed width => decide (speed < 16) && decide (width < 64)
  | .pcieConfigChange _ _ _ _ => true
  | .pcieLinkDown _ => true
  | .pcieError _ _ => true
  | .inboundUnsupported _ _ => true
  | .msixTableWrite _ offset value => fits16 offset && fits32 value
  | .spiRead bytes => decide (bytes.length ≤ 263)
  | .spiWrite bytes => decide (bytes.length ≤ 263)
  | .spiStatus => true
  | .spiFrameCut => true
  | .symbolLock _ => true
  | .symbolLockLoss _ => true
  | .initRx _ dev size => decide (dev < 4) && decide (size < 4)
  | .key1Rx _ payload => decide (payload.length ≤ 1040)
  | .key2Rx _ payload => decide (payload.length ≤ 1040)
  | .key1Resend _ => true
  | .keyingRestart _ => true
  | .fwdCmdRx _ seq tag payload => fits8 seq && fits16 tag && decide (payload.length ≤ 1040)
  | .fwdRspRx _ seq tag payload => fits8 seq && fits16 tag && decide (payload.length ≤ 1040)
  | .kzAckRx _ _ seq => fits8 seq
  | .kzNakRx _ _ seq => fits8 seq
  | .kzAckTimeout _ _ => true
  | .kzInvalidFrame _ => true
  | .liveNoticeTx => true
  | .tamperNRelease => true
  | .limiting _ => true
  | .eccCe _ => true
  | .sealedWipeEnd _ => true
  | .esStartupTestEnd _ => true
  | .ckLinkRelock => true

end Sys2Proof
end

