-- ==== Sys2Proof/Tests/Slice0.lean ====
section
/-! SUPPORT. Tests of the model: commands that the checks of well-formedness refuse; the spec's worked examples and published
test vectors; and, for each statement with hypotheses, a state and operands that meet them, clause by clause. -/

namespace Sys2Proof.Tests

open Sys2Proof Sys2Proof.Machine

set_option maxRecDepth 100000
set_option Elab.async false

/-! ## Sample states -/

/-- A table all of whose rows hold `p`, and the default too. -/
theorem tab_all {α : Type} (p : α → Bool) (d : α) (t : List (Nat × α)) (hd : p d = true)
    (h : t.all (fun e => p e.2) = true) (k : Nat) : p (tabGet d t k) = true := by
  unfold tabGet
  induction t with
  | nil => simpa [tabFind] using hd
  | cons e t ih =>
    simp only [List.all_cons, Bool.and_eq_true] at h
    simp only [tabFind]
    split
    · simpa using h.1
    · exact ih h.2
/-- Neither the damper nor Ember works for a session. -/
def free (c : Chip) : Bool :=
  c.dmp.reqs.all (fun r => match r.asker with | .cordJob _ => false | _ => true)
    && c.dmp.grants.all (fun r => match r.asker with | .cordJob _ => false | _ => true)
    && c.ctxs.all (fun e => decide (e.2.use = .host)) && c.ember.stokerQ.isEmpty && c.ember.finished.isEmpty

/-- Then the chip has no Cinder work. -/
theorem noCinder_of {c : Chip} (h : free c = true) : c.NoCinder := by
  simp only [free, Bool.and_eq_true, List.all_eq_true, List.isEmpty_iff] at h
  obtain ⟨⟨⟨⟨h1, h2⟩, h3⟩, h4⟩, h5⟩ := h
  refine ⟨fun n => ⟨fun r hr he => ?_, fun r hr he => ?_⟩, fun k => ?_, h4, h5⟩
  · have := h1 r hr; simp [he] at this
  · have := h2 r hr; simp [he] at this
  · have := tab_all (fun x : CtxX => decide (x.use = .host)) CtxX.init c.ctxs (by decide)
      (by simpa [List.all_eq_true] using h3) k
    simpa [Chip.ctx] using this

/-- A slot carries no leg and no measurement. -/
def bareB (c : Chip) (n : Nat) : Bool :=
  (c.slot n).queue.isEmpty && (c.slot n).wait.isNone
    && (match (c.slot n).cur with
        | some ex => (match ex.use with | .leg _ => false | .dozeResume _ => false | _ => true)
        | none => true)
    && !(c.slot n).measuring && decide (c.NoAsk (.mcmd n)) && free c

/-- Then it is bare. -/
theorem bare_of {c : Chip} {n : Nat} (h : bareB c n = true) : c.Bare n := by
  simp only [bareB, Bool.and_eq_true, List.isEmpty_iff, Bool.not_eq_true', decide_eq_true_eq,
    Option.isNone_iff_eq_none] at h
  obtain ⟨⟨⟨⟨⟨h1, h2⟩, h3⟩, h4⟩, h5⟩, h6⟩ := h
  have q := noCinder_of h6
  refine ⟨h1, h2, fun ex src he => ?_, h4, h5, q.cordJob n, q.host, q.stokerQ, q.finished⟩
  rw [he] at h3
  refine ⟨fun h => ?_, fun h => ?_⟩ <;> simp [h] at h3

/-- What Chip.Quiet says, as a check. -/
def quietB (c : Chip) (e : AshEv) : Bool :=
  decide (c.grp.size = 0 ∧ c.ash.safe = false ∧ (∀ b ∈ List.range 16, c.SlotsOut b) ∧ c.domUp 16 = true ∧ c.domUp 17 = true
    ∧ (∀ k ∈ List.range 8, c.ctxJob k = false) ∧ c.pmb.bel.phase = .none ∧ (∀ x ∈ List.range 2, c.on ASH_IRQ_CFG.EN x = false)
    ∧ (e.forced = false ∨ c.on ASH_PIN_CTL.DRILL_MUTE 0 = false)) && free c

/-- Then the chip is quiet. -/
theorem quiet_of {c : Chip} {e : AshEv} (h : quietB c e = true) : c.Quiet e := by
  simp only [quietB, Bool.and_eq_true, decide_eq_true_eq] at h
  obtain ⟨⟨h1, h2, h3, h4, h5, h6, h7, h8, h9⟩, h10⟩ := h
  exact ⟨h1, h2, h3, h4, h5, noCinder_of h10, h6, h7, h8, h9⟩

/-! ### States -/

/-- A state with one field set. -/
def put (s : State) (f : Fld) (i v : Nat) : State := { s with chip := { s.chip with regs := (⟨f, i⟩, v) :: s.chip.regs } }
/-- A state with fields set, the last first. -/
def puts (s : State) (l : List (Fld × Nat × Nat)) : State :=
  { s with chip := { s.chip with regs := (l.map (fun e => (⟨e.1, e.2.1⟩, e.2.2))).reverse ++ s.chip.regs } }
/-- A state with a slot changed. -/
def slotX (s : State) (n : Nat) (f : SlotX → SlotX) : State := { s with chip := s.chip.modSlot n f }
/-- A state with its chip changed. -/
def ch (s : State) (f : Chip → Chip) : State := { s with chip := f s.chip }
/-- Every monitor on its good side. -/
def good : List (Fld × Nat × Nat) :=
  (List.range 32).map (fun k => (HTH_MON_STAT.STATE, k, 0)) ++
    (List.range 4).map (fun k => (HTH_BMON_STAT.STATE, k, 0)) ++
    (List.range 5).map (fun k => (DRG_RMON_STAT.STATE, k, 0))
/-- The block with every domain up, running, in Production. -/
def up : State :=
  let s := puts State.reset (good ++
    [(DRG_DOM_STAT.UP, 0, 0xFFFFF), (DRG_RAIL_PG.RAIL, 0, 0xFFFFFF), (DRG_SEQ_STAT.STATE, 0, 4), (KLN_LC_WORD.VALUE, 0, 0xFFFF),
      (HTH_BANK_CFG.SLOT_EN, 0, 15), (HTH_BANK_CFG.SLOT_EN, 1, 15), (DRG_DMP_CFG.DEPTH, 0, 4000)])
  { s with
    otp := [(otpLcWord, 0xFFFF)]
    chip := { s.chip with seq := { s.chip.seq with cardLock := true, linkLock := true }, kln := { s.chip.kln with baseOn := true } } }
/-- A slot in a state. -/
def inState (s : State) (n st : Nat) : State := put s HTH_SLOT_STAT.STATE n st

/-- An entry with its opcode and its legs. -/
def entryOf (uid ring op : Nat) (l0 l1 : Leg) : Entry :=
  { uid := uid, ring := ring, index := 0, raw := [BitVec.ofNat 8 op] ++ List.replicate 11 0 ++ [0, 1] ++ List.replicate 50 0,
    arrived := 0, phase := .active,
    deferUs := 0, order := 1, epoch := 0, prefLeg := false, cqReserved := true,
    leg0 := l0, leg1 := l1, retried := false, dlMissed := false, staleMarked := false,
    apdu := [], rsp := [], sw := 0, cardUs := 0, status := 0, silent := false, counted := false, dmaBad := false, place := none }
/-- An exchange of three bytes. -/
def exOf (use : XUse) (path : XPath) : Exch := ⟨use, [1, 2, 3], [], path, 0, false, true, 0, none⟩
/-- Session keys that are all zero. -/
def ks0 : KeySet :=
  ⟨List.replicate 32 0, List.replicate 32 0, List.replicate 32 0, List.replicate 32 0, 0, List.replicate 16 0, []⟩
/-- The wrapped response 9000 under these keys. -/
def okRsp : List Byte := [102, 148, 48, 131, 221, 19, 75, 88, 144, 0]
/-- A forwarded command and a forwarded response as they are on the wire under the all-zero key. -/
def wire1 : List Byte :=
  [146, 220, 157, 8, 207, 191, 163, 99, 219, 109, 215, 2, 244, 180, 92, 202, 3, 7, 192, 178, 123, 75, 43, 254, 53]
def wire2 : List Byte :=
  [146, 220, 157, 8, 207, 190, 163, 99, 219, 142, 253, 55, 164, 52, 225, 219, 20, 219, 83, 104, 135, 142, 135, 228, 147]

/-- Slot n in BUSY carries the first leg of entry 7. -/
def carry (n : Nat) (path : XPath) (f : SlotX → SlotX) : State :=
  let s := puts (slotX (inState up n 7) n (fun x => f { x with cur := some (exOf (.leg (.entry 7 false)) path) }))
    [(HTH_SLOT_RCV.RCV_CLEAR, n, 100), (HTH_SLOT_RCV.FAIL_LIMIT, n, 5)]
  ch s (fun c => ({ c with entries := [entryOf 7 3 2 ⟨.sent, n, 0, false, false⟩ ⟨.sent, 9, 0, false, false⟩] }).setSess n
    { c.sessOf n with cur := some ks0 })
/-- The exchange of that leg. -/
def exC : XPath → Exch := fun p => exOf (.leg (.entry 7 false)) p
/-- That entry. -/
def enC (n : Nat) : Entry := entryOf 7 3 2 ⟨.sent, n, 0, false, false⟩ ⟨.sent, 9, 0, false, false⟩

/-- Ring r is RUNNING and port A serves. -/
def ringUp (r : Nat) (f : RingX → RingX) : State :=
  ch (puts up [(FLU_HP_STAT.DL_UP, 0, 1), (FLU_HP_STAT.BME, 0, 1), (FLU_HP_STAT.MSE, 0, 1), (FLU_RING_STAT.STATE, r, 1),
    (FLU_RING_CFG.DEFINED, r, 1), (FLU_RING_CTL.SQ_SIZE, r, 4), (FLU_RING_CTL.CQ_SIZE, r, 4), (FLU_RING_CFG.INFL_MAX, r, 8)]) (fun c => c.modRing r f)
/-- A fetched entry whose command has 256 bytes. -/
def fetchedE (uid ring op : Nat) : Entry :=
  { entryOf uid ring op Leg.init Leg.init with
    phase := .fetched, silent := true, order := 0, cqReserved := false,
    raw := [BitVec.ofNat 8 op] ++ List.replicate 9 0 ++ [0, 1] ++ List.replicate 52 0 }

/-! ### Cryptography, evaluated once -/

/-- The response of a card that ks0 wraps: no data and 9000. -/
theorem unwrap_ok : unwrapRsp ks0 okRsp = some ([], 0x9000) := by decide +kernel

/-- The header of such a frame. -/
def aad (t : Byte) : List Byte := [t, 0, 64, 0, 0, 9, 0, 5]
/-- Its counter block. -/
def iv1 : List Byte := [1, 0, 0, 0, 0, 0, 0, 0, 0, 0, 0, 1]
theorem gcm1 : gcm256 (List.replicate 32 0) iv1 (aad 129) (wire1.take 9) true
    = ([2, 0, 0, 9, 0, 0, 0, 0, 7], wire1.drop 9) := by decide +kernel
theorem gcm2 : gcm256 (List.replicate 32 0) iv1 (aad 130) (wire2.take 9) true
    = ([2, 0, 0, 9, 0, 1, 0, 0, 7], wire2.drop 9) := by decide +kernel

/-- A frame whose key, numbers and ciphertext are those of a known one is opened as that one is. -/
theorem opened_of {c : Chip} {k typ seq tag : Nat} {wire key iv ad ct : List Byte} {r : List Byte × List Byte}
    (g : gcm256 key iv ad ct true = r)
    (h : (c.kzOf k).rxKey = key
      ∧ [BitVec.ofNat 8 (c.peerOf k), BitVec.ofNat 8 c.grp.dev, 0, 0] ++ beBytes 8 ((c.kzOf k).rxCtr + 1) = iv
      ∧ [BitVec.ofNat 8 (128 + typ), BitVec.ofNat 8 seq, BitVec.ofNat 8 (64 * c.peerOf k + 16 * c.grp.dev), 0]
          ++ beBytes 2 (wire.length - 16) ++ beBytes 2 tag = ad
      ∧ wire.take (wire.length - 16) = ct) :
    c.opened k typ seq tag wire = (r.1, decide (r.2 = wire.drop (wire.length - 16))) := by
  obtain ⟨rfl, rfl, rfl, rfl⟩ := h
  subst g
  rfl

/-! ## Hypotheses that are met -/

theorem witness_slotHostCommands :
    (∃ (s : State) (p : Path) (n : SlotId),
        (s.Takes p blkHTH (s.chip.domUp (bankOf n)) ∧ s.chip.slotState n = stOFF ∧ s.chip.slotFenced n = false ∧
            s.chip.get HTH_SLOT_STAT.ACT_PEND n = 0))
    ∧ (∃ (s : State) (p : Path) (n : SlotId) (_force : Bool),
        (s.Takes p blkHTH (s.chip.domUp (bankOf n)) ∧ s.chip.slotState n = stREADY) ∧ s.chip.Bare n)
    ∧ (∃ (s : State) (p : Path) (n : SlotId) (force : Bool),
        (s.Takes p blkHTH (s.chip.domUp (bankOf n)) ∧ 1 ≤ s.chip.slotState n ∧ s.chip.slotState n ≤ stBUSY ∧
            (s.chip.slotState n = stBUSY → force = true)) ∧ s.chip.Bare n)
    ∧ (∃ (s : State) (p : Path) (n : SlotId),
        (s.Takes p blkHTH (s.chip.domUp (bankOf n)) ∧
            (s.chip.slotState n = stOFF ∨ s.chip.slotState n = stABSENT ∨ s.chip.slotState n = stCLINKER) ∧
                s.chip.get HTH_SLOT_STAT.ACT_PEND n = 0 ∧ (s.chip.slot n).queue = []))
    ∧ (∃ (s : State) (p : Path) (n : SlotId),
        (s.Takes p blkHTH (s.chip.domUp (bankOf n)) ∧ 1 ≤ s.chip.slotState n ∧ s.chip.slotState n ≤ stBUSY) ∧ s.chip.Bare n)
    ∧ (∃ (s : State) (p : Path) (n : SlotId),
        (s.Takes p blkHTH (s.chip.domUp (bankOf n)) ∧ 1 ≤ s.chip.slotState n ∧ s.chip.slotState n ≤ stBUSY ∧
            (s.chip.slot n).exchWait = some .deactivate) ∧ s.chip.Bare n)
    ∧ (∃ (s : State) (p : Path) (n : SlotId) (i : Instr),
        (s.Takes p blkHTH (s.chip.domUp (bankOf n)) ∧ s.chip.slotState n = stBUSY ∧ (i = .warmReset p n true ∧
            (s.chip.slot n).exchWait ≠ some .deactivate
          ∨ i = .force p n ∧ (s.chip.slot n).exchWait = some .warmReset)) ∧ s.chip.Bare n)
    ∧ (∃ (s : State) (p : Path) (n : SlotId),
        (s.Takes p blkHTH (s.chip.domUp (bankOf n)) ∧ (s.chip.slotState n = stOFF ∨ s.chip.slotState n = stABSENT) ∧
            (s.chip.slot n).measuring = false ∧ s.chip.on HTH_BANK_ESTAT.CAL_OK (bankOf n) = true))
    ∧ (∃ (s : State) (p : Path) (n : SlotId),
        (s.Takes p blkHTH (s.chip.domUp (bankOf n)) ∧ (s.chip.slotState n = stOFF ∨ s.chip.slotState n = stABSENT) ∧
            (s.chip.slot n).measuring = false ∧ s.chip.on HTH_BANK_ESTAT.CAL_OK (bankOf n) = false)) :=
  ⟨⟨(inState up 4 0 : State), (.portA : Path), (4 : SlotId), by decide +kernel⟩,
   ⟨(inState up 4 6 : State), (.portA : Path), (4 : SlotId), (true : Bool), by decide +kernel, bare_of (by decide +kernel)⟩,
   ⟨(inState up 4 7 : State), (.portA : Path), (4 : SlotId), (true : Bool), by decide +kernel, bare_of (by decide +kernel)⟩,
   ⟨(put (slotX (inState up 4 0) 4 (fun x => {x with atr := [1], trial := true})) HTH_PROT_LAST.PHASE 4 1 : State),
       (.portA : Path), (4 : SlotId), by decide +kernel⟩,
   ⟨(inState up 4 5 : State), (.portA : Path), (4 : SlotId), by decide +kernel, bare_of (by decide +kernel)⟩,
   ⟨(slotX (inState up 4 7) 4 (fun x => {x with exchWait := some .deactivate}) : State), (.portA : Path), (4 : SlotId),
       by decide +kernel, bare_of (by decide +kernel)⟩,
   ⟨(slotX (inState up 4 7) 4 (fun x => {x with exchWait := some .warmReset}) : State), (.portA : Path), (4 : SlotId),
       (.force .portA 4 : Instr), by decide +kernel, bare_of (by decide +kernel)⟩,
   ⟨(put (inState up 4 0) HTH_BANK_ESTAT.CAL_OK 1 1 : State), (.portA : Path), (4 : SlotId), by decide +kernel⟩,
   ⟨(put (inState up 4 0) HTH_BANK_ESTAT.CAL_OK 1 0 : State), (.portA : Path), (4 : SlotId), by decide +kernel⟩⟩

theorem witness_presenceAtASlot :
    (∃ (s : State) (n : Fin 4) (x : Sample),
        (s.At (operatorSlot n) ∧ s.chip.Says (.pmon n) x (some false) ∧ s.chip.monAlarm (.pmon n) = true ∧
            s.chip.slotState n = stABSENT))
    ∧ (∃ (s : State) (n : Fin 4) (x : Sample),
        (s.At (operatorSlot n) ∧ s.chip.Says (.pmon n) x (some false) ∧ s.chip.monAlarm (.pmon n) = true ∧
            s.chip.slotState n = stDEACT))
    ∧ (∃ (s : State) (n : Fin 4) (x : Sample),
        (s.At (operatorSlot n) ∧ s.chip.Says (.pmon n) x (some true) ∧ s.chip.monAlarm (.pmon n) = false ∧
            1 ≤ s.chip.slotState n ∧ s.chip.slotState n ≤ stBUSY) ∧ s.chip.Bare n)
    ∧ (∃ (s : State) (n : Fin 4) (x : Sample),
        (s.At (operatorSlot n) ∧ s.chip.Says (.pmon n) x (some true) ∧ s.chip.monAlarm (.pmon n) = false ∧
            s.chip.slotState n = stOFF ∧ s.chip.get HTH_SLOT_STAT.ACT_PEND n = 0) ∧ s.chip.Bare n)
    ∧ (∃ (s : State) (n : SlotId),
        (s.At n ∧ s.chip.on HTH_SLOT_STAT.INS_PEND n = true ∧ s.chip.on HTH_SLOT_CTL.AUTO_ACT n = true ∧
            s.chip.slotState n = stOFF ∧ s.chip.get HTH_SLOT_STAT.ACT_PEND n = 0))
    ∧ (∃ (s : State) (n : SlotId),
        (s.At n ∧ s.chip.on HTH_SLOT_STAT.INS_PEND n = true ∧ s.chip.on HTH_SLOT_CTL.AUTO_ACT n = false)) :=
  ⟨⟨(puts (ch (inState up 1 10) (fun c => c.setMonHist (.pmon 1) (List.replicate 14 .inside))) [(HTH_MON_STAT.STATE,7,1)] : State), (1 : Fin 4), (⟨0,0⟩ : Sample), by decide +kernel⟩,
   ⟨(puts (slotX (inState up 1 8) 1 (fun x => {x with presPol := true})) [(HTH_MON_STAT.STATE,7,1),(HTH_MON_CFG.N,7,1)] : State), (1 : Fin 4), (⟨2000000,0⟩ : Sample), by decide +kernel⟩,
   ⟨(puts (slotX (inState up 1 6) 1 (fun x => {x with reinserted := true})) [(HTH_MON_CFG.N,7,1)] : State), (1 : Fin 4),
       (⟨2000000,0⟩ : Sample), by decide +kernel, bare_of (by decide +kernel)⟩,
   ⟨(puts (ch (inState up 1 0) (fun c => c.setMonHist (.pmon 1) (List.replicate 14 .above))) [] : State), (1 : Fin 4),
       (⟨2000000,0⟩ : Sample), by decide +kernel, bare_of (by decide +kernel)⟩,
   ⟨(puts (inState up 1 0) [(HTH_SLOT_STAT.INS_PEND,1,1), (HTH_SLOT_CTL.AUTO_ACT,1,1)] : State), (1 : SlotId),
       by decide +kernel⟩,
   ⟨(puts (inState up 1 0) [(HTH_SLOT_STAT.INS_PEND,1,1), (HTH_SLOT_CTL.AUTO_ACT,1,0)] : State), (1 : SlotId),
       by decide +kernel⟩⟩

theorem witness_monitorAlarms :
    (∃ (s : State) (n : SlotId) (x : Sample),
        (s.Still ∧ s.chip.Says (.imon n) x (some true) ∧ s.chip.monAlarm (.imon n) = false ∧
            (s.chip.on HTH_SLOT_ESTAT.SW_CLOSED n = true ∨ (s.chip.slot n).opening = true) ∧ 1 ≤ s.chip.slotState n ∧
                s.chip.slotState n ≤ stBUSY) ∧ s.chip.Bare n)
    ∧ (∃ (s : State) (n : SlotId) (x : Sample),
        (s.Still ∧ s.chip.Says (.vmon n) x (some true) ∧ s.chip.monAlarm (.vmon n) = false ∧ (s.chip.slot n).armed = true ∧
            1 ≤ s.chip.slotState n ∧ s.chip.slotState n ≤ stBUSY) ∧ s.chip.Bare n)
    ∧ (∃ (s : State) (n : SlotId) (x : Sample),
        (s.Still ∧ s.chip.Says (.iomon n) x (some true) ∧ s.chip.monAlarm (.iomon n) = false ∧ (s.chip.slot n).armed = true ∧
            1 ≤ s.chip.slotState n ∧ s.chip.slotState n ≤ stBUSY) ∧ s.chip.Bare n)
    ∧ (∃ (s : State) (n : SlotId) (x : Sample),
        (s.Still ∧ s.chip.Says (.imon n) x (some true) ∧ s.chip.monAlarm (.imon n) = false ∧
            s.chip.on HTH_SLOT_ESTAT.SW_CLOSED n = false ∧ (s.chip.slot n).opening = false))
    ∧ (∃ (s : State) (n : SlotId) (x : Sample),
        (s.Still ∧ s.chip.Says (.vmon n) x (some true) ∧ s.chip.monAlarm (.vmon n) = false ∧ (s.chip.slot n).armed = false))
    ∧ (∃ (s : State) (n : SlotId) (x : Sample),
        (s.Still ∧ s.chip.Says (.iomon n) x (some true) ∧ s.chip.monAlarm (.iomon n) = false ∧ (s.chip.slot n).armed = false))
    ∧ (∃ (s : State) (x : Sample) (b : BankId),
        (s.Still ∧ s.chip.Says (.bmon b) x (some true) ∧ s.chip.monAlarm (.bmon b) = false ∧ s.chip.domUp b = false ∧
            ¬(monRail (.bmon b) = some s.chip.pmb.bel.rail ∧ s.chip.pmb.bel.phase = .dwell)))
    ∧ (∃ (s : State) (x : Sample) (r : Fin 5),
        (s.Still ∧ s.chip.Says (.rmon r) x (some true) ∧ s.chip.monAlarm (.rmon r) = false)) :=
  ⟨⟨(puts (inState up 5 6) [(HTH_SLOT_ESTAT.SW_CLOSED,5,1), (HTH_SLOT_ESTAT.CLASS_APPLIED,5,1), (HTH_MON_CFG.N,21,1)] : State),
      (5 : SlotId), (⟨10000000,0⟩ : Sample), by decide +kernel, bare_of (by decide +kernel)⟩,
   ⟨(puts (slotX (inState up 5 6) 5 (fun x => {x with armed := true})) [(HTH_MON_CFG.N,20,1)] : State), (5 : SlotId),
       (⟨0,0⟩ : Sample), by decide +kernel, bare_of (by decide +kernel)⟩,
   ⟨(puts (slotX (inState up 5 6) 5 (fun x => {x with armed := true})) [(HTH_MON_CFG.N,22,1)] : State), (5 : SlotId),
       (⟨10000000,1000000⟩ : Sample), by decide +kernel, bare_of (by decide +kernel)⟩,
   ⟨(puts (inState up 5 0) [(HTH_MON_CFG.N,21,1)] : State), (5 : SlotId), (⟨10000000,1000000⟩ : Sample), by decide +kernel⟩,
   ⟨(puts (inState up 5 6) [(HTH_MON_CFG.N,20,1)] : State), (5 : SlotId), (⟨0,0⟩ : Sample), by decide +kernel⟩,
   ⟨(puts (inState up 5 6) [(HTH_MON_CFG.N,22,1)] : State), (5 : SlotId), (⟨10000000,1000000⟩ : Sample), by decide +kernel⟩,
   ⟨(ch (puts up [(DRG_DOM_STAT.UP,0,0),(⟨.HTH_BMON_CFG,4⟩,3,1)]) (fun c => {c with seq := {c.seq with powered := [3]}}) : State), (⟨0,0⟩ : Sample), (3 : BankId), by decide +kernel⟩,
   ⟨(puts up [(⟨.DRG_RMON_CFG,4⟩,3,1),(⟨.DRG_RMON_CFG,1⟩,3,1)] : State), (⟨0,0⟩ : Sample), (3 : Fin 5), by decide +kernel⟩⟩

theorem witness_monitorRecord :
    (∃ (s : State) (m : MonId) (x : Sample),
        (s.Still ∧ s.chip.Says m x none))
    ∧ (∃ (s : State) (m : MonId) (x : Sample) (alarm : Bool),
        (s.Still ∧ s.chip.Says m x (some alarm) ∧ s.chip.monAlarm m = alarm))
    ∧ (∃ (s : State) (m : MonId) (x : Sample),
        (s.Still ∧ s.chip.Says m x (some false) ∧ s.chip.monAlarm m = true ∧
            (match m with | .pmon _ => false | .vmon n => !(s.chip.slot n).rampDone | _ => true) = true))
    ∧ (∃ (s : State) (m : MonId) (_x : Sample),
        (s.Still ∧ (s.chip.monUp m = false ∨ s.chip.blanked.contains m = true)))
    ∧ (∃ (_s : State) (m : MonId) (i : Instr) (xs : List Sample),
        (samplesOf i = some (m, xs)))
    ∧ (∃ (s : State) (m : MonId) (x : Sample),
        (s.Still ∧ s.chip.monUp m = true ∧ s.chip.blanked.contains m = false ∧ (s.chip.monClass m x).out = true))
    ∧ (∃ (s : State) (p : Path) (m : MonId) (_mode : Nat),
        (s.Takes p (monBlk m) (s.chip.monWriteUp m)))
    ∧ (∃ (s : State) (p : Path) (m : MonId),
        (s.Takes p (monBlk m) (s.chip.monWriteUp m) ∧ s.chip.monAlarm m = false ∧ s.chip.get (monCfg m mLATCH) (monIdx m) ≠ 2))
    ∧ (∃ (s : State) (p : Path) (m : MonId),
        (s.Takes p (monBlk m) (s.chip.monWriteUp m) ∧ (s.chip.monAlarm m = true ∨ s.chip.get (monCfg m mLATCH) (monIdx m) = 2)))
    ∧ (∃ (s : State) (_m : MonId),
        (s.Still))
    ∧ (∃ (s : State) (n : SlotId),
        (s.At n ∧ s.chip.on HTH_SLOT_ESTAT.SW_CLOSED n = true)) :=
  ⟨⟨(puts up [(HTH_SLOT_STAT.TRIAL_CLASS,3,3)] : State), (.vmon 3 : MonId), (⟨0,0⟩ : Sample), by decide +kernel⟩,
   ⟨(puts up [(HTH_SLOT_STAT.TRIAL_CLASS,3,3),(HTH_MON_CFG.N,12,1),(HTH_MON_STAT.STATE,12,1)] : State), (.vmon 3 : MonId),
       (⟨0,0⟩ : Sample), (true : Bool), by decide +kernel⟩,
   ⟨(puts up [(HTH_SLOT_STAT.TRIAL_CLASS,3,3),(HTH_MON_CFG.N,12,1),(HTH_MON_STAT.STATE,12,1)] : State), (.vmon 3 : MonId),
       (⟨1800000,0⟩ : Sample), by decide +kernel⟩,
   ⟨(ch up (fun c => {c with blanked := [.vmon 3]}) : State), (.vmon 3 : MonId), (⟨0,0⟩ : Sample), by decide +kernel⟩,
   ⟨(up : State), (.pmon 2 : MonId), (.presRise ⟨2, [⟨0,0⟩,⟨1,1⟩]⟩ : Instr), ([⟨0,0⟩,⟨1,1⟩] : List Sample), by decide +kernel⟩,
   ⟨(puts up [(HTH_SLOT_STAT.TRIAL_CLASS,3,3)] : State), (.vmon 3 : MonId), (⟨0,0⟩ : Sample), by decide +kernel⟩,
   ⟨(up : State), (.portA : Path), (.vmon 3 : MonId), (2 : Nat), by decide +kernel⟩,
   ⟨(puts up [(HTH_MON_STAT.LATCHED,12,1)] : State), (.spi : Path), (.vmon 3 : MonId), by decide +kernel⟩,
   ⟨(puts up [(HTH_MON_STAT.LATCHED,12,1),(HTH_MON_STAT.STATE,12,1)] : State), (.spi : Path), (.vmon 3 : MonId),
       by decide +kernel⟩,
   ⟨(ch up (fun c => {c with blanked := [.vmon 2,.pmon 3]}) : State), (.pmon 3 : MonId), by decide +kernel⟩,
   ⟨(puts up [(HTH_SLOT_ESTAT.SW_CLOSED,6,1)] : State), (6 : SlotId), by decide +kernel⟩⟩

theorem witness_activationUpToVcc :
    (∃ (s : State) (n : SlotId) (r : Req) (b : Bool),
        (s.Still ∧ s.chip.canGrant (.activation n) = some (r, b) ∧ s.chip.on HTH_SLOT_STAT.ACT_PEND n = true ∧
            s.chip.actReady n = true ∧ s.chip.bankFree (bankOf n) = true ∧ (s.chip.slot n).measuring = false ∧
                s.chip.on HTH_BANK_ESTAT.CAL_OK (bankOf n) = true))
    ∧ (∃ (s : State) (n : SlotId) (r : Req) (b : Bool),
        (s.Still ∧ s.chip.canGrant (.activation n) = some (r, b) ∧ s.chip.on HTH_SLOT_STAT.ACT_PEND n = true ∧
            s.chip.actReady n = true ∧ s.chip.bankFree (bankOf n) = true ∧ (s.chip.slot n).measuring = false ∧
                s.chip.on HTH_BANK_ESTAT.CAL_OK (bankOf n) = false ∧ s.chip.on HTH_MON_STAT.STATE (4 * n + 1) = false))
    ∧ (∃ (s : State) (n : SlotId),
        (s.At n ∧ s.chip.slotState n = stRAMP ∧ s.chip.on HTH_SLOT_ESTAT.SW_CLOSED n = true ∧
            s.chip.on HTH_MON_STAT.DECIDED (4 * n) = true ∧ s.chip.on HTH_MON_STAT.STATE (4 * n) = false ∧
                s.chip.on HTH_MON_STAT.STATE (4 * n + 2) = false))
    ∧ (∃ (s : State) (n : SlotId) (x : Sample),
        (s.At n ∧ s.chip.slotState n = stRAMP ∧ s.chip.on HTH_SLOT_ESTAT.SW_CLOSED n = true ∧
            s.chip.Says (.vmon n) x (some false) ∧ s.chip.monAlarm (.vmon n) = true ∧ (s.chip.slot n).rampDone = false ∧
                s.chip.on HTH_MON_STAT.STATE (4 * n + 2) = false))
    ∧ (∃ (s : State) (n : SlotId),
        (s.At n ∧ s.chip.slotState n = stRAMP ∧ s.chip.on HTH_SLOT_ESTAT.SW_CLOSED n = true ∧
            (s.chip.on HTH_MON_STAT.DECIDED (4 * n) = false ∨ s.chip.on HTH_MON_STAT.STATE (4 * n) = true)))
    ∧ (∃ (s : State) (n : SlotId),
        (s.At n ∧ s.chip.slotState n = stRAMP ∧ s.chip.on HTH_SLOT_ESTAT.SW_CLOSED n = true) ∧ s.chip.Bare n)
    ∧ (∃ (s : State) (n : SlotId),
        (s.At n ∧ (s.chip.slotState n = stCLOCKED ∨ s.chip.slotState n = stRESETHELD))) :=
  ⟨⟨(puts (ch up (fun c => {c with dmp := {c.dmp with main := 40000000000, reqs := [⟨.activation 5, 4, 1000, false⟩, ⟨.mcmd 9, 5, 10, false⟩], grants := [⟨.mcmd 8, 5, true⟩] } })) [(HTH_SLOT_STAT.ACT_PEND,5,1),(HTH_SLOT_STAT.BUDGET_WAIT,5,1),(HTH_MON_STAT.STATE,4*5+3,0),(HTH_SLOT_STAT.STATE,5,0),(HTH_BANK_ESTAT.CAL_OK,1,1)] : State), (5 : SlotId), (⟨.activation 5, 4, 1000, false⟩ : Req), (false : Bool), by decide +kernel⟩,
   ⟨(puts (ch up (fun c => {c with dmp := {c.dmp with main := 40000000000, reqs := [⟨.activation 5, 4, 1000, false⟩, ⟨.mcmd 9, 5, 10, false⟩], grants := [⟨.mcmd 8, 5, true⟩] } })) [(HTH_SLOT_STAT.ACT_PEND,5,1),(HTH_SLOT_STAT.BUDGET_WAIT,5,1),(HTH_MON_STAT.STATE,4*5+3,0),(HTH_SLOT_STAT.STATE,5,0),(HTH_BANK_CFG.CLASS,1,3)] : State), (5 : SlotId), (⟨.activation 5, 4, 1000, false⟩ : Req), (false : Bool), by decide +kernel⟩,
   ⟨(puts (inState up 5 1) [(HTH_SLOT_ESTAT.SW_CLOSED,5,1), (HTH_SLOT_CTL.ACT_CLK,5,2), (HTH_MON_STAT.DECIDED,20,1)] : State),
       (5 : SlotId), by decide +kernel⟩,
   ⟨(puts (inState up 5 1) [(HTH_SLOT_ESTAT.SW_CLOSED,5,1), (HTH_SLOT_ESTAT.CLASS_APPLIED,5,1), (HTH_SLOT_CTL.ACT_CLK,5,3),
       (HTH_MON_CFG.N,20,1), (HTH_MON_STAT.STATE,20,1)] : State), (5 : SlotId), (⟨5000000,0⟩ : Sample), by decide +kernel⟩,
   ⟨(puts (inState up 5 1) [(HTH_SLOT_ESTAT.SW_CLOSED,5,1)] : State), (5 : SlotId), by decide +kernel⟩,
   ⟨(puts (inState up 5 1) [(HTH_SLOT_ESTAT.SW_CLOSED,5,1)] : State), (5 : SlotId), by decide +kernel,
       bare_of (by decide +kernel)⟩,
   ⟨(inState up 5 2 : State), (5 : SlotId), by decide +kernel⟩⟩

theorem witness_legMeasurement :
    (∃ (s : State) (n : SlotId) (k : Fin 12) (low : Bool) (tj : Int) (_cells : List CellSide) (raws : List Nat) (v : Nat),
        (s.At n ∧ (s.chip.slot n).measuring = true ∧ s.chip.legServes n k = true ∧
            (s.chip.slot n).measGone.contains k.val = false ∧ (s.chip.slot n).measSides.contains (k.val, low) = false ∧
                (s.chip.slot n).measDead = false ∧ s.chip.bit HTH_LEG_STAT.RICK_SUB n k = false ∧ s.chip.learns (n, k.val,
                    low) = false ∧ (s.chip.legWindow n k low tj).judge raws = some (true, v) ∧
                        (s.chip.setSlot n (sideMeasured (s.chip.slot n) k low)).measWhole n = false))
    ∧ (∃ (s : State) (n : SlotId) (k : Fin 12) (low : Bool) (tj : Int) (_cells : List CellSide) (raws : List Nat) (v : Nat),
        (s.At n ∧ (s.chip.slot n).measuring = true ∧ s.chip.legServes n k = true ∧
            (s.chip.slot n).measGone.contains k.val = false ∧ (s.chip.slot n).measSides.contains (k.val, low) = false ∧
                (s.chip.slot n).measDead = false ∧ s.chip.bit HTH_LEG_STAT.RICK_SUB n k = false ∧ s.chip.learns (n, k.val,
                    low) = false ∧ (s.chip.legWindow n k low tj).judge raws = some (true, v) ∧
                        (s.chip.setSlot n (sideMeasured (s.chip.slot n) k low)).measWhole n = true ∧
                            (s.chip.slot n).measAtRamp = false))
    ∧ (∃ (s : State) (n : SlotId) (k : Fin 12) (low : Bool) (tj : Int) (_cells : List CellSide) (raws : List Nat) (v : Nat),
        (s.At n ∧ (s.chip.slot n).measuring = true ∧ s.chip.legServes n k = true ∧
            (s.chip.slot n).measGone.contains k.val = false ∧ (s.chip.slot n).measSides.contains (k.val, low) = false ∧
                (s.chip.slot n).measDead = false ∧ s.chip.bit HTH_LEG_STAT.RICK_SUB n k = false ∧ s.chip.learns (n, k.val,
                    low) = false ∧ (s.chip.legWindow n k low tj).judge raws = some (true, v) ∧
                        (s.chip.setSlot n (sideMeasured (s.chip.slot n) k low)).measWhole n = true ∧
                            (s.chip.slot n).measAtRamp = true ∧ s.chip.on HTH_MON_STAT.STATE (4 * n + 1) = false))
    ∧ (∃ (s : State) (n : SlotId) (k : Fin 12) (low : Bool) (tj : Int) (cells : List CellSide) (raws : List Nat) (v : Nat) (vals : List (Bool × Nat)),
        (s.At n ∧ (s.chip.slot n).measuring = true ∧ s.chip.legServes n k = true ∧
            (s.chip.slot n).measGone.contains k.val = false ∧ (s.chip.slot n).measSides.contains (k.val, low) = false ∧
                (s.chip.slot n).measDead = false ∧ s.chip.bit HTH_LEG_STAT.LEG_RET n k = false ∧
                    s.chip.bit HTH_LEG_STAT.RICK_SUB n k = false ∧ s.chip.learns (n, k.val, low) = false ∧
                        (s.chip.legWindow n k low tj).judge raws = some (false, v) ∧
                            s.chip.cellFree (bankOf n) (legKind k) = true ∧
                                s.chip.cellJudge (bankOf n) (legKind k) (s.chip.slot n).measLo (s.chip.slot n).measHi (cells.map (fun e => (tj, e)))
            = some (true, vals) ∧ (((s.chip.setSlot n { sideMeasured (s.chip.slot n) k low with measGone := (s.chip.slot n).measGone ++ [k.val] }).putBit
            HTH_LEG_STAT.LEG_RET n k true).putBit HTH_LEG_STAT.RICK_SUB n k true).measWhole n = false))
    ∧ (∃ (s : State) (n : SlotId) (k : Fin 12) (low : Bool) (tj : Int) (_cells : List CellSide) (raws : List Nat),
        (s.At n ∧ (s.chip.slot n).measuring = true ∧ s.chip.legServes n k = true ∧
            (s.chip.slot n).measGone.contains k.val = false ∧ (s.chip.slot n).measSides.contains (k.val, low) = false ∧
                (s.chip.slot n).measDead = false ∧ s.chip.bit HTH_LEG_STAT.RICK_SUB n k = false ∧ s.chip.learns (n, k.val,
                    low) = false ∧ (s.chip.legWindow n k low tj).judge raws = none ∧ s.chip.measWhole n = false))
    ∧ (∃ (s : State) (n : SlotId) (k : Fin 12) (low : Bool) (_tj : Int) (_cells : List CellSide) (_v : Nat) (_raws : List Nat),
        (s.At n ∧ (s.chip.slot n).measuring = true ∧ s.chip.legServes n k = true ∧
            (s.chip.slot n).measGone.contains k.val = false ∧ (s.chip.slot n).measSides.contains (k.val, low) = false ∧
                (s.chip.slot n).measDead = false ∧ s.chip.bit HTH_LEG_STAT.RICK_SUB n k = false ∧ s.chip.learns (n, k.val,
                    low) = true ∧ (s.chip.setSlot n (sideMeasured (s.chip.slot n) k low)).measWhole n = false)) :=
  ⟨⟨(ch (slotX (inState up 5 0) 5 (fun x => {x with measuring := true, measLo := 0})) (fun c => { c with base := [((5, 9, true), 608), ((5, 9, false), 608), ((9, 3, false), 608)] ++ (List.range 12).map (fun j => ((65 + j / 6, j % 6 / 2, decide (j % 2 = 0)), 608)) }) : State), (5 : SlotId), (9 : Fin 12), (true : Bool), (25 : Int), ([] : List CellSide), ([5000, 0, 0] : List Nat), (0 : Nat), by decide +kernel⟩,
   ⟨(ch (slotX (inState up 5 0) 5 (fun x => {x with measuring := true, measLo := 0, measSides := [(1,true),(1,false)] ++ (List.range 12).flatMap (fun j => if j = 1 ∨ j = 9 then [(j,!true)] else [(j,true),(j,false)])})) (fun c => { c with base := [((5, 9, true), 608), ((5, 9, false), 608), ((9, 3, false), 608)] ++ (List.range 12).map (fun j => ((65 + j / 6, j % 6 / 2, decide (j % 2 = 0)), 608)) }) : State), (5 : SlotId), (9 : Fin 12), (true : Bool), (25 : Int), ([] : List CellSide), ([0] : List Nat), (0 : Nat), by decide +kernel⟩,
   ⟨(ch (slotX (inState up 5 1) 5 (fun x => {x with measuring := true, measAtRamp := true, measLo := 0, measSides := [(1,true),(1,false)] ++ (List.range 12).flatMap (fun j => if j = 1 ∨ j = 9 then [(j,!false)] else [(j,true),(j,false)])})) (fun c => { c with base := [((5, 9, true), 608), ((5, 9, false), 608), ((9, 3, false), 608)] ++ (List.range 12).map (fun j => ((65 + j / 6, j % 6 / 2, decide (j % 2 = 0)), 608)) }) : State), (5 : SlotId), (9 : Fin 12), (false : Bool), (25 : Int), ([] : List CellSide), ([0] : List Nat), (0 : Nat), by decide +kernel⟩,
   ⟨(ch (slotX (inState up 5 0) 5 (fun x => {x with measuring := true, measLo := 0})) (fun c => { c with base := [((5, 9, true), 608), ((5, 9, false), 608), ((9, 3, false), 608)] ++ (List.range 12).map (fun j => ((65 + j / 6, j % 6 / 2, decide (j % 2 = 0)), 608)) }) : State), (5 : SlotId), (9 : Fin 12), (true : Bool), (25 : Int), ([⟨true,[0]⟩,⟨false,[0]⟩] : List CellSide), ([5000,5000,5000] : List Nat), (5000 : Nat), ([(true,0),(false,0)] : List (Bool × Nat)), by decide +kernel⟩,
   ⟨(ch (slotX (inState up 9 0) 9 (fun x => {x with measuring := true, measLo := 0})) (fun c => { c with base := [((5, 9, true), 608), ((5, 9, false), 608), ((9, 3, false), 608)] ++ (List.range 12).map (fun j => ((65 + j / 6, j % 6 / 2, decide (j % 2 = 0)), 608)) }) : State), (9 : SlotId), (3 : Fin 12), (false : Bool), (65 : Int), ([] : List CellSide), ([7000,5000] : List Nat), by decide +kernel⟩,
   ⟨(puts (slotX (inState up 5 0) 5 (fun x => {x with measuring := true})) [(KLN_LC_WORD.VALUE,0,255),(KLN_DBG_STAT.HELD,0,64)] : State), (5 : SlotId), (9 : Fin 12), (true : Bool), (25 : Int), ([] : List CellSide), (900 : Nat), ([] : List Nat), by decide +kernel⟩⟩

theorem witness_atrAndPolicy :
    (∃ (s : State) (n : SlotId) (b : Byte),
        (s.At n ∧ s.chip.slotState n = stATRWAIT ∧ (s.chip.slot n).atrDone = false ∧
            atrJudge (!isOperator n) (s.chip.get HTH_PROT_CFG.PROT_SEL n) ((s.chip.slot n).atr ++ [b]) = .more))
    ∧ (∃ (s : State) (n : SlotId) (b : Byte) (kind : Nat),
        (s.At n ∧ s.chip.slotState n = stATRWAIT ∧ (s.chip.slot n).atrDone = false ∧
            atrJudge (!isOperator n) (s.chip.get HTH_PROT_CFG.PROT_SEL n) ((s.chip.slot n).atr ++ [b]) = .bad kind) ∧
                s.chip.Bare n)
    ∧ (∃ (s : State) (n : SlotId) (_b : Byte),
        (s.At n ∧ s.chip.slotState n = stATRWAIT ∧ (s.chip.slot n).atrDone = false) ∧ s.chip.Bare n)
    ∧ (∃ (s : State) (n : SlotId) (_b : Byte) (_parityOk : Bool),
        (s.At n ∧ s.chip.slotState n = stATRWAIT ∧ (s.chip.slot n).atrDone = false) ∧ s.chip.Bare n)
    ∧ (∃ (s : State) (n : SlotId) (b : Byte),
        (s.At n ∧ s.chip.slotState n = stATRWAIT ∧ (s.chip.slot n).atrDone = false ∧
            atrJudge (!isOperator n) (s.chip.get HTH_PROT_CFG.PROT_SEL n) ((s.chip.slot n).atr ++ [b]) = .whole ∧
                classDec (s.chip.slot n).trial (s.chip.trialClass n) (atrOf ((s.chip.slot n).atr ++ [b])).classes = .stay))
    ∧ (∃ (s : State) (n : SlotId) (_b : Byte) (_parityOk : Bool) (_inWindow : Bool),
        (s.At n ∧ s.chip.slotState n = stATRWAIT ∧ (s.chip.slot n).atrDone = true))
    ∧ (∃ (s : State) (n : SlotId),
        (s.At n ∧ s.chip.slotState n = stATRWAIT ∧ (s.chip.slot n).atr = []) ∧ s.chip.Bare n)
    ∧ (∃ (s : State) (n : SlotId),
        (s.At n ∧ s.chip.slotState n = stATRWAIT ∧ (s.chip.slot n).atr ≠ [] ∧ (s.chip.slot n).atrDone = false) ∧ s.chip.Bare n)
    ∧ (∃ (s : State) (n : SlotId) (t : Nat),
        (s.At n ∧ s.chip.slotState n = stATRWAIT ∧ (s.chip.slot n).atrDone = true ∧ (atrOf (s.chip.slot n).atr).byte 0 2 = none
            ∧ s.chip.on HTH_PROT_CFG.PPS_EN n = true ∧
                (atrOf (s.chip.slot n).atr).choose (!isOperator n) (s.chip.get HTH_PROT_CFG.PROT_SEL n) = some t ∧
                    s.chip.ember.stokerQ = [] ∧ s.chip.StokerFull))
    ∧ (∃ (s : State) (n : SlotId),
        (s.At n ∧ s.chip.slotState n = stATRWAIT ∧ (s.chip.slot n).atrDone = true) ∧ s.chip.Bare n)
    ∧ (∃ (s : State) (n : SlotId),
        (s.At n ∧ s.chip.slotState n = stATRWAIT ∧ (s.chip.slot n).atrDone = true) ∧ s.chip.Bare n) :=
  ⟨⟨(slotX (inState up 5 4) 5 (fun x => {x with atr := [0x3B], rstHigh := true, coldAct := true}) : State), (5 : SlotId),
      (0x02 : Byte), by decide +kernel⟩,
   ⟨(slotX (inState up 5 4) 5 (fun x => {x with atr := [], rstHigh := true, coldAct := true}) : State), (5 : SlotId),
       (0x02 : Byte), (kTS : Nat), by decide +kernel, bare_of (by decide +kernel)⟩,
   ⟨(slotX (inState up 5 4) 5 (fun x => {x with atr := [], rstHigh := true, coldAct := true}) : State), (5 : SlotId),
       (0x02 : Byte), by decide +kernel, bare_of (by decide +kernel)⟩,
   ⟨(slotX (inState up 5 4) 5 (fun x => {x with atr := [], rstHigh := true, coldAct := true}) : State), (5 : SlotId),
       (0x02 : Byte), (true : Bool), by decide +kernel, bare_of (by decide +kernel)⟩,
   ⟨(slotX (inState up 1 4) 1 (fun x => {x with atr := [0x3B], rstHigh := true, coldAct := true}) : State), (1 : SlotId),
       (0x00 : Byte), by decide +kernel⟩,
   ⟨(slotX (inState up 5 4) 5 (fun x => {x with atr := [], rstHigh := true, coldAct := true, atrDone := true}) : State),
       (5 : SlotId), (0x02 : Byte), (true : Bool), (false : Bool), by decide +kernel⟩,
   ⟨(slotX (inState up 5 4) 5 (fun x => {x with atr := [], rstHigh := true, coldAct := true}) : State), (5 : SlotId),
       by decide +kernel, bare_of (by decide +kernel)⟩,
   ⟨(slotX (inState up 5 4) 5 (fun x => {x with atr := [0x3B], rstHigh := true, coldAct := true}) : State), (5 : SlotId),
       by decide +kernel, bare_of (by decide +kernel)⟩,
   ⟨(puts (slotX (inState up 5 4) 5 (fun x => {x with atr := [0x3B,0x80,0x01,0x81], rstHigh := true, coldAct := true, atrDone := true})) [(EMB_CFG.CTX_HOST,0,255)] : State), (5 : SlotId), (1 : Nat), by decide +kernel⟩,
   ⟨(slotX (inState up 5 4) 5 (fun x => {x with atr := [0x3B], rstHigh := true, coldAct := true, atrDone := true}) : State),
       (5 : SlotId), by decide +kernel, bare_of (by decide +kernel)⟩,
   ⟨(slotX (inState up 5 4) 5 (fun x => {x with atr := [0x3B], rstHigh := true, coldAct := true, atrDone := true}) : State),
       (5 : SlotId), by decide +kernel, bare_of (by decide +kernel)⟩⟩

theorem witness_negotiationSteps :
    (∃ (s : State) (n : SlotId) (bytes : List Byte),
        (s.At n ∧ s.chip.slotState n = stNEGOTIATE ∧ (s.chip.slot n).neg = .pps ∧
            ppsJudge (s.chip.slot n).pps bytes ≠ .refused))
    ∧ (∃ (s : State) (n : SlotId) (bytes : List Byte) (parityOk : Bool),
        (s.At n ∧ s.chip.slotState n = stNEGOTIATE ∧ (s.chip.slot n).neg = .pps ∧
            (parityOk = false ∨ ppsJudge (s.chip.slot n).pps bytes = .refused)) ∧ s.chip.Bare n)
    ∧ (∃ (s : State) (n : SlotId) (p0 : Byte) (p1 : Byte),
        (s.At n ∧ s.chip.slotState n = stNEGOTIATE ∧ (s.chip.slot n).neg = .clock ∧ (s.chip.slot n).pps.getD 1 0 = p0 ∧
            (if p0.toNat.testBit 4 then (s.chip.slot n).pps.getD 2 0 else 0x11) = p1 ∧ p0.toNat % 16 = 1 ∧
                s.chip.cfg HTH_PROT_CFG.IFSD n ≠ 32))
    ∧ (∃ (s : State) (n : SlotId) (p0 : Byte) (p1 : Byte),
        (s.At n ∧ s.chip.slotState n = stNEGOTIATE ∧ isOperator n = true ∧ (s.chip.slot n).neg = .clock ∧
            (s.chip.slot n).pps.getD 1 0 = p0 ∧ (if p0.toNat.testBit 4 then (s.chip.slot n).pps.getD 2 0 else 0x11) = p1 ∧
                p0.toNat % 16 = 0))
    ∧ (∃ (s : State) (n : SlotId),
        (s.At n ∧ s.chip.slotState n = stNEGOTIATE ∧ ((s.chip.sessOf n).cin = none ∨ s.chip.on CRD_STAT.DRBG_READY 0 = true)) ∧
            s.chip.Bare n)
    ∧ (∃ (s : State) (n : SlotId) (k : CinX),
        (s.At n ∧ s.chip.slotState n = stNEGOTIATE ∧ (s.chip.sessOf n).cin = some k ∧ (k.phase = .beginWait ∨ k.ephD = []) ∧
            s.chip.on CRD_STAT.DRBG_READY 0 = false) ∧ s.chip.Bare n) :=
  ⟨⟨(slotX (inState up 5 5) 5 (fun x => {x with atr := [0x3B,0x80,0x01,0x81], atrDone := true, rstHigh := true, neg := .pps, pps := [0xFF,0x01,0xFE]}) : State), (5 : SlotId), ([0xFF,0x01,0xFE] : List Byte), by decide +kernel⟩,
   ⟨(slotX (inState up 5 5) 5 (fun x => {x with atr := [0x3B,0x80,0x01,0x81], atrDone := true, rstHigh := true, neg := .pps, pps := [0xFF,0x01,0xFE]}) : State), (5 : SlotId), ([0xFF,0x00,0xFF] : List Byte), (true : Bool), by decide +kernel, bare_of (by decide +kernel)⟩,
   ⟨(slotX (inState up 5 5) 5 (fun x => {x with atr := [0x3B,0x80,0x01,0x81], atrDone := true, rstHigh := true, neg := .clock, pps := [0xFF,0x11,0x96,0x78]}) : State), (5 : SlotId), (0x11 : Byte), (0x96 : Byte), by decide +kernel⟩,
   ⟨(slotX (inState up 2 5) 2 (fun x => {x with atr := [0x3B,0x80,0x01,0x81], atrDone := true, rstHigh := true, neg := .clock, pps := [0xFF,0x00,0xFF]}) : State), (2 : SlotId), (0x00 : Byte), (0x11 : Byte), by decide +kernel⟩,
   ⟨(slotX (inState up 5 5) 5 (fun x => {x with atr := [0x3B,0x80,0x01,0x81], atrDone := true, rstHigh := true, neg := .ifs, pps := []}) : State), (5 : SlotId), by decide +kernel, bare_of (by decide +kernel)⟩,
   ⟨(ch (slotX (inState up 5 5) 5 (fun x => {x with atr := [0x3B,0x80,0x01,0x81], atrDone := true, rstHigh := true, neg := .cinder, pps := []})) (fun c => c.modSess 5 (fun s => {s with cin := some {CinX.start .establish with phase := .beginWait}})) : State), (5 : SlotId), ({CinX.start .establish with phase := .beginWait} : CinX), by decide +kernel, bare_of (by decide +kernel)⟩⟩

theorem witness_deactivationEnd :
    (∃ (s : State) (n : SlotId) (react : Bool) (ins : Bool),
        (s.Still ∧ s.chip.slotState n = stDEACT ∧ (s.chip.slot n).resetPend = false ∧ (s.chip.slot n).queue = [] ∧
            s.chip.get HTH_SLOT_CAUSE.CAUSE n ≠ cauNEXT ∧ s.chip.follow n = .off react ins))
    ∧ (∃ (s : State) (n : SlotId),
        (s.Still ∧ s.chip.slotState n = stDEACT ∧ (s.chip.slot n).resetPend = false ∧ (s.chip.slot n).queue = [] ∧
            s.chip.get HTH_SLOT_CAUSE.CAUSE n ≠ cauNEXT ∧ s.chip.follow n = .absent ∧
                elecCause (s.chip.get HTH_SLOT_CAUSE.CAUSE n) = false ∧
                    actFailCause (s.chip.get HTH_SLOT_CAUSE.CAUSE n) = false))
    ∧ (∃ (s : State) (n : SlotId),
        (s.At n ∧ s.chip.on HTH_SLOT_STAT.REACT_WAIT n = true ∧ (s.chip.slot n).schedReact = true ∧ s.chip.slotState n = stOFF
            ∧ s.chip.get HTH_SLOT_STAT.ACT_PEND n = 0))
    ∧ (∃ (s : State) (n : SlotId),
        (s.At n ∧ s.chip.on HTH_SLOT_STAT.REACT_WAIT n = true ∧ (s.chip.slot n).schedReact = false)) :=
  ⟨⟨(puts (slotX (inState up 5 8) 5 (fun x => {x with seq := some .commanded})) [(HTH_SLOT_CAUSE.CAUSE,5,1)] : State),
      (5 : SlotId), (false : Bool), (false : Bool), by decide +kernel⟩,
   ⟨(puts (slotX (inState up 2 8) 2 (fun x => {x with seq := some .removal})) [(HTH_SLOT_CAUSE.CAUSE,2,2),
       (HTH_MON_STAT.STATE,11,1)] : State), (2 : SlotId), by decide +kernel⟩,
   ⟨(puts (slotX (inState up 5 0) 5 (fun x => {x with schedReact := true})) [(HTH_SLOT_STAT.REACT_WAIT,5,1)] : State),
       (5 : SlotId), by decide +kernel⟩,
   ⟨(puts (inState up 5 0) [(HTH_SLOT_STAT.REACT_WAIT,5,1)] : State), (5 : SlotId), by decide +kernel⟩⟩

theorem witness_characterProtocolT0 :
    (∃ (s : State) (n : SlotId) (_b : Byte),
        (s.At n ∧ ((s.chip.slot n).t0.wait = .dataAll ∨ (s.chip.slot n).t0.wait = .dataOne) ∧
            (s.chip.slot n).t0.rsp.length < 4096))
    ∧ (∃ (s : State) (n : SlotId),
        (s.At n ∧ (s.chip.slot n).t0.wait = .proc))
    ∧ (∃ (s : State) (n : SlotId) (b : Byte),
        (s.At n ∧ (s.chip.slot n).t0.wait = .proc ∧ b ≠ 0x60 ∧ b ≠ (s.chip.slot n).t0.hdr.getD 1 0 ∧
            b ≠ (s.chip.slot n).t0.hdr.getD 1 0 ^^^ 0xFF ∧ (b.toNat / 16 = 6 ∨ b.toNat / 16 = 9)))
    ∧ (∃ (s : State) (n : SlotId) (sw1 : Byte) (sw2 : Byte) (ex : Exch) (uid : Nat) (second : Bool) (e : Entry) (ks : KeySet) (d : List Byte) (sw : Nat),
        (s.At n ∧ (s.chip.slot n).t0.wait = .sw2 sw1 ∧ sw1 ≠ 0x61 ∧ sw1 ≠ 0x6C ∧ s.chip.Carries n ex uid second e ∧
            (s.chip.sessOf n).cur = some ks ∧ d.length ≤ e.rspMax) ∧ unwrapRsp ks ((s.chip.slot n).t0.rsp ++ [sw1,
                sw2]) = some (d, sw))
    ∧ (∃ (s : State) (n : SlotId) (_b : Byte),
        (s.At n ∧ (s.chip.slot n).t0.wait ≠ .idle ∧
            (if (s.chip.slot n).t0.repAt = none then (s.chip.slot n).t0.repeats else 0) < s.chip.cfg HTH_PROT_LIM.PAR_RETRY n))
    ∧ (∃ (s : State) (n : SlotId) (k : Nat),
        (s.At n ∧ (s.chip.slot n).t0.wait ≠ .idle ∧ (s.chip.slot n).t0.sending = true ∧ k < (s.chip.slot n).t0.run ∧
            (if (s.chip.slot n).t0.repAt = some k then (s.chip.slot n).t0.repeats else 0) < s.chip.cfg HTH_PROT_LIM.PAR_RETRY n))
    ∧ (∃ (s : State) (n : SlotId) (ex : Exch) (uid : Nat) (second : Bool) (e : Entry),
        (s.At n ∧ (s.chip.slot n).t0.wait ≠ .idle ∧ s.chip.Carries n ex uid second e)) :=
  ⟨⟨(carry 5 .t0 (fun x => { x with t0 := { T0X.init with wait := .dataAll, hdr := [0,0xA4,0,0,0], toRecv := 2 } }) : State),
      (5 : SlotId), (0x77 : Byte), by decide +kernel⟩,
   ⟨(carry 5 .t0 (fun x => { x with t0 := { T0X.init with wait := .proc, hdr := [0,0xA4,0,0,0], sending := true } }) : State),
       (5 : SlotId), by decide +kernel⟩,
   ⟨(carry 5 .t0 (fun x => { x with t0 := { T0X.init with wait := .proc, hdr := [0,0xA4,0,0,0] } }) : State), (5 : SlotId),
       (0x90 : Byte), by decide +kernel⟩,
   ⟨(carry 5 .t0 (fun x => { x with t0 := { T0X.init with wait := .sw2 0x90, hdr := [0,0xA4,0,0,0], rsp := okRsp.take 8 } }) : State), (5 : SlotId), (0x90 : Byte), (0x00 : Byte), (exC .t0 : Exch), (7 : Nat), (false : Bool), (enC 5 : Entry), (ks0 : KeySet), ([] : List Byte), (0x9000 : Nat), by decide +kernel, (congrArg (unwrapRsp ks0) (by decide +kernel)).trans unwrap_ok⟩,
   ⟨(carry 5 .t0 (fun x => { x with t0 := { T0X.init with wait := .proc, hdr := [0,0xA4,0,0,0] } }) : State), (5 : SlotId),
       (0x90 : Byte), by decide +kernel⟩,
   ⟨(carry 5 .t0 (fun x => { x with t0 := { T0X.init with wait := .proc, hdr := [0,0xA4,0,0,0], sending := true, run := 5 } }) : State), (5 : SlotId), (3 : Nat), by decide +kernel⟩,
   ⟨(carry 5 .t0 (fun x => { x with t0 := { T0X.init with wait := .proc, hdr := [0,0xA4,0,0,0] } }) : State), (5 : SlotId),
       (exC .t0 : Exch), (7 : Nat), (false : Bool), (enC 5 : Entry), by decide +kernel⟩⟩

theorem witness_characterProtocolT1 :
    (∃ (s : State) (n : SlotId) (v : Byte),
        (s.At n ∧ s.chip.t1Waits n = true ∧ (s.chip.slot n).t1.resynch = false ∧ v ≠ 0))
    ∧ (∃ (s : State) (n : SlotId) (inf : List Byte) (ex : Exch) (uid : Nat) (second : Bool) (e : Entry) (ks : KeySet) (d : List Byte) (sw : Nat),
        (s.At n ∧ s.chip.t1Waits n = true ∧ (s.chip.slot n).t1.resynch = false ∧ s.chip.get HTH_PROT_STAT.NS_RX n < 2 ∧
            inf.length < 256 ∧ inf.length ≤ s.chip.get HTH_PROT_WT.IFSD_ACT n ∧ (s.chip.slot n).t1.lastInf ≠ [] ∧
                (s.chip.slot n).t1.lastMore = false ∧ (s.chip.slot n).t1.ifsReq = none ∧ (s.chip.slot n).t1.overlong = false ∧
                    (s.chip.slot n).t1.rsp.length + inf.length ≤ 4096 ∧ s.chip.Carries n ex uid second e ∧
                        (s.chip.sessOf n).cur = some ks ∧ d.length ≤ e.rspMax) ∧ unwrapRsp ks ((s.chip.slot n).t1.rsp
                            ++ inf) = some (d, sw))
    ∧ (∃ (s : State) (n : SlotId) (bytes : List Byte) (parityOk : Bool) (code : Nat) (kind : Nat),
        (s.At n ∧ s.chip.t1Waits n = true ∧ (s.chip.slot n).t1.resynch = false ∧ s.chip.t1Fault n bytes parityOk = some (code,
            kind) ∧ (s.chip.slot n).t1.last = .iBlock ∧ (s.chip.slot n).t1.retries < s.chip.cfg HTH_PROT_LIM.T1_RETRY n))
    ∧ (∃ (s : State) (n : SlotId),
        (s.At n ∧ s.chip.t1Waits n = true ∧ (s.chip.slot n).t1.resynch = false ∧ (s.chip.slot n).t1.last = .iBlock ∧
            (s.chip.slot n).t1.retries < s.chip.cfg HTH_PROT_LIM.T1_RETRY n))
    ∧ (∃ (s : State) (n : SlotId),
        (s.At n ∧ s.chip.t1Waits n = true ∧ (s.chip.slot n).t1.resynch = false ∧ (s.chip.slot n).t1.last = .iBlock ∧
            (s.chip.slot n).t1.retries < s.chip.cfg HTH_PROT_LIM.T1_RETRY n)) :=
  ⟨⟨(carry 5 .t1 (fun x => { x with t1 := { T1X.init with last := .iBlock, lastInf := [1], retries := 1 } }) : State),
      (5 : SlotId), (3 : Byte), by decide +kernel⟩,
   ⟨(carry 5 .t1 (fun x => { x with t1 := { T1X.init with last := .iBlock, lastInf := [1], rsp := okRsp.take 3 } }) : State),
       (5 : SlotId), (okRsp.drop 3 : List Byte), (exC .t1 : Exch), (7 : Nat), (false : Bool), (enC 5 : Entry), (ks0 : KeySet),
           ([] : List Byte), (0x9000 : Nat), by decide +kernel, (congrArg (unwrapRsp ks0) (by decide +kernel)).trans unwrap_ok⟩,
   ⟨(carry 5 .t1 (fun x => { x with t1 := { T1X.init with last := .iBlock, lastInf := [1], retries := 1 } }) : State),
       (5 : SlotId), ([1] : List Byte), (true : Bool), (1 : Nat), (kEDC : Nat), by decide +kernel⟩,
   ⟨(carry 5 .t1 (fun x => { x with t1 := { T1X.init with last := .iBlock, lastInf := [1], retries := 1 } }) : State),
       (5 : SlotId), by decide +kernel⟩,
   ⟨(carry 5 .t1 (fun x => { x with t1 := { T1X.init with last := .iBlock, lastInf := [1], retries := 1 } }) : State),
       (5 : SlotId), by decide +kernel⟩⟩

theorem witness_turfTraining :
    (∃ (s : State) (n : SlotId),
        (s.At n ∧ (s.chip.slot n).tf.phase = .phaseA))
    ∧ (∃ (s : State) (n : SlotId) (bits : List Bool) (rest : List Bool),
        (s.At n ∧ (s.chip.slot n).tf.phase = .phaseB ∧ afterSfd bits = some rest ∧
            rest.take 512 = prbs15 512 ((s.chip.slot n).tf.seed ^^^ 0x7FFF)))
    ∧ (∃ (s : State) (n : SlotId) (rate : Nat) (bits : List Bool) (rest : List Bool),
        (s.At n ∧ (s.chip.slot n).tf.phase = .phaseB ∧ fallback (s.chip.slot n).tf.rates (s.chip.slot n).tf.tryRate = some rate
            ∧ afterSfd bits = some rest ∧ rest.take 512 ≠ prbs15 512 ((s.chip.slot n).tf.seed ^^^ 0x7FFF)))
    ∧ (∃ (s : State) (n : SlotId) (bits : List Bool),
        (s.At n ∧ afterSfd bits = none))
    ∧ (∃ (s : State) (n : SlotId) (rate : Nat),
        (s.At n ∧ (s.chip.slot n).tf.phase = .phaseB ∧
            fallback (s.chip.slot n).tf.rates (s.chip.slot n).tf.tryRate = some rate))
    ∧ (∃ (s : State) (n : SlotId) (rate : Nat),
        (s.At n ∧ (s.chip.slot n).tf.phase = .linkUp ∧
            fallback (s.chip.slot n).tf.rates (s.chip.slot n).tf.tryRate = some rate))
    ∧ (∃ (s : State) (n : SlotId) (bits : List Bool) (ex : Exch),
        (s.At n ∧ turfParse bits = .ctrl 2 ∧ (s.chip.slot n).tf.phase = .linkUp ∧ (s.chip.slot n).tf.isResume = false ∧
            (s.chip.slot n).cur = some ex ∧ ex.use = .turfOpen)) :=
  ⟨⟨(slotX (inState up 5 5) 5 (fun x => { x with neg := .train, cur := some (exOf .turfOpen .t1), tf := { x.tf with phase := .phaseA, tryRate := 4, rates := 7, seed := 5, parked := false } }) : State), (5 : SlotId), by decide +kernel⟩,
   ⟨(slotX (inState up 5 5) 5 (fun x => { x with neg := .train, cur := some (exOf .turfOpen .t1), tf := { x.tf with phase := .phaseB, tryRate := 4, rates := 7, seed := 5, parked := false } }) : State), (5 : SlotId), (phaseBits (5 ^^^ 0x7FFF) : List Bool), (prbs15 512 (5 ^^^ 0x7FFF) ++ [false, false, false, false] : List Bool), by decide +kernel⟩,
   ⟨(slotX (inState up 5 5) 5 (fun x => { x with neg := .train, cur := some (exOf .turfOpen .t1), tf := { x.tf with phase := .phaseB, tryRate := 4, rates := 7, seed := 5, parked := false } }) : State), (5 : SlotId), (2 : Nat), (phaseBits 5 : List Bool), (prbs15 512 5 ++ [false, false, false, false] : List Bool), by decide +kernel⟩,
   ⟨(slotX (inState up 5 5) 5 (fun x => { x with neg := .train, cur := some (exOf .turfOpen .t1), tf := { x.tf with phase := .phaseB, tryRate := 4, rates := 7, seed := 5, parked := false } }) : State), (5 : SlotId), ([true,false,true] : List Bool), by decide +kernel⟩,
   ⟨(slotX (inState up 5 5) 5 (fun x => { x with neg := .train, cur := some (exOf .turfOpen .t1), tf := { x.tf with phase := .phaseB, tryRate := 4, rates := 7, seed := 5, parked := false } }) : State), (5 : SlotId), (2 : Nat), by decide +kernel⟩,
   ⟨(slotX (inState up 5 5) 5 (fun x => { x with neg := .train, cur := some (exOf .turfOpen .t1), tf := { x.tf with phase := .linkUp, tryRate := 4, rates := 7, seed := 5, parked := false } }) : State), (5 : SlotId), (2 : Nat), by decide +kernel⟩,
   ⟨(slotX (inState up 5 5) 5 (fun x => { x with neg := .train, cur := some (exOf .turfOpen .t1), tf := { x.tf with phase := .linkUp, tryRate := 4, rates := 7, seed := 5, parked := false } }) : State), (5 : SlotId), (turfFrame 2 false [0x02] : List Bool), (exOf .turfOpen .t1 : Exch), by decide +kernel⟩⟩

theorem witness_turfExchange :
    (∃ (s : State) (n : SlotId) (lead : List Bool) (frame : List Bool) (bits : List Bool) (seq : Bool) (payload : List Byte) (ex : Exch) (uid : Nat) (second : Bool) (e : Entry) (ks : KeySet) (d : List Byte) (sw : Nat),
        (s.At n ∧ bits = lead ++ frame ∧ turfParse bits = .data seq payload ∧ (s.chip.slot n).tf.phase ≠ .linkUp ∧
            s.chip.turfDue n = true ∧ s.chip.get HTH_TURF_STAT.SEQ n = seq.toNat ∧ s.chip.Carries n ex uid second e ∧
                (s.chip.sessOf n).cur = some ks ∧ d.length ≤ e.rspMax) ∧ unwrapRsp ks payload = some (d, sw))
    ∧ (∃ (s : State) (n : SlotId) (lead : List Bool) (frame : List Bool) (bits : List Bool) (seq : Bool) (payload : List Byte),
        (s.At n ∧ bits = lead ++ frame ∧ turfParse bits = .data seq payload ∧ s.chip.turfDue n = true ∧
            s.chip.get HTH_TURF_STAT.SEQ n ≠ seq.toNat))
    ∧ (∃ (s : State) (n : SlotId) (bits : List Bool) (seq : Bool),
        (s.At n ∧ turfParse bits = .nak seq ∧ s.chip.turfDue n = true ∧
            (s.chip.slot n).tf.attempts < 1 + s.chip.cfg HTH_TURF_CFG.TURF_RETRY n))
    ∧ (∃ (s : State) (n : SlotId) (bits : List Bool),
        (s.At n ∧ turfParse bits = .ctrl 3 ∧ s.chip.turfDue n = true ∧
            (s.chip.slot n).tf.waits < s.chip.cfg HTH_TURF_CFG.WAIT_LIM n))
    ∧ (∃ (s : State) (n : SlotId) (bits : List Bool),
        (s.At n ∧ turfParse bits = .ctrl 4 ∧ s.chip.laneHears n = true ∧ s.chip.onLane n = false))
    ∧ (∃ (s : State) (n : SlotId) (bits : List Bool) (ex : Exch) (uid : Nat) (second : Bool) (e : Entry),
        (s.At n ∧ turfParse bits = .ctrl 4 ∧ s.chip.laneHears n = true ∧ s.chip.onLane n = true ∧
            s.chip.Carries n ex uid second e))
    ∧ (∃ (s : State) (n : SlotId) (bits : List Bool),
        (s.At n ∧ turfParse bits = .bad ∧ (s.chip.slot n).tf.phase ≠ .linkUp ∧ s.chip.laneHears n = true ∧
            s.chip.onLane n = false))
    ∧ (∃ (s : State) (n : SlotId) (bits : List Bool),
        (s.At n ∧ turfParse bits = .bad ∧ (s.chip.slot n).tf.phase ≠ .linkUp ∧ s.chip.laneHears n = true ∧
            s.chip.turfDue n = true ∧ (s.chip.slot n).tf.attempts < 1 + s.chip.cfg HTH_TURF_CFG.TURF_RETRY n))
    ∧ (∃ (s : State) (n : SlotId) (bits : List Bool),
        (s.At n ∧ turfParse bits = .quiet))
    ∧ (∃ (s : State) (n : SlotId),
        (s.At n ∧ s.chip.turfDue n = true ∧ (s.chip.slot n).tf.attempts < 1 + s.chip.cfg HTH_TURF_CFG.TURF_RETRY n))
    ∧ (∃ (s : State) (n : SlotId) (ex : Exch),
        (s.At n ∧ (s.chip.slot n).cur = some ex ∧ ex.sent = true ∧ ex.path = .turf ∧ (s.chip.slot n).tf.retxDue = true))
    ∧ (∃ (s : State) (n : SlotId),
        (s.At n ∧ (s.chip.slot n).tf.retrainDue = true))
    ∧ (∃ (s : State) (n : SlotId),
        (s.At n ∧ s.chip.get HTH_TURF_STAT.LANE n = lnUP ∧ s.chip.slotIdle n = true ∧
            s.chip.cfg HTH_TURF_CFG.DOZE_IDLE n ≠ 0)) :=
  ⟨⟨(puts (carry 5 .turf (fun x => { x with tf := { x.tf with attempts := 1, parked := false } })) [(HTH_TURF_STAT.LANE,5,3)] : State), (5 : SlotId), ([false] : List Bool), (turfFrame 0 false okRsp : List Bool), ([false] ++ turfFrame 0 false okRsp : List Bool), (false : Bool), (okRsp : List Byte), (exC .turf : Exch), (7 : Nat), (false : Bool), (enC 5 : Entry), (ks0 : KeySet), ([] : List Byte), (0x9000 : Nat), by decide +kernel, (congrArg (unwrapRsp ks0) (by decide +kernel)).trans unwrap_ok⟩,
   ⟨(puts (carry 5 .turf (fun x => { x with tf := { x.tf with attempts := 1, parked := false } })) [(HTH_TURF_STAT.LANE,5,3)] : State), (5 : SlotId), ([] : List Bool), (turfFrame 0 true okRsp : List Bool), (turfFrame 0 true okRsp : List Bool), (true : Bool), (okRsp : List Byte), by decide +kernel⟩,
   ⟨(puts (carry 5 .turf (fun x => { x with tf := { x.tf with attempts := 1, parked := false } })) [(HTH_TURF_STAT.LANE,5,3)] : State), (5 : SlotId), (turfFrame 1 true [] : List Bool), (true : Bool), by decide +kernel⟩,
   ⟨(puts (carry 5 .turf (fun x => { x with tf := { x.tf with attempts := 1, parked := false } })) [(HTH_TURF_STAT.LANE,5,3)] : State), (5 : SlotId), (turfFrame 2 false [3] : List Bool), by decide +kernel⟩,
   ⟨(puts (inState up 5 6) [(HTH_TURF_STAT.LANE,5,3),(HTH_TURF_CFG.DOZE_IDLE,5,3)] : State), (5 : SlotId),
       (turfFrame 2 true [4] : List Bool), by decide +kernel⟩,
   ⟨(puts (carry 5 .turf (fun x => { x with tf := { x.tf with attempts := 1, parked := false } })) [(HTH_TURF_STAT.LANE,5,3)] : State), (5 : SlotId), (turfFrame 2 true [4] : List Bool), (exC .turf : Exch), (7 : Nat), (false : Bool), (enC 5 : Entry), by decide +kernel⟩,
   ⟨(puts (inState up 5 6) [(HTH_TURF_STAT.LANE,5,3),(HTH_TURF_CFG.DOZE_IDLE,5,3)] : State), (5 : SlotId),
       (turfFrame 3 true [4] : List Bool), by decide +kernel⟩,
   ⟨(puts (carry 5 .turf (fun x => { x with tf := { x.tf with attempts := 1, parked := false } })) [(HTH_TURF_STAT.LANE,5,3)] : State), (5 : SlotId), (turfFrame 2 true [1] : List Bool), by decide +kernel⟩,
   ⟨(puts (carry 5 .turf (fun x => { x with tf := { x.tf with attempts := 1, parked := false } })) [(HTH_TURF_STAT.LANE,5,3)] : State), (5 : SlotId), ([true,true,false] : List Bool), by decide +kernel⟩,
   ⟨(puts (carry 5 .turf (fun x => { x with tf := { x.tf with attempts := 1, parked := false } })) [(HTH_TURF_STAT.LANE,5,3)] : State), (5 : SlotId), by decide +kernel⟩,
   ⟨(puts (carry 5 .turf (fun x => { x with tf := { x.tf with attempts := 1, parked := false, retxDue := true } })) [(HTH_TURF_STAT.LANE,5,3)] : State), (5 : SlotId), (exC .turf : Exch), by decide +kernel⟩,
   ⟨(slotX (inState up 5 7) 5 (fun x => {x with tf := {x.tf with retrainDue := true}}) : State), (5 : SlotId),
       by decide +kernel⟩,
   ⟨(puts (inState up 5 6) [(HTH_TURF_STAT.LANE,5,3),(HTH_TURF_CFG.DOZE_IDLE,5,3)] : State), (5 : SlotId), by decide +kernel⟩⟩

theorem witness_doorbells :
    (∃ (s : State) (p : Path) (r : RingId) (t : Nat) (k : Nat),
        (s.Takes p blkFLU (s.chip.domUp 16) ∧ s.chip.ownerPath p r = true ∧ s.chip.on FLU_RING_STAT.AWAIT_DB r = false ∧
            (∀ e ∈ s.chip.entries, e.ring = r → e.phase ≠ .ended) ∧ t < s.chip.sqSize r ∧
                (s.chip.ring r).arrivals.length + (s.chip.unadmitted r).length + (t + s.chip.sqSize r - (s.chip.ring r).sqTail) % s.chip.sqSize r ≤ s.chip.sqSize r - 1 ∧ s.chip.ringState r = rsRUNNING ∧ s.chip.ringServed r = true ∧ (s.chip.ring r).fetching = 0 ∧ k = min (min 8 ((s.chip.ring r).arrivals.length + (t + s.chip.sqSize r - (s.chip.ring r).sqTail) % s.chip.sqSize r))
          (min (16 - (s.chip.unadmitted r).length) (s.chip.sqSize r - s.chip.get FLU_RING_PTR.SQ_HEAD r)) ∧ 0 < k))
    ∧ (∃ (s : State) (p : Path) (r : RingId) (t : Nat),
        (s.Takes p blkFLU (s.chip.domUp 16) ∧ s.chip.ownerPath p r = true ∧ s.chip.on FLU_RING_STAT.AWAIT_DB r = false ∧
            (∀ e ∈ s.chip.entries, e.ring = r → e.phase ≠ .ended) ∧ t < s.chip.sqSize r ∧
                (s.chip.ring r).arrivals.length + (s.chip.unadmitted r).length + (t + s.chip.sqSize r - (s.chip.ring r).sqTail) % s.chip.sqSize r ≤ s.chip.sqSize r - 1 ∧ (s.chip.ringState r ≠ rsRUNNING ∨ (s.chip.ring r).fetching ≠ 0)))
    ∧ (∃ (s : State) (p : Path) (r : RingId) (h : Nat),
        (s.Takes p blkFLU (s.chip.domUp 16) ∧ s.chip.ownerPath p r = true ∧ s.chip.on FLU_RING_STAT.AWAIT_DB r = false ∧
            (∀ e ∈ s.chip.entries, e.ring = r → e.phase ≠ .ended) ∧ h < s.chip.cqSize r ∧
                (h + s.chip.cqSize r - (s.chip.ring r).cqHead) % s.chip.cqSize r ≤ s.chip.cqWritten r ∧
                    (s.chip.ring r).arrivals = []))
    ∧ (∃ (s : State) (p : Path) (r : RingId) (i : Instr) (v : Nat),
        (s.Takes p blkFLU (s.chip.domUp 16) ∧ s.chip.ownerPath p r = false ∧ (i = .sqDoorbell p r v ∨ i = .cqDoorbell p r v)))
    ∧ (∃ (s : State) (p : Path) (r : RingId) (i : Instr) (v : Nat),
        (s.Takes p blkFLU (s.chip.domUp 16) ∧ s.chip.ownerPath p r = true ∧ ((i = .sqDoorbell p r v ∧
            s.chip.sqSize r ≤ v) ∨ (i = .cqDoorbell p r v ∧ s.chip.cqSize r ≤ v)))) :=
  ⟨⟨(ringUp 3 (fun x => x) : State), (.portA : Path), (3 : RingId), (2 : Nat), (2 : Nat), by decide +kernel⟩,
   ⟨(ringUp 3 (fun x => {x with fetching := 2}) : State), (.portA : Path), (3 : RingId), (2 : Nat), by decide +kernel⟩,
   ⟨(puts (ringUp 3 (fun x => x)) [(FLU_RING_PTR.CQ_TAIL,3,3)] : State), (.portA : Path), (3 : RingId), (2 : Nat),
       by decide +kernel⟩,
   ⟨(ringUp 3 (fun x => x) : State), (.portB : Path), (3 : RingId), (.sqDoorbell .portB 3 2 : Instr), (2 : Nat),
       by decide +kernel⟩,
   ⟨(ringUp 3 (fun x => x) : State), (.portA : Path), (3 : RingId), (.sqDoorbell .portA 3 16 : Instr), (16 : Nat),
       by decide +kernel⟩⟩

theorem witness_entriesUpToTheirLegs :
    (∃ (s : State) (r : RingId) (raw : List Byte) (a : Nat × Nat),
        (s.Still ∧ s.chip.domUp 16 = true ∧ (s.chip.ring r).fetching = 1 ∧ (s.chip.ring r).arrivals = [a] ∧
            (leNat ((((List.range 64).map (fun k => raw.getD k 0)).drop 4).take 3) = 0
          ∨ s.chip.us - a.1 < leNat ((((List.range 64).map (fun k => raw.getD k 0)).drop 4).take 3))))
    ∧ (∃ (s : State) (r : RingId) (e : Entry),
        (s.Still ∧ s.chip.domUp 16 = true ∧ s.chip.roundOrder = [r.val] ∧ s.chip.ringState r = rsRUNNING ∧
            s.chip.ringServed r = true ∧ (s.chip.ring r).stalled = false ∧ s.chip.kln.heldRings.contains r.val = false ∧
                (s.chip.unadmitted r).head? = some e ∧ e.phase = .fetched ∧ s.chip.judgeEntry e = none ∧ e.isNop = false ∧
                    e.flagBit 1 = false ∧ 0 < s.chip.get FLU_SCHED_CFG.BATCH_MAX 0 ∧
                        s.chip.inflight r < s.chip.get FLU_RING_CFG.INFL_MAX r ∧ 0 < s.chip.cqFree r ∧ s.chip.poolUsed < 256 ∧
                            s.chip.on FLU_STACK_ACT.MOVING e.handle = false))
    ∧ (∃ (s : State) (r : RingId) (index : Nat) (payload : List Byte) (e : Entry) (apdu : List Byte),
        (s.Still ∧ s.chip.domUp 16 = true ∧
            (s.chip.ringEntries r).find? (fun e => decide (e.index = index) && decide (e.phase = .payload)) = some e ∧
                s.chip.entry? e.uid = some e ∧ s.chip.ringServed r = true ∧ e.isInline = false ∧
                    apdu = (if e.flagBit 3 then memReadBytes s.sram e.cmdAddr e.cmdLen else (List.range e.cmdLen).map (fun k => payload.getD k 0)) ∧ (match apduOf apdu with | some a => apduPolicy a | none => false) = false ∧ e.leg0.st = .queued ∧ e.leg1.st ≠ .queued ∧ e.leg0.slot / 64 = s.chip.grp.dev))
    ∧ (∃ (s : State) (q : Req) (b : Bool) (k : Nat),
        (s.Still ∧ s.chip.domUp 16 = true ∧ s.chip.nextGrant (fun _ => true) = some (q, b) ∧ q.asker = .ember k))
    ∧ (∃ (s : State) (n : SlotId) (q : Req) (b : Bool) (ex : Exch) (uid : Nat) (second : Bool),
        (s.At n ∧ s.chip.canGrant (.mcmd n) = some (q, b) ∧ (s.chip.slot n).wait = some ex ∧ ex.use = .leg (.entry uid second)
            ∧ ex.path = .turf ∧ ex.mcv ≠ [] ∧ s.chip.kln.heldSlots.contains n.val = false ∧ s.chip.slotState n = stREADY)) :=
  ⟨⟨(ringUp 3 (fun x => {x with fetching := 1, arrivals := [(0,0)]}) : State), (3 : RingId), ([1,2,3] : List Byte),
      ((0,0) : Nat × Nat), by decide +kernel⟩,
   ⟨(ch (ringUp 3 (fun x => {x with batch := 4})) (fun c => {c with entries := [fetchedE 7 3 1], stack := {c.stack with rotate := [3,4]}}) : State), (3 : RingId), (fetchedE 7 3 1 : Entry), by decide +kernel⟩,
   ⟨(ch (ringUp 3 (fun x => x)) (fun c => let e := { entryOf 7 3 2 ⟨.queued, 5, 0, false, false⟩ Leg.init with phase := .payload, raw := [2,0,0,0,0,0,0,0,0,0,4,0,0,1], place := some 2 }; ({c with entries := [e]}).modSlot 5 (fun x => {x with queue := [c.qleg e false]})) : State), (3 : RingId), (0 : Nat), ([0,0xA4,0,0] : List Byte), ({ entryOf 7 3 2 ⟨.queued, 5, 0, false, false⟩ Leg.init with phase := .payload, raw := [2,0,0,0,0,0,0,0,0,0,4,0,0,1], place := some 2 } : Entry), ([0,0xA4,0,0] : List Byte), by decide +kernel⟩,
   ⟨(ch up (fun c => {c with dmp := {c.dmp with main := 40000000000, reqs := [⟨.ember 2, 1, 3000, false⟩]}}) : State),
       (⟨.ember 2, 1, 3000, false⟩ : Req), (false : Bool), (2 : Nat), by decide +kernel⟩,
   ⟨(puts (ch (slotX (inState up 5 6) 5 (fun x => {x with wait := some {exC .turf with sent := false, mcv := [9]}})) (fun c => ({c with entries := [entryOf 7 3 2 ⟨.queued, 5, 0, false, false⟩ Leg.init], dmp := {c.dmp with floor := 40000000000, reqs := [⟨.mcmd 5, 0, 10, true⟩]}}).setSess 5 {c.sessOf 5 with cur := some ks0})) [(HTH_TURF_STAT.LANE,5,3)] : State), (5 : SlotId), (⟨.mcmd 5, 0, 10, true⟩ : Req), (true : Bool), ({exC .turf with sent := false, mcv := [9]} : Exch), (7 : Nat), (false : Bool), by decide +kernel⟩⟩

theorem witness_entriesThatEndUnsent :
    (∃ (s : State) (r : RingId) (index : Nat) (e : Entry),
        (s.Still ∧ s.chip.domUp 16 = true ∧
            (s.chip.ringEntries r).find? (fun e => decide (e.index = index) && decide (e.phase ≠ .ended) && decide (e.deadline ≠ 0)) = some e ∧ e.anySent = true))
    ∧ (∃ (s : State) (r : RingId) (index : Nat) (e : Entry),
        (s.Still ∧ s.chip.domUp 16 = true ∧
            (s.chip.ringEntries r).find? (fun e => decide (e.index = index) && decide (e.phase ≠ .ended) && decide (e.deadline ≠ 0)) = some e ∧ e.anySent = false ∧ e.phase = .fetched ∧ e.leg0.st ≠ .queued ∧ e.leg1.st ≠ .queued ∧ s.chip.entry? e.uid = some e ∧ s.chip.NoAsk (.entry e.uid) ∧ s.chip.ringServed r = false ∧ s.chip.ringState r ≠ rsRESETTING))
    ∧ (∃ (s : State) (r : RingId) (e : Entry),
        (s.Still ∧ s.chip.domUp 16 = true ∧ (s.chip.unadmitted r).head? = some e ∧ e.phase = .tokens ∧ e.anySent = false ∧
            e.leg0.st ≠ .queued ∧ e.leg1.st ≠ .queued ∧ s.chip.entry? e.uid = some e ∧ s.chip.NoAsk (.entry e.uid) ∧
                s.chip.NoAdmission r ∧ s.chip.deadlinePast e = false ∧
                    s.chip.get FLU_CLASS_CFG.DEFER_MAX (s.chip.get FLU_RING_CFG.CLASS r) ≠ 0 ∧
                        s.chip.get FLU_CLASS_CFG.DEFER_MAX (s.chip.get FLU_RING_CFG.CLASS r) * 1000 < s.chip.ringDefer r - e.deferUs ∧ s.chip.ringState r = rsRUNNING ∧ s.chip.ringServed r = false))
    ∧ (∃ (s : State) (r : RingId),
        (s.Still ∧ s.chip.domUp 16 = true ∧ (s.chip.ring r).coalRun = true ∧ s.chip.on FLU_RING_CTL.INT_EN r = true ∧
            s.chip.get FLU_RING_CTL.INT_VEC r ≤ s.chip.get FLU_HP_CFG.MSIX_LAST (s.chip.owner r) ∧
                s.chip.portOpen (s.chip.owner r) = true ∧
                    s.chip.msixMasked (s.chip.owner r) (s.chip.get FLU_RING_CTL.INT_VEC r) = false))
    ∧ (∃ (s : State) (r : RingId) (t : DmaTarget),
        (s.Still ∧ s.chip.domUp 16 = true ∧ (t = .sqRead ∨ t = .cqWrite) ∧
            (s.chip.ringState r = rsRUNNING ∨ s.chip.ringState r = rsPAUSED ∨ s.chip.ringState r = rsORPHANED) ∧
                s.chip.NoAdmission r))
    ∧ (∃ (s : State) (r : RingId),
        (s.Still ∧ s.chip.domUp 16 = true ∧ s.chip.ringState r = rsRESETTING ∧ s.chip.ringEntries r = [])) :=
  ⟨⟨(ch (ringUp 3 (fun x => x)) (fun c => {c with entries := [{enC 5 with raw := [2,0,0,0,1,0,0,0,0,0]}]}) : State),
      (3 : RingId), (0 : Nat), ({enC 5 with raw := [2,0,0,0,1,0,0,0,0,0]} : Entry), by decide +kernel⟩,
   ⟨(ch (puts (ringUp 3 (fun x => x)) [(FLU_RING_STAT.AWAIT_DB,3,1)]) (fun c => {c with entries := [{fetchedE 7 3 1 with raw := [2,0,0,0,1,0,0,0,0,0]}]}) : State), (3 : RingId), (0 : Nat), ({fetchedE 7 3 1 with raw := [2,0,0,0,1,0,0,0,0,0]} : Entry), by decide +kernel⟩,
   ⟨(ch (puts (ringUp 3 (fun x => {x with deferUs := 5, deferSince := some 2})) [(FLU_RING_STAT.AWAIT_DB,3,1),
       (FLU_RING_STAT.DEFERRED,3,1), (FLU_RING_CFG.CLASS,3,1),
           (FLU_CLASS_CFG.DEFER_MAX,1,2)]) (fun c => {c with us := 2020, entries := [{fetchedE 7 3 1 with phase := .tokens, deferUs := 3}], dmp := {c.dmp with reqs := [⟨.admission 3,1,5,false⟩]}}) : State), (3 : RingId), ({fetchedE 7 3 1 with phase := .tokens, deferUs := 3} : Entry), by decide +kernel⟩,
   ⟨(ch (puts (ringUp 3 (fun x => {x with coalRun := true, coalCount := 2})) [(FLU_RING_CTL.INT_EN,3,1)]) (fun c => c.setPort 0 {c.port 0 with msix := [(3,0)]}) : State), (3 : RingId), by decide +kernel⟩,
   ⟨(ringUp 3 (fun x => {x with fetching := 3, deferUs := 5}) : State), (3 : RingId), (.cqWrite : DmaTarget),
       by decide +kernel⟩,
   ⟨(puts (ringUp 3 (fun x => {x with cqHead := 3})) [(FLU_RING_STAT.STATE,3,5), (FLU_RING_CFG.OWNER,3,1)] : State),
       (3 : RingId), by decide +kernel⟩⟩

theorem witness_ringCommands :
    (∃ (s : State) (p : Path) (r : RingId) (v : Nat),
        (s.Takes p blkFLU (s.chip.domUp 16) ∧ s.chip.ownerPath p r = true ∧ s.chip.ringState r = rsDISABLED ∧ v / 2 ^ 31 % 2 = 1
            ∧ s.chip.on FLU_RING_CFG.DEFINED r = true ∧ v / 2 ^ 8 % 512 ≤ s.chip.get FLU_HP_CFG.MSIX_LAST (s.chip.owner r)))
    ∧ (∃ (s : State) (p : Path) (r : RingId) (v : Nat),
        (s.Takes p blkFLU (s.chip.domUp 16) ∧ s.chip.ownerPath p r = true ∧ s.chip.ringState r = rsDISABLED ∧ v / 2 ^ 31 % 2 = 0
            ∧ v / 2 ^ 8 % 512 ≤ s.chip.get FLU_HP_CFG.MSIX_LAST (s.chip.owner r)))
    ∧ (∃ (s : State) (p : Path) (r : RingId),
        (s.Takes p blkFLU (s.chip.domUp 16) ∧ s.chip.ownerPath p r = true ∧ s.chip.ringState r = rsRUNNING ∧
            s.chip.NoAdmission r))
    ∧ (∃ (s : State) (p : Path) (r : RingId),
        (s.Takes p blkFLU (s.chip.domUp 16) ∧ s.chip.ownerPath p r = true ∧ s.chip.ringState r = rsPAUSED ∧
            (s.chip.ring r).arrivals = []))
    ∧ (∃ (s : State) (p : Path) (r : RingId),
        (s.Takes p blkFLU (s.chip.domUp 16) ∧ s.chip.ownerPath p r = true ∧ s.chip.ringState r = rsDISABLED))
    ∧ (∃ (s : State) (p : Path) (r : RingId),
        (s.Takes p blkFLU (s.chip.domUp 16) ∧ s.chip.ownerPath p r = true ∧ s.chip.ringState r = rsRUNNING ∧
            s.chip.ringEntries r = [] ∧ s.chip.NoAdmission r))
    ∧ (∃ (s : State) (p : Path) (r : RingId),
        (s.Takes p blkFLU (s.chip.domUp 16) ∧ s.chip.ownerPath p r = true ∧ s.chip.ringState r = rsRUNNING ∧
            s.chip.linkUp (s.chip.get FLU_RING_CFG.OWNER r) = true ∧ s.chip.owner r ≠ s.chip.get FLU_RING_CFG.OWNER r ∧
                s.chip.NoAdmission r))
    ∧ (∃ (s : State) (p : Path) (r : RingId) (i : Instr) (v : Nat),
        (s.Takes p blkFLU (s.chip.domUp 16) ∧ s.chip.ownerPath p r = false ∧
            (i = .pause p r ∨ i = .resume p r ∨ i = .reset p r ∨ i = .handback p r ∨ i = .ringEn p r v))) :=
  ⟨⟨(puts (ringUp 3 (fun x => x)) [(FLU_RING_STAT.STATE,3,0), (FLU_HP_CFG.MSIX_LAST,0,9)] : State), (.portA : Path),
      (3 : RingId), (0x85F20305 : Nat), by decide +kernel⟩,
   ⟨(puts (ringUp 3 (fun x => x)) [(FLU_RING_STAT.STATE,3,0), (FLU_HP_CFG.MSIX_LAST,0,9)] : State), (.portA : Path),
       (3 : RingId), (0x05F20305 : Nat), by decide +kernel⟩,
   ⟨(ch (ringUp 3 (fun x => x)) (fun c => {c with entries := [{fetchedE 7 3 1 with phase := .tokens}], dmp := {c.dmp with reqs := [⟨.admission 3,1,5,false⟩]}}) : State), (.portA : Path), (3 : RingId), by decide +kernel⟩,
   ⟨(puts (ringUp 3 (fun x => x)) [(FLU_RING_STAT.STATE,3,2)] : State), (.portA : Path), (3 : RingId), by decide +kernel⟩,
   ⟨(puts (ringUp 3 (fun x => {x with cqHead := 3})) [(FLU_RING_STAT.STATE,3,0)] : State), (.portA : Path), (3 : RingId),
       by decide +kernel⟩,
   ⟨(ringUp 3 (fun x => {x with arrivals := [(1,1)], deferUs := 4, coalRun := true}) : State), (.portA : Path), (3 : RingId),
       by decide +kernel⟩,
   ⟨(puts (ringUp 3 (fun x => {x with fetching := 2})) [(FLU_RING_CFG.OWNER,3,1), (FLU_HP_STAT.DL_UP,1,1),
       (FLU_HP_STAT.BME,1,1), (FLU_HP_STAT.MSE,1,1)] : State), (.portA : Path), (3 : RingId), by decide +kernel⟩,
   ⟨(ringUp 3 (fun x => x) : State), (.portB : Path), (3 : RingId), (.pause .portB 3 : Instr), (0 : Nat), by decide +kernel⟩⟩

theorem witness_portLossAndReturn :
    (∃ (s : State) (x : PortId) (r : Nat),
        (s.Still ∧ s.chip.domUp 16 = true ∧ (s.chip.port x).lossRun = true ∧ s.chip.serving x = false ∧
            s.chip.on FLU_PORT_STAT.LOST x = false ∧ s.chip.definedRings.filter (fun r => decide (s.chip.owner r = x.val)
          && (decide (s.chip.ringState r = rsRUNNING) || decide (s.chip.ringState r = rsPAUSED))) = [r] ∧ s.chip.NoAdmission r
              ∧ s.chip.on FLU_RING_CFG.ALT_OK r = true ∧ s.chip.linkUp (1 - x) = true))
    ∧ (∃ (s : State) (x : PortId) (r : Nat),
        (s.Still ∧ s.chip.domUp 16 = true ∧ (s.chip.port x).lossRun = true ∧ s.chip.serving x = false ∧
            s.chip.on FLU_PORT_STAT.LOST x = false ∧ s.chip.definedRings.filter (fun r => decide (s.chip.owner r = x.val)
          && (decide (s.chip.ringState r = rsRUNNING) || decide (s.chip.ringState r = rsPAUSED))) = [r] ∧ s.chip.NoAdmission r
              ∧ (s.chip.on FLU_RING_CFG.ALT_OK r = false ∨ s.chip.linkUp (1 - x) = false)))
    ∧ (∃ (s : State) (x : PortId),
        (s.Still ∧ s.chip.domUp 16 = true ∧ (s.chip.port x).lossRun = true ∧ s.chip.serving x = false ∧
            s.chip.on FLU_PORT_STAT.LOST x = false ∧ s.chip.definedRings.filter (fun r => decide (s.chip.owner r = x.val)
          && (decide (s.chip.ringState r = rsRUNNING) || decide (s.chip.ringState r = rsPAUSED))) = []))
    ∧ (∃ (s : State) (x : PortId),
        (s.Still ∧ s.chip.domUp 16 = true ∧ s.chip.on FLU_PORT_STAT.LOST x = true ∧ s.chip.serving x = true)) :=
  ⟨⟨(ch (puts (ringUp 3 (fun x => {x with fetching := 2})) [(FLU_RING_CFG.OWNER,3,1), (FLU_RING_STAT.OWNER_NOW,3,1),
      (FLU_RING_STAT.STATE,3,2), (FLU_RING_CFG.ALT_OK,3,1)]) (fun c => c.setPort 1 {c.port 1 with lossRun := true}) : State),
          (1 : PortId), (3 : Nat), by decide +kernel⟩,
   ⟨(ch (puts (ringUp 3 (fun x => {x with fetching := 2})) [(FLU_RING_STAT.OWNER_NOW,3,1)]) (fun c => c.setPort 1 {c.port 1 with lossRun := true}) : State), (1 : PortId), (3 : Nat), by decide +kernel⟩,
   ⟨(ch up (fun c => c.setPort 1 {c.port 1 with lossRun := true}) : State), (1 : PortId), by decide +kernel⟩,
   ⟨(puts (ringUp 3 (fun x => x)) [(FLU_PORT_STAT.LOST,0,1)] : State), (0 : PortId), by decide +kernel⟩⟩

theorem witness_stackTable :
    (∃ (s : State) (p : Path) (handle : Nat) (gen : Nat) (second : Bool),
        (s.Takes p blkFLU (s.chip.domUp 16) ∧ s.chip.on FLU_STACK_ACT.VALID (handle % 4096) = true ∧
            s.chip.on FLU_STACK_ACT.MIRROR (handle % 4096) = true ∧ s.chip.on (staleFld second) (handle % 4096) = true ∧
                s.chip.live (s.chip.get (legSlotFld second) (handle % 4096)) = true ∧
                    s.chip.get FLU_STACK_MARK.WR_INFL (handle % 4096) = 0 ∧
                        s.chip.get FLU_STACK_MARK.GEN (handle % 4096) = gen % 256 ∧ s.chip.get FLU_STACK_STAT.RB_STATE 0 = 0))
    ∧ (∃ (s : State) (p : Path) (handle : Nat) (_gen : Nat) (second : Bool),
        (s.Takes p blkFLU (s.chip.domUp 16) ∧ s.chip.on FLU_STACK_ACT.VALID (handle % 4096) = true ∧
            s.chip.on FLU_STACK_ACT.MIRROR (handle % 4096) = true ∧ s.chip.on (staleFld second) (handle % 4096) = false))
    ∧ (∃ (s : State) (p : Path),
        (s.Takes p blkFLU (s.chip.domUp 16) ∧ s.chip.get FLU_STACK_STAT.RB_STATE 0 = 0))
    ∧ (∃ (s : State) (p : Path),
        (s.Takes p blkFLU (s.chip.domUp 16) ∧ s.chip.get FLU_STACK_STAT.RB_STATE 0 ≠ 0))
    ∧ (∃ (s : State) (h : Nat) (u0 : Bool) (u1 : Bool),
        (s.Still ∧ s.chip.domUp 16 = true ∧ s.chip.routes = [h] ∧ s.chip.get FLU_STACK_STAT.RB_STATE 0 = 1 ∧
            s.chip.on FLU_STACK_SHD.VALID h = true ∧ s.chip.on FLU_STACK_SHD.MIRROR h = true ∧
                u0 = (s.chip.live (s.chip.get FLU_STACK_SHD.LEG0_SLOT h) && !s.chip.on FLU_STACK_MARK.STALE0 h) ∧
                    u1 = (s.chip.live (s.chip.get FLU_STACK_SHD.LEG1_SLOT h) && !s.chip.on FLU_STACK_MARK.STALE1 h)))
    ∧ (∃ (s : State) (h : Nat),
        (s.Still ∧ s.chip.domUp 16 = true ∧ s.chip.routes = [h] ∧ s.chip.get FLU_STACK_STAT.RB_STATE 0 = 2 ∧
            s.chip.on FLU_STACK_ACT.MOVING h = false ∧ s.chip.on FLU_STACK_SHD.MOVING h = false ∧ (∀ e ∈ s.chip.entries,
                e.held = false)))
    ∧ (∃ (s : State) (h : Nat),
        (s.Still ∧ s.chip.domUp 16 = true ∧ s.chip.routes = [h] ∧ s.chip.get FLU_STACK_STAT.RB_STATE 0 = 3))
    ∧ (∃ (s : State) (h : Nat) (_elapsed : Nat),
        (s.Still ∧ s.chip.domUp 16 = true ∧ s.chip.stack.moving = [h] ∧ (∀ e ∈ s.chip.rings, e.2.stalled = false)))
    ∧ (∃ (s : State) (h : Nat) (_elapsed : Nat) (r : Nat),
        (s.Still ∧ s.chip.domUp 16 = true ∧ s.chip.stack.moving = [h] ∧
            (s.chip.rings.filter (fun e => e.2.stalled)).map Prod.fst = [r]))
    ∧ (∃ (s : State) (d : DevId) (_mask : Nat),
        (s.Still ∧ s.chip.domUp 16 = true ∧ s.chip.Hears d ∧ s.chip.orphan = false ∧
            s.chip.on DRG_KZ_STAT.KEYED (s.chip.kzFor d) = true ∧ s.chip.peerOk d = true)) :=
  ⟨⟨(puts up [(FLU_STACK_ACT.VALID,9,1),(FLU_STACK_ACT.MIRROR,9,1),(FLU_STACK_ACT.LEG1_SLOT,9,5),(FLU_STACK_MARK.STALE1,9,1),(FLU_STACK_MARK.GEN,9,3),(HTH_SLOT_STAT.STATE,5,0)] : State), (.portA : Path), (9 : Nat), (3 : Nat), (true : Bool), by decide +kernel⟩,
   ⟨(puts up [(FLU_STACK_ACT.VALID,9,1),(FLU_STACK_ACT.MIRROR,9,1)] : State), (.portA : Path), (9 : Nat), (3 : Nat),
       (true : Bool), by decide +kernel⟩,
   ⟨(up : State), (.portA : Path), by decide +kernel⟩,
   ⟨(puts up [(FLU_STACK_STAT.RB_STATE,0,2)] : State), (.portA : Path), by decide +kernel⟩,
   ⟨(puts up [(FLU_STACK_STAT.RB_STATE,0,1),(FLU_STACK_SHD.VALID,9,1),(FLU_STACK_SHD.MIRROR,9,1),(FLU_STACK_SHD.LEG0_SLOT,9,5),(FLU_STACK_SHD.LEG1_SLOT,9,50),(FLU_STACK_SHD.PREF,9,1)] : State), (9 : Nat), (true : Bool), (false : Bool), by decide +kernel⟩,
   ⟨(puts up [(FLU_STACK_STAT.RB_STATE,0,2),(FLU_STACK_SHD.VALID,9,1),(FLU_STACK_SHD.LEG0_SLOT,9,5),(FLU_STACK_ACT.LEG1_SLOT,9,50),(FLU_STACK_SHD.PREF,9,1)] : State), (9 : Nat), by decide +kernel⟩,
   ⟨(puts up [(FLU_STACK_STAT.RB_STATE,0,3),(FLU_STACK_SHD.VALID,9,1),(FLU_STACK_SHD.LEG0_SLOT,9,5),(FLU_STACK_ACT.LEG1_SLOT,9,50),(FLU_STACK_SHD.PREF,9,1)] : State), (9 : Nat), by decide +kernel⟩,
   ⟨(ch (puts up [(FLU_STACK_ACT.MOVING,9,1),(FLU_STACK_SHD.MOVING,9,1)]) (fun c => {c with stack := {c.stack with moving := [9]}}) : State), (9 : Nat), (4 : Nat), by decide +kernel⟩,
   ⟨(ch (puts up [(FLU_STACK_ACT.MOVING,9,1),(FLU_STACK_SHD.MOVING,9,1)]) (fun c => {c with stack := {c.stack with moving := [9]}, rings := [(3,{RingX.init with stalled := true})]}) : State), (9 : Nat), (4 : Nat), (3 : Nat), by decide +kernel⟩,
   ⟨(ch (puts up [(DRG_KZ_STAT.INIT_OK,1,1),(DRG_KZ_STAT.KEYED,1,1)]) (fun c => {c with grp := {c.grp with size := 3}, ash := {c.ash with hbSeen := [2], present := [2]}}) : State), (2 : DevId), (0x30000000F : Nat), by decide +kernel⟩⟩

theorem witness_sessionRekeying :
    (∃ (s : State) (n : SlotId),
        (s.Still ∧ s.chip.domUp 16 = true ∧ s.chip.sessHeld n = true))
    ∧ (∃ (s : State) (n : SlotId),
        (s.Still ∧ s.chip.domUp 16 = true ∧ s.chip.slotState n = stREADY ∧ (s.chip.slot n).wait = none ∧
            (s.chip.slot n).cur = none ∧ (s.chip.sessOf n).cin = none ∧ s.chip.kln.heldSlots.contains n.val = false ∧
                s.chip.on CRD_SESS_STAT.REKEY_DUE n = true ∧ s.chip.on CRD_STAT.DRBG_READY 0 = true ∧
                    (s.chip.sessOf n).rekeyRetry = false ∧ s.chip.get CRD_SESS_STAT.SESS n = ssACTIVE ∧ s.chip.StokerFull))
    ∧ (∃ (s : State) (n : SlotId),
        (s.Still ∧ s.chip.domUp 16 = true ∧ (s.chip.sessOf n).rekeyRetry = true)) :=
  ⟨⟨(put up CRD_SESS_STAT.SESS 5 2 : State), (5 : SlotId), by decide +kernel⟩,
   ⟨(puts (inState up 5 6) [(CRD_SESS_STAT.SESS,5,2),(CRD_SESS_STAT.REKEY_DUE,5,1),(CRD_STAT.DRBG_READY,0,1),(EMB_CFG.CTX_HOST,0,255)] : State), (5 : SlotId), by decide +kernel⟩,
   ⟨(ch up (fun c => c.setSess 5 {c.sessOf 5 with rekeyRetry := true}) : State), (5 : SlotId), by decide +kernel⟩⟩

theorem witness_entropySource :
    (∃ (s : State),
        (s.Still ∧ s.chip.domUp 16 = true))
    ∧ (∃ (s : State),
        (s.Still ∧ s.chip.domUp 16 = true ∧ s.chip.on CRD_STAT.ES_OK 0 = false ∧ s.chip.cord.esTest = false))
    ∧ (∃ (s : State),
        (s.Still ∧ s.chip.domUp 16 = true ∧ s.chip.cord.esTest = true))
    ∧ (∃ (s : State),
        (s.Still ∧ s.chip.domUp 16 = true ∧ s.chip.cord.esTest = true))
    ∧ (∃ (s : State),
        (s.Still ∧ s.chip.domUp 16 = true ∧ s.chip.on CRD_STAT.ES_OK 0 = true))
    ∧ (∃ (s : State),
        (s.Still ∧ s.chip.domUp 16 = true ∧ s.chip.domUp 17 = true ∧ s.chip.ash.tamper = false ∧ (∀ k ∈ List.range 8,
            s.chip.ctxJob k = false) ∧ s.chip.kln.lc = none ∧ s.chip.bscan = false) ∧ s.chip.NoCinder) :=
  ⟨⟨(up : State), by decide +kernel⟩,
   ⟨(up : State), by decide +kernel⟩,
   ⟨(ch up (fun c => {c with cord := {c.cord with esTest := true}}) : State), by decide +kernel⟩,
   ⟨(ch up (fun c => {c with cord := {c.cord with esTest := true}}) : State), by decide +kernel⟩,
   ⟨(put up CRD_STAT.ES_OK 0 1 : State), by decide +kernel⟩,
   ⟨(ch (put up KLN_DBG_STAT.HELD 0 5) (fun c => c.setSess 5 {c.sessOf 5 with cur := some ks0}) : State), by decide +kernel,
       noCinder_of (by decide +kernel)⟩⟩

theorem witness_emberCommands :
    (∃ (s : State) (p : Path) (c : CtxId) (k : Nat) (op : Nat) (l : LibOp),
        (s.Takes p blkEMB (s.chip.domUp 17) ∧ k = c.val ∧ s.chip.HostCtx k ∧ s.chip.ctxFree k = true ∧
            op = s.chip.get EMB_JOB.OP k ∧ op ≠ 3 ∧ s.chip.on EMB_JOB.PAIR k = false ∧ s.chip.arrayFenced = false ∧
                libOp op = some l))
    ∧ (∃ (s : State) (p : Path) (c : CtxId) (k : Nat),
        (s.Takes p blkEMB (s.chip.domUp 17) ∧ k = c.val ∧ s.chip.HostCtx k ∧ s.chip.ctxFree k = true ∧
            s.chip.get EMB_JOB.OP k = 0xFF ∧ s.chip.on EMB_JOB.PAIR k = false ∧ s.chip.arrayFenced = false))
    ∧ (∃ (s : State) (p : Path) (c : CtxId) (k : Nat) (op : Nat),
        (s.Takes p blkEMB (s.chip.domUp 17) ∧ k = c.val ∧ s.chip.HostCtx k ∧ s.chip.ctxFree k = true ∧
            op = s.chip.get EMB_JOB.OP k ∧ s.chip.on EMB_JOB.PAIR k = false ∧ ((op ≠ 0xFF ∧
                libOp op = none) ∨ s.chip.arrayFenced = true) ∧ op ≠ 3 ∧ libOneShot op = false ∧ s.chip.ember.running ≠ some k))
    ∧ (∃ (s : State) (p : Path) (c : CtxId) (k : Nat) (i : Instr),
        (s.Takes p blkEMB (s.chip.domUp 17) ∧ k = c.val ∧ s.chip.ctxHost k = true ∧ ((i = .go p c ∧ s.chip.ctxFree k = false)
          ∨ (i = .abort p c ∧ (s.chip.ctxState k = esIDLE ∨ s.chip.ctxState k = esDONE ∨ s.chip.ctxState k = esFENCED)))))
    ∧ (∃ (s : State) (p : Path) (c : CtxId) (k : Nat),
        (s.Takes p blkEMB (s.chip.domUp 17) ∧ k = c.val ∧ s.chip.ctxHost k = true ∧ s.chip.ctxState k = esRUNNING))
    ∧ (∃ (s : State) (p : Path) (c : CtxId) (k : Nat) (g : ERegions),
        (s.Takes p blkEMB (s.chip.domUp 17) ∧ k = c.val ∧ s.chip.HostCtx k ∧ s.chip.ember.running ≠ some k ∧
            g = s.chip.regionsOf k ∧ (s.chip.ctxState k = esCHECKING ∨ s.chip.ctxState k = esTOKENS ∨ s.chip.ctxState k = esQUEUED
          ∨ s.chip.ctxState k = esSUSPENDED)))
    ∧ (∃ (s : State) (p : Path) (c : CtxId) (k : Nat) (b : Nat),
        (s.Takes p blkEMB (s.chip.domUp 17) ∧ k = c.val ∧ s.chip.domUp 17 = true ∧ s.chip.HostCtx k ∧
            s.chip.ctxState k = esCHECKING ∧ s.chip.listVerdict k (s.listWords k) = .inr b))
    ∧ (∃ (s : State) (p : Path) (c : CtxId) (k : Nat) (rule : Nat) (word : Nat),
        (s.Takes p blkEMB (s.chip.domUp 17) ∧ k = c.val ∧ s.chip.domUp 17 = true ∧ s.chip.HostCtx k ∧
            s.chip.ember.running ≠ some k ∧ s.chip.ctxState k = esCHECKING ∧ s.chip.listVerdict k (s.listWords k) = .inl (rule,
                word)))
    ∧ (∃ (s : State) (p : Path) (c : CtxId) (k : Nat) (i : Instr),
        (s.Takes p blkEMB (s.chip.domUp 17) ∧ k = c.val ∧ s.chip.ctxHost k = false ∧ (i = .go p c ∨ i = .abort p c))) :=
  ⟨⟨(puts (up) [(EMB_JOB.OP,4,1)] : State), (.portA : Path), (4 : CtxId), (4 : Nat), (1 : Nat), (⟨32, 384, 147469, false, 211,
      243⟩ : LibOp), by decide +kernel⟩,
   ⟨(puts (up) [(EMB_JOB.OP,4,255)] : State), (.portA : Path), (4 : CtxId), (4 : Nat), by decide +kernel⟩,
   ⟨(puts (up) [(EMB_JOB.OP,4,7)] : State), (.portA : Path), (4 : CtxId), (4 : Nat), (0x7 : Nat), by decide +kernel⟩,
   ⟨(puts (up) [(EMB_CSTAT.STATE,4,3)] : State), (.portA : Path), (4 : CtxId), (4 : Nat), (.go .portA 4 : Instr),
       by decide +kernel⟩,
   ⟨(puts (up) [(EMB_CSTAT.STATE,4,4)] : State), (.portA : Path), (4 : CtxId), (4 : Nat), by decide +kernel⟩,
   ⟨(puts (up) [(EMB_CSTAT.STATE,4,5), (EMB_DST.BASE,4,3), (EMB_DST.LEN,4,4), (EMB_SCR.BASE,4,20), (EMB_SCR.LEN,4,5)] : State),
       (.portA : Path), (4 : CtxId), (4 : Nat), ((puts (up) [(EMB_CSTAT.STATE,4,5), (EMB_DST.BASE,4,3), (EMB_DST.LEN,4,4),
           (EMB_SCR.BASE,4,20), (EMB_SCR.LEN,4,5)]).chip.regionsOf 4 : ERegions), by decide +kernel⟩,
   ⟨(puts (up) [(EMB_CSTAT.STATE,4,1), (EMB_JOB.OP,4,255), (EMB_JOB.LIST_LEN,4,1)] : State), (.portA : Path), (4 : CtxId),
       (4 : Nat), (64 : Nat), by decide +kernel⟩,
   ⟨(puts (up) [(EMB_CSTAT.STATE,4,1), (EMB_JOB.OP,4,255)] : State), (.portA : Path), (4 : CtxId), (4 : Nat), (1 : Nat),
       (0 : Nat), by decide +kernel⟩,
   ⟨(up : State), (.portA : Path), (1 : CtxId), (1 : Nat), (.go .portA 1 : Instr), by decide +kernel⟩⟩

theorem witness_emberArray :
    (∃ (s : State) (k : Nat),
        (s.Still ∧ s.chip.domUp 17 = true ∧ s.chip.ember.running = none ∧ s.chip.arrayFenced = false ∧ s.chip.chosen = some k ∧
            (s.chip.ctx k).started = false))
    ∧ (∃ (s : State) (k : Nat),
        (s.Still ∧ s.chip.domUp 17 = true ∧ s.chip.ember.running = none ∧ s.chip.arrayFenced = false ∧ s.chip.chosen = some k ∧
            (s.chip.ctx k).started = true ∧ s.chip.get EMB_WAIT.SWITCHES k < 255))
    ∧ (∃ (s : State) (k : Nat) (rem : Nat),
        (s.Still ∧ s.chip.domUp 17 = true ∧ s.chip.ember.running = some k ∧
            s.chip.remAfterYield k (s.listWords k) s.opmem = some rem ∧ s.chip.on EMB_CSTAT.ABORT_PEND k = false ∧ (∀ j,
                s.chip.chosen = some j → (s.chip.ctx k).aged ≠ none ∨ ((s.chip.ctx j).aged = none ∧ rem ≤ (s.chip.ctx j).rem))
                    ∧ s.chip.ctxState k = esRUNNING))
    ∧ (∃ (s : State) (k : Nat) (rem : Nat) (j : Nat),
        (s.Still ∧ s.chip.domUp 17 = true ∧ s.chip.ember.running = some k ∧
            s.chip.remAfterYield k (s.listWords k) s.opmem = some rem ∧ s.chip.on EMB_CSTAT.ABORT_PEND k = false ∧
                s.chip.ctxState k = esRUNNING ∧ (s.chip.ctx k).aged = none ∧ s.chip.chosen = some j ∧ (s.chip.ctx j).rem < rem
                    ∧ (s.chip.ctx j).started = false ∧ s.chip.get EMB_WAIT.SWITCHES j < 255))
    ∧ (∃ (s : State) (k : Nat) (g : ERegions) (r : JobEnd) (bytes : List Byte),
        (s.Still ∧ s.chip.domUp 17 = true ∧ s.chip.ember.running = some k ∧ s.chip.HostCtx k ∧
            s.chip.on EMB_CSTAT.ABORT_PEND k = false ∧ r.checkFail = false) ∧ g = s.chip.regionsOf k ∧
                r = s.chip.jobResult k (s.listWords k) s.opmem ∧
                    bytes = (if r.flags = 0 then r.bytes else r.bytes.map (fun _ => 0)))
    ∧ (∃ (s : State) (c : CtxId) (k : Nat),
        (s.Still ∧ s.chip.domUp 17 = true ∧ k = c.val ∧ s.chip.ctxState k = esWIPING ∧ s.chip.HostCtx k ∧
            s.chip.ember.running ≠ some k))
    ∧ (∃ (s : State) (c : CtxId) (k : Nat),
        (s.Still ∧ s.chip.domUp 17 = true ∧ k = c.val ∧ (s.chip.ctxState k = esQUEUED ∨ s.chip.ctxState k = esSUSPENDED) ∧
            (s.chip.ctx k).aged = none)) :=
  ⟨⟨(ch (puts (up) [(EMB_CSTAT.STATE,4,3),
      (EMB_CSTAT.AGED,4,1)]) (fun c => { c with us := 700, dmp := {c.dmp with grants := [⟨.ember 4,5,false⟩]}}) : State),
          (4 : Nat), by decide +kernel⟩,
   ⟨(ch (puts (up) [(EMB_CSTAT.STATE,4,5)]) (fun c => c.setCtx 4 {c.ctx 4 with started := true}) : State), (4 : Nat),
       by decide +kernel⟩,
   ⟨({puts (ch (puts (up) [(EMB_CSTAT.STATE,4,4)]) (fun c => { c with ember := {c.ember with running := some 4} })) [(EMB_JOB.OP,4,255), (EMB_JOB.LIST_LEN,4,3), (EMB_BEATS.BEATS,4,200)] with listmem := [(0x4007,0x4C)]} : State), (4 : Nat), (159 : Nat), by decide +kernel⟩,
   ⟨(ch ({puts (ch (puts (up) [(EMB_CSTAT.STATE,4,4)]) (fun c => { c with ember := {c.ember with running := some 4} })) [(EMB_JOB.OP,4,255), (EMB_JOB.LIST_LEN,4,3), (EMB_BEATS.BEATS,4,200), (EMB_CSTAT.STATE,5,3)] with listmem := [(0x4007,0x4C)]}) (fun c => c.setCtx 5 {c.ctx 5 with rem := 2}) : State), (4 : Nat), (159 : Nat), (5 : Nat), by decide +kernel⟩,
   ⟨(puts (ch (puts (up) [(EMB_CSTAT.STATE,4,4)]) (fun c => { c with ember := {c.ember with running := some 4} })) [(EMB_JOB.OP,4,0xFF), (EMB_DST.LEN,4,2)] : State), (4 : Nat), _, _, _, by decide +kernel, Eq.refl _, Eq.refl _, Eq.refl _⟩,
   ⟨(puts (up) [(EMB_CSTAT.STATE,4,6), (EMB_DST.LEN,4,3)] : State), (4 : CtxId), (4 : Nat), by decide +kernel⟩,
   ⟨(puts (up) [(EMB_CSTAT.STATE,4,5)] : State), (4 : CtxId), (4 : Nat), by decide +kernel⟩⟩

theorem witness_emberFailures :
    (∃ (s : State) (k : Nat) (col : Fin 17),
        (s.Still ∧ s.chip.domUp 17 = true ∧ s.chip.bit EMB_COLMAP.RETIRED 0 col = false ∧
            s.chip.get EMB_STAT.SPARE_COL 0 ≠ col.val ∧ s.chip.ember.running = some k ∧ s.chip.get EMB_STAT.SPARE_COL 0 ≠ 0x1F
                ∧ s.chip.on EMB_CSTAT.RERUN k = false))
    ∧ (∃ (s : State) (c : CtxId) (k : Nat) (g : ERegions),
        (s.Still ∧ s.chip.domUp 17 = true ∧ k = c.val ∧ s.chip.HostCtx k ∧ s.chip.ctxJob k = true ∧ g = s.chip.regionsOf k))
    ∧ (∃ (s : State) (c : CtxId) (k : Nat) (g : ERegions),
        (s.Still ∧ s.chip.domUp 17 = true ∧ k = c.val ∧ s.chip.HostCtx k ∧ s.chip.ctxJob k = true ∧ g = s.chip.regionsOf k ∧
            s.chip.ember.running = some k))
    ∧ (∃ (s : State) (c : CtxId) (k : Nat),
        (s.Still ∧ s.chip.domUp 17 = true ∧ k = c.val))
    ∧ (∃ (s : State) (c : CtxId) (k : Nat) (g : ERegions),
        (s.Still ∧ s.chip.domUp 17 = true ∧ k = c.val ∧ (s.chip.ctx k).isSealed = true ∧ s.chip.ctxJob k = false ∧
            g = s.chip.regionsOf k)) :=
  ⟨⟨(ch (puts (up) [(EMB_CSTAT.STATE,4,4)]) (fun c => { c with ember := {c.ember with running := some 4} }) : State),
      (4 : Nat), (3 : Fin 17), by decide +kernel⟩,
   ⟨(puts (ch (puts (up) [(EMB_CSTAT.STATE,4,4)]) (fun c => { c with ember := {c.ember with running := some 4} })) [(EMB_DST.LEN,4,3)] : State), (4 : CtxId), (4 : Nat), ((puts (ch (puts (up) [(EMB_CSTAT.STATE,4,4)]) (fun c => { c with ember := {c.ember with running := some 4} })) [(EMB_DST.LEN,4,3)]).chip.regionsOf 4 : ERegions), by decide +kernel⟩,
   ⟨(puts (ch (puts (up) [(EMB_CSTAT.STATE,4,4)]) (fun c => { c with ember := {c.ember with running := some 4} })) [(EMB_DST.LEN,4,3)] : State), (4 : CtxId), (4 : Nat), ((puts (ch (puts (up) [(EMB_CSTAT.STATE,4,4)]) (fun c => { c with ember := {c.ember with running := some 4} })) [(EMB_DST.LEN,4,3)]).chip.regionsOf 4 : ERegions), by decide +kernel⟩,
   ⟨(up : State), (4 : CtxId), (4 : Nat), by decide +kernel⟩,
   ⟨(ch up (fun c => c.setCtx 2 {c.ctx 2 with isSealed := true}) : State), (2 : CtxId), (2 : Nat),
       ((ch up (fun c => c.setCtx 2 {c.ctx 2 with isSealed := true})).chip.regionsOf 2 : ERegions), by decide +kernel⟩⟩

theorem witness_bankPowerMonitors :
    (∃ (s : State) (k : Fin 20) (n : SlotId) (m : MonId),
        (s.Still ∧ bankOf n.val = k.val ∧ (m = .vmon n ∨ m = .imon n ∨ m = .iomon n) ∧ s.chip.domUp k = true ∧
            s.chip.on (monStat m mDECIDED) (monIdx m) = false ∧ s.chip.on (monStat m mUNDECIDED) (monIdx m) = false ∧
                (∀ q ∈ domMons k, q = m ∨ s.chip.on (monStat q mDECIDED) (monIdx q) = true)))
    ∧ (∃ (s : State) (k : Fin 20) (b : BankId),
        (s.Still ∧ k.val = b.val ∧ s.chip.seq.powered.contains k.val = true ∧ s.chip.domUp k = false ∧
            s.chip.seqState = sqRUNNING ∧ s.chip.RetryLeft (4 + b) ∧ s.chip.on HTH_BMON_STAT.DECIDED b = false ∧
                s.chip.on HTH_BMON_STAT.UNDECIDED b = false ∧ (∀ q ∈ domMons k,
                    q = .bmon b ∨ s.chip.on (monStat q mDECIDED) (monIdx q) = true)))
    ∧ (∃ (s : State) (k : Fin 20) (r : Fin 5),
        (s.Still ∧ 16 ≤ k.val ∧ s.chip.on DRG_RMON_STAT.DECIDED r = false ∧ s.chip.on DRG_RMON_STAT.UNDECIDED r = false ∧
            (∀ q : Fin 5, q = r ∨ s.chip.on DRG_RMON_STAT.DECIDED q = true)))
    ∧ (∃ (s : State) (b : BankId) (x : Sample),
        (s.Still ∧ s.chip.Says (.bmon b) x (some true) ∧ s.chip.monAlarm (.bmon b) = false ∧
            ¬(monRail (.bmon b) = some s.chip.pmb.bel.rail ∧ s.chip.pmb.bel.phase = .dwell) ∧ s.chip.domUp b = true ∧
                s.chip.SlotsOut b ∧ s.chip.RetryLeft (4 + b) ∧ s.chip.seqState = sqRUNNING ∧ s.chip.pmb.bel.phase = .none)) :=
  ⟨⟨(puts (up) [(HTH_MON_STAT.DECIDED,32,1), (HTH_MON_STAT.DECIDED,33,1), (HTH_MON_STAT.DECIDED,34,1),
      (HTH_MON_STAT.DECIDED,35,1), (HTH_MON_STAT.DECIDED,36,1), (HTH_MON_STAT.DECIDED,38,1), (HTH_MON_STAT.DECIDED,39,1),
          (HTH_MON_STAT.DECIDED,40,1), (HTH_MON_STAT.DECIDED,41,1), (HTH_MON_STAT.DECIDED,42,1), (HTH_MON_STAT.DECIDED,43,1),
              (HTH_MON_STAT.DECIDED,44,1), (HTH_MON_STAT.DECIDED,45,1), (HTH_MON_STAT.DECIDED,46,1),
                  (HTH_MON_STAT.DECIDED,47,1), (HTH_BMON_STAT.DECIDED,2,1)] : State), (2 : Fin 20), (9 : SlotId),
                      (.imon 9 : MonId), by decide +kernel⟩,
   ⟨(ch (puts (puts (up) [(DRG_RAIL_EN.RAIL,0,0xFFFFFF)]) [(DRG_DOM_STAT.UP,0,0xFFFFB), (HTH_MON_STAT.DECIDED,32,1),
       (HTH_MON_STAT.DECIDED,33,1), (HTH_MON_STAT.DECIDED,34,1), (HTH_MON_STAT.DECIDED,35,1), (HTH_MON_STAT.DECIDED,36,1),
           (HTH_MON_STAT.DECIDED,37,1), (HTH_MON_STAT.DECIDED,38,1), (HTH_MON_STAT.DECIDED,39,1), (HTH_MON_STAT.DECIDED,40,1),
               (HTH_MON_STAT.DECIDED,41,1), (HTH_MON_STAT.DECIDED,42,1), (HTH_MON_STAT.DECIDED,43,1),
                   (HTH_MON_STAT.DECIDED,44,1), (HTH_MON_STAT.DECIDED,45,1), (HTH_MON_STAT.DECIDED,46,1),
                       (HTH_MON_STAT.DECIDED,47,1)]) (fun c => {c with seq := {c.seq with powered := [2]}}) : State),
                           (2 : Fin 20), (2 : BankId), by decide +kernel⟩,
   ⟨(puts (up) [(DRG_RMON_STAT.DECIDED,0,1), (DRG_RMON_STAT.DECIDED,1,1), (DRG_RMON_STAT.DECIDED,2,1),
       (DRG_RMON_STAT.DECIDED,4,1)] : State), (17 : Fin 20), (3 : Fin 5), by decide +kernel⟩,
   ⟨(puts (up) [(DRG_RAIL_EN.RAIL,0,0xFFFFFF), (⟨.HTH_BMON_CFG,4⟩,2,1)] : State), (2 : BankId), (⟨0,0⟩ : Sample),
       by decide +kernel⟩⟩

theorem witness_sequencerCommands :
    (∃ (s : State) (p : Path),
        (s.Takes p blkDRG true ∧ s.chip.canDown = true ∧ s.chip.AtRest))
    ∧ (∃ (s : State) (p : Path),
        (s.Takes p blkDRG true ∧ s.chip.seqState = sqWAITSTART))
    ∧ (∃ (s : State) (p : Path),
        (s.Takes p blkDRG true ∧ p = .spi ∧ s.chip.canDown = true ∧ s.chip.AtRest))
    ∧ (∃ (s : State) (p : Path),
        (s.Takes p blkDRG true ∧ s.chip.seqState = sqOFF ∧ s.chip.grp.size = 0))
    ∧ (∃ (s : State) (p : Path),
        (s.Takes p blkDRG true ∧ s.chip.seqState = sqRUNNING))
    ∧ (∃ (s : State) (p : Path) (i : Fin 32),
        (s.Takes p blkDRG true ∧ i.val < 24 ∧ s.chip.railPg i = false ∧ s.chip.inPlan i = true ∧ 1 ≤ s.chip.seqState ∧
            s.chip.seqState ≤ 4 ∧ s.chip.railEn i = false ∧ s.chip.bit DRG_RAIL_FAIL.RAIL 0 i = true))
    ∧ (∃ (s : State) (p : Path) (i : Instr) (k : Fin 32),
        (s.Takes p blkDRG true ∧ ((i = .cold p ∧ p ≠ .spi) ∨ (i = .retry p k ∧ (24 ≤ k.val ∨ s.chip.railPg k = true))))) :=
  ⟨⟨(up : State), (.portA : Path), by decide +kernel⟩,
   ⟨(puts (up) [(DRG_SEQ_STAT.STATE,0,9)] : State), (.portA : Path), by decide +kernel⟩,
   ⟨(up : State), (.spi : Path), by decide +kernel⟩,
   ⟨(puts (up) [(DRG_SEQ_STAT.STATE,0,0), (DRG_SEQ_STAT.UP_PEND,0,0)] : State), (.portA : Path), by decide +kernel⟩,
   ⟨(up : State), (.portA : Path), by decide +kernel⟩,
   ⟨(puts (up) [(HTH_BANK_CFG.BANK_EN,1,1), (DRG_RAIL_PG.RAIL,0,0xFFFFDF), (DRG_RAIL_FAIL.RAIL,0,0x20)] : State),
       (.portA : Path), (5 : Fin 32), by decide +kernel⟩,
   ⟨(up : State), (.portA : Path), (.cold .portA : Instr), (0 : Fin 32), by decide +kernel⟩⟩

theorem witness_powerUp :
    (∃ (s : State),
        (s.Still ∧ s.chip.inDown = false ∧ s.chip.grp.size = 0))
    ∧ (∃ (s : State),
        (s.Still ∧ s.chip.inDown = true ∧ s.chip.on DRG_SEQ_CFG.PG_MAIN_EN 0 = true ∧ s.chip.on DRG_RAIL_PG.MAIN 0 = false))
    ∧ (∃ (s : State),
        (s.Still ∧ s.chip.alone = true ∧ s.chip.seqState = sqOFF ∧ s.chip.on DRG_SEQ_STAT.UP_PEND 0 = true ∧
            s.chip.mainOk = true))
    ∧ (∃ (s : State),
        (s.Still ∧ s.chip.domUp 16 = true))
    ∧ (∃ (s : State) (k : Fin 20) (_calOk : Bool) (_cells : List CellReading),
        (s.Still ∧ (k.val = 18 ∨ k.val = 19) ∧ s.chip.domReady k = true))
    ∧ (∃ (s : State) (_calOk : Bool) (_cells : List CellReading),
        (s.Still ∧ s.chip.domReady 17 = true))
    ∧ (∃ (s : State) (i : RailId),
        (s.Still ∧ ((s.chip.seqState = sqCORE ∧ i.val < 4) ∨ (s.chip.seqState = sqPLAN ∧
            s.chip.seq.planRails.contains i.val = true)) ∧ s.chip.railEn i = false ∧ s.chip.seq.judged.contains i.val = false))
    ∧ (∃ (s : State) (i : RailId),
        (s.Still ∧ (i.val = 3 ∨ 20 ≤ i.val) ∧ s.chip.railEn i = true ∧ s.chip.railPg i = false ∧ s.chip.inDown = false ∧
            s.chip.seqState ≠ sqCORE ∧ s.chip.seqState ≠ sqPLAN ∧ s.chip.seq.retrying.contains i.val = false))
    ∧ (∃ (s : State) (i : RailId),
        (s.Still ∧ s.chip.railPg i = false ∧ s.chip.inDown = false ∧ s.chip.seqState ≠ sqCORE ∧ s.chip.seqState ≠ sqPLAN ∧
            s.chip.RetryLeft i)) :=
  ⟨⟨(up : State), by decide +kernel⟩,
   ⟨(puts (up) [(DRG_SEQ_STAT.STATE,0,5)] : State), by decide +kernel⟩,
   ⟨(puts (up) [(DRG_SEQ_STAT.STATE,0,0), (DRG_RAIL_PG.MAIN,0,1), (DRG_RMON_CFG.LATCH,3,2),
       (DRG_RMON_STAT.LATCHED,3,1)] : State), by decide +kernel⟩,
   ⟨(up : State), by decide +kernel⟩,
   ⟨(puts (up) [(DRG_DOM_STAT.UP,0,0x3FFFF)] : State), (18 : Fin 20), (true : Bool), ([] : List CellReading),
       by decide +kernel⟩,
   ⟨(puts (up) [(DRG_DOM_STAT.UP,0,0x1FFFF)] : State), (true : Bool), ([] : List CellReading), by decide +kernel⟩,
   ⟨(puts (State.reset) [(DRG_SEQ_STAT.STATE,0,1)] : State), (1 : RailId), by decide +kernel⟩,
   ⟨(puts (puts (up) [(DRG_RAIL_EN.RAIL,0,0xFFFFFF)]) [(DRG_RAIL_PG.RAIL,0,0xDFFFFF),
       (DRG_RAIL_FAIL.RAIL,0,0x200000)] : State), (21 : RailId), by decide +kernel⟩,
   ⟨(puts (puts (up) [(DRG_RAIL_EN.RAIL,0,0xFFFFFF)]) [(DRG_RAIL_PG.RAIL,0,0xFFFFDF)] : State), (5 : RailId),
       by decide +kernel⟩⟩

theorem witness_powerDown :
    (∃ (s : State),
        (s.Still ∧ s.chip.on DRG_RAIL_PG.MAIN 0 = true ∧ s.chip.on DRG_SEQ_CFG.PG_MAIN_EN 0 = true ∧ s.chip.canDown = true ∧
            s.chip.AtRest))
    ∧ (∃ (s : State),
        (s.Still ∧ s.chip.seqState = sqQUIESCE ∧ (∀ b ∈ List.range 16, s.chip.domUp b = false)))
    ∧ (∃ (s : State) (b : BankId),
        (s.Still ∧ s.chip.seqState = sqQUIESCE ∧ s.chip.domUp b = true ∧ (∀ k ∈ List.range 16,
            k = b.val ∨ s.chip.domUp k = false) ∧ s.chip.SlotsOut b))
    ∧ (∃ (s : State),
        (s.Still ∧ s.chip.seqState = sqRAILSOFF ∧ s.chip.seq.coreOff = false ∧ (∀ k ∈ ([16, 17, 18, 19] : List Nat),
            s.chip.domUp k = false) ∧ s.chip.get DRG_RAIL_EN.RAIL 0 ≠ 0))
    ∧ (∃ (s : State),
        (s.Still ∧ s.chip.seqState = sqTOFFWAIT ∧ s.chip.on DRG_SEQ_STAT.COLD_PEND 0 = false ∧ s.chip.seq.reducedNext = false ∧
            s.chip.grp.size = 0))
    ∧ (∃ (s : State),
        (s.Still ∧ s.chip.seqState = sqTOFFWAIT ∧ s.chip.on DRG_SEQ_STAT.COLD_PEND 0 = false ∧ s.chip.seq.reducedNext = true))
    ∧ (∃ (s : State) (i : RailId),
        (s.Still ∧ 20 ≤ i.val ∧ s.chip.railPg i = true ∧ s.chip.seqState = sqRUNNING ∧ s.chip.RetryLeft i ∧
            s.chip.pmb.bel.phase = .none))
    ∧ (∃ (s : State) (i : RailId) (b : BankId),
        (s.Still ∧ i.val = 4 + b.val ∧ s.chip.railPg i = true ∧ s.chip.seqState = sqRUNNING ∧ s.chip.RetryLeft i ∧
            s.chip.pmb.bel.phase = .none ∧ s.chip.domUp b = true ∧ s.chip.SlotsOut b))
    ∧ (∃ (s : State) (i : RailId),
        (s.Still ∧ s.chip.seqState = sqRAILSOFF ∧ (4 ≤ i.val ∨ s.chip.seq.coreOff = true) ∧ s.chip.railEn i = true ∧
            (s.chip.seq.coreOff = false ∨ s.chip.withBit DRG_RAIL_EN.RAIL 0 i false ≠ 0)))
    ∧ (∃ (s : State) (i : RailId),
        (s.Still ∧ s.chip.seqState = sqRAILSOFF ∧ s.chip.seq.coreOff = true ∧ s.chip.railEn i = true ∧
            s.chip.withBit DRG_RAIL_EN.RAIL 0 i false = 0))
    ∧ (∃ (s : State) (i : RailId),
        (s.Still ∧ s.chip.railEn i = false))
    ∧ (∃ (s : State) (i : RailId),
        (s.Still ∧ s.chip.railEn i = false))
    ∧ (∃ (s : State) (i : RailId),
        (s.Still ∧ s.chip.seq.retryWait.contains i.val = true ∧ s.chip.railEn i = false ∧ 1 ≤ s.chip.seqState ∧
            s.chip.seqState ≤ 4)) :=
  ⟨⟨(puts (up) [(DRG_RAIL_PG.MAIN,0,1)] : State), by decide +kernel⟩,
   ⟨(puts (up) [(DRG_SEQ_STAT.STATE,0,5), (DRG_DOM_STAT.UP,0,0xF0000)] : State), by decide +kernel⟩,
   ⟨(puts (up) [(DRG_SEQ_STAT.STATE,0,5), (DRG_DOM_STAT.UP,0,0xF0001)] : State), (0 : BankId), by decide +kernel⟩,
   ⟨(puts (up) [(DRG_SEQ_STAT.STATE,0,6), (DRG_DOM_STAT.UP,0,0), (DRG_RAIL_EN.RAIL,0,3)] : State), by decide +kernel⟩,
   ⟨(puts (up) [(DRG_SEQ_STAT.STATE,0,7)] : State), by decide +kernel⟩,
   ⟨(ch (puts (up) [(DRG_SEQ_STAT.STATE,0,7)]) (fun c => {c with seq := {c.seq with reducedNext := true}}) : State),
       by decide +kernel⟩,
   ⟨(puts (up) [(DRG_RAIL_EN.RAIL,0,0xFFFFFF)] : State), (21 : RailId), by decide +kernel⟩,
   ⟨(puts (up) [(DRG_RAIL_EN.RAIL,0,0xFFFFFF)] : State), (7 : RailId), (3 : BankId), by decide +kernel⟩,
   ⟨(puts (up) [(DRG_SEQ_STAT.STATE,0,6), (DRG_RAIL_EN.RAIL,0,0x83)] : State), (7 : RailId), by decide +kernel⟩,
   ⟨(ch (puts (up) [(DRG_SEQ_STAT.STATE,0,6),
       (DRG_RAIL_EN.RAIL,0,1)]) (fun c => {c with seq := {c.seq with coreOff := true}}) : State), (0 : RailId),
           by decide +kernel⟩,
   ⟨(up : State), (5 : RailId), by decide +kernel⟩,
   ⟨(up : State), (5 : RailId), by decide +kernel⟩,
   ⟨(ch (up) (fun c => {c with seq := {c.seq with retryWait := [5]}}) : State), (5 : RailId), by decide +kernel⟩⟩

theorem witness_pmbusAndBellows :
    (∃ (s : State),
        (s.Still ∧ s.chip.seq.linkLock = true))
    ∧ (∃ (s : State),
        (s.Still ∧ s.chip.pmb.bel.phase = .setting))
    ∧ (∃ (s : State) (_vout : Nat),
        (s.Still ∧ s.chip.pmb.bel.phase = .dwell))
    ∧ (∃ (s : State),
        (s.Still ∧ s.chip.pmb.bel.phase = .restoring))
    ∧ (∃ (s : State) (j : RailId) (t : PmbTx) (rest : List PmbTx) (res : PmbResult) (data : List Byte),
        (s.Still ∧ s.chip.pmb.txs = t :: rest ∧ t.entry = j.val ∧ s.chip.pmbAnswer t res = some data ∧ t.cmd = 0x79 ∧
            leNat data - (if (leNat data).testBit 7 = true then 128 else 0) = 0))
    ∧ (∃ (s : State) (j : RailId) (t : PmbTx) (rest : List PmbTx) (res : PmbResult) (data : List Byte),
        (s.Still ∧ s.chip.pmb.txs = t :: rest ∧ t.entry = j.val ∧ s.chip.pmbAnswer t res = some data ∧ t.cmd = 0x79 ∧
            leNat data - (if (leNat data).testBit 7 = true then 128 else 0) ≠ 0))
    ∧ (∃ (s : State) (j : RailId) (t : PmbTx) (rest : List PmbTx) (res : PmbResult) (data : List Byte),
        (s.Still ∧ s.chip.pmb.txs = t :: rest ∧ t.entry = j.val ∧ s.chip.pmbAnswer t res = some data ∧ t.cmd = 0x20))
    ∧ (∃ (s : State) (j : RailId) (t : PmbTx) (rest : List PmbTx) (res : PmbResult) (data : List Byte),
        (s.Still ∧ s.chip.pmb.txs = t :: rest ∧ t.entry = j.val ∧ s.chip.pmbAnswer t res = some data ∧ t.cmd ≠ 0x79 ∧
            t.cmd ≠ 0x20 ∧ (t.cmd ≠ 0x21 ∨ t.read ≠ 2 ∨ s.chip.pmb.bel.phase ≠ .reading)))
    ∧ (∃ (s : State) (j : RailId) (t : PmbTx) (rest : List PmbTx) (res : PmbResult) (data : List Byte) (num : Nat) (den : Nat) (target : Nat),
        (s.Still ∧ s.chip.pmb.txs = t :: rest ∧ t.entry = j.val ∧ s.chip.pmbAnswer t res = some data ∧ t.cmd = 0x21 ∧ t.read = 2
            ∧ s.chip.pmb.bel.phase = .reading ∧
                target = marginTarget (leNat data) (s.chip.get DRG_PMB_MAP.MARGIN s.chip.pmb.bel.entry) s.chip.pmb.bel.dir ∧
                    voutMv (tabGet 0 s.chip.pmb.modes s.chip.pmb.bel.entry) target = some (num, den) ∧
                        s.chip.insideRail s.chip.pmb.bel.rail num den = true))
    ∧ (∃ (s : State) (j : RailId) (t : PmbTx) (rest : List PmbTx) (res : PmbResult) (data : List Byte) (target : Nat),
        (s.Still ∧ s.chip.pmb.txs = t :: rest ∧ t.entry = j.val ∧ s.chip.pmbAnswer t res = some data ∧ t.cmd = 0x21 ∧ t.read = 2
            ∧ s.chip.pmb.bel.phase = .reading ∧
                target = marginTarget (leNat data) (s.chip.get DRG_PMB_MAP.MARGIN s.chip.pmb.bel.entry) s.chip.pmb.bel.dir ∧
                    voutMv (tabGet 0 s.chip.pmb.modes s.chip.pmb.bel.entry) target = none))
    ∧ (∃ (s : State) (j : RailId) (t : PmbTx) (rest : List PmbTx) (res : PmbResult) (data : List Byte) (num : Nat) (den : Nat),
        (s.Still ∧ s.chip.pmb.txs = t :: rest ∧ t.entry = j.val ∧ s.chip.pmbAnswer t res = some data ∧ t.cmd = 0x21 ∧ t.read = 2
            ∧ s.chip.pmb.bel.phase = .reading ∧ voutMv (tabGet 0 s.chip.pmb.modes s.chip.pmb.bel.entry)
        (marginTarget (leNat data) (s.chip.get DRG_PMB_MAP.MARGIN s.chip.pmb.bel.entry) s.chip.pmb.bel.dir) = some (num, den) ∧
            s.chip.insideRail s.chip.pmb.bel.rail num den = false))
    ∧ (∃ (s : State) (j : RailId) (t : PmbTx) (rest : List PmbTx) (res : PmbResult),
        (s.Still ∧ s.chip.pmb.txs = t :: rest ∧ t.entry = j.val ∧ s.chip.pmbAnswer t res = none ∧ s.chip.pmb.fails < 3))
    ∧ (∃ (s : State) (j : RailId) (t : PmbTx) (rest : List PmbTx) (res : PmbResult) (undo : Option Nat),
        (s.Still ∧ s.chip.pmb.txs = t :: rest ∧ t.entry = j.val ∧ s.chip.pmbAnswer t res = none ∧ 3 ≤ s.chip.pmb.fails ∧
            (s.chip.pmb.bel.phase = .none ∨ s.chip.pmb.bel.entry ≠ j.val) ∧
                undo = (s.chip.pmb.txs.filterMap (fun t => if t.entry = j.val then t.undo else none)).head?))
    ∧ (∃ (s : State) (p : Path) (dir : Nat) (entry : Nat) (dwell : Nat) (rail : Nat),
        (s.Takes p blkDRG true ∧ dir < 4 ∧ entry < 24 ∧ dwell < 65536 ∧ s.chip.bellowsReason dir entry = 0 ∧
            rail = s.chip.get DRG_PMB_MAP.RAIL entry))
    ∧ (∃ (s : State) (p : Path) (dir : Nat) (entry : Nat) (_dwell : Nat) (reason : Nat),
        (s.Takes p blkDRG true ∧ dir < 4 ∧ entry < 32 ∧ reason = s.chip.bellowsReason dir entry ∧ reason ≠ 0))
    ∧ (∃ (s : State) (p : Path) (j : Nat),
        (s.Takes p blkDRG true ∧ s.chip.pmb.bel.phase ≠ .none ∧ s.chip.pmb.bel.phase ≠ .reading ∧ j = s.chip.pmb.bel.entry))
    ∧ (∃ (s : State) (p : Path),
        (s.Takes p blkDRG true ∧ s.chip.pmb.bel.phase = .reading)) :=
  ⟨⟨(puts (up) [(DRG_PMB_MAP.VALID,3,1), (DRG_PMB_MAP.ADDR,3,0x22), (DRG_PMB_MAP.PAGE,3,2), (DRG_PMB_MAP.VALID,7,1)] : State),
      by decide +kernel⟩,
   ⟨(ch (up) (fun c => { c with pmb := {c.pmb with bel := ⟨.setting, 4, 5, 20, 1⟩, txs := [pmbPut 4 0x26 [1,2], pmbPut 3 0x01 [0x80]]} }) : State), by decide +kernel⟩,
   ⟨(ch (puts (up) [(DRG_PMB_MAP.VALID,4,1), (DRG_PMB_MAP.MARGIN_OK,4,1), (DRG_PMB_MAP.RAIL,4,5), (DRG_PMB_MAP.ADDR,4,0x21),
       (DRG_PMB_MAP.PAGE,4,0xFF)]) (fun c => { c with pmb := {c.pmb with bel := ⟨.dwell, 4, 5, 20, 1⟩, txs := []} }) : State),
           (77 : Nat), by decide +kernel⟩,
   ⟨(ch (up) (fun c => { c with pmb := {c.pmb with bel := ⟨.restoring, 4, 5, 20, 1⟩, txs := []} }) : State), by decide +kernel⟩,
   ⟨(ch (puts (up) [(DRG_PMB_MAP.VALID,3,1), (DRG_PMB_MAP.ADDR,3,0x22), (DRG_PMB_MAP.PAGE,3,2), (DRG_PMB_MAP.VALID,4,1),
       (DRG_PMB_MAP.MARGIN_OK,4,1), (DRG_PMB_MAP.RAIL,4,5), (DRG_PMB_MAP.ADDR,4,0x21), (DRG_PMB_MAP.PAGE,4,0xFF),
           (DRG_PMB_STAT.ENTRY,0,16)]) (fun c => { c with pmb := {c.pmb with txs := [pmbGet 4 0x79 2, pmbGet 3 0x79 2], fails := 0} }) : State), (4 : RailId), (pmbGet 4 0x79 2 : PmbTx), ([pmbGet 3 0x79 2] : List PmbTx), (.ack [128,0,21] : PmbResult), ([128,0] : List Byte), by decide +kernel⟩,
   ⟨(ch (puts (up) [(DRG_PMB_MAP.VALID,4,1), (DRG_PMB_MAP.MARGIN_OK,4,1), (DRG_PMB_MAP.RAIL,4,5), (DRG_PMB_MAP.ADDR,4,0x21),
       (DRG_PMB_MAP.PAGE,4,0xFF)]) (fun c => { c with pmb := {c.pmb with txs := [pmbGet 4 0x79 2], fails := 2} }) : State),
           (4 : RailId), (pmbGet 4 0x79 2 : PmbTx), ([] : List PmbTx), (.ack [8,0,11] : PmbResult), ([8,0] : List Byte),
               by decide +kernel⟩,
   ⟨(ch (puts (up) [(DRG_PMB_MAP.VALID,4,1), (DRG_PMB_MAP.MARGIN_OK,4,1), (DRG_PMB_MAP.RAIL,4,5), (DRG_PMB_MAP.ADDR,4,0x21),
       (DRG_PMB_MAP.PAGE,4,0xFF)]) (fun c => { c with pmb := {c.pmb with txs := [pmbGet 4 0x20 1], fails := 0} }) : State),
           (4 : RailId), (pmbGet 4 0x20 1 : PmbTx), ([] : List PmbTx), (.ack [0x17,245] : PmbResult), ([0x17] : List Byte),
               by decide +kernel⟩,
   ⟨(ch (puts (up) [(DRG_PMB_MAP.VALID,3,1), (DRG_PMB_MAP.ADDR,3,0x22), (DRG_PMB_MAP.PAGE,3,2), (DRG_PMB_MAP.VALID,4,1),
       (DRG_PMB_MAP.MARGIN_OK,4,1), (DRG_PMB_MAP.RAIL,4,5), (DRG_PMB_MAP.ADDR,4,0x21),
           (DRG_PMB_MAP.PAGE,4,0xFF)]) (fun c => { c with pmb := {c.pmb with txs := [pmbPut 4 0x01 [0x80], pmbGet 3 0x79 2], fails := 0} }) : State), (4 : RailId), (pmbPut 4 0x01 [0x80] : PmbTx), ([pmbGet 3 0x79 2] : List PmbTx), (.ack [] : PmbResult), ([] : List Byte), by decide +kernel⟩,
   ⟨(ch (puts (up) [(DRG_PMB_MAP.VALID,3,1), (DRG_PMB_MAP.ADDR,3,0x22), (DRG_PMB_MAP.PAGE,3,2), (DRG_PMB_MAP.VALID,4,1),
       (DRG_PMB_MAP.MARGIN_OK,4,1), (DRG_PMB_MAP.RAIL,4,5), (DRG_PMB_MAP.ADDR,4,0x21),
           (DRG_PMB_MAP.PAGE,4,0xFF)]) (fun c => { c with pmb := {c.pmb with bel := ⟨.reading, 4, 21, 20, 2⟩, txs := [pmbGet 4 0x21 2, pmbGet 3 0x79 2]} }) : State), (4 : RailId), (pmbGet 4 0x21 2 : PmbTx), ([pmbGet 3 0x79 2] : List PmbTx), (.ack [0,4,243] : PmbResult), ([0,4] : List Byte), (1024000 : Nat), (1 : Nat), (1024 : Nat), by decide +kernel⟩,
   ⟨(ch (ch (puts (up) [(DRG_PMB_MAP.VALID,3,1), (DRG_PMB_MAP.ADDR,3,0x22), (DRG_PMB_MAP.PAGE,3,2), (DRG_PMB_MAP.VALID,4,1),
       (DRG_PMB_MAP.MARGIN_OK,4,1), (DRG_PMB_MAP.RAIL,4,5), (DRG_PMB_MAP.ADDR,4,0x21),
           (DRG_PMB_MAP.PAGE,4,0xFF)]) (fun c => { c with pmb := {c.pmb with bel := ⟨.reading, 4, 5, 20, 2⟩, txs := [pmbGet 4 0x21 2, pmbGet 3 0x79 2]} })) (fun c => {c with pmb := {c.pmb with modes := [(4,0x20)]}}) : State), (4 : RailId), (pmbGet 4 0x21 2 : PmbTx), ([pmbGet 3 0x79 2] : List PmbTx), (.ack [0,4,243] : PmbResult), ([0,4] : List Byte), (1024 : Nat), by decide +kernel⟩,
   ⟨(ch (puts (up) [(DRG_PMB_MAP.VALID,4,1), (DRG_PMB_MAP.MARGIN_OK,4,1), (DRG_PMB_MAP.RAIL,4,5), (DRG_PMB_MAP.ADDR,4,0x21),
       (DRG_PMB_MAP.PAGE,4,0xFF)]) (fun c => { c with pmb := {c.pmb with bel := ⟨.reading, 4, 5, 20, 2⟩, txs := [pmbGet 4 0x21 2]} }) : State), (4 : RailId), (pmbGet 4 0x21 2 : PmbTx), ([] : List PmbTx), (.ack [0,4,243] : PmbResult), ([0,4] : List Byte), (1024000 : Nat), (1 : Nat), by decide +kernel⟩,
   ⟨(ch (puts (up) [(DRG_PMB_MAP.VALID,3,1), (DRG_PMB_MAP.ADDR,3,0x22), (DRG_PMB_MAP.PAGE,3,2), (DRG_PMB_MAP.VALID,4,1),
       (DRG_PMB_MAP.MARGIN_OK,4,1), (DRG_PMB_MAP.RAIL,4,5), (DRG_PMB_MAP.ADDR,4,0x21),
           (DRG_PMB_MAP.PAGE,4,0xFF)]) (fun c => { c with pmb := {c.pmb with txs := [pmbPut 4 0x01 [0x80], pmbGet 3 0x79 2], fails := 2} }) : State), (4 : RailId), (pmbPut 4 0x01 [0x80] : PmbTx), ([pmbGet 3 0x79 2] : List PmbTx), (.nack : PmbResult), by decide +kernel⟩,
   ⟨(ch (puts (up) [(DRG_PMB_MAP.VALID,3,1), (DRG_PMB_MAP.ADDR,3,0x22), (DRG_PMB_MAP.PAGE,3,2), (DRG_PMB_MAP.VALID,4,1),
       (DRG_PMB_MAP.MARGIN_OK,4,1), (DRG_PMB_MAP.RAIL,4,5), (DRG_PMB_MAP.ADDR,4,0x21),
           (DRG_PMB_MAP.PAGE,4,0xFF)]) (fun c => { c with pmb := {c.pmb with txs := [pmbPut 4 0x01 [0x80], pmbGet 4 0x79 2, pmbGet 3 0x79 2], fails := 3} }) : State), (4 : RailId), (pmbPut 4 0x01 [0x80] : PmbTx), ([pmbGet 4 0x79 2, pmbGet 3 0x79 2] : List PmbTx), (.nack : PmbResult), (none : Option Nat), by decide +kernel⟩,
   ⟨(puts (up) [(DRG_PMB_MAP.VALID,4,1), (DRG_PMB_MAP.MARGIN_OK,4,1), (DRG_PMB_MAP.RAIL,4,5), (DRG_PMB_MAP.ADDR,4,0x21),
       (DRG_PMB_MAP.PAGE,4,0xFF), (KLN_LC_WORD.VALUE,0,0xFF)] : State), (.portA : Path), (1 : Nat), (4 : Nat), (20 : Nat),
           (5 : Nat), by decide +kernel⟩,
   ⟨(up : State), (.portA : Path), (1 : Nat), (4 : Nat), (20 : Nat), (1 : Nat), by decide +kernel⟩,
   ⟨(ch (puts (up) [(DRG_PMB_MAP.VALID,4,1), (DRG_PMB_MAP.MARGIN_OK,4,1), (DRG_PMB_MAP.RAIL,4,5), (DRG_PMB_MAP.ADDR,4,0x21),
       (DRG_PMB_MAP.PAGE,4,0xFF)]) (fun c => { c with pmb := {c.pmb with bel := ⟨.dwell, 4, 5, 20, 1⟩, txs := []} }) : State),
           (.portA : Path), (4 : Nat), by decide +kernel⟩,
   ⟨(ch (puts (up) [(DRG_PMB_MAP.VALID,4,1), (DRG_PMB_MAP.MARGIN_OK,4,1), (DRG_PMB_MAP.RAIL,4,5), (DRG_PMB_MAP.ADDR,4,0x21),
       (DRG_PMB_MAP.PAGE,4,0xFF)]) (fun c => { c with pmb := {c.pmb with bel := ⟨.reading, 4, 5, 20, 1⟩, txs := [pmbGet 4 0x20 1, pmbGet 4 0x21 2]} }) : State), (.portA : Path), by decide +kernel⟩⟩

theorem witness_groupFramesOut :
    (∃ (s : State) (k : Nat),
        (s.Still ∧ s.chip.Pair k .seq ∧ (s.chip.seqState = sqOFF ∨ s.chip.seqState = sqWAITSTART)))
    ∧ (∃ (s : State) (k : Nat) (st : Nat),
        (s.Still ∧ s.chip.Pair k .seq ∧ s.chip.orphan = false ∧ s.chip.get DRG_GRP_STAT.SUP_DEV 0 ≠ s.chip.grp.dev ∧ ((st = 1 ∧
            s.chip.seqState = sqWAITSTART) ∨ (st = 2 ∧ s.chip.seqState = sqWAITIMAGE ∧ s.chip.kln.baseOn = true))))
    ∧ (∃ (s : State) (k : Nat),
        (s.Still ∧ s.chip.Pair k .seq ∧ s.chip.isSup = true ∧ s.chip.grp.stage1Sent = false ∧ s.chip.seqState = sqWAITSTART))
    ∧ (∃ (s : State) (k : Nat) (m : Nat),
        (s.Still ∧ s.chip.Pair k .seq ∧ s.chip.isSup = true ∧ s.chip.grp.stage1Sent = true ∧ s.chip.grp.stage2Sent = false ∧
            s.chip.grp.strobeDue = false ∧
                m = (((List.range 4).filter (fun d => s.chip.grp.named.testBit d)).filter (fun d => s.chip.grp.ready.contains d)).foldl (fun m d => m ||| 2 ^ d) 0))
    ∧ (∃ (s : State) (k : Nat),
        (s.Still ∧ s.chip.Pair k .fault))
    ∧ (∃ (s : State) (k : Nat),
        (s.Still ∧ s.chip.Pair k .fault))
    ∧ (∃ (s : State),
        (s.Still ∧ s.chip.isSup = true ∧ s.chip.grp.strobeDue = true ∧ s.chip.grp.startMask.testBit s.chip.grp.dev = false ∧
            s.chip.grp.joins = []))
    ∧ (∃ (s : State),
        (s.Still ∧ s.chip.isSup = true ∧ s.chip.grp.strobeDue = true ∧ s.chip.grp.startStage = 1 ∧ s.chip.grp.startJoin = false
            ∧ s.chip.grp.startMask.testBit s.chip.grp.dev = true ∧ s.chip.seqState = sqWAITSTART ∧
                s.chip.on DRG_SEQ_STAT.UP_PEND 0 = true ∧ s.chip.mainOk = true ∧ s.chip.grp.joins = [])) :=
  ⟨⟨(ch (puts (up) [(DRG_KZ_STAT.INIT_OK,0,1), (DRG_KZ_STAT.INIT_OK,2,1),
      (DRG_SEQ_STAT.STATE,0,9)]) (fun c => { c with grp := { c.grp with dev := 0, size := 1  }, ash := { c.ash with hbSeen := [0, 1], present := [0, 1] } }) : State), (0 : Nat), by decide +kernel⟩,
   ⟨(ch (puts (up) [(DRG_KZ_STAT.INIT_OK,0,1), (DRG_KZ_STAT.INIT_OK,2,1),
       (DRG_SEQ_STAT.STATE,0,9)]) (fun c => { c with grp := { c.grp with dev := 1, size := 1  }, ash := { c.ash with hbSeen := [0, 1], present := [0, 1] } }) : State), (2 : Nat), (1 : Nat), by decide +kernel⟩,
   ⟨(ch (puts (up) [(DRG_KZ_STAT.INIT_OK,0,1), (DRG_KZ_STAT.INIT_OK,2,1), (DRG_SEQ_STAT.STATE,0,9),
       (DRG_GRP_STAT.PRESENT,0,2)]) (fun c => { c with grp := { c.grp with dev := 0, size := 1  }, ash := { c.ash with hbSeen := [0, 1], present := [0, 1] } }) : State), (0 : Nat), by decide +kernel⟩,
   ⟨(ch (puts (up) [(DRG_KZ_STAT.INIT_OK,0,1), (DRG_KZ_STAT.INIT_OK,2,1),
       (DRG_GRP_STAT.PRESENT,0,2)]) (fun c => { c with grp := { c.grp with dev := 0, size := 1 , stage1Sent := true, named := 3, ready := [0,1] }, ash := { c.ash with hbSeen := [0, 1], present := [0, 1] } }) : State), (0 : Nat), (3 : Nat), by decide +kernel⟩,
   ⟨(ch (puts (up) [(DRG_KZ_STAT.INIT_OK,0,1),
       (DRG_KZ_STAT.INIT_OK,2,1)]) (fun c => { c with grp := { c.grp with dev := 0, size := 1  }, ash := { c.ash with hbSeen := [0, 1], present := [0, 1] } }) : State), (0 : Nat), by decide +kernel⟩,
   ⟨(ch (puts (up) [(DRG_KZ_STAT.INIT_OK,0,1),
       (DRG_KZ_STAT.INIT_OK,2,1)]) (fun c => { c with grp := { c.grp with dev := 0, size := 1  }, ash := { c.ash with hbSeen := [0, 1], present := [0, 1] } }) : State), (0 : Nat), by decide +kernel⟩,
   ⟨(ch (puts (up) [(DRG_KZ_STAT.INIT_OK,0,1),
       (DRG_KZ_STAT.INIT_OK,2,1)]) (fun c => { c with grp := { c.grp with dev := 0, size := 1 , strobeDue := true, startMask := 2, startJoin := true }, ash := { c.ash with hbSeen := [0, 1], present := [0, 1] } }) : State), by decide +kernel⟩,
   ⟨(ch (puts (up) [(DRG_KZ_STAT.INIT_OK,0,1), (DRG_KZ_STAT.INIT_OK,2,1), (DRG_SEQ_STAT.STATE,0,9),
       (DRG_RAIL_PG.MAIN,0,1)]) (fun c => { c with grp := { c.grp with dev := 0, size := 1 , strobeDue := true, startStage := 1, startMask := 3 }, ash := { c.ash with hbSeen := [0, 1], present := [0, 1] } }) : State), by decide +kernel⟩⟩

theorem witness_groupFramesIn :
    (∃ (s : State) (d : DevId) (k : Nat),
        (s.Still ∧ s.chip.Hears d ∧ k = s.chip.kzFor d ∧ s.chip.grp.stage1Sent = true))
    ∧ (∃ (s : State) (d : DevId) (k : Nat) (_stage : Nat) (_mask : Nat),
        (s.Still ∧ s.chip.Hears d ∧ k = s.chip.kzFor d ∧ d.val = s.chip.get DRG_GRP_STAT.SUP_DEV 0))
    ∧ (∃ (s : State) (d : DevId) (k : Nat) (_image : Bool),
        (s.Still ∧ s.chip.Hears d ∧ k = s.chip.kzFor d))
    ∧ (∃ (s : State) (d : DevId) (k : Nat),
        (s.Still ∧ s.chip.Hears d ∧ k = s.chip.kzFor d ∧ s.chip.isSup = false))
    ∧ (∃ (s : State) (d : DevId) (k : Nat) (_trigger : Nat),
        (s.Still ∧ s.chip.Hears d ∧ k = s.chip.kzFor d ∧ s.chip.PeerIdle d))
    ∧ (∃ (s : State) (d : DevId) (k : Nat) (stage : Nat),
        (s.Still ∧ s.chip.Hears d ∧ k = s.chip.kzFor d ∧ (stage = 1 ∨ stage = 2) ∧ s.chip.isSup = true ∧
            s.chip.grp.strobeDue = true))
    ∧ (∃ (s : State) (d : DevId) (k : Nat),
        (s.Still ∧ s.chip.Hears d ∧ k = s.chip.kzFor d ∧ s.chip.orphan = false))
    ∧ (∃ (s : State) (elapsed : Nat),
        (s.Still ∧ s.chip.alone = false ∧ s.chip.isSup = false ∧ 100 ≤ elapsed ∧ elapsed ≤ 2000 ∧
            s.chip.grp.rxMask.testBit s.chip.grp.dev = true ∧ s.chip.grp.rxStage = 1 ∧ s.chip.grp.joinAsked = false ∧
                s.chip.seqState = sqWAITSTART ∧ s.chip.on DRG_SEQ_STAT.UP_PEND 0 = true ∧ s.chip.mainOk = true))
    ∧ (∃ (s : State) (elapsed : Nat),
        (s.Still ∧ s.chip.alone = false ∧ s.chip.isSup = false ∧ 100 ≤ elapsed ∧ elapsed ≤ 2000 ∧ s.chip.grp.rxMask ≠ 0 ∧
            s.chip.grp.rxMask.testBit s.chip.grp.dev = false))
    ∧ (∃ (s : State) (elapsed : Nat),
        (s.Still ∧ (s.chip.alone = true ∨ s.chip.isSup = true ∨ elapsed < 100 ∨ 2000 < elapsed ∨ s.chip.grp.rxMask = 0)))
    ∧ (∃ (s : State),
        (s.Still ∧ s.chip.grp.size ≠ 0 ∧ s.chip.grp.dev ≠ 0 ∧ s.chip.orphan = false ∧ s.chip.grp.heardMaster = false ∧
            s.chip.seqState ≠ sqWAITSTART ∧ s.chip.seqState ≠ sqWAITIMAGE)) :=
  ⟨⟨(ch (puts (up) [(DRG_KZ_STAT.INIT_OK,0,1),
      (DRG_KZ_STAT.INIT_OK,2,1)]) (fun c => { c with grp := { c.grp with dev := 0, size := 1 , stage1Sent := true }, ash := { c.ash with hbSeen := [0, 1], present := [0, 1] } }) : State), (1 : DevId), (0 : Nat), by decide +kernel⟩,
   ⟨(ch (puts (up) [(DRG_KZ_STAT.INIT_OK,0,1),
       (DRG_KZ_STAT.INIT_OK,2,1)]) (fun c => { c with grp := { c.grp with dev := 1, size := 1  }, ash := { c.ash with hbSeen := [0, 1], present := [0, 1] } }) : State), (0 : DevId), (2 : Nat), (1 : Nat), (3 : Nat), by decide +kernel⟩,
   ⟨(ch (puts (up) [(DRG_KZ_STAT.INIT_OK,0,1),
       (DRG_KZ_STAT.INIT_OK,2,1)]) (fun c => { c with grp := { c.grp with dev := 0, size := 1  }, ash := { c.ash with hbSeen := [0, 1], present := [0, 1] } }) : State), (1 : DevId), (0 : Nat), (true : Bool), by decide +kernel⟩,
   ⟨(ch (puts (up) [(DRG_KZ_STAT.INIT_OK,0,1),
       (DRG_KZ_STAT.INIT_OK,2,1)]) (fun c => { c with grp := { c.grp with dev := 1, size := 1  }, ash := { c.ash with hbSeen := [0, 1], present := [0, 1] } }) : State), (0 : DevId), (2 : Nat), by decide +kernel⟩,
   ⟨(ch (puts (up) [(DRG_KZ_STAT.INIT_OK,0,1),
       (DRG_KZ_STAT.INIT_OK,2,1)]) (fun c => { c with grp := { c.grp with dev := 0, size := 1  }, ash := { c.ash with hbSeen := [0, 1], present := [0, 1] } }) : State), (1 : DevId), (0 : Nat), (1 : Nat), by decide +kernel⟩,
   ⟨(ch (puts (up) [(DRG_KZ_STAT.INIT_OK,0,1),
       (DRG_KZ_STAT.INIT_OK,2,1)]) (fun c => { c with grp := { c.grp with dev := 0, size := 1 , strobeDue := true }, ash := { c.ash with hbSeen := [0, 1], present := [0, 1] } }) : State), (1 : DevId), (0 : Nat), (2 : Nat), by decide +kernel⟩,
   ⟨(ch (puts (up) [(DRG_KZ_STAT.INIT_OK,0,1),
       (DRG_KZ_STAT.INIT_OK,2,1)]) (fun c => { c with grp := { c.grp with dev := 0, size := 1  }, ash := { c.ash with hbSeen := [0, 1], present := [0, 1] } }) : State), (1 : DevId), (0 : Nat), by decide +kernel⟩,
   ⟨(ch (puts (up) [(DRG_KZ_STAT.INIT_OK,0,1), (DRG_KZ_STAT.INIT_OK,2,1), (DRG_SEQ_STAT.STATE,0,9),
       (DRG_RAIL_PG.MAIN,0,1)]) (fun c => { c with grp := { c.grp with dev := 1, size := 1 , rxStage := 1, rxMask := 3 }, ash := { c.ash with hbSeen := [0, 1], present := [0, 1] } }) : State), (200 : Nat), by decide +kernel⟩,
   ⟨(ch (puts (up) [(DRG_KZ_STAT.INIT_OK,0,1),
       (DRG_KZ_STAT.INIT_OK,2,1)]) (fun c => { c with grp := { c.grp with dev := 1, size := 1 , rxStage := 2, rxMask := 5 }, ash := { c.ash with hbSeen := [0, 1], present := [0, 1] } }) : State), (200 : Nat), by decide +kernel⟩,
   ⟨(ch (puts (up) [(DRG_KZ_STAT.INIT_OK,0,1),
       (DRG_KZ_STAT.INIT_OK,2,1)]) (fun c => { c with grp := { c.grp with dev := 1, size := 1 , rxMask := 3 }, ash := { c.ash with hbSeen := [0, 1], present := [0, 1] } }) : State), (99 : Nat), by decide +kernel⟩,
   ⟨(ch (puts (up) [(DRG_KZ_STAT.INIT_OK,0,1),
       (DRG_KZ_STAT.INIT_OK,2,1)]) (fun c => { c with grp := { c.grp with dev := 1, size := 1  }, ash := { c.ash with hbSeen := [0, 1], present := [0, 1] } }) : State), by decide +kernel⟩⟩

theorem witness_heartbeats :
    (∃ (s : State) (d : DevId) (k : Nat) (n : Nat) (back : Bool),
        (s.Still ∧ k = s.chip.kzFor d ∧ n = tabGet 0 s.chip.ash.hbRun d.val + 1 ∧ d.val ≠ s.chip.grp.dev ∧
            d.val ≤ s.chip.grp.size ∧ s.chip.on DRG_KZ_STAT.INIT_OK k = true ∧ s.chip.ash.hbSeen.contains d.val = false ∧
                back = (!s.chip.forcedHeld 4 d && (decide (3 ≤ n) && !s.chip.ash.present.contains d.val))))
    ∧ (∃ (s : State) (d : DevId) (k : Nat) (n : Nat),
        (s.Still ∧ k = s.chip.kzFor d ∧ n = tabGet 0 s.chip.ash.hbRun d.val + 1 ∧ d.val ≠ s.chip.grp.dev ∧
            d.val ≤ s.chip.grp.size ∧ s.chip.on DRG_KZ_STAT.INIT_OK k = true ∧ s.chip.ash.hbSeen.contains d.val = true))
    ∧ (∃ (s : State) (d : DevId) (k : Nat) (n : Nat),
        (s.Still ∧ k = s.chip.kzFor d ∧ n = tabGet 0 s.chip.ash.hbRun d.val + 1 ∧
            (d.val = s.chip.grp.dev ∨ s.chip.grp.size < d.val ∨ s.chip.on DRG_KZ_STAT.INIT_OK k = false)))
    ∧ (∃ (s : State) (d : DevId),
        (s.Still ∧ s.chip.PeerIdle d))
    ∧ (∃ (s : State) (d : DevId),
        (s.Still ∧ s.chip.ash.present.contains d.val = false)) :=
  ⟨⟨(ch (ch (puts (up) [(DRG_KZ_STAT.INIT_OK,0,1),
      (DRG_KZ_STAT.INIT_OK,2,1)]) (fun c => { c with grp := { c.grp with dev := 0, size := 1  }, ash := { c.ash with hbSeen := [0, 1], present := [0, 1] } })) (fun c => { c with ash := { c.ash with hbSeen := [] } }) : State), (1 : DevId), (0 : Nat), (1 : Nat), (false : Bool), by decide +kernel⟩,
   ⟨(ch (ch (puts (up) [(DRG_KZ_STAT.INIT_OK,0,1),
       (DRG_KZ_STAT.INIT_OK,2,1)]) (fun c => { c with grp := { c.grp with dev := 0, size := 1  }, ash := { c.ash with hbSeen := [0, 1], present := [0, 1] } })) (fun c => { c with ash := { c.ash with hbRun := [] } }) : State), (1 : DevId), (0 : Nat), (1 : Nat), by decide +kernel⟩,
   ⟨(ch (ch (puts (up) [(DRG_KZ_STAT.INIT_OK,0,1), (DRG_KZ_STAT.INIT_OK,2,1),
       (DRG_KZ_STAT.INIT_OK,0,0)]) (fun c => { c with grp := { c.grp with dev := 0, size := 1  }, ash := { c.ash with hbSeen := [0, 1], present := [0, 1] } })) (fun c => { c with ash := { c.ash with hbRun := [] } }) : State), (1 : DevId), (0 : Nat), (1 : Nat), by decide +kernel⟩,
   ⟨(ch (ch (puts (up) [(DRG_KZ_STAT.INIT_OK,0,1), (DRG_KZ_STAT.INIT_OK,2,1), (FLU_LIVE.LIVE,2,7),
       (FLU_LIVE.LIVE,3,7)]) (fun c => { c with grp := { c.grp with dev := 0, size := 1  }, ash := { c.ash with hbSeen := [0, 1], present := [0, 1] } })) (fun c => { c with ash := { c.ash with hbRun := [(1,2)] } }) : State), (1 : DevId), by decide +kernel⟩,
   ⟨(ch (puts (up) [(DRG_KZ_STAT.INIT_OK,0,1),
       (DRG_KZ_STAT.INIT_OK,2,1)]) (fun c => { c with grp := { c.grp with dev := 0, size := 1  }, ash := { c.ash with hbSeen := [0, 1], present := [0, 1] } }) : State), (2 : DevId), by decide +kernel⟩⟩

theorem witness_kuzaganLinks :
    (∃ (s : State) (i : KzId) (k : Nat),
        (s.Still ∧ k = i.val ∧ s.chip.seq.linkLock = true ∧ s.chip.kzUsed k = true ∧ s.chip.on DRG_KZ_STAT.SYM_LOCK k = false))
    ∧ (∃ (s : State) (i : KzId) (k : Nat),
        (s.Still ∧ k = i.val ∧ s.chip.on DRG_KZ_STAT.SYM_LOCK k = true))
    ∧ (∃ (s : State) (i : KzId) (k : Nat) (dev : Nat) (size : Nat),
        (s.Still ∧ k = i.val ∧ s.chip.on DRG_KZ_STAT.SYM_LOCK k = true ∧ s.chip.get DRG_KZ_STAT.KZ_ERR k ≠ 1 ∧
            dev = s.chip.peerOf k ∧ size = s.chip.grp.size ∧ s.chip.ash.hbSeen.contains (s.chip.peerOf k) = true ∧
                s.chip.domUp 16 = false))
    ∧ (∃ (s : State) (i : KzId) (k : Nat) (dev : Nat) (size : Nat),
        (s.Still ∧ k = i.val ∧ s.chip.on DRG_KZ_STAT.SYM_LOCK k = true ∧ s.chip.get DRG_KZ_STAT.KZ_ERR k ≠ 1 ∧
            (dev ≠ s.chip.peerOf k ∨ size ≠ s.chip.grp.size)))
    ∧ (∃ (s : State) (i : KzId) (k : Nat) (_cls : KzClass) (_seq : Nat),
        (s.Still ∧ k = i.val ∧ s.chip.LinkHeard k ∧ (s.chip.kzOf k).txq = []))
    ∧ (∃ (s : State) (i : KzId) (k : Nat) (cls : KzClass) (f : KzFrame),
        (s.Still ∧ k = i.val ∧ s.chip.on DRG_KZ_STAT.INIT_OK k = true ∧ cls ≠ .traffic ∧
            (s.chip.kzOf k).unacked.filter (fun f => decide (f.cls = cls)) = [f]))
    ∧ (∃ (s : State) (i : KzId) (k : Nat) (cls : KzClass) (seq : Nat) (f : KzFrame),
        (s.Still ∧ k = i.val ∧ s.chip.LinkHeard k ∧ cls ≠ .traffic ∧ (s.chip.kzOf k).txq = [] ∧
            (ackUpTo cls ((seq % 256 + 255) % 256) (s.chip.kzOf k).unacked).filter (fun f => decide (f.cls = cls)) = [f]))
    ∧ (∃ (s : State) (i : KzId) (k : Nat) (cls : KzClass),
        (s.Still ∧ k = i.val ∧ s.chip.on DRG_KZ_STAT.INIT_OK k = true) ∧ cls = (if Config.freeNat s.chip.free % 3 = 0 then .seq
          else if Config.freeNat s.chip.free % 3 = 1 then .fault else .traffic)) :=
  ⟨⟨(ch (puts (up) [(DRG_KZ_STAT.INIT_OK,0,1),
      (DRG_KZ_STAT.INIT_OK,2,1)]) (fun c => { c with grp := { c.grp with dev := 0, size := 1  }, ash := { c.ash with hbSeen := [0, 1], present := [0, 1] } }) : State), (0 : KzId), (0 : Nat), by decide +kernel⟩,
   ⟨(ch (ch (puts (up) [(DRG_KZ_STAT.INIT_OK,0,1), (DRG_KZ_STAT.INIT_OK,2,1), (DRG_KZ_STAT.SYM_LOCK,0,1),
       (FLU_LIVE.LIVE,2,7)]) (fun c => { c with grp := { c.grp with dev := 0, size := 1  }, ash := { c.ash with hbSeen := [0, 1], present := [0, 1] } })) (fun c => c.setKz 0 { c.kzOf 0 with txCtr := 4, nextTag := 3 }) : State), (0 : KzId), (0 : Nat), by decide +kernel⟩,
   ⟨(ch (ch (puts (up) [(DRG_KZ_STAT.INIT_OK,0,1), (DRG_KZ_STAT.INIT_OK,2,1), (DRG_KZ_STAT.SYM_LOCK,0,1), (FLU_LIVE.LIVE,2,7),
       (DRG_DOM_STAT.UP,0,0)]) (fun c => { c with grp := { c.grp with dev := 0, size := 1  }, ash := { c.ash with hbSeen := [0, 1], present := [0, 1] } })) (fun c => c.setKz 0 { c.kzOf 0 with txCtr := 4, nextTag := 3 }) : State), (0 : KzId), (0 : Nat), (1 : Nat), (1 : Nat), by decide +kernel⟩,
   ⟨(ch (ch (puts (up) [(DRG_KZ_STAT.INIT_OK,0,1), (DRG_KZ_STAT.INIT_OK,2,1),
       (DRG_KZ_STAT.SYM_LOCK,0,1)]) (fun c => { c with grp := { c.grp with dev := 0, size := 1  }, ash := { c.ash with hbSeen := [0, 1], present := [0, 1] } })) (fun c => c.setKz 0 { c.kzOf 0 with txCtr := 4, nextTag := 3 }) : State), (0 : KzId), (0 : Nat), (2 : Nat), (1 : Nat), by decide +kernel⟩,
   ⟨(ch (ch (puts (up) [(DRG_KZ_STAT.INIT_OK,0,1),
       (DRG_KZ_STAT.INIT_OK,2,1)]) (fun c => { c with grp := { c.grp with dev := 0, size := 1  }, ash := { c.ash with hbSeen := [0, 1], present := [0, 1] } })) (fun c => c.setKz 0 { c.kzOf 0 with unacked := [⟨.seq,3,1,0,[1]⟩,⟨.seq,4,1,0,[1]⟩,⟨.fault,4,1,0,[1]⟩,⟨.seq,5,1,0,[1]⟩] }) : State), (0 : KzId), (0 : Nat), (.seq : KzClass), (4 : Nat), by decide +kernel⟩,
   ⟨(ch (ch (puts (up) [(DRG_KZ_STAT.INIT_OK,0,1),
       (DRG_KZ_STAT.INIT_OK,2,1)]) (fun c => { c with grp := { c.grp with dev := 0, size := 1  }, ash := { c.ash with hbSeen := [0, 1], present := [0, 1] } })) (fun c => c.setKz 0 { c.kzOf 0 with unacked := [⟨.seq,3,1,0,[1]⟩,⟨.fault,4,1,0,[1]⟩] }) : State), (0 : KzId), (0 : Nat), (.seq : KzClass), (⟨.seq,3,1,0,[1]⟩ : KzFrame), by decide +kernel⟩,
   ⟨(ch (ch (puts (up) [(DRG_KZ_STAT.INIT_OK,0,1),
       (DRG_KZ_STAT.INIT_OK,2,1)]) (fun c => { c with grp := { c.grp with dev := 0, size := 1  }, ash := { c.ash with hbSeen := [0, 1], present := [0, 1] } })) (fun c => c.setKz 0 { c.kzOf 0 with unacked := [⟨.seq,3,1,0,[1]⟩,⟨.seq,4,1,0,[1]⟩,⟨.fault,4,1,0,[1]⟩] }) : State), (0 : KzId), (0 : Nat), (.seq : KzClass), (4 : Nat), (⟨.seq,4,1,0,[1]⟩ : KzFrame), by decide +kernel⟩,
   ⟨(ch (puts (up) [(DRG_KZ_STAT.INIT_OK,0,1),
       (DRG_KZ_STAT.INIT_OK,2,1)]) (fun c => { c with grp := { c.grp with dev := 0, size := 1  }, ash := { c.ash with hbSeen := [0, 1], present := [0, 1] } }) : State), (0 : KzId), (0 : Nat), ((if Config.freeNat (ch (puts (up) [(DRG_KZ_STAT.INIT_OK,0,1), (DRG_KZ_STAT.INIT_OK,2,1)]) (fun c => { c with grp := { c.grp with dev := 0, size := 1  }, ash := { c.ash with hbSeen := [0, 1], present := [0, 1] } })).chip.free % 3 = 0 then .seq else if Config.freeNat (ch (puts (up) [(DRG_KZ_STAT.INIT_OK,0,1), (DRG_KZ_STAT.INIT_OK,2,1)]) (fun c => { c with grp := { c.grp with dev := 0, size := 1  }, ash := { c.ash with hbSeen := [0, 1], present := [0, 1] } })).chip.free % 3 = 1 then .fault else .traffic) : KzClass), by decide +kernel, Eq.refl _⟩⟩

theorem witness_kuzaganKeyingAndForwards :
    (∃ (s : State) (i : KzId) (k : Nat) (payload : List Byte),
        (s.Still ∧ k = i.val ∧ s.chip.LinkHeard k ∧ payload.length = 346 ∧ s.chip.domUp 16 = true ∧
            (s.chip.kzOf k).k1peer = payload ∧ (s.chip.kzOf k).txKey ≠ []))
    ∧ (∃ (s : State) (i : KzId) (k : Nat) (payload : List Byte),
        (s.Still ∧ k = i.val ∧ s.chip.LinkHeard k ∧ payload.length = 346 ∧ s.chip.domUp 16 = true ∧
            ((s.chip.kzOf k).k1peer = [] ∨ ((s.chip.kzOf k).k1peer = payload ∧ (s.chip.kzOf k).txKey = [] ∧
                (s.chip.kzOf k).certOk = false ∧ s.chip.hasJob (.kzVerify k) = false)) ∧
                    ((certForm (key1Cert payload) && decide (certKind (key1Cert payload) = 3)) = false ∨ (key1Eph payload).head? ≠ some 4
          ∨ certKey s.env.issuers (key1Cert payload) = none)))
    ∧ (∃ (s : State) (i : KzId) (k : Nat) (payload : List Byte),
        (s.Still ∧ k = i.val ∧ s.chip.LinkHeard k ∧ payload.length = 346 ∧ s.chip.domUp 16 = true ∧ (s.chip.kzOf k).k1peer ≠ []
            ∧ (s.chip.kzOf k).k1peer ≠ payload ∧
                ((certForm (key1Cert payload) && decide (certKind (key1Cert payload) = 3)) = false ∨ (key1Eph payload).head? ≠ some 4
          ∨ certKey s.env.issuers (key1Cert payload) = none)))
    ∧ (∃ (s : State) (i : KzId) (k : Nat) (payload : List Byte) (key : List Byte),
        (s.Still ∧ k = i.val ∧ s.chip.LinkHeard k ∧ payload.length = 346 ∧ s.chip.domUp 16 = true ∧ (s.chip.kzOf k).k1peer = []
            ∧ (s.chip.kzOf k).k1sent ≠ [] ∧ certForm (key1Cert payload) = true ∧ certKind (key1Cert payload) = 3 ∧
                (key1Eph payload).head? = some 4 ∧ certKey s.env.issuers (key1Cert payload) = some key ∧ s.chip.StokerFull))
    ∧ (∃ (s : State) (i : KzId) (k : Nat) (payload : List Byte),
        (s.Still ∧ k = i.val ∧ s.chip.LinkHeard k ∧ payload.length = 16 ∧ (s.chip.kzOf k).txKey ≠ [] ∧
            payload = (s.chip.kzOf k).peerCf ∧ (s.chip.kzOf k).txq = []))
    ∧ (∃ (s : State) (i : KzId) (k : Nat) (payload : List Byte),
        (s.Still ∧ k = i.val ∧ s.chip.LinkHeard k ∧ payload.length = 16 ∧ (s.chip.kzOf k).txKey ≠ [] ∧
            payload ≠ (s.chip.kzOf k).peerCf))
    ∧ (∃ (s : State) (i : KzId) (k : Nat),
        (s.Still ∧ k = i.val ∧ s.chip.on DRG_KZ_STAT.INIT_OK k = true ∧ (s.chip.kzOf k).restart = false ∧
            (s.chip.kzOf k).k2ok = false ∧ (s.chip.kzOf k).k1sent ≠ [] ∧
                ((s.chip.kzOf k).k1peer = [] ∨ (s.chip.kzOf k).certOk = false ∨ (s.chip.kzOf k).txKey ≠ [])))
    ∧ (∃ (s : State) (i : KzId) (k : Nat),
        (s.Still ∧ k = i.val ∧ (s.chip.kzOf k).restart = true ∧ (s.chip.kzOf k).k1peer = [] ∧
            (s.chip.domUp 16 = false ∨ s.chip.on DRG_KZ_STAT.INIT_OK k = false)))
    ∧ (∃ (s : State) (i : KzId) (k : Nat) (seq : Nat) (tag : Nat) (wire : List Byte) (seg : List Byte) (ok : Bool),
        (s.Still ∧ k = i.val ∧ s.chip.LinkHeard k ∧ s.chip.on DRG_KZ_STAT.KEYED k = true ∧ s.chip.domUp 16 = true ∧
            s.chip.peerFenced (s.chip.peerOf k) = false ∧ seq < 256 ∧ tag < 65536 ∧ seq = tabGet 0 (s.chip.kzOf k).rxSeq 2 ∧
                wire.length ≤ 1040 ∧ 25 ≤ wire.length ∧ ok = true ∧ (seg.getD 1 0).toNat % 2 = 0 ∧ (s.chip.kzOf k).inbound = []
                    ∧ beNat ((seg.drop 4).take 2) = 0) ∧ s.chip.opened k 1 seq tag wire = (seg, ok))
    ∧ (∃ (s : State) (i : KzId) (k : Nat) (seq : Nat) (tag : Nat) (wire : List Byte) (seg : List Byte) (ok : Bool) (f : Fwd),
        (s.Still ∧ k = i.val ∧ s.chip.LinkHeard k ∧ s.chip.on DRG_KZ_STAT.KEYED k = true ∧ s.chip.domUp 16 = true ∧
            s.chip.peerFenced (s.chip.peerOf k) = false ∧ seq < 256 ∧ tag < 65536 ∧ seq = tabGet 0 (s.chip.kzOf k).rxSeq 2 ∧
                wire.length ≤ 1040 ∧ 24 ≤ wire.length ∧ ok = true ∧ (seg.getD 1 0).toNat % 2 = 0 ∧ (s.chip.kzOf k).fwds = [f] ∧
                    f.tag = tag ∧ beNat ((seg.drop 4).take 2) = f.got.length) ∧ s.chip.opened k 2 seq tag wire = (seg, ok))
    ∧ (∃ (s : State) (i : KzId) (k : Nat) (seq : Nat) (tag : Nat) (wire : List Byte) (seg : List Byte) (ok : Bool),
        (s.Still ∧ k = i.val ∧ s.chip.LinkHeard k ∧ s.chip.on DRG_KZ_STAT.KEYED k = true ∧ s.chip.domUp 16 = true ∧
            s.chip.peerFenced (s.chip.peerOf k) = false ∧ seq < 256 ∧ tag < 65536 ∧ seq = tabGet 0 (s.chip.kzOf k).rxSeq 2 ∧
                wire.length ≤ 1040 ∧ 25 ≤ wire.length ∧ (s.chip.kzOf k).gcmFails < 3 ∧ ok = false) ∧
                    s.chip.opened k 1 seq tag wire = (seg, ok)) :=
  ⟨⟨(ch (ch (puts (up) [(DRG_KZ_STAT.INIT_OK,0,1),
      (DRG_KZ_STAT.INIT_OK,2,1)]) (fun c => { c with grp := { c.grp with dev := 0, size := 1  }, ash := { c.ash with hbSeen := [0, 1], present := [0, 1] } })) (fun c => c.setKz 0 { c.kzOf 0 with k1peer := List.replicate 346 7, txKey := [1], myCf := [9] }) : State), (0 : KzId), (0 : Nat), (List.replicate 346 7 : List Byte), by decide +kernel⟩,
   ⟨(ch (ch (puts (up) [(DRG_KZ_STAT.INIT_OK,0,1),
       (DRG_KZ_STAT.INIT_OK,2,1)]) (fun c => { c with grp := { c.grp with dev := 0, size := 1  }, ash := { c.ash with hbSeen := [0, 1], present := [0, 1] } })) (fun c => c.setKz 0 { c.kzOf 0 with certOk := true }) : State), (0 : KzId), (0 : Nat), (List.replicate 346 7 : List Byte), by decide +kernel⟩,
   ⟨(ch (ch (puts (up) [(DRG_KZ_STAT.INIT_OK,0,1), (DRG_KZ_STAT.INIT_OK,2,1),
       (DRG_KZ_STAT.KEYED,0,1)]) (fun c => { c with grp := { c.grp with dev := 0, size := 1  }, ash := { c.ash with hbSeen := [0, 1], present := [0, 1] } })) (fun c => c.setKz 0 { c.kzOf 0 with k1peer := List.replicate 346 8, txKey := [1] }) : State), (0 : KzId), (0 : Nat), (List.replicate 346 7 : List Byte), by decide +kernel⟩,
   ⟨({ (ch (ch (puts (up) [(DRG_KZ_STAT.INIT_OK,0,1), (DRG_KZ_STAT.INIT_OK,2,1), (EMB_CFG.CTX_HOST,0,255)]) (fun c => { c with grp := { c.grp with dev := 0, size := 1  }, ash := { c.ash with hbSeen := [0, 1], present := [0, 1] } })) (fun c => c.setKz 0 { c.kzOf 0 with k1sent := [1] })) with otp := [(0, 65535), (2, 3), (52, 15), (200, 3670470589), (201, 2986118780), (202, 1229894865), (203, 332650625), (204, 1760285352), (205, 1172841714), (206, 1164626862), (207, 1149910309), (208, 3755399319), (209, 4182146827), (210, 3787649784), (211, 2631796100)], nvs := { Nvs.init with keys := [(0, (beBytes 97 0x04090909090909090909090909090909090909090909090909090909090909090909090909090909090909090909090909090909090909090909090909090909090909090909090909090909090909090909090909090909090909090909090909))] } } : State), (0 : KzId), (0 : Nat), ((beBytes 346 0x01010101010101010101010101010101c1030000000000000000000000000000bdefc6da7c8efcb1000000000000000000000000000000000406060606060606060606060606060606060606060606060606060606060606060606060606060606060606060606060606060606060606060606060606060606060606060606060606060606060606060606060606060606060606060606060608080808080808080808080808080808080808080808080808080808080808080808080808080808080808080808080808080808080808080808080808080808080808080808080808080808080808080808080808080808080808080808080804020202020202020202020202020202020202020202020202020202020202020202020202020202020202020202020202020202020202020202020202020202020202020202020202020202020202020202020202020202020202020202020202) : List Byte), ((beBytes 97 0x04090909090909090909090909090909090909090909090909090909090909090909090909090909090909090909090909090909090909090909090909090909090909090909090909090909090909090909090909090909090909090909090909) : List Byte), by decide +kernel⟩,
   ⟨(ch (ch (puts (up) [(DRG_KZ_STAT.INIT_OK,0,1),
       (DRG_KZ_STAT.INIT_OK,2,1)]) (fun c => { c with grp := { c.grp with dev := 0, size := 1  }, ash := { c.ash with hbSeen := [0, 1], present := [0, 1] } })) (fun c => c.setKz 0 { c.kzOf 0 with peerCf := List.replicate 16 7, txKey := [1], myCf := [9] }) : State), (0 : KzId), (0 : Nat), (List.replicate 16 7 : List Byte), by decide +kernel⟩,
   ⟨(ch (ch (puts (up) [(DRG_KZ_STAT.INIT_OK,0,1),
       (DRG_KZ_STAT.INIT_OK,2,1)]) (fun c => { c with grp := { c.grp with dev := 0, size := 1  }, ash := { c.ash with hbSeen := [0, 1], present := [0, 1] } })) (fun c => c.setKz 0 { c.kzOf 0 with peerCf := List.replicate 16 8, txKey := [1], myCf := [9] }) : State), (0 : KzId), (0 : Nat), (List.replicate 16 7 : List Byte), by decide +kernel⟩,
   ⟨(ch (ch (puts (up) [(DRG_KZ_STAT.INIT_OK,0,1),
       (DRG_KZ_STAT.INIT_OK,2,1)]) (fun c => { c with grp := { c.grp with dev := 0, size := 1  }, ash := { c.ash with hbSeen := [0, 1], present := [0, 1] } })) (fun c => c.setKz 0 { c.kzOf 0 with k1sent := [1,2] }) : State), (0 : KzId), (0 : Nat), by decide +kernel⟩,
   ⟨(ch (ch (puts (up) [(DRG_KZ_STAT.INIT_OK,0,1), (DRG_KZ_STAT.INIT_OK,2,1),
       (DRG_DOM_STAT.UP,0,0)]) (fun c => { c with grp := { c.grp with dev := 0, size := 1  }, ash := { c.ash with hbSeen := [0, 1], present := [0, 1] } })) (fun c => c.setKz 0 { c.kzOf 0 with restart := true }) : State), (0 : KzId), (0 : Nat), by decide +kernel⟩,
   ⟨(ch (ch (puts (up) [(DRG_KZ_STAT.INIT_OK,0,1), (DRG_KZ_STAT.INIT_OK,2,1),
       (DRG_KZ_STAT.KEYED,0,1)]) (fun c => { c with grp := { c.grp with dev := 0, size := 1  }, ash := { c.ash with hbSeen := [0, 1], present := [0, 1] } })) (fun c => c.setKz 0 { c.kzOf 0 with rxKey := List.replicate 32 0 }) : State), (0 : KzId), (0 : Nat), (0 : Nat), (5 : Nat), (wire1 : List Byte), ([2,0,0,9,0,0,0,0,7] : List Byte), (true : Bool), by decide +kernel, (opened_of gcm1 (by decide +kernel)).trans (by decide +kernel)⟩,
   ⟨(ch (ch (puts (up) [(DRG_KZ_STAT.INIT_OK,0,1), (DRG_KZ_STAT.INIT_OK,2,1),
       (DRG_KZ_STAT.KEYED,0,1)]) (fun c => { c with grp := { c.grp with dev := 0, size := 1  }, ash := { c.ash with hbSeen := [0, 1], present := [0, 1] } })) (fun c => c.setKz 0 { c.kzOf 0 with rxKey := List.replicate 32 0, fwds := [⟨5, .entry 7 false, 66, 0, [1]⟩] }) : State), (0 : KzId), (0 : Nat), (0 : Nat), (5 : Nat), (wire2 : List Byte), ([2,0,0,9,0,1,0,0,7] : List Byte), (true : Bool), (⟨5, .entry 7 false, 66, 0, [1]⟩ : Fwd), by decide +kernel, (opened_of gcm2 (by decide +kernel)).trans (by decide +kernel)⟩,
   ⟨(ch (ch (puts (up) [(DRG_KZ_STAT.INIT_OK,0,1), (DRG_KZ_STAT.INIT_OK,2,1),
       (DRG_KZ_STAT.KEYED,0,1)]) (fun c => { c with grp := { c.grp with dev := 0, size := 1  }, ash := { c.ash with hbSeen := [0, 1], present := [0, 1] } })) (fun c => c.setKz 0 { c.kzOf 0 with rxKey := List.replicate 32 0 }) : State), (0 : KzId), (0 : Nat), (0 : Nat), (5 : Nat), ((wire1.take 24 ++ [0]) : List Byte), ([2,0,0,9,0,0,0,0,7] : List Byte), (false : Bool), by decide +kernel, (opened_of gcm1 (by decide +kernel)).trans (by decide +kernel)⟩⟩

theorem witness_damperClock :
    (∃ (s : State) (z : Bool) (f : Nat),
        (s.Still ∧ s.chip.domUp 16 = true ∧ (∀ q ∈ s.chip.dmp.reqs, ∀ r ∈ s.chip.dmp.reqs, q.asker = r.asker →
            q.class0 = r.class0) ∧ z = { s.chip with us := s.chip.us + 1 }.classZero ∧
                f = (if z = true then s.chip.dmp.pWork * s.chip.get FLU_SCHED_CFG.CL0_FLOOR 0 / 100 else 0)))
    ∧ (∃ (s : State),
        (s.Still ∧ s.chip.domUp 16 = false ∧ (∀ q ∈ s.chip.dmp.reqs, ∀ r ∈ s.chip.dmp.reqs, q.asker = r.asker →
            q.class0 = r.class0)))
    ∧ (∃ (s : State) (sensors : List Int) (tj : Int) (cap : Nat) (pe : Nat) (ps : Nat) (st : Nat) (hot : Bool) (a : Bool) (b : Bool) (d : Bool),
        (s.Still ∧ tj = sensors.foldl max (sensors.headD 0) ∧ cap = 5000 * s.chip.get DRG_DMP_CFG.CAP 0 ∧
            pe = max 100000 (cap - 2500 * s.chip.get DRG_DMP_CFG.SLOPE 0 * (tj - s.chip.get DRG_DMP_CFG.KNEE 0).toNat) ∧
                ps = 100 * s.chip.get DRG_DMP_STATIC.STATIC_W 0 + s.chip.get DRG_DMP_STATIC.STATIC_SLOPE 0 * (tj - 25).toNat ∧
                    st = (List.range 64).foldl (fun w n => w + s.chip.standOf n) 0 ∧
                        hot = decide ((s.chip.get DRG_DMP_CFG2.TJ_HOT 0 : Int) ≤ tj) ∧
                            a = (decide (pe < cap) && !s.chip.dmp.thermal) ∧ b = (decide (pe ≤ ps + st) && !s.chip.dmp.thin) ∧
                                d = (hot && !s.chip.dmp.hot)))
    ∧ (∃ (s : State),
        (s.Still ∧ s.chip.dmp.hot = true ∧ s.chip.get DRG_DMP_STAT.TJ_MAX 0 + 5 < s.chip.get DRG_DMP_CFG2.TJ_HOT 0))
    ∧ (∃ (s : State),
        (s.Still ∧ (s.chip.dmp.hot = false ∨ s.chip.get DRG_DMP_CFG2.TJ_HOT 0 ≤ s.chip.get DRG_DMP_STAT.TJ_MAX 0 + 5)))
    ∧ (∃ (s : State) (k : CtxId) (d : DamperX),
        (s.Still ∧ s.chip.dmp.reqs.any (fun r => decide (r.asker = .ember k ∧ r.tier = 5)) = true ∧
            d = { s.chip.dmp with reqs := s.chip.dmp.reqs.map (fun r => if r.asker = .ember k ∧ r.tier = 5 then { r with tier := 1 } else r) }))
    ∧ (∃ (s : State) (k : CtxId),
        (s.Still ∧ s.chip.dmp.reqs.any (fun r => decide (r.asker = .ember k ∧ r.tier = 5)) = false)) :=
  ⟨⟨(ch (up) (fun c => {c with dmp := {c.dmp with pWork := 200000}}) : State), (false : Bool), (0 : Nat), by decide +kernel⟩,
   ⟨(puts (up) [(DRG_DOM_STAT.UP,0,0)] : State), by decide +kernel⟩,
   ⟨(up : State), ((List.replicate 8 (40 : Int)) : List Int), ((40 : Int) : Int),
       (5000 * (up).chip.get DRG_DMP_CFG.CAP 0 : Nat),
           (max 100000 (5000 * (up).chip.get DRG_DMP_CFG.CAP 0 - 2500 * (up).chip.get DRG_DMP_CFG.SLOPE 0 * ((40 : Int) - (up).chip.get DRG_DMP_CFG.KNEE 0).toNat) : Nat), (100 * (up).chip.get DRG_DMP_STATIC.STATIC_W 0 + (up).chip.get DRG_DMP_STATIC.STATIC_SLOPE 0 * ((40 : Int) - 25).toNat : Nat), ((List.range 64).foldl (fun w n => w + (up).chip.standOf n) 0 : Nat), (decide (((up).chip.get DRG_DMP_CFG2.TJ_HOT 0 : Int) ≤ 40) : Bool), (false : Bool), (false : Bool), (false : Bool), by decide +kernel⟩,
   ⟨(ch (up) (fun c => {c with dmp := {c.dmp with hot := true}}) : State), by decide +kernel⟩,
   ⟨(up : State), by decide +kernel⟩,
   ⟨(ch (up) (fun c => {c with dmp := {c.dmp with reqs := [⟨.ember 3, 5, 700000000, false⟩]}}) : State), (3 : CtxId),
       ({ (ch (up) (fun c => {c with dmp := {c.dmp with reqs := [⟨.ember 3, 1, 700000000, false⟩]}})).chip.dmp with reqs := [⟨.ember 3, 1, 700000000, false⟩] } : DamperX), by decide +kernel⟩,
   ⟨(up : State), (3 : CtxId), by decide +kernel⟩⟩

theorem witness_avsAndDerating :
    (∃ (s : State) (m16 : Int) (m17 : Int) (m : Int) (a : Nat) (b : Nat) (j : Nat) (v : Nat) (next : Nat) (top : Bool),
        (s.Still ∧ m = min m16 m17 ∧ s.chip.domUp 16 = true ∧ s.chip.domUp 17 = true ∧ s.chip.avsEntry = some j ∧
            s.chip.on DRG_AVS_CFG.AVS_EN 0 = true ∧ s.chip.on DRG_AVS_STAT.SUSPENDED 0 = false ∧ s.chip.avsUnreach = false ∧
                v = s.chip.get DRG_AVS_STAT.VSET 0 ∧ v ≠ 0 ∧
                    next = (if m < s.chip.avsLow then min (s.chip.get DRG_AVS_CFG.VMAX 0) (v + 2)
            else if m < s.chip.avsTgt then min (s.chip.get DRG_AVS_CFG.VMAX 0) (v + 1)
            else if s.chip.avsTgt + 20 < m then min (s.chip.get DRG_AVS_CFG.VMAX 0) (max (min 130 v) (v - 1))
            else min (s.chip.get DRG_AVS_CFG.VMAX 0) v) ∧
                top = (decide (m < s.chip.avsTgt) && decide (s.chip.get DRG_AVS_CFG.VMAX 0 ≤ v)) ∧
                    a = (if m16 < s.chip.avsCrit then 2 else if m16 < s.chip.avsLow ∧ top = true then 1 else 0) ∧
                        b = (if m17 < s.chip.avsCrit then 2 else if m17 < s.chip.avsLow ∧ top = true then 1 else 0)))
    ∧ (∃ (s : State) (m16 : Int) (m17 : Int) (m : Int) (a : Nat) (b : Nat) (j : Nat) (v : Nat) (next : Nat) (top : Bool),
        (s.Still ∧ m = min m16 m17 ∧ s.chip.domUp 16 = true ∧ s.chip.domUp 17 = true ∧ s.chip.avsEntry = some j ∧
            s.chip.on DRG_AVS_CFG.AVS_EN 0 = true ∧ s.chip.on DRG_AVS_STAT.SUSPENDED 0 = false ∧ s.chip.avsUnreach = false ∧
                s.chip.get DRG_AVS_STAT.VSET 0 = 0 ∧
                    top = (decide (m < s.chip.avsTgt) && decide (s.chip.get DRG_AVS_CFG.VMAX 0 ≤ v)) ∧
                        a = (if m16 < s.chip.avsCrit then 2 else if m16 < s.chip.avsLow ∧ top = true then 1 else 0) ∧
                            b = (if m17 < s.chip.avsCrit then 2 else if m17 < s.chip.avsLow ∧ top = true then 1 else 0)) ∧
                                v = 130 + Config.freeNat s.chip.free % (s.chip.get DRG_AVS_CFG.VMAX 0 - 129) ∧
                                    next = (if m < s.chip.avsLow then min (s.chip.get DRG_AVS_CFG.VMAX 0) (v + 2)
            else if m < s.chip.avsTgt then min (s.chip.get DRG_AVS_CFG.VMAX 0) (v + 1)
            else if s.chip.avsTgt + 20 < m then min (s.chip.get DRG_AVS_CFG.VMAX 0) (max (min 130 v) (v - 1))
            else min (s.chip.get DRG_AVS_CFG.VMAX 0) v))
    ∧ (∃ (s : State) (m16 : Int) (m17 : Int) (m : Int) (a : Nat) (b : Nat),
        (s.Still ∧ m = min m16 m17 ∧ s.chip.domUp 16 = true ∧ s.chip.domUp 17 = true ∧
            (s.chip.avsEntry = none ∨ s.chip.on DRG_AVS_CFG.AVS_EN 0 = false ∨ s.chip.on DRG_AVS_STAT.SUSPENDED 0 = true ∨ s.chip.avsUnreach = true) ∧ a = s.chip.derateNeed m16 ∧ b = s.chip.derateNeed m17))
    ∧ (∃ (s : State) (m16 : Int) (m17 : Int) (m : Int) (_a : Nat) (_b : Nat),
        (s.Still ∧ m = min m16 m17 ∧ (s.chip.domUp 16 = false ∨ s.chip.domUp 17 = false)))
    ∧ (∃ (s : State) (least : Nat),
        (s.Still ∧ least = s.chip.get DRG_AVS_STAT.SUSPENDED 0 ∧ least < s.chip.get DRG_AVS_STAT.DER17 0))
    ∧ (∃ (s : State) (least : Nat),
        (s.Still ∧ least = s.chip.get DRG_AVS_STAT.SUSPENDED 0 ∧ least < s.chip.get DRG_AVS_STAT.DER16 0))
    ∧ (∃ (s : State) (least : Nat) (dom17 : Bool),
        (s.Still ∧ least = s.chip.get DRG_AVS_STAT.SUSPENDED 0 ∧
            (if dom17 = true then s.chip.get DRG_AVS_STAT.DER17 0 else s.chip.get DRG_AVS_STAT.DER16 0) ≤ least)) :=
  ⟨⟨(puts (up) [(DRG_PMB_MAP.VALID,4,1), (DRG_PMB_MAP.AVS,4,1), (DRG_PMB_MAP.RAIL,4,1), (DRG_PMB_MAP.ADDR,4,0x21),
      (DRG_PMB_MAP.PAGE,4,0xFF), (DRG_AVS_STAT.VSET,0,150)] : State), (30 : Int), (50 : Int), (30 : Int), (0 : Nat), (0 : Nat),
          (4 : Nat), (150 : Nat), (152 : Nat), (false : Bool), by decide +kernel⟩,
   ⟨(puts (up) [(DRG_PMB_MAP.VALID,4,1), (DRG_PMB_MAP.AVS,4,1), (DRG_PMB_MAP.RAIL,4,1), (DRG_PMB_MAP.ADDR,4,0x21),
       (DRG_PMB_MAP.PAGE,4,0xFF)] : State), (100 : Int), (80 : Int), (80 : Int), (0 : Nat), (0 : Nat), (4 : Nat),
           ((130 + Config.freeNat (puts (up) [(DRG_PMB_MAP.VALID,4,1), (DRG_PMB_MAP.AVS,4,1), (DRG_PMB_MAP.RAIL,4,1),
               (DRG_PMB_MAP.ADDR,4,0x21), (DRG_PMB_MAP.PAGE,4,0xFF)]).chip.free % ((puts (up) [(DRG_PMB_MAP.VALID,4,1),
                   (DRG_PMB_MAP.AVS,4,1), (DRG_PMB_MAP.RAIL,4,1), (DRG_PMB_MAP.ADDR,4,0x21),
                       (DRG_PMB_MAP.PAGE,4,0xFF)]).chip.get DRG_AVS_CFG.VMAX 0 - 129)) : Nat),
                           (min ((puts (up) [(DRG_PMB_MAP.VALID,4,1), (DRG_PMB_MAP.AVS,4,1), (DRG_PMB_MAP.RAIL,4,1),
                               (DRG_PMB_MAP.ADDR,4,0x21), (DRG_PMB_MAP.PAGE,4,0xFF)]).chip.get DRG_AVS_CFG.VMAX 0) (130 + Config.freeNat (puts (up) [(DRG_PMB_MAP.VALID,4,1), (DRG_PMB_MAP.AVS,4,1), (DRG_PMB_MAP.RAIL,4,1), (DRG_PMB_MAP.ADDR,4,0x21), (DRG_PMB_MAP.PAGE,4,0xFF)]).chip.free % ((puts (up) [(DRG_PMB_MAP.VALID,4,1), (DRG_PMB_MAP.AVS,4,1), (DRG_PMB_MAP.RAIL,4,1), (DRG_PMB_MAP.ADDR,4,0x21), (DRG_PMB_MAP.PAGE,4,0xFF)]).chip.get DRG_AVS_CFG.VMAX 0 - 129)) : Nat), (false : Bool), by decide +kernel, Eq.refl _, Eq.refl _⟩,
   ⟨(up : State), (-1 : Int), (80 : Int), (-1 : Int), (2 : Nat), (0 : Nat), by decide +kernel⟩,
   ⟨(puts (up) [(DRG_DOM_STAT.UP,0,0)] : State), (-1 : Int), (80 : Int), (-1 : Int), (0 : Nat), (0 : Nat), by decide +kernel⟩,
   ⟨(puts (up) [(DRG_AVS_STAT.DER17,0,2)] : State), (0 : Nat), by decide +kernel⟩,
   ⟨(puts (up) [(DRG_AVS_STAT.DER16,0,2), (DRG_AVS_STAT.SUSPENDED,0,1)] : State), (1 : Nat), by decide +kernel⟩,
   ⟨(puts (up) [(DRG_AVS_STAT.DER16,0,1), (DRG_AVS_STAT.SUSPENDED,0,1)] : State), (1 : Nat), (false : Bool), by decide +kernel⟩⟩

theorem witness_ageingAndPlanner :
    (∃ (s : State),
        (s.Still ∧ s.chip.wear.measRun = false ∧ s.chip.domUp 16 = true))
    ∧ (∃ (s : State),
        (s.Still ∧ s.chip.wear.measRun = true))
    ∧ (∃ (s : State) (p : Path),
        (s.Still ∧ s.chip.served p blkDRG true false = true ∧ s.chip.wear.measRun = false ∧ s.chip.domUp 16 = true))
    ∧ (∃ (s : State) (p : Path),
        (s.Still ∧ s.chip.served p blkDRG true false = true ∧ (s.chip.wear.measRun = true ∨ s.chip.domUp 16 = false)))
    ∧ (∃ (s : State) (d16 : Int) (d17 : Int) (_worst : Fin 24) (a : Nat) (b : Nat) (w : Bool),
        (s.Still ∧ s.chip.wear.measRun = true ∧ s.chip.on DRG_AGE_STAT.MEAS_REQ 0 = false ∧ a = min 255 d16.toNat ∧
            b = min 255 d17.toNat ∧ w = decide (s.chip.get DRG_AGE_CFG.DRIFT_MAX 0 < a ∨ s.chip.get DRG_AGE_CFG.DRIFT_MAX 0 < b)
                ∧ (a < s.chip.wear.lastPlan16 + 5 ∧ s.chip.wear.lastPlan16 < a + 5 ∧ b < s.chip.wear.lastPlan17 + 5 ∧
                    s.chip.wear.lastPlan17 < b + 5) ∧ (w = false ∨ s.chip.wear.warned = true)))
    ∧ (∃ (s : State) (d16 : Int) (d17 : Int) (_worst : Fin 24) (a : Nat) (b : Nat) (w : Bool),
        (s.Still ∧ s.chip.wear.measRun = true ∧ s.chip.on DRG_AGE_STAT.MEAS_REQ 0 = false ∧ a = min 255 d16.toNat ∧
            b = min 255 d17.toNat ∧ w = decide (s.chip.get DRG_AGE_CFG.DRIFT_MAX 0 < a ∨ s.chip.get DRG_AGE_CFG.DRIFT_MAX 0 < b)
                ∧ (a < s.chip.wear.lastPlan16 + 5 ∧ s.chip.wear.lastPlan16 < a + 5 ∧ b < s.chip.wear.lastPlan17 + 5 ∧
                    s.chip.wear.lastPlan17 < b + 5) ∧ w = true ∧ s.chip.wear.warned = false))
    ∧ (∃ (s : State) (d16 : Int) (d17 : Int) (_worst : Fin 24) (a : Nat) (b : Nat) (w : Bool),
        (s.Still ∧ s.chip.wear.measRun = true ∧ s.chip.on DRG_AGE_STAT.MEAS_REQ 0 = false ∧ a = min 255 d16.toNat ∧
            b = min 255 d17.toNat ∧ w = decide (s.chip.get DRG_AGE_CFG.DRIFT_MAX 0 < a ∨ s.chip.get DRG_AGE_CFG.DRIFT_MAX 0 < b)
                ∧ (s.chip.wear.lastPlan16 + 5 ≤ a ∨ a + 5 ≤ s.chip.wear.lastPlan16 ∨ s.chip.wear.lastPlan17 + 5 ≤ b ∨ b + 5 ≤ s.chip.wear.lastPlan17) ∧ w = false ∧ s.chip.domUp 16 = true ∧ max a b % 2 = 0 ∧ (∀ k ∈ List.range 16, s.chip.domUp k = false ∨ s.chip.legRatios k = [])))
    ∧ (∃ (s : State) (d16 : Int) (d17 : Int) (_worst : Fin 24) (a : Nat) (b : Nat) (w : Bool),
        (s.Still ∧ s.chip.wear.measRun = true ∧ s.chip.on DRG_AGE_STAT.MEAS_REQ 0 = false ∧ a = min 255 d16.toNat ∧
            b = min 255 d17.toNat ∧ w = decide (s.chip.get DRG_AGE_CFG.DRIFT_MAX 0 < a ∨ s.chip.get DRG_AGE_CFG.DRIFT_MAX 0 < b)
                ∧ (s.chip.wear.lastPlan16 + 5 ≤ a ∨ a + 5 ≤ s.chip.wear.lastPlan16 ∨ s.chip.wear.lastPlan17 + 5 ≤ b ∨ b + 5 ≤ s.chip.wear.lastPlan17) ∧ w = false ∧ s.chip.domUp 16 = true ∧ max a b % 2 = 1 ∧ (∀ k ∈ List.range 16, s.chip.domUp k = false ∨ s.chip.legRatios k = [])))
    ∧ (∃ (s : State) (d16 : Int) (d17 : Int) (_worst : Fin 24) (a : Nat) (b : Nat) (k : BankId) (hi : Nat) (lo : Nat) (w : Bool),
        (s.Still ∧ s.chip.wear.measRun = true ∧ s.chip.on DRG_AGE_STAT.MEAS_REQ 0 = false ∧ a = min 255 d16.toNat ∧
            b = min 255 d17.toNat ∧ w = decide (s.chip.get DRG_AGE_CFG.DRIFT_MAX 0 < a ∨ s.chip.get DRG_AGE_CFG.DRIFT_MAX 0 < b)
                ∧ (s.chip.wear.lastPlan16 + 5 ≤ a ∨ a + 5 ≤ s.chip.wear.lastPlan16 ∨ s.chip.wear.lastPlan17 + 5 ≤ b ∨ b + 5 ≤ s.chip.wear.lastPlan17) ∧ w = false ∧ s.chip.domUp 16 = true ∧ max a b % 2 = 0 ∧ s.chip.domUp k = true ∧ (hi, lo) = (match fracMedian (s.chip.legRatios k) with
        | some (p, q) => (clampNat 20 32 ((2 * (16 * p + 8 * q) + q) / (2 * q)), clampNat 4 12 ((2 * 8 * p + q) / (2 * q)))
        | none => (s.chip.get HTH_BANK_LEGLIM.HI_FACTOR k, s.chip.get HTH_BANK_LEGLIM.LO_FACTOR k)) ∧ (∀ i ∈ List.range 16,
            i = k.val ∨ s.chip.domUp i = false))) :=
  ⟨⟨(up : State), by decide +kernel⟩,
   ⟨(ch (up) (fun c => {c with wear := {c.wear with measRun := true}}) : State), by decide +kernel⟩,
   ⟨(up : State), (.portA : Path), by decide +kernel⟩,
   ⟨(ch (up) (fun c => {c with wear := {c.wear with measRun := true}}) : State), (.portA : Path), by decide +kernel⟩,
   ⟨(ch (up) (fun c => {c with wear := {c.wear with measRun := true}}) : State), (3 : Int), ((-2) : Int), (7 : Fin 24),
       (3 : Nat), (0 : Nat), (false : Bool), by decide +kernel⟩,
   ⟨(ch (puts (up) [(DRG_AGE_CFG.DRIFT_MAX,0,2)]) (fun c => {c with wear := {c.wear with measRun := true}}) : State),
       (3 : Int), (2 : Int), (7 : Fin 24), (3 : Nat), (2 : Nat), (true : Bool), by decide +kernel⟩,
   ⟨(ch (puts (up) [(DRG_DOM_STAT.UP,0,0xF0000)]) (fun c => {c with wear := {c.wear with measRun := true}}) : State),
       (30 : Int), (40 : Int), (7 : Fin 24), (30 : Nat), (40 : Nat), (false : Bool), by decide +kernel⟩,
   ⟨(ch (puts (up) [(DRG_DOM_STAT.UP,0,0xF0000)]) (fun c => {c with wear := {c.wear with measRun := true}}) : State),
       (30 : Int), (41 : Int), (7 : Fin 24), (30 : Nat), (41 : Nat), (false : Bool), by decide +kernel⟩,
   ⟨(ch (puts (up) [(DRG_DOM_STAT.UP,0,0xF0008),
       (HTH_LEG_RON.HI_RON,144,0xFFFF)]) (fun c => {c with wear := {c.wear with measRun := true}}) : State), (30 : Int),
           (40 : Int), (7 : Fin 24), (30 : Nat), (40 : Nat), (3 : BankId), (24 : Nat), (8 : Nat), (false : Bool),
               by decide +kernel⟩⟩

theorem witness_sparesAndWear :
    (∃ (s : State),
        (s.Still ∧ s.chip.domUp 16 = true))
    ∧ (∃ (s : State) (g : Fin 256),
        (s.Still ∧ s.chip.domUp 16 = true ∧ s.chip.wear.groupsOut.contains g.val = false))
    ∧ (∃ (s : State) (g : Fin 256) (_k : EccKind),
        (s.Still ∧ s.chip.wear.groupsOut.contains g.val = true))
    ∧ (∃ (s : State) (g : Fin 256) (row : Nat),
        (s.Still ∧ s.chip.domUp 16 = true ∧ s.chip.wear.groupsOut.contains g.val = false ∧
            s.chip.rowErrors g row + 1 < s.chip.get DRG_AGE_CFG.ROW_CE_LIM 0))
    ∧ (∃ (s : State) (g : Fin 256) (row : Nat) (used : Nat),
        (s.Still ∧ s.chip.domUp 16 = true ∧ s.chip.wear.groupsOut.contains g.val = false ∧
            s.chip.get DRG_AGE_CFG.ROW_CE_LIM 0 ≤ s.chip.rowErrors g row + 1 ∧ used = tabGet 0 s.chip.wear.rows g.val ∧
                used < 4))
    ∧ (∃ (s : State) (g : Fin 256) (row : Nat),
        (s.Still ∧ s.chip.domUp 16 = true ∧ s.chip.wear.groupsOut.contains g.val = false ∧
            s.chip.get DRG_AGE_CFG.ROW_CE_LIM 0 ≤ s.chip.rowErrors g row + 1 ∧ 4 ≤ tabGet 0 s.chip.wear.rows g.val))
    ∧ (∃ (s : State),
        (s.Still ∧ s.chip.domUp 19 = true))
    ∧ (∃ (s : State),
        (s.Still ∧ s.chip.domUp 19 = false))
    ∧ (∃ (s : State) (t : Nat),
        (s.Still ∧ s.chip.domUp 16 = true ∧ t = s.chip.wear.hrsFrac + eqGrowth (s.chip.get DRG_DMP_STAT.TJ_MAX 0)))
    ∧ (∃ (s : State) (l : LaneId),
        (s.Still ∧ s.chip.domUp 16 = true ∧ s.chip.bit FLU_LANE_STAT.RETIRED 0 l = false ∧
            s.chip.get FLU_LANE_STAT.SPARES 0 ≠ 0))
    ∧ (∃ (s : State) (l : LaneId),
        (s.Still ∧ s.chip.domUp 16 = true ∧ s.chip.bit FLU_LANE_STAT.RETIRED 0 l = false ∧
            s.chip.get FLU_LANE_STAT.SPARES 0 = 0)) :=
  ⟨⟨(ch (up) (fun c => {c with wear := {c.wear with minutes := 2000, rowCe := [((3,4),1999),((3,4),100)]}}) : State),
      by decide +kernel⟩,
   ⟨(up : State), (200 : Fin 256), by decide +kernel⟩,
   ⟨(ch (up) (fun c => {c with wear := {c.wear with groupsOut := [200]}}) : State), (200 : Fin 256),
       (.uncorrectable : EccKind), by decide +kernel⟩,
   ⟨(up : State), (200 : Fin 256), (5 : Nat), by decide +kernel⟩,
   ⟨(ch (up) (fun c => {c with wear := {c.wear with rowCe := [((200,5),0),((200,5),0),((7,5),0)]}}) : State), (200 : Fin 256),
       (5 : Nat), (0 : Nat), by decide +kernel⟩,
   ⟨(ch (up) (fun c => {c with wear := {c.wear with rowCe := [((200,5),0),((200,5),0),((7,5),0)], rows := [(200,4)]}}) : State), (200 : Fin 256), (5 : Nat), by decide +kernel⟩,
   ⟨(puts (up) [(HTH_LEG_STAT.LEG_RET,5,3), (DRG_WEAR_STAT.NVS_PEND,0,1)] : State), by decide +kernel⟩,
   ⟨(puts (up) [(DRG_DOM_STAT.UP,0,0)] : State), by decide +kernel⟩,
   ⟨(puts (up) [(DRG_DMP_STAT.TJ_MAX,0,85), (CRD_SESS_STAT.SESS,5,2), (KLN_OVL_STAT.REMAIN,2,9)] : State), (eqGrowth 85 : Nat),
       by decide +kernel⟩,
   ⟨(puts (up) [(FLU_LANE_STAT.SPARES,0,2)] : State), (5 : LaneId), by decide +kernel⟩,
   ⟨(puts (up) [(FLU_LANE_STAT.SPARES,0,0)] : State), (5 : LaneId), by decide +kernel⟩⟩

theorem witness_ashJudgesEvents :
    (∃ (s : State),
        (s.Still ∧ s.chip.ash.inbox = []))
    ∧ (∃ (s : State) (e : AshEv) (cls : Nat) (react : Nat),
        (s.Still ∧ s.chip.ash.inbox.head? = some e ∧ srcRow e.src = some (cls, react) ∧ s.chip.ash.safe = true))
    ∧ (∃ (s : State) (e : AshEv) (cls : Nat) (react : Nat),
        (s.Still ∧ s.chip.ash.inbox.head? = some e ∧ srcRow e.src = some (cls, react) ∧ s.chip.ash.safe = false ∧
            s.chip.banked e = true))
    ∧ (∃ (s : State) (e : AshEv) (react : Nat),
        (s.Still ∧ (react = 0 ∨ react = 1) ∧ s.chip.Judges e 1 react))
    ∧ (∃ (s : State) (e : AshEv) (react : Nat),
        (s.Still ∧ (react = 0 ∨ react = 1) ∧ e.src ≠ 0x28 ∧ s.chip.Judges e 2 react))
    ∧ (∃ (s : State) (e : AshEv),
        (s.Still ∧ e.src = 0x28 ∧ s.chip.Judges e 2 1 ∧ s.chip.ash.windows = []))
    ∧ (∃ (s : State) (e : AshEv) (n : SlotId),
        (s.Still ∧ e.src = 0x18 ∧ e.unit = n.val ∧ s.chip.Judges e 2 2 ∧ s.chip.slotState n = stCLINKER ∧
            (∀ f ∈ s.chip.ash.fences, f.unit ≠ .slot n) ∧ s.chip.ash.windows.contains (.slot n) = false))
    ∧ (∃ (s : State) (e : AshEv) (n : SlotId),
        (s.Still ∧ e.src = 0x18 ∧ e.unit = n.val ∧ s.chip.Judges e 2 2 ∧
            s.chip.ash.fences.any (fun f => decide (f.unit = .slot n)) = true))
    ∧ (∃ (s : State) (e : AshEv) (n : SlotId),
        (s.Still ∧ e.src = 0x18 ∧ e.unit = n.val ∧ s.chip.Judges e 2 2 ∧ 1 ≤ s.chip.slotState n ∧ s.chip.slotState n ≤ stBUSY ∧
            (∀ f ∈ s.chip.ash.fences, f.unit ≠ .slot n) ∧ s.chip.ash.windows.contains (.slot n) = false) ∧ s.chip.Bare n)
    ∧ (∃ (s : State) (e : AshEv) (b : BankId),
        (s.Still ∧ (e.src = 0x20 ∨ e.src = 0x21 ∨ e.src = 0x22) ∧ e.unit = b.val ∧ s.chip.Judges e 2 3 ∧ s.chip.domUp b = true
            ∧ s.chip.railEn (4 + b) = true ∧ s.chip.SlotsOut b ∧ (∀ f ∈ s.chip.ash.fences, f.unit ≠ .bank b) ∧
                s.chip.ash.windows.contains (.bank b) = false))
    ∧ (∃ (s : State) (e : AshEv) (k : CtxId) (g : ERegions),
        (s.Still ∧ (e.src = 0x53 ∨ e.src = 0x54) ∧ e.unit = k.val ∧ s.chip.Judges e 2 4 ∧ s.chip.ctxPaired k = false ∧
            s.chip.ctxJob k = false ∧ s.chip.ctxState k ≠ esFENCED ∧ g = s.chip.regionsOf k ∧ (∀ f ∈ s.chip.ash.fences,
                f.unit ≠ .ctx k) ∧ s.chip.ash.windows.contains (.ctx k) = false))
    ∧ (∃ (s : State) (e : AshEv) (l : LaneId),
        (s.Still ∧ e.src = 0x31 ∧ e.unit = l.val ∧ s.chip.Judges e 2 5 ∧ s.chip.bit FLU_LANE_STAT.RETIRED 0 l = false ∧
            9 ≤ s.chip.lanesUp ∧ (∀ f ∈ s.chip.ash.fences, f.unit ≠ .lane l) ∧ s.chip.ash.windows.contains (.lane l) = false))
    ∧ (∃ (s : State) (e : AshEv) (x : PortId),
        (s.Still ∧ (e.src = 0x41 ∨ e.src = 0x44) ∧ e.unit = x.val ∧ s.chip.Judges e 2 6 ∧ (∀ r ∈ s.chip.definedRings,
            s.chip.owner r ≠ x.val) ∧ (∀ f ∈ s.chip.ash.fences, f.unit ≠ .port x) ∧
                s.chip.ash.windows.contains (.port x) = false))
    ∧ (∃ (s : State) (e : AshEv) (d : DevId) (k : Nat),
        (s.Still ∧ e.src = 0x49 ∧ e.unit = d.val ∧ s.chip.Judges e 2 7 ∧ k = s.chip.kzFor d ∧ d.val ≠ s.chip.grp.dev ∧
            d.val ≤ s.chip.grp.size ∧ (s.chip.kzOf k).fwds = [] ∧ (∀ f ∈ s.chip.ash.fences, f.unit ≠ .peer d) ∧
                s.chip.ash.windows.contains (.peer d) = false))
    ∧ (∃ (s : State) (e : AshEv) (g : Fin 256),
        (s.Still ∧ e.src = 0x34 ∧ e.unit = g.val ∧ s.chip.Judges e 2 8 ∧ 64 ≤ g.val ∧
            s.chip.wear.groupsOut.contains g.val = false ∧ (∀ f ∈ s.chip.ash.fences, f.unit ≠ .group g) ∧
                s.chip.ash.windows.contains (.group g) = false))
    ∧ (∃ (s : State) (e : AshEv),
        (s.Still ∧ (e.src = 0x24 ∨ e.src = 0x4A) ∧ (e.src = 0x4A → s.chip.orphan = false) ∧ s.chip.Judges e 1 10))
    ∧ (∃ (s : State) (e : AshEv),
        (s.Still ∧ e.src = 0x4A ∧ s.chip.orphan = true ∧ s.chip.Judges e 1 10))
    ∧ (∃ (s : State) (e : AshEv) (x : Nat) (v : Nat),
        (s.Still ∧ x < 2 ∧ s.chip.ash.inbox.head? = some e ∧ srcRow e.src = some (2, 0) ∧ s.chip.ash.safe = false ∧
            s.chip.banked e = false ∧ e.forced = false ∧ s.chip.pmb.bel.phase = .none ∧ s.chip.on ASH_IRQ_CFG.EN x = true ∧
                s.chip.on ASH_IRQ_CFG.EN (1 - x) = false ∧ v = s.chip.get ASH_IRQ_CFG.VEC x ∧
                    (tabGet 0 s.chip.ash.irqUs x = 0 ∨ tabGet 0 s.chip.ash.irqUs x + 3 ≤ s.chip.us) ∧
                        v ≤ s.chip.get FLU_HP_CFG.MSIX_LAST x ∧ s.chip.portOpen x = true ∧ s.chip.msixMasked x v = false))
    ∧ (∃ (s : State) (e : AshEv),
        (s.Still ∧ s.chip.ash.inbox.head? = some e ∧ srcRow e.src = some (3, 9) ∧ (6 ≤ e.src → s.chip.banked e = false)) ∧
            s.chip.Quiet e) :=
  ⟨⟨(up : State), by decide +kernel⟩,
   ⟨(ch (up) (fun c => { c with ash := { c.ash with safe := true, inbox := [⟨0x18, 5, 5, false⟩] } }) : State), (⟨0x18, 5, 5,
       false⟩ : AshEv), (2 : Nat), (2 : Nat), by decide +kernel⟩,
   ⟨(ch (up) (fun c => { c with ash := { c.ash with windows := [.bank 1], inbox := [⟨0x19, 5, 5, false⟩] } }) : State), (⟨0x19,
       5, 5, false⟩ : AshEv), (1 : Nat), (0 : Nat), by decide +kernel⟩,
   ⟨(ch (up) (fun c => { c with ash := { c.ash with inbox := [⟨0x32, 5, 5, false⟩, ⟨0x33, 5, 5, false⟩] } }) : State), (⟨0x32,
       5, 5, false⟩ : AshEv), (0 : Nat), by decide +kernel⟩,
   ⟨(ch (up) (fun c => { c with ash := { c.ash with inbox := [⟨0x2E, 0, 5, false⟩] } }) : State), (⟨0x2E, 0, 5,
       false⟩ : AshEv), (0 : Nat), by decide +kernel⟩,
   ⟨(ch (up) (fun c => { c with ash := { c.ash with inbox := [⟨0x28, 1, 5, false⟩, ⟨0x32, 3, 0, false⟩] } }) : State), (⟨0x28,
       1, 5, false⟩ : AshEv), by decide +kernel⟩,
   ⟨(ch (inState up 5 9) (fun c => { c with ash := { c.ash with inbox := [⟨0x18, 5, 5, false⟩] } }) : State), (⟨0x18, 5, 5,
       false⟩ : AshEv), (5 : SlotId), by decide +kernel⟩,
   ⟨(ch (inState up 5 9) (fun c => { c with ash := { c.ash with inbox := [⟨0x18, 5, 5, false⟩], fences := [⟨.slot 5, 6, false⟩] } }) : State), (⟨0x18, 5, 5, false⟩ : AshEv), (5 : SlotId), by decide +kernel⟩,
   ⟨(ch (inState up 5 6) (fun c => { c with ash := { c.ash with inbox := [⟨0x18, 5, 5, false⟩] } }) : State), (⟨0x18, 5, 5,
       false⟩ : AshEv), (5 : SlotId), by decide +kernel, bare_of (by decide +kernel)⟩,
   ⟨(ch (puts (up) [(DRG_RAIL_EN.RAIL,0,0xFFFFFF)]) (fun c => { c with ash := { c.ash with inbox := [⟨0x20, 3, 5, false⟩] } }) : State), (⟨0x20, 3, 5, false⟩ : AshEv), (3 : BankId), by decide +kernel⟩,
   ⟨(ch (up) (fun c => { c with ash := { c.ash with inbox := [⟨0x53, 3, 5, false⟩] } }) : State), (⟨0x53, 3, 5,
       false⟩ : AshEv), (3 : CtxId), ((ch (up) (fun c => { c with ash := { c.ash with inbox := [⟨0x53, 3, 5, false⟩] } })).chip.regionsOf 3 : ERegions), by decide +kernel⟩,
   ⟨(ch (up) (fun c => { c with ash := { c.ash with inbox := [⟨0x31, 3, 5, false⟩] } }) : State), (⟨0x31, 3, 5,
       false⟩ : AshEv), (3 : LaneId), by decide +kernel⟩,
   ⟨(ch (up) (fun c => { c with ash := { c.ash with inbox := [⟨0x44, 1, 5, false⟩] } }) : State), (⟨0x44, 1, 5,
       false⟩ : AshEv), (1 : PortId), by decide +kernel⟩,
   ⟨(ch (ch (up) (fun c => {c with grp := {c.grp with size := 1}})) (fun c => { c with ash := { c.ash with inbox := [⟨0x49, 1, 5, false⟩] } }) : State), (⟨0x49, 1, 5, false⟩ : AshEv), (1 : DevId), (0 : Nat), by decide +kernel⟩,
   ⟨(ch (up) (fun c => { c with ash := { c.ash with inbox := [⟨0x34, 100, 5, false⟩] } }) : State), (⟨0x34, 100, 5,
       false⟩ : AshEv), (100 : Fin 256), by decide +kernel⟩,
   ⟨(ch (up) (fun c => { c with ash := { c.ash with inbox := [⟨0x24, 3, 5, false⟩], fences := [⟨.bank 3, 0x21, false⟩, ⟨.bank 4, 0x21, false⟩] } }) : State), (⟨0x24, 3, 5, false⟩ : AshEv), by decide +kernel⟩,
   ⟨(ch (puts (up) [(DRG_GRP_STAT.ORPHAN,0,1)]) (fun c => { c with ash := { c.ash with inbox := [⟨0x4A, 1, 5, false⟩], fences := [⟨.peer 1, 0x49, false⟩] } }) : State), (⟨0x4A, 1, 5, false⟩ : AshEv), by decide +kernel⟩,
   ⟨(ch (ch (puts (ringUp 0 id) [(ASH_IRQ_CFG.EN,0,1), (ASH_IRQ_CFG.VEC,0,3),
       (FLU_HP_CFG.MSIX_LAST,0,7)]) (fun c => c.setPort 0 {c.port 0 with msix := [(15,0)]})) (fun c => { c with ash := { c.ash with inbox := [⟨0x2E, 0, 5, false⟩] } }) : State), (⟨0x2E, 0, 5, false⟩ : AshEv), (0 : Nat), (3 : Nat), by decide +kernel⟩,
   ⟨(ch (ringUp 0 id) (fun c => { c with ash := { c.ash with inbox := [⟨0x02, 0, 5, false⟩] } }) : State), (⟨0x02, 0, 5,
       false⟩ : AshEv), by decide +kernel, quiet_of (by decide +kernel)⟩⟩

theorem witness_ashTimersAndDetectors :
    (∃ (s : State),
        (s.Still ∧ s.chip.ash.pulse = true))
    ∧ (∃ (s : State) (_u : FUnit),
        (s.Still))
    ∧ (∃ (s : State),
        (s.Still ∧ s.chip.domUp 19 = true))
    ∧ (∃ (s : State),
        (s.Still ∧ s.chip.domUp 19 = false))
    ∧ (∃ (s : State),
        (s.Still))
    ∧ (∃ (s : State) (e : AshEv),
        (s.Still ∧ e = ⟨0, 0, 0, false⟩) ∧ s.chip.Quiet e)
    ∧ (∃ (s : State),
        (s.Still ∧ s.chip.domUp 16 = true))
    ∧ (∃ (s : State),
        (s.Still ∧ s.chip.domUp 16 = true))
    ∧ (∃ (s : State) (_k : Fin 8),
        (s.Still))
    ∧ (∃ (s : State),
        (s.Still ∧ s.chip.seq.cardLock = true ∧ (∀ k ∈ List.range 8, s.chip.ctxJob k = false)))
    ∧ (∃ (s : State),
        (s.Still ∧ s.chip.seq.cardLock = false ∧ s.chip.domUp 16 = true))
    ∧ (∃ (s : State),
        (s.Still ∧ s.chip.seq.linkLock = true ∧ s.chip.grp.size = 0))
    ∧ (∃ (s : State) (k : Nat),
        (s.Still ∧ s.chip.seq.linkLock = true ∧ s.chip.grp.size = 1 ∧ s.chip.grp.dev ≤ 1 ∧
            k = s.chip.kzFor (1 - s.chip.grp.dev)))
    ∧ (∃ (s : State),
        (s.Still))
    ∧ (∃ (s : State),
        (s.Still)) :=
  ⟨⟨(ch (up) (fun c => { c with ash := { c.ash with pulse := true } }) : State), by decide +kernel⟩,
   ⟨(ch (up) (fun c => { c with ash := { c.ash with windows := [.slot 4, .bank 1] } }) : State), (.slot 4 : FUnit),
       by decide +kernel⟩,
   ⟨(ch (up) (fun c => { c with ash := { c.ash with nvsPend := [⟨1,2,3,4⟩,⟨5,6,7,8⟩] } }) : State), by decide +kernel⟩,
   ⟨(ch (puts (up) [(DRG_DOM_STAT.UP,0,0)]) (fun c => { c with ash := { c.ash with nvsPend := [⟨1,2,3,4⟩,⟨5,6,7,8⟩] } }) : State), by decide +kernel⟩,
   ⟨(up : State), by decide +kernel⟩,
   ⟨(ch (up) (fun c => { c with ash := { c.ash with inbox := [⟨0x32, 3, 5, false⟩] } }) : State), (⟨0, 0, 0, false⟩ : AshEv),
       by decide +kernel, quiet_of (by decide +kernel)⟩,
   ⟨(up : State), by decide +kernel⟩,
   ⟨(up : State), by decide +kernel⟩,
   ⟨(up : State), (3 : Fin 8), by decide +kernel⟩,
   ⟨(up : State), by decide +kernel⟩,
   ⟨(ch up (fun c => {c with seq := {c.seq with cardLock := false}}) : State), by decide +kernel⟩,
   ⟨(up : State), by decide +kernel⟩,
   ⟨(ch (puts (up) [(DRG_KZ_STAT.INIT_OK,0,1), (DRG_KZ_STAT.SYM_LOCK,0,1),
       (FLU_LIVE.LIVE,2,7)]) (fun c => {c with grp := {c.grp with size := 1}, ash := {c.ash with hbRun := [(1,2)]}}) : State),
           (0 : Nat), by decide +kernel⟩,
   ⟨(ch up (fun c => {c with seq := {c.seq with linkLock := false}}) : State), by decide +kernel⟩,
   ⟨(ch (up) (fun c => { c with ash := { c.ash with tamper := true } }) : State), by decide +kernel⟩⟩

theorem witness_forceAndInjection :
    (∃ (s : State) (p : Path) (i : Instr) (u : Nat) (kind : Nat) (r : Nat),
        (s.Takes p blkASH true ∧ (i, kind) ∈ ([(.forceSlotShort p u, 1), (.forceSlotRemoval p u, 2), (.forceBankRailFault p u,
            3),
          (.forcePeerLoss p u, 4), (.forcePortLoss p u, 5), (.forceEmberJobFailure p u, 6)] : List (Instr × Nat)) ∧
              r = s.chip.forceResult false kind u ∧ r ≠ 0))
    ∧ (∃ (s : State) (p : Path) (n : SlotId),
        (s.Takes p blkASH true ∧ s.chip.forceResult false 1 n = 0 ∧ 1 ≤ s.chip.slotState n ∧ s.chip.slotState n ≤ stBUSY) ∧
            s.chip.Bare n)
    ∧ (∃ (s : State) (p : Path) (n : SlotId) (w : Nat),
        (s.Takes p blkASH true ∧ s.chip.forceResult false 2 n = 0 ∧ 1 ≤ s.chip.slotState n ∧ s.chip.slotState n ≤ stBUSY ∧
            w = (if h : n.val < 4 then s.chip.monWord (.pmon ⟨n.val, h⟩) else 0)) ∧ s.chip.Bare n)
    ∧ (∃ (s : State) (p : Path) (b : BankId) (i : Nat),
        (s.Takes p blkASH true ∧ s.chip.forceResult false 3 b = 0 ∧ i = 4 + b.val ∧ s.chip.railPg i = true ∧
            s.chip.seqState = sqRUNNING ∧ s.chip.RetryLeft i ∧ s.chip.pmb.bel.phase = .none ∧ s.chip.SlotsOut b))
    ∧ (∃ (s : State) (p : Path) (d : DevId),
        (s.Takes p blkASH true ∧ s.chip.forceResult false 4 d = 0 ∧ s.chip.PeerIdle d))
    ∧ (∃ (s : State) (p : Path) (x : PortId),
        (s.Takes p blkASH true ∧ s.chip.forceResult false 5 x = 0 ∧ (∀ r ∈ s.chip.definedRings, s.chip.owner r ≠ x.val)))
    ∧ (∃ (s : State) (p : Path) (k : CtxId) (g : ERegions),
        (s.Takes p blkASH true ∧ s.chip.forceResult false 6 k = 0 ∧ s.chip.domUp 17 = true ∧ s.chip.HostCtx k ∧
            s.chip.ctxJob k = true ∧ g = s.chip.regionsOf k))
    ∧ (∃ (s : State) (p : Path) (kind : Nat) (u : Nat),
        (s.Takes p blkASH true ∧ kind < 16 ∧ s.chip.forceResult true kind u = 0 ∧ (kind = 4 ∨ s.chip.serving u = false)))
    ∧ (∃ (s : State) (p : Path) (kind : Nat) (u : Nat) (r : Nat),
        (s.Takes p blkASH true ∧ kind < 16 ∧ r = s.chip.forceResult true kind u ∧ r ≠ 0))
    ∧ (∃ (s : State) (p : Path) (src : Nat) (u : Nat) (r : Nat),
        (s.Takes p blkASH true ∧ src < 256 ∧ u < 256 ∧
            r = (if s.chip.forceAllowed true = false then 1 else if srcRow src = none then 2 else if unitOk src u = false then 3 else 0) ∧ r ≠ 0))
    ∧ (∃ (s : State) (p : Path) (src : Nat) (u : Nat),
        (s.Takes p blkASH true ∧ src < 256 ∧ u < 256 ∧ s.chip.forceAllowed true = true ∧ (srcRow src).isSome = true ∧
            unitOk src u = true ∧ ([0x10, 0x11, 0x12, 0x13, 0x20, 0x21, 0x28, 0x2A, 0x2B,
                0x58] : List Nat).contains src = false))
    ∧ (∃ (s : State) (p : Path) (src : Nat) (u : Nat),
        (s.Takes p blkASH true ∧ src < 256 ∧ u < 256 ∧ s.chip.forceAllowed true = true ∧ (srcRow src).isSome = true ∧
            unitOk src u = true ∧ src = 0x58 ∧ u = 0))
    ∧ (∃ (s : State) (p : Path) (n : SlotId),
        (s.Takes p blkASH true ∧ s.chip.forceAllowed true = true ∧ 1 ≤ s.chip.slotState n ∧ s.chip.slotState n ≤ stBUSY) ∧
            s.chip.Bare n) :=
  ⟨⟨(up : State), (.portA : Path), (.forceSlotShort .portA 5 : Instr), (5 : Nat), (1 : Nat), (1 : Nat), by decide +kernel⟩,
   ⟨(puts (inState up 5 6) [(KLN_LC_WORD.VALUE,0,0xFF), (HTH_SLOT_ESTAT.SW_CLOSED,5,1)] : State), (.portA : Path),
       (5 : SlotId), by decide +kernel, bare_of (by decide +kernel)⟩,
   ⟨(puts (inState up 5 6) [(KLN_LC_WORD.VALUE,0,0xFF)] : State), (.portA : Path), (5 : SlotId), (0 : Nat), by decide +kernel,
       bare_of (by decide +kernel)⟩,
   ⟨(puts (up) [(KLN_LC_WORD.VALUE,0,0xFF), (DRG_RAIL_EN.RAIL,0,0xFFFFFF)] : State), (.portA : Path), (7 : BankId), (11 : Nat),
       by decide +kernel⟩,
   ⟨(ch (puts (up) [(KLN_LC_WORD.VALUE,0,0xFF),
       (FLU_LIVE.LIVE,2,7)]) (fun c => {c with grp := {c.grp with size := 1}, ash := {c.ash with present := [0,1]}}) : State),
           (.portA : Path), (1 : DevId), by decide +kernel⟩,
   ⟨(puts (up) [(KLN_LC_WORD.VALUE,0,0xFF)] : State), (.portA : Path), (1 : PortId), by decide +kernel⟩,
   ⟨(puts (up) [(EMB_CSTAT.STATE,4,4), (EMB_DST.LEN,4,3), (KLN_LC_WORD.VALUE,0,0xFF)] : State), (.portA : Path), (4 : CtxId),
       ((puts (up) [(EMB_CSTAT.STATE,4,4), (EMB_DST.LEN,4,3), (KLN_LC_WORD.VALUE,0,0xFF)]).chip.regionsOf 4 : ERegions),
           by decide +kernel⟩,
   ⟨(ch (puts (up) [(KLN_LC_WORD.VALUE,0,0xFF)]) (fun c => { c with ash := { c.ash with fences := [⟨.peer 1, 0x49, true⟩, ⟨.peer 2, 0x49, true⟩, ⟨.peer 1, 0x49, false⟩] } }) : State), (.portA : Path), (4 : Nat), (1 : Nat), by decide +kernel⟩,
   ⟨(puts (up) [(KLN_LC_WORD.VALUE,0,0xFF)] : State), (.portA : Path), (3 : Nat), (1 : Nat), (2 : Nat), by decide +kernel⟩,
   ⟨(up : State), (.portA : Path), (0x10 : Nat), (4 : Nat), (1 : Nat), by decide +kernel⟩,
   ⟨(puts (up) [(KLN_LC_WORD.VALUE,0,0xFF)] : State), (.portA : Path), (0x15 : Nat), (4 : Nat), by decide +kernel⟩,
   ⟨(puts (up) [(KLN_LC_WORD.VALUE,0,0xFF), (CRD_STAT.ES_OK,0,1)] : State), (.portA : Path), (0x58 : Nat), (0 : Nat),
       by decide +kernel⟩,
   ⟨(puts (inState up 5 6) [(KLN_LC_WORD.VALUE,0,0xFF)] : State), (.portA : Path), (5 : SlotId), by decide +kernel,
       bare_of (by decide +kernel)⟩⟩

theorem witness_ashCommandsAndWarmReset :
    (∃ (s : State) (p : Path) (key : Nat) (i : Instr),
        (s.Still ∧ s.chip.served p blkASH true true = true ∧ key ≠ 0x5A ∧ (i = .warm p key ∨ i = .liftPort p key 3)))
    ∧ (∃ (s : State) (p : Path) (key : Nat),
        (s.Still ∧ s.chip.served p blkASH true true = true ∧ key = 0x5A ∧ s.chip.ash.tamper = true))
    ∧ (∃ (s : State) (p : Path) (key : Nat),
        (s.Still ∧ s.chip.served p blkASH true true = true ∧ key = 0x5A ∧ s.chip.ash.tamper = false ∧
            s.chip.kln.lc.isSome = true ∧ 1 < s.chip.get KLN_LC_STAT.PHASE 0))
    ∧ (∃ (s : State) (p : Path) (key : Nat),
        (s.Still ∧ s.chip.served p blkASH true true = true ∧ key = 0x5A ∧ s.chip.ash.tamper = false ∧
            (s.chip.kln.lc = none ∨ s.chip.get KLN_LC_STAT.PHASE 0 ≤ 1) ∧ (∀ n ∈ List.range 64,
                s.chip.slotState n = stOFF ∨ s.chip.slotState n = stABSENT ∨ s.chip.slotState n = stCLINKER)))
    ∧ (∃ (s : State) (p : Path) (key : Nat) (n : SlotId),
        (s.Still ∧ s.chip.served p blkASH true true = true ∧ key = 0x5A ∧ s.chip.ash.tamper = false ∧
            (s.chip.kln.lc = none ∨ s.chip.get KLN_LC_STAT.PHASE 0 ≤ 1) ∧ 1 ≤ s.chip.slotState n ∧ s.chip.slotState n ≤ stBUSY
                ∧ (∀ m ∈ List.range 64, m = n.val ∨ s.chip.slotState m = stOFF ∨ s.chip.slotState m = stABSENT ∨ s.chip.slotState m = stCLINKER)) ∧ s.chip.Bare n)
    ∧ (∃ (s : State) (p : Path) (key : Nat) (_ports : Nat),
        (s.Still ∧ s.chip.served p blkASH true true = true ∧ key = 0x5A ∧ (∀ x ∈ List.range 2, s.chip.serving x = false)))
    ∧ (∃ (s : State),
        (s.Still ∧ (s.chip.ash.warmPend = false ∨ s.chip.allInactive = false))) :=
  ⟨⟨(up : State), (.portA : Path), (0x5B : Nat), (.warm .portA 0x5B : Instr), by decide +kernel⟩,
   ⟨(ch (up) (fun c => { c with ash := { c.ash with tamper := true } }) : State), (.portA : Path), (0x5A : Nat),
       by decide +kernel⟩,
   ⟨(ch (puts (up) [(KLN_LC_STAT.PHASE,0,2)]) (fun c => {c with kln := {c.kln with lc := some ⟨3, .quiesce, false, false, false⟩}}) : State), (.portA : Path), (0x5A : Nat), by decide +kernel⟩,
   ⟨(inState up 5 10 : State), (.portA : Path), (0x5A : Nat), by decide +kernel⟩,
   ⟨(inState up 5 6 : State), (.portA : Path), (0x5A : Nat), (5 : SlotId), by decide +kernel, bare_of (by decide +kernel)⟩,
   ⟨(ch (up) (fun c => { c with ash := { c.ash with fences := [⟨.port 0, 0x44, false⟩, ⟨.port 1, 0x44, false⟩, ⟨.port 1, 0x41, false⟩, ⟨.slot 1, 0x44, false⟩] } }) : State), (.portA : Path), (0x5A : Nat), (2 : Nat), by decide +kernel⟩,
   ⟨(up : State), by decide +kernel⟩⟩

theorem witness_imagesAndOverlays :
    (∃ (s : State) (p : Path) (i : Instr) (op : ImgOp),
        (s.Takes p blkKLN true ∧ (i, op) ∈ ([(.applyBase p, .applyBase), (.storeBase p, .storeBase), (.applyOvl p,
            .applyOvl)] : List (Instr × ImgOp)) ∧ s.chip.KilnIdle ∧ (op = .applyBase → s.chip.kln.baseOn = false) ∧
                (op = .applyOvl → s.chip.kln.baseOn = true) ∧ (op ≠ .applyOvl → s.chip.domUp 19 = true)))
    ∧ (∃ (s : State) (p : Path) (i : Instr) (op : Nat),
        (s.Takes p blkKLN true ∧ (i, op) ∈ ([(.applyBase p, 1), (.storeBase p, 2), (.applyOvl p, 3), (.removeOvl p 3,
            4)] : List (Instr × Nat)) ∧ (s.chip.kln.img.isSome = true ∨ s.chip.kln.job.isSome = true ∨ s.chip.on KLN_IMG_RES.BUSY 0 = true)))
    ∧ (∃ (s : State) (p : Path) (i : Instr) (op : Nat),
        (s.Takes p blkKLN true ∧ ((i, op) = (.applyBase p, 1) ∧ (s.chip.kln.baseOn = true ∨ s.chip.domUp 19 = false)
          ∨ (i, op) = (.storeBase p, 2) ∧ s.chip.domUp 19 = false ∨ (i, op) = (.applyOvl p, 3) ∧ s.chip.kln.baseOn = false) ∧
              s.chip.KilnIdle))
    ∧ (∃ (s : State) (p : Path) (k : Nat) (o : OvlX),
        (s.Takes p blkKLN true ∧ k < 8 ∧ s.chip.KilnIdle ∧ s.chip.ovl? k = some o ∧ s.chip.get KLN_OVL_STAT.STATE k = 2 ∧
            o.mode ≠ 2))
    ∧ (∃ (s : State) (p : Path) (k : Nat),
        (s.Takes p blkKLN true ∧ k < 8 ∧ s.chip.KilnIdle ∧ s.chip.get KLN_OVL_STAT.STATE k ≠ 2))
    ∧ (∃ (s : State),
        (s.Still ∧ s.chip.kln.removals = [] ∧ s.chip.kln.img = none))
    ∧ (∃ (s : State) (j : ImgJob),
        (s.Still ∧ s.chip.kln.removals = [] ∧ s.chip.kln.img = some j ∧ j.op = .select ∧ s.chip.domUp 19 = false))
    ∧ (∃ (s : State) (j : ImgJob) (res : Nat) (num : Nat),
        (s.Still ∧ s.chip.kln.removals = [] ∧ s.chip.kln.img = some j ∧ (j.op = .applyBase ∨ j.op = .storeBase) ∧
            s.chip.imgCheck s.otp s.nvs true false j.bytes = .inl (res, num)))
    ∧ (∃ (s : State) (j : ImgJob) (res : Nat) (num : Nat),
        (s.Still ∧ s.chip.kln.removals = [] ∧ s.chip.kln.img = some j ∧ j.op = .applyOvl ∧
            s.chip.imgCheck s.otp s.nvs false false j.bytes = .inl (res, num) ∧ (match imgForm false j.bytes with
          | .inr m => decide (m.mode ≠ 2)
          | .inl _ => true) = true))
    ∧ (∃ (s : State) (j : ImgJob) (m : Img) (k : Nat) (o : OvlX),
        (s.Still ∧ s.chip.kln.removals = [] ∧ s.chip.kln.img = some j ∧ j.op = .applyOvl ∧ imgForm false j.bytes = .inr m ∧
            s.chip.imgCheck s.otp s.nvs false false j.bytes = .inr m ∧ m.mode = 1 ∧ m.persist = false ∧ s.chip.ovlFree = some k
                ∧ o = ⟨k, 1, m.recs, m.routes, [], [], false, j.bytes⟩))
    ∧ (∃ (s : State),
        (s.Still ∧ s.chip.kln.removals = [] ∧ s.chip.kln.job = none))
    ∧ (∃ (s : State) (j : OvlJob) (o : OvlX),
        (s.Still ∧ s.chip.kln.removals = [] ∧ s.chip.kln.job = some j ∧ s.chip.ovl? j.index = some o ∧ s.chip.quiet o = false))
    ∧ (∃ (s : State) (j : OvlJob) (o : OvlX) (addr : Nat) (v : Nat) (old : Nat),
        (s.Still ∧ s.chip.kln.removals = [] ∧ s.chip.kln.job = some j ∧ j.removing = false ∧ s.chip.ovl? j.index = some o ∧
            s.chip.quiet o = true ∧ o.mode = 1 ∧ o.persist = false ∧ regAt addr = some (.FLU_SCHED_CFG, 0) ∧ v < 51 ∧
                o.recs = [⟨addr, 2 ^ 16 * v, 0x00FF0000⟩] ∧ o.routes = [] ∧ old = s.chip.word .FLU_SCHED_CFG 0 ∧
                    s.chip.on HTH_MON_GSTAT.FIXED_M1 0 = decide (32 < s.chip.activeSlots)))
    ∧ (∃ (s : State) (j : OvlJob) (o : OvlX) (k : Nat),
        (s.Still ∧ s.chip.kln.removals = [] ∧ s.chip.kln.job = some j ∧ j.removing = false ∧ s.chip.ovl? j.index = some o ∧
            s.chip.quiet o = true ∧ o.mode = 1 ∧ o.persist = true ∧ o.recs = [] ∧ o.routes = [] ∧
                (List.range 16).find? (fun k => (tabFind s.nvs.ovl k).isNone) = some k ∧
                    s.chip.on HTH_MON_GSTAT.FIXED_M1 0 = decide (32 < s.chip.activeSlots)))
    ∧ (∃ (s : State) (j : OvlJob) (o : OvlX) (addr : Nat) (v : Nat),
        (s.Still ∧ s.chip.kln.removals = [] ∧ s.chip.kln.job = some j ∧ j.removing = true ∧ s.chip.ovl? j.index = some o ∧
            s.chip.quiet o = true ∧ o.mode = 1 ∧ regAt addr = some (.FLU_SCHED_CFG, 0) ∧ v < 51 ∧ o.recs.any recPins = false ∧
                o.saved = [⟨addr, 2 ^ 16 * v, 0x00FF0000⟩] ∧ o.savedRoutes = [] ∧ o.routes = [] ∧
                    16 ≤ s.chip.get KLN_OVL_STAT.STORE o.index ∧
                        s.chip.on HTH_MON_GSTAT.FIXED_M1 0 = decide (32 < s.chip.activeSlots)))
    ∧ (∃ (s : State) (j : OvlJob) (o : OvlX),
        (s.Still ∧ s.chip.kln.removals = [] ∧ s.chip.kln.job = some j ∧ j.removing = false ∧ s.chip.ovl? j.index = some o))
    ∧ (∃ (s : State),
        (s.Still ∧ s.chip.kln.removals = [] ∧ (s.chip.kln.job = none ∨ s.chip.kln.job.any (fun j => j.removing) = true)))
    ∧ (∃ (s : State) (k : Fin 8) (o : OvlX),
        (s.Still ∧ s.chip.kln.removals = [] ∧ s.chip.KilnIdle ∧ s.chip.ovl? k = some o ∧ s.chip.get KLN_OVL_STAT.STATE k = 2 ∧
            o.mode ≠ 2))
    ∧ (∃ (s : State) (k : Fin 8) (o : OvlX),
        (s.Still ∧ s.chip.kln.removals = [] ∧ s.chip.kln.job.isSome = true ∧ s.chip.ovl? k = some o ∧
            s.chip.get KLN_OVL_STAT.STATE k = 2)) :=
  ⟨⟨(ch (puts (up) [(KLN_IMG_ADDR.OFFSET,0,2)]) (fun c => { c with kln := { c.kln with baseOn := false } }) : State),
      (.portA : Path), (.applyBase .portA : Instr), (.applyBase : ImgOp), by decide +kernel⟩,
   ⟨(puts (up) [(KLN_IMG_RES.BUSY,0,1)] : State), (.portA : Path), (.removeOvl .portA 3 : Instr), (4 : Nat), by decide +kernel⟩,
   ⟨(ch (up) (fun c => { c with kln := { c.kln with baseOn := false } }) : State), (.portA : Path), (.applyOvl .portA : Instr),
       (3 : Nat), by decide +kernel⟩,
   ⟨(ch (puts (up) [(KLN_OVL_STAT.STATE,2,2)]) (fun c => { c with kln := { c.kln with ovls := [⟨2, 1, [⟨0x700000, 0x00210000, 0x00FF0000⟩], [], [], [], false, []⟩] } }) : State), (.portA : Path), (2 : Nat), (⟨2, 1, [⟨0x700000, 0x00210000, 0x00FF0000⟩], [], [], [], false, []⟩ : OvlX), by decide +kernel⟩,
   ⟨(up : State), (.portA : Path), (2 : Nat), by decide +kernel⟩,
   ⟨(up : State), by decide +kernel⟩,
   ⟨(ch (puts (up) [(DRG_DOM_STAT.UP,0,0)]) (fun c => { c with kln := { c.kln with img := some ⟨.select, []⟩ } }) : State),
       (⟨.select, []⟩ : ImgJob), by decide +kernel⟩,
   ⟨(ch (puts (up) [(KLN_IMG_RES.BUSY,0,1)]) (fun c => { c with kln := { c.kln with img := some ⟨.storeBase, []⟩ } }) : State),
       (⟨.storeBase, []⟩ : ImgJob), (1 : Nat), (0 : Nat), by decide +kernel⟩,
   ⟨(ch (puts (up) [(KLN_IMG_RES.BUSY,0,1)]) (fun c => { c with kln := { c.kln with img := some ⟨.applyOvl, []⟩ } }) : State),
       (⟨.applyOvl, []⟩ : ImgJob), (1 : Nat), (0 : Nat), by decide +kernel⟩,
   ⟨({ (ch (puts (up) [(KLN_IMG_RES.BUSY,0,1)]) (fun c => { c with kln := { c.kln with img := some ⟨.applyOvl, (beBytes 281 0x4e445348010201011901000003000000000000000000000000000000000000000000000000000000000000000000000000005a00000000000000000000000000010001004c0000000c00000000007000000021000000ff0004fbf96095915eb587390f850ec95b35f618ae121c72a70808ad8f9f4c261b602b63541743e395f7c778e52bb28c18dc83016a6ff3f72c9368326ad50a3bd148a53cd2213bb480e4730ad019db87ae100995ec65df011e19811a15dc9ddfc9ab3c02e0c6f7def33b4d7ba0b4b606a28e9a7eb024271b71e01c8e459389c3554b1d04fe123536b9b0ace7c056ef342961e4ec3c2a5ad73281fa89ed8c655b16ea3e30db9eb07318af0e6d05e0b1d43dbc2c38194ac16347197aacadf1fe2f8c68f5)⟩, baseOn := true, marks := [⟨0x700000, 0x00FF0000, 1⟩] } })) with otp := [(0, 65535), (2, 3), (52, 15), (200, 3999132391), (201, 3245277792), (202, 353547520), (203, 1988753651), (204, 3021864819), (205, 2084120939), (206, 1888779355), (207, 1305885866), (208, 3119342108), (209, 4282843891), (210, 631763471), (211, 2706716097)] } : State), (⟨.applyOvl, (beBytes 281 0x4e445348010201011901000003000000000000000000000000000000000000000000000000000000000000000000000000005a00000000000000000000000000010001004c0000000c00000000007000000021000000ff0004fbf96095915eb587390f850ec95b35f618ae121c72a70808ad8f9f4c261b602b63541743e395f7c778e52bb28c18dc83016a6ff3f72c9368326ad50a3bd148a53cd2213bb480e4730ad019db87ae100995ec65df011e19811a15dc9ddfc9ab3c02e0c6f7def33b4d7ba0b4b606a28e9a7eb024271b71e01c8e459389c3554b1d04fe123536b9b0ace7c056ef342961e4ec3c2a5ad73281fa89ed8c655b16ea3e30db9eb07318af0e6d05e0b1d43dbc2c38194ac16347197aacadf1fe2f8c68f5)⟩ : ImgJob), ((match imgForm false (beBytes 281 0x4e445348010201011901000003000000000000000000000000000000000000000000000000000000000000000000000000005a00000000000000000000000000010001004c0000000c00000000007000000021000000ff0004fbf96095915eb587390f850ec95b35f618ae121c72a70808ad8f9f4c261b602b63541743e395f7c778e52bb28c18dc83016a6ff3f72c9368326ad50a3bd148a53cd2213bb480e4730ad019db87ae100995ec65df011e19811a15dc9ddfc9ab3c02e0c6f7def33b4d7ba0b4b606a28e9a7eb024271b71e01c8e459389c3554b1d04fe123536b9b0ace7c056ef342961e4ec3c2a5ad73281fa89ed8c655b16ea3e30db9eb07318af0e6d05e0b1d43dbc2c38194ac16347197aacadf1fe2f8c68f5) with | .inr m => m | .inl _ => ⟨false,0,0,0,0,0,[],0,0,0,false,[],[],[],[],[],[],[],[]⟩) : Img), (0 : Nat), (⟨0, 1, [⟨0x700000, 0x00210000, 0x00FF0000⟩], [], [], [], false, (beBytes 281 0x4e445348010201011901000003000000000000000000000000000000000000000000000000000000000000000000000000005a00000000000000000000000000010001004c0000000c00000000007000000021000000ff0004fbf96095915eb587390f850ec95b35f618ae121c72a70808ad8f9f4c261b602b63541743e395f7c778e52bb28c18dc83016a6ff3f72c9368326ad50a3bd148a53cd2213bb480e4730ad019db87ae100995ec65df011e19811a15dc9ddfc9ab3c02e0c6f7def33b4d7ba0b4b606a28e9a7eb024271b71e01c8e459389c3554b1d04fe123536b9b0ace7c056ef342961e4ec3c2a5ad73281fa89ed8c655b16ea3e30db9eb07318af0e6d05e0b1d43dbc2c38194ac16347197aacadf1fe2f8c68f5)⟩ : OvlX), by decide +kernel⟩,
   ⟨(up : State), by decide +kernel⟩,
   ⟨(ch (puts (up) [(KLN_IMG_RES.BUSY,0,1), (KLN_OVL_STAT.STATE,2,1),
       (HTH_SLOT_STAT.STATE,5,7)]) (fun c => { c with kln := { c.kln with ovls := [⟨2, 1, [⟨0x700000, 0x00210000, 0x00FF0000⟩], [], [], [], false, []⟩], job := some ⟨2, false, true⟩, heldSlots := [5] } }) : State), (⟨2, false, true⟩ : OvlJob), (⟨2, 1, [⟨0x700000, 0x00210000, 0x00FF0000⟩], [], [], [], false, []⟩ : OvlX), by decide +kernel⟩,
   ⟨(ch (puts (up) [(KLN_IMG_RES.BUSY,0,1), (KLN_OVL_STAT.STATE,2,1), (HTH_MON_GSTAT.ACTIVE,0,8),
       (HTH_BANK_CFG.BANK_EN,0,1)]) (fun c => { c with kln := { c.kln with ovls := [⟨2, 1, [⟨0x700000, 0x00210000, 0x00FF0000⟩], [], [], [], false, []⟩], job := some ⟨2, false, true⟩, heldSlots := [5] } }) : State), (⟨2, false, true⟩ : OvlJob), (⟨2, 1, [⟨0x700000, 0x00210000, 0x00FF0000⟩], [], [], [], false, []⟩ : OvlX), (0x700000 : Nat), (0x21 : Nat), ((ch (puts (up) [(KLN_IMG_RES.BUSY,0,1), (KLN_OVL_STAT.STATE,2,1), (HTH_MON_GSTAT.ACTIVE,0,8), (HTH_BANK_CFG.BANK_EN,0,1)]) (fun c => { c with kln := { c.kln with ovls := [⟨2, 1, [⟨0x700000, 0x00210000, 0x00FF0000⟩], [], [], [], false, []⟩], job := some ⟨2, false, true⟩, heldSlots := [5] } })).chip.word .FLU_SCHED_CFG 0 : Nat), by decide +kernel⟩,
   ⟨({ (ch (puts (up) [(KLN_IMG_RES.BUSY,0,1), (KLN_OVL_STAT.STATE,2,1)]) (fun c => { c with kln := { c.kln with ovls := [⟨2, 1, [], [], [], [], true, [1,2,3]⟩], job := some ⟨2, false, true⟩, heldSlots := [5] } })) with nvs := { Nvs.init with ovl := [(0,[5])] } } : State), (⟨2, false, true⟩ : OvlJob), (⟨2, 1, [], [], [], [], true, [1,2,3]⟩ : OvlX), (1 : Nat), by decide +kernel⟩,
   ⟨(ch (puts (up) [(KLN_IMG_RES.BUSY,0,1), (KLN_OVL_STAT.STATE,2,3),
       (FLU_SCHED_CFG.CL0_FLOOR,0,0x21)]) (fun c => { c with kln := { c.kln with ovls := [⟨2, 1, [⟨0x700000, 0x00210000, 0x00FF0000⟩], [], [⟨0x700000, 0x00140000, 0x00FF0000⟩], [], false, []⟩], job := some ⟨2, true, true⟩, heldSlots := [5] } }) : State), (⟨2, true, true⟩ : OvlJob), (⟨2, 1, [⟨0x700000, 0x00210000, 0x00FF0000⟩], [], [⟨0x700000, 0x00140000, 0x00FF0000⟩], [], false, []⟩ : OvlX), (0x700000 : Nat), (20 : Nat), by decide +kernel⟩,
   ⟨(ch (puts (up) [(KLN_IMG_RES.BUSY,0,1),
       (KLN_OVL_STAT.STATE,2,1)]) (fun c => { c with kln := { c.kln with ovls := [⟨2, 1, [⟨0x700000, 0x00210000, 0x00FF0000⟩], [], [], [], false, []⟩], job := some ⟨2, false, true⟩, heldSlots := [5] } }) : State), (⟨2, false, true⟩ : OvlJob), (⟨2, 1, [⟨0x700000, 0x00210000, 0x00FF0000⟩], [], [], [], false, []⟩ : OvlX), by decide +kernel⟩,
   ⟨(up : State), by decide +kernel⟩,
   ⟨(ch (puts (up) [(KLN_OVL_STAT.STATE,2,2)]) (fun c => { c with kln := { c.kln with ovls := [⟨2, 1, [⟨0x700000, 0x00210000, 0x00FF0000⟩], [], [], [], false, []⟩] } }) : State), (2 : Fin 8), (⟨2, 1, [⟨0x700000, 0x00210000, 0x00FF0000⟩], [], [], [], false, []⟩ : OvlX), by decide +kernel⟩,
   ⟨(ch (puts (up) [(KLN_OVL_STAT.STATE,3,2),
       (KLN_OVL_STAT.STATE,2,1)]) (fun c => { c with kln := { c.kln with ovls := [⟨2, 1, [⟨0x700000, 0x00210000, 0x00FF0000⟩], [], [], [], false, []⟩, ⟨3, 1, [⟨0x700000, 0x00210000, 0x00FF0000⟩], [], [], [], false, []⟩], job := some ⟨2, false, true⟩ } }) : State), (3 : Fin 8), (⟨3, 1, [⟨0x700000, 0x00210000, 0x00FF0000⟩], [], [], [], false, []⟩ : OvlX), by decide +kernel⟩⟩

theorem witness_mailboxRequests :
    (∃ (s : State) (p : Path) (i : Instr),
        (s.Takes p blkSTK (s.chip.domUp 16) ∧ i ∈ ([.keyXfer p, .challenge p, .attest p, .grant p, .revokeGrants p,
            .transition p, .tenantLock p, .rootLoad p,
          .rootRevoke p, .voteRepair p] : List Instr) ∧ (s.chip.on STK_MBX_STAT.BUSY 0 = true ∨ s.chip.kln.lc.isSome = true)))
    ∧ (∃ (s : State) (p : Path) (i : Instr) (op : Nat) (err : Nat),
        (s.Takes p blkSTK (s.chip.domUp 16) ∧ (i, op) ∈ ([(.grant p, 3), (.tenantLock p, 6), (.rootRevoke p, 8),
            (.voteRepair p, 9)] : List (Instr × Nat)) ∧ s.chip.MbxFree ∧ s.chip.mbxTokens ≠ [] ∧
                err = s.chip.requestErr s.otp s.nvs op ∧ err ≠ 0))
    ∧ (∃ (s : State) (p : Path) (i : Instr) (op : Nat),
        (s.Takes p blkSTK (s.chip.domUp 16) ∧ (i, op) ∈ ([(.grant p, 3), (.tenantLock p, 6), (.rootRevoke p, 8),
            (.voteRepair p, 9)] : List (Instr × Nat)) ∧ s.chip.MbxFree ∧ s.chip.mbxTokens = []))
    ∧ (∃ (s : State) (p : Path),
        (s.Takes p blkSTK (s.chip.domUp 16) ∧ s.chip.MbxFree ∧ s.chip.opActs 1 = true ∧ s.chip.on CRD_STAT.DRBG_READY 0 = true))
    ∧ (∃ (s : State) (p : Path),
        (s.Takes p blkSTK (s.chip.domUp 16) ∧ s.chip.MbxFree ∧ s.chip.opActs 1 = false))
    ∧ (∃ (s : State) (p : Path) (d : Nat) (dev : List Byte) (st : List Byte),
        (s.Takes p blkSTK (s.chip.domUp 16) ∧ s.chip.MbxFree ∧ s.chip.opActs 2 = true ∧ idPriv s.otp = some d ∧
            devIdOf s.otp = some dev ∧ st = [0xA7, BitVec.ofNat 8 s.chip.lcState, 0, 0]
                ++ beBytes 4 (s.chip.get KLN_LC_MARK.VALUE 0) ++ s.chip.mbxBytes 0 32 ++ dev ∧ s.chip.StokerFull))
    ∧ (∃ (s : State) (p : Path),
        (s.Takes p blkSTK (s.chip.domUp 16) ∧ s.chip.MbxFree ∧ s.chip.opActs 2 = true ∧ idPriv s.otp = none))
    ∧ (∃ (s : State) (p : Path) (t : Token),
        (s.Takes p blkSTK (s.chip.domUp 16) ∧ s.chip.MbxFree ∧ s.chip.requestErr s.otp s.nvs 3 = 0 ∧ t = s.chip.token ∧
            s.chip.bscan = false ∧ (t.num 4).testBit 1 = false))
    ∧ (∃ (s : State) (p : Path),
        (s.Takes p blkSTK (s.chip.domUp 16) ∧ s.chip.MbxFree ∧ s.chip.opActs 4 = true ∧ s.chip.domUp 19 = true ∧
            s.chip.bscan = false))
    ∧ (∃ (s : State) (p : Path),
        (s.Takes p blkSTK (s.chip.domUp 16) ∧ s.chip.MbxFree ∧ s.chip.opActs 4 = true ∧ s.chip.domUp 19 = false))
    ∧ (∃ (s : State) (p : Path) (t : Token),
        (s.Takes p blkSTK (s.chip.domUp 16) ∧ s.chip.MbxFree ∧ s.chip.requestErr s.otp s.nvs 6 = 0 ∧ t = s.chip.token))
    ∧ (∃ (s : State) (p : Path) (k : Nat) (key : List Byte),
        (s.Takes p blkSTK (s.chip.domUp 16) ∧ s.chip.MbxFree ∧ k = (s.chip.mbxByte 0).toNat ∧ k < 4 ∧
            (∀ b ∈ s.chip.mbxBytes 1 3, b = 0) ∧ s.chip.opActs 7 = true ∧ s.chip.domUp 19 = true ∧ key = s.chip.mbxBytes 4 97 ∧
                rootStat s.otp k = 1 ∧ wordsBytes (otpWords s.otp (otpRoot k) 12) = sha384 key))
    ∧ (∃ (s : State) (p : Path) (k : Nat),
        (s.Takes p blkSTK (s.chip.domUp 16) ∧ s.chip.MbxFree ∧ k = (s.chip.mbxByte 0).toNat ∧ k < 4 ∧
            (∀ b ∈ s.chip.mbxBytes 1 3, b = 0) ∧ s.chip.opActs 7 = true ∧ s.chip.domUp 19 = true ∧ rootStat s.otp k ≠ 1))
    ∧ (∃ (s : State) (p : Path) (t : Token),
        (s.Takes p blkSTK (s.chip.domUp 16) ∧ s.chip.MbxFree ∧ s.chip.requestErr s.otp s.nvs 8 = 0 ∧ t = s.chip.token))
    ∧ (∃ (s : State) (p : Path) (t : Token),
        (s.Takes p blkSTK (s.chip.domUp 16) ∧ s.chip.MbxFree ∧ s.chip.requestErr s.otp s.nvs 9 = 0 ∧ t = s.chip.token))
    ∧ (∃ (s : State) (p : Path),
        (s.Takes p blkSTK (s.chip.domUp 16) ∧ s.chip.MbxFree ∧ s.chip.on KLN_CER_STAT.CER_ON 0 = false))
    ∧ (∃ (s : State) (p : Path) (n : Fin 4) (hdr : List Byte) (rel : List Byte) (a : Apdu) (b : Apdu),
        (s.Takes p blkSTK (s.chip.domUp 16) ∧ s.chip.MbxFree ∧ s.chip.on KLN_CER_STAT.CER_ON 0 = true ∧
            (s.chip.inQuorum n (s.chip.get KLN_CER_STAT.ROLE_X 0) = true
          ∨ s.chip.inQuorum n (s.chip.get KLN_CER_STAT.ROLE_Y 0) = true) ∧ s.chip.mbxByte 0 = BitVec.ofNat 8 n ∧
              s.chip.mbxByte 1 = 0 ∧ leNat (s.chip.mbxBytes 2 2) < 4096 ∧ 4 ≤ leNat (s.chip.mbxBytes 4 2) ∧
                  leNat (s.chip.mbxBytes 4 2) ≤ 255 ∧ hdr = s.chip.mbxBytes 6 4 ∧
                      rel = s.chip.mbxBytes 10 (leNat (s.chip.mbxBytes 4 2)) ∧ apduOf rel = some a ∧ apduPolicy a = false ∧
                          apduOf (hdr ++ [1, 0]) = some b ∧ apduPolicy b = false ∧ s.chip.grp.dev < 4 ∧ (∀ e ∈ s.chip.entries,
                              e.uid ≠ s.chip.nextUid)))
    ∧ (∃ (s : State),
        (s.Still)) :=
  ⟨⟨(puts (up) [(STK_MBX_STAT.BUSY,0,1)] : State), (.portA : Path), (.grant .portA : Instr), by decide +kernel⟩,
   ⟨({ (ch (puts (up) [(STK_MBX_DATA.DATA,0,1), (STK_MBX_DATA.DATA,1,65745)]) (fun c => { c with kln := { c.kln with nonce := some (beBytes 32 0x0707070707070707070707070707070707070707070707070707070707070707) } })) with otp := [(52, 15)] } : State), (.portA : Path), (.grant .portA : Instr), (3 : Nat), (2 : Nat), by decide +kernel⟩,
   ⟨(up : State), (.portA : Path), (.grant .portA : Instr), (3 : Nat), by decide +kernel⟩,
   ⟨(puts (up) [(CRD_STAT.DRBG_READY,0,1)] : State), (.portA : Path), by decide +kernel⟩,
   ⟨(puts (up) [(KLN_LC_WORD.VALUE,0,0)] : State), (.spi : Path), by decide +kernel⟩,
   ⟨({ (puts (up) [(EMB_CFG.CTX_HOST,0,255)]) with otp := [(52,15)] } : State), (.portA : Path), (0 : Nat),
       ((beBytes 16 0x2b27044a4da994965dcd95d6e444c908) : List Byte), ([0xA7, 3, 0, 0, 0, 0, 0, 0] ++ List.replicate 32 0
           ++ (beBytes 16 0x2b27044a4da994965dcd95d6e444c908) : List Byte), by decide +kernel⟩,
   ⟨(up : State), (.portA : Path), by decide +kernel⟩,
   ⟨({ (ch (puts (up) [(STK_MBX_DATA.DATA,0,1), (STK_MBX_DATA.DATA,1,131281), (STK_MBX_DATA.DATA,2,16777216), (STK_MBX_DATA.DATA,5,117901058), (STK_MBX_DATA.DATA,6,117901063), (STK_MBX_DATA.DATA,7,117901063), (STK_MBX_DATA.DATA,8,117901063), (STK_MBX_DATA.DATA,9,117901063), (STK_MBX_DATA.DATA,10,117901063), (STK_MBX_DATA.DATA,11,117901063), (STK_MBX_DATA.DATA,12,117901063), (STK_MBX_DATA.DATA,13,1241786155), (STK_MBX_DATA.DATA,14,2526325069), (STK_MBX_DATA.DATA,15,3600141661), (STK_MBX_DATA.DATA,16,147408100), (STK_MBX_DATA.DATA,17,1158570767), (STK_MBX_DATA.DATA,18,1396169772), (STK_MBX_DATA.DATA,19,2115334503), (STK_MBX_DATA.DATA,20,3620731301), (STK_MBX_DATA.DATA,21,3956991701), (STK_MBX_DATA.DATA,22,3468640666), (STK_MBX_DATA.DATA,23,2318803044), (STK_MBX_DATA.DATA,24,2394056597), (STK_MBX_DATA.DATA,25,3108859444), (STK_MBX_DATA.DATA,26,1206169031), (STK_MBX_DATA.DATA,27,3409810921), (STK_MBX_DATA.DATA,28,72503432), (STK_MBX_DATA.DATA,29,1158570767), (STK_MBX_DATA.DATA,30,1396169772), (STK_MBX_DATA.DATA,31,2115334503), (STK_MBX_DATA.DATA,32,3620731301), (STK_MBX_DATA.DATA,33,3956991701), (STK_MBX_DATA.DATA,34,3468640666), (STK_MBX_DATA.DATA,35,2318803044), (STK_MBX_DATA.DATA,36,2394056597), (STK_MBX_DATA.DATA,37,3108859444), (STK_MBX_DATA.DATA,38,1206169031), (STK_MBX_DATA.DATA,39,3409810921), (STK_MBX_DATA.DATA,40,72503432)]) (fun c => { c with kln := { c.kln with nonce := some (beBytes 32 0x0207070707070707070707070707070707070707070707070707070707070707) } })) with otp := [(0, 65535), (2, 3), (52, 15), (200, 3152056509), (201, 2082937854), (202, 1007585690), (203, 1365267295), (204, 3049395837), (205, 1295414049), (206, 3742332551), (207, 473048862), (208, 1136281559), (209, 933830290), (210, 2253732422), (211, 2329406510)], nvs := { Nvs.init with keys := [(0, (beBytes 97 0x04c328d469c69f9c1e84db4bcd3265f97bbef58409e83c34d866be81711ba0d3708fa5f70894c3c5f8532191d938882bfc7e0c03abef551f744cff93536cea5ca947c479136e464ad52a4f4a432edac8192638ac6c49fe3db52035d0bd19efa5b9))] } } : State), (.portA : Path), (({ (ch (puts (up) [(STK_MBX_DATA.DATA,0,1), (STK_MBX_DATA.DATA,1,131281), (STK_MBX_DATA.DATA,2,16777216), (STK_MBX_DATA.DATA,5,117901058), (STK_MBX_DATA.DATA,6,117901063), (STK_MBX_DATA.DATA,7,117901063), (STK_MBX_DATA.DATA,8,117901063), (STK_MBX_DATA.DATA,9,117901063), (STK_MBX_DATA.DATA,10,117901063), (STK_MBX_DATA.DATA,11,117901063), (STK_MBX_DATA.DATA,12,117901063), (STK_MBX_DATA.DATA,13,1241786155), (STK_MBX_DATA.DATA,14,2526325069), (STK_MBX_DATA.DATA,15,3600141661), (STK_MBX_DATA.DATA,16,147408100), (STK_MBX_DATA.DATA,17,1158570767), (STK_MBX_DATA.DATA,18,1396169772), (STK_MBX_DATA.DATA,19,2115334503), (STK_MBX_DATA.DATA,20,3620731301), (STK_MBX_DATA.DATA,21,3956991701), (STK_MBX_DATA.DATA,22,3468640666), (STK_MBX_DATA.DATA,23,2318803044), (STK_MBX_DATA.DATA,24,2394056597), (STK_MBX_DATA.DATA,25,3108859444), (STK_MBX_DATA.DATA,26,1206169031), (STK_MBX_DATA.DATA,27,3409810921), (STK_MBX_DATA.DATA,28,72503432), (STK_MBX_DATA.DATA,29,1158570767), (STK_MBX_DATA.DATA,30,1396169772), (STK_MBX_DATA.DATA,31,2115334503), (STK_MBX_DATA.DATA,32,3620731301), (STK_MBX_DATA.DATA,33,3956991701), (STK_MBX_DATA.DATA,34,3468640666), (STK_MBX_DATA.DATA,35,2318803044), (STK_MBX_DATA.DATA,36,2394056597), (STK_MBX_DATA.DATA,37,3108859444), (STK_MBX_DATA.DATA,38,1206169031), (STK_MBX_DATA.DATA,39,3409810921), (STK_MBX_DATA.DATA,40,72503432)]) (fun c => { c with kln := { c.kln with nonce := some (beBytes 32 0x0207070707070707070707070707070707070707070707070707070707070707) } })) with otp := [(0, 65535), (2, 3), (52, 15), (200, 3152056509), (201, 2082937854), (202, 1007585690), (203, 1365267295), (204, 3049395837), (205, 1295414049), (206, 3742332551), (207, 473048862), (208, 1136281559), (209, 933830290), (210, 2253732422), (211, 2329406510)], nvs := { Nvs.init with keys := [(0, (beBytes 97 0x04c328d469c69f9c1e84db4bcd3265f97bbef58409e83c34d866be81711ba0d3708fa5f70894c3c5f8532191d938882bfc7e0c03abef551f744cff93536cea5ca947c479136e464ad52a4f4a432edac8192638ac6c49fe3db52035d0bd19efa5b9))] } }).chip.token : Token), by decide +kernel⟩,
   ⟨(puts (up) [(KLN_DBG_STAT.HELD,0,1), (KLN_DBG_STAT.BOOTS,0,3)] : State), (.portA : Path), by decide +kernel⟩,
   ⟨(puts (up) [(DRG_DOM_STAT.UP,0,0x7FFFF)] : State), (.portA : Path), by decide +kernel⟩,
   ⟨({ (ch (puts (up) [(STK_MBX_DATA.DATA,0,1), (STK_MBX_DATA.DATA,1,211), (STK_MBX_DATA.DATA,2,1342177280), (STK_MBX_DATA.DATA,3,536870912), (STK_MBX_DATA.DATA,5,117901058), (STK_MBX_DATA.DATA,6,117901063), (STK_MBX_DATA.DATA,7,117901063), (STK_MBX_DATA.DATA,8,117901063), (STK_MBX_DATA.DATA,9,117901063), (STK_MBX_DATA.DATA,10,117901063), (STK_MBX_DATA.DATA,11,117901063), (STK_MBX_DATA.DATA,12,117901063), (STK_MBX_DATA.DATA,13,1241786155), (STK_MBX_DATA.DATA,14,2526325069), (STK_MBX_DATA.DATA,15,3600141661), (STK_MBX_DATA.DATA,16,147408100), (STK_MBX_DATA.DATA,17,791639908), (STK_MBX_DATA.DATA,18,4169755395), (STK_MBX_DATA.DATA,19,84125732), (STK_MBX_DATA.DATA,20,1964982170), (STK_MBX_DATA.DATA,21,116754188), (STK_MBX_DATA.DATA,22,791840668), (STK_MBX_DATA.DATA,23,1538939968), (STK_MBX_DATA.DATA,24,635944200), (STK_MBX_DATA.DATA,25,3983964111), (STK_MBX_DATA.DATA,26,3858743474), (STK_MBX_DATA.DATA,27,67927485), (STK_MBX_DATA.DATA,28,3731000225), (STK_MBX_DATA.DATA,29,791639908), (STK_MBX_DATA.DATA,30,4169755395), (STK_MBX_DATA.DATA,31,84125732), (STK_MBX_DATA.DATA,32,1964982170), (STK_MBX_DATA.DATA,33,116754188), (STK_MBX_DATA.DATA,34,791840668), (STK_MBX_DATA.DATA,35,1538939968), (STK_MBX_DATA.DATA,36,635944200), (STK_MBX_DATA.DATA,37,3983964111), (STK_MBX_DATA.DATA,38,3858743474), (STK_MBX_DATA.DATA,39,67927485), (STK_MBX_DATA.DATA,40,3731000225)]) (fun c => { c with kln := { c.kln with nonce := some (beBytes 32 0x0207070707070707070707070707070707070707070707070707070707070707) } })) with otp := [(0, 65535), (2, 3), (52, 15), (200, 1181551093), (201, 701689569), (202, 3834099573), (203, 1315844074), (204, 330716534), (205, 507305238), (206, 707704029), (207, 666187106), (208, 2224965774), (209, 3115803727), (210, 4269337186), (211, 2254504542)], nvs := { Nvs.init with keys := [(0, (beBytes 97 0x04a43bf92babc351c3506e91c870789710716b20387dd1fca2472695584e4669b26d601b76c7b9b853336905c331b90d4b55e1e735a6ca396cd22a47c7a3e789a77123590d91b21cb91c8302e27cb484e527a912b2efa3eecc86f485fff4c71b98))] } } : State), (.portA : Path), (({ (ch (puts (up) [(STK_MBX_DATA.DATA,0,1), (STK_MBX_DATA.DATA,1,211), (STK_MBX_DATA.DATA,2,1342177280), (STK_MBX_DATA.DATA,3,536870912), (STK_MBX_DATA.DATA,5,117901058), (STK_MBX_DATA.DATA,6,117901063), (STK_MBX_DATA.DATA,7,117901063), (STK_MBX_DATA.DATA,8,117901063), (STK_MBX_DATA.DATA,9,117901063), (STK_MBX_DATA.DATA,10,117901063), (STK_MBX_DATA.DATA,11,117901063), (STK_MBX_DATA.DATA,12,117901063), (STK_MBX_DATA.DATA,13,1241786155), (STK_MBX_DATA.DATA,14,2526325069), (STK_MBX_DATA.DATA,15,3600141661), (STK_MBX_DATA.DATA,16,147408100), (STK_MBX_DATA.DATA,17,791639908), (STK_MBX_DATA.DATA,18,4169755395), (STK_MBX_DATA.DATA,19,84125732), (STK_MBX_DATA.DATA,20,1964982170), (STK_MBX_DATA.DATA,21,116754188), (STK_MBX_DATA.DATA,22,791840668), (STK_MBX_DATA.DATA,23,1538939968), (STK_MBX_DATA.DATA,24,635944200), (STK_MBX_DATA.DATA,25,3983964111), (STK_MBX_DATA.DATA,26,3858743474), (STK_MBX_DATA.DATA,27,67927485), (STK_MBX_DATA.DATA,28,3731000225), (STK_MBX_DATA.DATA,29,791639908), (STK_MBX_DATA.DATA,30,4169755395), (STK_MBX_DATA.DATA,31,84125732), (STK_MBX_DATA.DATA,32,1964982170), (STK_MBX_DATA.DATA,33,116754188), (STK_MBX_DATA.DATA,34,791840668), (STK_MBX_DATA.DATA,35,1538939968), (STK_MBX_DATA.DATA,36,635944200), (STK_MBX_DATA.DATA,37,3983964111), (STK_MBX_DATA.DATA,38,3858743474), (STK_MBX_DATA.DATA,39,67927485), (STK_MBX_DATA.DATA,40,3731000225)]) (fun c => { c with kln := { c.kln with nonce := some (beBytes 32 0x0207070707070707070707070707070707070707070707070707070707070707) } })) with otp := [(0, 65535), (2, 3), (52, 15), (200, 1181551093), (201, 701689569), (202, 3834099573), (203, 1315844074), (204, 330716534), (205, 507305238), (206, 707704029), (207, 666187106), (208, 2224965774), (209, 3115803727), (210, 4269337186), (211, 2254504542)], nvs := { Nvs.init with keys := [(0, (beBytes 97 0x04a43bf92babc351c3506e91c870789710716b20387dd1fca2472695584e4669b26d601b76c7b9b853336905c331b90d4b55e1e735a6ca396cd22a47c7a3e789a77123590d91b21cb91c8302e27cb484e527a912b2efa3eecc86f485fff4c71b98))] } }).chip.token : Token), by decide +kernel⟩,
   ⟨({ (ch (puts (up) [(STK_MBX_DATA.DATA,0,2), (STK_MBX_DATA.DATA,1,50529028), (STK_MBX_DATA.DATA,2,50529027), (STK_MBX_DATA.DATA,3,50529027), (STK_MBX_DATA.DATA,4,50529027), (STK_MBX_DATA.DATA,5,50529027), (STK_MBX_DATA.DATA,6,50529027), (STK_MBX_DATA.DATA,7,50529027), (STK_MBX_DATA.DATA,8,50529027), (STK_MBX_DATA.DATA,9,50529027), (STK_MBX_DATA.DATA,10,50529027), (STK_MBX_DATA.DATA,11,50529027), (STK_MBX_DATA.DATA,12,50529027), (STK_MBX_DATA.DATA,13,50529027), (STK_MBX_DATA.DATA,14,50529027), (STK_MBX_DATA.DATA,15,50529027), (STK_MBX_DATA.DATA,16,50529027), (STK_MBX_DATA.DATA,17,50529027), (STK_MBX_DATA.DATA,18,50529027), (STK_MBX_DATA.DATA,19,50529027), (STK_MBX_DATA.DATA,20,50529027), (STK_MBX_DATA.DATA,21,50529027), (STK_MBX_DATA.DATA,22,50529027), (STK_MBX_DATA.DATA,23,50529027), (STK_MBX_DATA.DATA,24,50529027), (STK_MBX_DATA.DATA,25,3)]) (fun c => { c with kln := { c.kln with nonce := some (beBytes 32 0x0707070707070707070707070707070707070707070707070707070707070707) } })) with otp := [(0, 65535), (2, 768), (52, 15), (224, 722702525), (225, 1275903971), (226, 3567778209), (227, 1312553827), (228, 1614142557), (229, 540201753), (230, 3756984110), (231, 2609303456), (232, 1799446531), (233, 1871836188), (234, 3727155840), (235, 4065433691)] } : State), (.portA : Path), (2 : Nat), ((beBytes 97 0x04030303030303030303030303030303030303030303030303030303030303030303030303030303030303030303030303030303030303030303030303030303030303030303030303030303030303030303030303030303030303030303030303) : List Byte), by decide +kernel⟩,
   ⟨(up : State), (.portA : Path), (0 : Nat), by decide +kernel⟩,
   ⟨({ (ch (puts (up) [(STK_MBX_DATA.DATA,0,1), (STK_MBX_DATA.DATA,1,65748), (STK_MBX_DATA.DATA,5,117901056), (STK_MBX_DATA.DATA,6,117901063), (STK_MBX_DATA.DATA,7,117901063), (STK_MBX_DATA.DATA,8,117901063), (STK_MBX_DATA.DATA,9,117901063), (STK_MBX_DATA.DATA,10,117901063), (STK_MBX_DATA.DATA,11,117901063), (STK_MBX_DATA.DATA,12,117901063), (STK_MBX_DATA.DATA,13,1241786155), (STK_MBX_DATA.DATA,14,2526325069), (STK_MBX_DATA.DATA,15,3600141661), (STK_MBX_DATA.DATA,16,147408100), (STK_MBX_DATA.DATA,17,2086431249), (STK_MBX_DATA.DATA,18,3118552764), (STK_MBX_DATA.DATA,19,3221147932), (STK_MBX_DATA.DATA,20,1898223023), (STK_MBX_DATA.DATA,21,3558130993), (STK_MBX_DATA.DATA,22,1105431329), (STK_MBX_DATA.DATA,23,3962149636), (STK_MBX_DATA.DATA,24,2178993126), (STK_MBX_DATA.DATA,25,2254659470), (STK_MBX_DATA.DATA,26,3133976203), (STK_MBX_DATA.DATA,27,1116303347), (STK_MBX_DATA.DATA,28,260202821), (STK_MBX_DATA.DATA,29,2086431249), (STK_MBX_DATA.DATA,30,3118552764), (STK_MBX_DATA.DATA,31,3221147932), (STK_MBX_DATA.DATA,32,1898223023), (STK_MBX_DATA.DATA,33,3558130993), (STK_MBX_DATA.DATA,34,1105431329), (STK_MBX_DATA.DATA,35,3962149636), (STK_MBX_DATA.DATA,36,2178993126), (STK_MBX_DATA.DATA,37,2254659470), (STK_MBX_DATA.DATA,38,3133976203), (STK_MBX_DATA.DATA,39,1116303347), (STK_MBX_DATA.DATA,40,260202821)]) (fun c => { c with kln := { c.kln with nonce := some (beBytes 32 0x0007070707070707070707070707070707070707070707070707070707070707) } })) with otp := [(0, 65535), (2, 51), (52, 15), (200, 117198384), (201, 1721542088), (202, 3879095573), (203, 354936976), (204, 562132457), (205, 3607724384), (206, 2606682258), (207, 1614923062), (208, 2631746926), (209, 2742556907), (210, 3492796204), (211, 1851119834), (212, 3670470589), (213, 2986118780), (214, 1229894865), (215, 332650625), (216, 1760285352), (217, 1172841714), (218, 1164626862), (219, 1149910309), (220, 3755399319), (221, 4182146827), (222, 3787649784), (223, 2631796100)], nvs := { Nvs.init with keys := [(0, (beBytes 97 0x04840d5f3b2fdf37100070cb780a9a3c59bd5cd6d82e3ad7b382b6d7d5bd795de840cdc54ffb45bf0b51a4137e5657951a5cb47ae5bdfeb1ad0e1bf7011be108c3373095d7dd4174627c58559c26f7e1f2a5fe29746813f93fb8f833d9622d06e2))] } } : State), (.portA : Path), (({ (ch (puts (up) [(STK_MBX_DATA.DATA,0,1), (STK_MBX_DATA.DATA,1,65748), (STK_MBX_DATA.DATA,5,117901056), (STK_MBX_DATA.DATA,6,117901063), (STK_MBX_DATA.DATA,7,117901063), (STK_MBX_DATA.DATA,8,117901063), (STK_MBX_DATA.DATA,9,117901063), (STK_MBX_DATA.DATA,10,117901063), (STK_MBX_DATA.DATA,11,117901063), (STK_MBX_DATA.DATA,12,117901063), (STK_MBX_DATA.DATA,13,1241786155), (STK_MBX_DATA.DATA,14,2526325069), (STK_MBX_DATA.DATA,15,3600141661), (STK_MBX_DATA.DATA,16,147408100), (STK_MBX_DATA.DATA,17,2086431249), (STK_MBX_DATA.DATA,18,3118552764), (STK_MBX_DATA.DATA,19,3221147932), (STK_MBX_DATA.DATA,20,1898223023), (STK_MBX_DATA.DATA,21,3558130993), (STK_MBX_DATA.DATA,22,1105431329), (STK_MBX_DATA.DATA,23,3962149636), (STK_MBX_DATA.DATA,24,2178993126), (STK_MBX_DATA.DATA,25,2254659470), (STK_MBX_DATA.DATA,26,3133976203), (STK_MBX_DATA.DATA,27,1116303347), (STK_MBX_DATA.DATA,28,260202821), (STK_MBX_DATA.DATA,29,2086431249), (STK_MBX_DATA.DATA,30,3118552764), (STK_MBX_DATA.DATA,31,3221147932), (STK_MBX_DATA.DATA,32,1898223023), (STK_MBX_DATA.DATA,33,3558130993), (STK_MBX_DATA.DATA,34,1105431329), (STK_MBX_DATA.DATA,35,3962149636), (STK_MBX_DATA.DATA,36,2178993126), (STK_MBX_DATA.DATA,37,2254659470), (STK_MBX_DATA.DATA,38,3133976203), (STK_MBX_DATA.DATA,39,1116303347), (STK_MBX_DATA.DATA,40,260202821)]) (fun c => { c with kln := { c.kln with nonce := some (beBytes 32 0x0007070707070707070707070707070707070707070707070707070707070707) } })) with otp := [(0, 65535), (2, 51), (52, 15), (200, 117198384), (201, 1721542088), (202, 3879095573), (203, 354936976), (204, 562132457), (205, 3607724384), (206, 2606682258), (207, 1614923062), (208, 2631746926), (209, 2742556907), (210, 3492796204), (211, 1851119834), (212, 3670470589), (213, 2986118780), (214, 1229894865), (215, 332650625), (216, 1760285352), (217, 1172841714), (218, 1164626862), (219, 1149910309), (220, 3755399319), (221, 4182146827), (222, 3787649784), (223, 2631796100)], nvs := { Nvs.init with keys := [(0, (beBytes 97 0x04840d5f3b2fdf37100070cb780a9a3c59bd5cd6d82e3ad7b382b6d7d5bd795de840cdc54ffb45bf0b51a4137e5657951a5cb47ae5bdfeb1ad0e1bf7011be108c3373095d7dd4174627c58559c26f7e1f2a5fe29746813f93fb8f833d9622d06e2))] } }).chip.token : Token), by decide +kernel⟩,
   ⟨({ (ch (puts (up) [(STK_MBX_DATA.DATA,0,1), (STK_MBX_DATA.DATA,1,65749), (STK_MBX_DATA.DATA,2,150994944), (STK_MBX_DATA.DATA,5,117901056), (STK_MBX_DATA.DATA,6,117901063), (STK_MBX_DATA.DATA,7,117901063), (STK_MBX_DATA.DATA,8,117901063), (STK_MBX_DATA.DATA,9,117901063), (STK_MBX_DATA.DATA,10,117901063), (STK_MBX_DATA.DATA,11,117901063), (STK_MBX_DATA.DATA,12,117901063), (STK_MBX_DATA.DATA,13,1241786155), (STK_MBX_DATA.DATA,14,2526325069), (STK_MBX_DATA.DATA,15,3600141661), (STK_MBX_DATA.DATA,16,147408100), (STK_MBX_DATA.DATA,17,927197435), (STK_MBX_DATA.DATA,18,2565643210), (STK_MBX_DATA.DATA,19,1184330309), (STK_MBX_DATA.DATA,20,1402500425), (STK_MBX_DATA.DATA,21,175293498), (STK_MBX_DATA.DATA,22,3260184315), (STK_MBX_DATA.DATA,23,1614437497), (STK_MBX_DATA.DATA,24,112140371), (STK_MBX_DATA.DATA,25,2362433722), (STK_MBX_DATA.DATA,26,2926210706), (STK_MBX_DATA.DATA,27,4045226762), (STK_MBX_DATA.DATA,28,506983839), (STK_MBX_DATA.DATA,29,927197435), (STK_MBX_DATA.DATA,30,2565643210), (STK_MBX_DATA.DATA,31,1184330309), (STK_MBX_DATA.DATA,32,1402500425), (STK_MBX_DATA.DATA,33,175293498), (STK_MBX_DATA.DATA,34,3260184315), (STK_MBX_DATA.DATA,35,1614437497), (STK_MBX_DATA.DATA,36,112140371), (STK_MBX_DATA.DATA,37,2362433722), (STK_MBX_DATA.DATA,38,2926210706), (STK_MBX_DATA.DATA,39,4045226762), (STK_MBX_DATA.DATA,40,506983839)]) (fun c => { c with kln := { c.kln with nonce := some (beBytes 32 0x0007070707070707070707070707070707070707070707070707070707070707) } })) with otp := [(0, 65535), (2, 3), (52, 15), (200, 520508569), (201, 1026062859), (202, 1477805236), (203, 3315965869), (204, 1315455668), (205, 32237440), (206, 248423758), (207, 3885564567), (208, 2554526416), (209, 2988325649), (210, 3052418850), (211, 1687989695)], nvs := { Nvs.init with keys := [(0, (beBytes 97 0x04dbf4d0a3d0ad1c8da4486c3a9335f739e42edb8d181c96ca12ca7d2c35dfb794a4fbdbc15fec0d270fb7f77514ed57abd598838070a7469b79861a19dbfe026c266a90f9ec82676db8b6840f0fdcf45d4207084e8665013801031c556f7a3909))], votes := [((1,0),.val 7),((1,1),.val 8)] } } : State), (.portA : Path), (({ (ch (puts (up) [(STK_MBX_DATA.DATA,0,1), (STK_MBX_DATA.DATA,1,65749), (STK_MBX_DATA.DATA,2,150994944), (STK_MBX_DATA.DATA,5,117901056), (STK_MBX_DATA.DATA,6,117901063), (STK_MBX_DATA.DATA,7,117901063), (STK_MBX_DATA.DATA,8,117901063), (STK_MBX_DATA.DATA,9,117901063), (STK_MBX_DATA.DATA,10,117901063), (STK_MBX_DATA.DATA,11,117901063), (STK_MBX_DATA.DATA,12,117901063), (STK_MBX_DATA.DATA,13,1241786155), (STK_MBX_DATA.DATA,14,2526325069), (STK_MBX_DATA.DATA,15,3600141661), (STK_MBX_DATA.DATA,16,147408100), (STK_MBX_DATA.DATA,17,927197435), (STK_MBX_DATA.DATA,18,2565643210), (STK_MBX_DATA.DATA,19,1184330309), (STK_MBX_DATA.DATA,20,1402500425), (STK_MBX_DATA.DATA,21,175293498), (STK_MBX_DATA.DATA,22,3260184315), (STK_MBX_DATA.DATA,23,1614437497), (STK_MBX_DATA.DATA,24,112140371), (STK_MBX_DATA.DATA,25,2362433722), (STK_MBX_DATA.DATA,26,2926210706), (STK_MBX_DATA.DATA,27,4045226762), (STK_MBX_DATA.DATA,28,506983839), (STK_MBX_DATA.DATA,29,927197435), (STK_MBX_DATA.DATA,30,2565643210), (STK_MBX_DATA.DATA,31,1184330309), (STK_MBX_DATA.DATA,32,1402500425), (STK_MBX_DATA.DATA,33,175293498), (STK_MBX_DATA.DATA,34,3260184315), (STK_MBX_DATA.DATA,35,1614437497), (STK_MBX_DATA.DATA,36,112140371), (STK_MBX_DATA.DATA,37,2362433722), (STK_MBX_DATA.DATA,38,2926210706), (STK_MBX_DATA.DATA,39,4045226762), (STK_MBX_DATA.DATA,40,506983839)]) (fun c => { c with kln := { c.kln with nonce := some (beBytes 32 0x0007070707070707070707070707070707070707070707070707070707070707) } })) with otp := [(0, 65535), (2, 3), (52, 15), (200, 520508569), (201, 1026062859), (202, 1477805236), (203, 3315965869), (204, 1315455668), (205, 32237440), (206, 248423758), (207, 3885564567), (208, 2554526416), (209, 2988325649), (210, 3052418850), (211, 1687989695)], nvs := { Nvs.init with keys := [(0, (beBytes 97 0x04dbf4d0a3d0ad1c8da4486c3a9335f739e42edb8d181c96ca12ca7d2c35dfb794a4fbdbc15fec0d270fb7f77514ed57abd598838070a7469b79861a19dbfe026c266a90f9ec82676db8b6840f0fdcf45d4207084e8665013801031c556f7a3909))], votes := [((1,0),.val 7),((1,1),.val 8)] } }).chip.token : Token), by decide +kernel⟩,
   ⟨(up : State), (.portA : Path), by decide +kernel⟩,
   ⟨(puts (inState up 0 7) [(STK_MBX_DATA.DATA,0,44236800), (STK_MBX_DATA.DATA,1,3800039428), (STK_MBX_DATA.DATA,2,3833594112),
       (STK_MBX_DATA.DATA,3,256), (KLN_CER_STAT.CER_ON,0,1), (KLN_CER_STAT.ROLE_X,0,7), (CRD_SESS_STAT.KIND,0,2),
           (CRD_SESS_STAT.SESS,0,2), (CRD_SESS_STAT.ROLE,0,7)] : State), (.portA : Path), (0 : Fin 4), ([0x80, 0xE2, 0x00,
               0x01] : List Byte), ([0x80, 0xE4, 0x00, 0x01] : List Byte), ((match apduOf [0x80, 0xE4, 0x00,
                   0x01] with | some a => a | none => ⟨0,0,0,0,[],false,0,false⟩) : Apdu), ((match apduOf ([0x80, 0xE2, 0x00,
                       0x01] ++ [1,0]) with | some a => a | none => ⟨0,0,0,0,[],false,0,false⟩) : Apdu), by decide +kernel⟩,
   ⟨(ch (puts (up) [(KLN_DBG_STAT.CHAL_LIVE,0,1)]) (fun c => { c with kln := { c.kln with nonce := some [1] } }) : State),
       by decide +kernel⟩⟩

theorem witness_lifeCycleTransition :
    (∃ (s : State) (p : Path) (j : LcJob),
        (s.Takes p blkSTK (s.chip.domUp 16) ∧ s.chip.MbxFree ∧ (∀ n ∈ List.range 64,
            s.chip.slotState n = stOFF ∨ s.chip.slotState n = stABSENT ∨ s.chip.slotState n = stCLINKER) ∧
                (∀ r ∈ s.chip.definedRings, s.chip.ringState r = rsDISABLED) ∧ s.chip.kln.ovls = [] ∧
                    s.chip.on KLN_CER_STAT.CER_ON 0 = false ∧ p = .spi ∧ s.chip.mbxTokens = [] ∧
                        s.chip.requestErr s.otp s.nvs 5 = 0 ∧ j = ⟨lcTest, .quiesce, false, false, false⟩))
    ∧ (∃ (s : State) (p : Path) (j : LcJob),
        (s.Takes p blkSTK (s.chip.domUp 16) ∧ s.chip.MbxFree ∧ (∀ n ∈ List.range 64,
            s.chip.slotState n = stOFF ∨ s.chip.slotState n = stABSENT ∨ s.chip.slotState n = stCLINKER) ∧
                (∀ r ∈ s.chip.definedRings, s.chip.ringState r = rsDISABLED) ∧ s.chip.kln.ovls = [] ∧
                    s.chip.on KLN_CER_STAT.CER_ON 0 = false ∧ s.chip.lcState ≠ lcBlank ∧ s.chip.requestErr s.otp s.nvs 5 = 0 ∧
                        s.chip.token.arg0 = lcEnd ∧ j = ⟨lcEnd, .quiesce, false, false, false⟩))
    ∧ (∃ (s : State),
        (s.Still ∧ s.chip.kln.lc = none))
    ∧ (∃ (s : State) (j : LcJob),
        (s.Still ∧ s.chip.kln.lc = some j ∧ j.phase = .step 1 ∧ s.chip.domUp 16 = true) ∧ s.chip.NoCinder)
    ∧ (∃ (s : State) (j : LcJob) (k : Nat),
        (s.Still ∧ s.chip.kln.lc = some j ∧ j.phase = .step k ∧ k ≠ 1 ∧ s.chip.domUp 19 = false))
    ∧ (∃ (s : State) (j : LcJob),
        (s.Still ∧ s.chip.kln.lc = some j ∧ s.chip.domUp 19 = true ∧ j.phase = .step 2))
    ∧ (∃ (s : State) (j : LcJob),
        (s.Still ∧ s.chip.kln.lc = some j ∧ s.chip.domUp 19 = true ∧ j.phase = .step 3 ∧ idInUse s.otp < 3))
    ∧ (∃ (s : State) (j : LcJob),
        (s.Still ∧ s.chip.kln.lc = some j ∧ s.chip.domUp 19 = true ∧ j.phase = .step 4 ∧ s.chip.bscan = false ∧
            (lcNext j.target j.phase = .step 6 → s.chip.on CRD_STAT.DRBG_READY 0 = false)))
    ∧ (∃ (s : State) (j : LcJob),
        (s.Still ∧ s.chip.kln.lc = some j ∧ s.chip.domUp 19 = true ∧ j.phase = .step 5))
    ∧ (∃ (s : State) (j : LcJob),
        (s.Still ∧ s.chip.kln.lc = some j ∧ s.chip.domUp 19 = true ∧ j.phase = .step 6 ∧ s.chip.safe = false ∧
            s.chip.arrayFenced = false ∧ s.chip.on CRD_STAT.DRBG_READY 0 = true ∧ s.chip.hasJob .identity = false ∧
                s.chip.StokerFull ∧ s.env.blankId = true ∧ s.chip.kln.idGen = none))
    ∧ (∃ (s : State) (j : LcJob),
        (s.Still ∧ s.chip.kln.lc = some j ∧ s.chip.domUp 19 = true ∧ j.phase = .step 4 ∧
            (j.target = lcTest ∨ j.target = lcAnalysis) ∧ s.env.blankId = true ∧ s.chip.kln.idGen = none ∧ s.chip.safe = false
                ∧ s.chip.arrayFenced = false ∧ s.chip.on CRD_STAT.DRBG_READY 0 = true ∧ s.chip.hasJob .identity = false ∧
                    s.chip.StokerFull ∧ s.chip.bscan = false))
    ∧ (∃ (s : State) (j : LcJob) (k : Nat) (pair : List Byte),
        (s.Still ∧ s.chip.kln.lc = some j ∧ s.chip.domUp 19 = true ∧ j.phase = .step 6 ∧ s.chip.safe = false ∧
            s.chip.kln.idGen = some pair ∧ (∀ i ∈ List.range 3, idStat s.otp i ≠ 3) ∧
                (List.range 3).find? (fun i => decide (idStat s.otp i = 0)) = some k))
    ∧ (∃ (s : State) (j : LcJob) (v : Nat),
        (s.Still ∧ s.chip.kln.lc = some j ∧ s.chip.domUp 19 = true ∧ j.phase = .doneMark ∧
            v = 0xF * 2 ^ (8 * (j.target - 2) + 4)))
    ∧ (∃ (s : State) (j : LcJob),
        (s.Still ∧ s.chip.kln.lc = some j ∧ s.chip.domUp 19 = true ∧ j.phase = .stateBurn ∧ s.chip.canDown = false))
    ∧ (∃ (s : State) (j : LcJob),
        (s.Still ∧ s.chip.kln.lc = some j ∧ s.chip.domUp 19 = true ∧ j.phase = .stateBurn ∧ s.chip.canDown = true ∧
            s.chip.AtRest)) :=
  ⟨⟨(puts (up) [(KLN_LC_WORD.VALUE,0,0), (STK_MBX_DATA.DATA,1,2)] : State), (.spi : Path), (⟨2, .quiesce, false, false,
      false⟩ : LcJob), by decide +kernel⟩,
   ⟨({ (ch (puts (up) [(STK_MBX_DATA.DATA,0,1), (STK_MBX_DATA.DATA,1,327890), (STK_MBX_DATA.DATA,5,117901058), (STK_MBX_DATA.DATA,6,117901063), (STK_MBX_DATA.DATA,7,117901063), (STK_MBX_DATA.DATA,8,117901063), (STK_MBX_DATA.DATA,9,117901063), (STK_MBX_DATA.DATA,10,117901063), (STK_MBX_DATA.DATA,11,117901063), (STK_MBX_DATA.DATA,12,117901063), (STK_MBX_DATA.DATA,13,1241786155), (STK_MBX_DATA.DATA,14,2526325069), (STK_MBX_DATA.DATA,15,3600141661), (STK_MBX_DATA.DATA,16,147408100), (STK_MBX_DATA.DATA,17,1486233905), (STK_MBX_DATA.DATA,18,2611708773), (STK_MBX_DATA.DATA,19,2646271626), (STK_MBX_DATA.DATA,20,2699894811), (STK_MBX_DATA.DATA,21,3944023362), (STK_MBX_DATA.DATA,22,944884720), (STK_MBX_DATA.DATA,23,2370623615), (STK_MBX_DATA.DATA,24,2975576230), (STK_MBX_DATA.DATA,25,3698446474), (STK_MBX_DATA.DATA,26,69834683), (STK_MBX_DATA.DATA,27,3603295826), (STK_MBX_DATA.DATA,28,3597584301), (STK_MBX_DATA.DATA,29,1486233905), (STK_MBX_DATA.DATA,30,2611708773), (STK_MBX_DATA.DATA,31,2646271626), (STK_MBX_DATA.DATA,32,2699894811), (STK_MBX_DATA.DATA,33,3944023362), (STK_MBX_DATA.DATA,34,944884720), (STK_MBX_DATA.DATA,35,2370623615), (STK_MBX_DATA.DATA,36,2975576230), (STK_MBX_DATA.DATA,37,3698446474), (STK_MBX_DATA.DATA,38,69834683), (STK_MBX_DATA.DATA,39,3603295826), (STK_MBX_DATA.DATA,40,3597584301)]) (fun c => { c with kln := { c.kln with nonce := some (beBytes 32 0x0207070707070707070707070707070707070707070707070707070707070707) } })) with otp := [(0, 65535), (2, 3), (52, 15), (200, 1011383436), (201, 3985008935), (202, 5488698), (203, 2523806955), (204, 1009182215), (205, 4263097976), (206, 3156890505), (207, 157691890), (208, 2116434961), (209, 2426525178), (210, 2395537036), (211, 1092238133)], nvs := { Nvs.init with keys := [(0, (beBytes 97 0x0453c6a2110210ca5e8d63630e040b42499f1d466f3c2c9e2134852e2ddf21e17690bfdc4e0aac630b59c3018499c1e05523940e7a171d3efc8d23e6bb4d014a86840aaade79c09a9887b248a5ef271f8c2f461552e08f9198d913b19a5c9032cb))] } } : State), (.portA : Path), (⟨5, .quiesce, false, false, false⟩ : LcJob), by decide +kernel⟩,
   ⟨(up : State), by decide +kernel⟩,
   ⟨({ (ch (puts (up) []) (fun c => { c with kln := { c.kln with lc := some ⟨4, .step 1, true, false, false⟩ } })) with otp := [(52,15)] } : State), (⟨4, .step 1, true, false, false⟩ : LcJob), by decide +kernel, noCinder_of (by decide +kernel)⟩,
   ⟨({ (ch (puts (up) [(DRG_DOM_STAT.UP,0,0)]) (fun c => { c with kln := { c.kln with lc := some ⟨4, .step 2, true, false, false⟩ } })) with otp := [(52,15)] } : State), (⟨4, .step 2, true, false, false⟩ : LcJob), (2 : Nat), by decide +kernel⟩,
   ⟨({ (ch (puts (up) []) (fun c => { c with kln := { c.kln with lc := some ⟨5, .step 2, true, false, false⟩ } })) with otp := [(52,15)] } : State), (⟨5, .step 2, true, false, false⟩ : LcJob), by decide +kernel⟩,
   ⟨({ (ch (puts (up) []) (fun c => { c with kln := { c.kln with lc := some ⟨4, .step 3, true, false, false⟩ } })) with otp := [(52,15)] } : State), (⟨4, .step 3, true, false, false⟩ : LcJob), by decide +kernel⟩,
   ⟨({ (ch (puts (up) [(KLN_CER_SEQ.COUNTER,0,4)]) (fun c => { c with kln := { c.kln with lc := some ⟨4, .step 4, true, false, false⟩ } })) with otp := [(52,15)] } : State), (⟨4, .step 4, true, false, false⟩ : LcJob), by decide +kernel⟩,
   ⟨({ (ch (puts (up) []) (fun c => { c with kln := { c.kln with lc := some ⟨3, .step 5, true, false, false⟩ } })) with otp := [(52,15), (200,7), (212,8)] } : State), (⟨3, .step 5, true, false, false⟩ : LcJob), by decide +kernel⟩,
   ⟨({ (ch (puts (up) [(CRD_STAT.DRBG_READY,0,1), (EMB_CFG.CTX_HOST,0,255)]) (fun c => { c with kln := { c.kln with lc := some ⟨2, .step 6, true, false, false⟩ } })) with otp := [(52,15)] } : State), (⟨2, .step 6, true, false, false⟩ : LcJob), by decide +kernel⟩,
   ⟨({ (ch (puts (up) [(CRD_STAT.DRBG_READY,0,1), (EMB_CFG.CTX_HOST,0,255)]) (fun c => { c with kln := { c.kln with lc := some ⟨4, .step 4, true, false, false⟩ } })) with otp := [(52,15)] } : State), (⟨4, .step 4, true, false, false⟩ : LcJob), by decide +kernel⟩,
   ⟨(ch ({ (ch (puts (up) []) (fun c => { c with kln := { c.kln with lc := some ⟨2, .step 6, true, false, false⟩ } })) with otp := [(52,15)] }) (fun c => { c with kln := { c.kln with idGen := some [1, 2, 3, 4, 5, 6, 7, 8] } }) : State), (⟨2, .step 6, true, false, false⟩ : LcJob), (1 : Nat), ([1, 2, 3, 4, 5, 6, 7, 8] : List Byte), by decide +kernel⟩,
   ⟨({ (ch (puts (up) [(KLN_LC_MARK.VALUE,0,0xF0000)]) (fun c => { c with kln := { c.kln with lc := some ⟨4, .doneMark, true, false, false⟩ } })) with otp := [(52,15)] } : State), (⟨4, .doneMark, true, false, false⟩ : LcJob), (0xF00000 : Nat), by decide +kernel⟩,
   ⟨({ (ch (puts (up) [(DRG_SEQ_STAT.STATE,0,6)]) (fun c => { c with kln := { c.kln with lc := some ⟨4, .stateBurn, true, false, false⟩ } })) with otp := [(52,15)] } : State), (⟨4, .stateBurn, true, false, false⟩ : LcJob), by decide +kernel⟩,
   ⟨({ (ch (puts (up) []) (fun c => { c with kln := { c.kln with lc := some ⟨4, .stateBurn, true, false, false⟩ } })) with otp := [(52,15)] } : State), (⟨4, .stateBurn, true, false, false⟩ : LcJob), by decide +kernel⟩⟩

theorem witness_hostPortLinks :
    (∃ (s : State) (_x : PortId),
        (s.Still))
    ∧ (∃ (s : State) (x : PortId),
        (s.Still ∧ s.chip.on FLU_HP_STAT.DL_UP x = false))
    ∧ (∃ (s : State) (x : PortId),
        (s.Still ∧ s.chip.on FLU_HP_STAT.DL_UP x = true))
    ∧ (∃ (s : State) (x : PortId),
        (s.Still ∧ s.chip.on FLU_HP_STAT.DL_UP x = true))
    ∧ (∃ (s : State) (x : PortId),
        (s.Still ∧ s.chip.on FLU_HP_STAT.DL_UP x = false))
    ∧ (∃ (s : State) (x : PortId) (speed : Nat) (width : Nat),
        (s.Still ∧ s.chip.domUp 18 = true ∧ (s.chip.port x).perstLow = false ∧ s.chip.lcState ≠ lcBlank ∧
            (width = 1 ∨ width = 2 ∨ width = 4) ∧ 1 ≤ speed ∧ speed ≤ s.chip.get FLU_HP_CFG.MAX_SPEED x + 1 ∧ speed ≤ 4))
    ∧ (∃ (s : State) (x : PortId) (speed : Nat) (width : Nat),
        (s.Still ∧ (s.chip.domUp 18 = false ∨ (s.chip.port x).perstLow = true ∨ s.chip.lcState = lcBlank ∨ (width ≠ 1 ∧
            width ≠ 2 ∧ width ≠ 4) ∨ speed = 0
          ∨ s.chip.get FLU_HP_CFG.MAX_SPEED x + 1 < speed)))
    ∧ (∃ (s : State) (x : PortId) (d3hot : Bool) (bme : Bool) (mse : Bool),
        (s.Still ∧ s.chip.serving x = true ∧ (d3hot = true ∨ bme = false ∨ mse = false)))
    ∧ (∃ (s : State) (x : PortId),
        (s.Still ∧ s.chip.domUp 18 = true ∧ s.chip.on FLU_HP_STAT.DL_UP x = true ∧ s.chip.serving x = false ∧
            s.chip.portFenced x = false ∧ s.chip.on FLU_PORT_STAT.LOST x = false ∧ s.chip.safe = false ∧ s.chip.NoRingWork x))
    ∧ (∃ (s : State) (x : PortId) (d3hot : Bool) (bme : Bool) (mse : Bool),
        (s.Still ∧ s.chip.domUp 18 = true ∧ s.chip.on FLU_HP_STAT.DL_UP x = true ∧ s.chip.serving x = false ∧
            (d3hot = true ∨ bme = false ∨ mse = false)))
    ∧ (∃ (s : State) (x : PortId) (_d3hot : Bool) (_bme : Bool) (_mse : Bool),
        (s.Still ∧ (s.chip.domUp 18 = false ∨ s.chip.on FLU_HP_STAT.DL_UP x = false)))
    ∧ (∃ (s : State) (_x : PortId) (kind : PcieErr) (f : Fld) (src : Nat),
        (s.Still ∧ s.chip.domUp 18 = true ∧ (kind, f, src) ∈ ([(.correctable, FLU_HP_ERR.CE_CNT, 0x42), (.uncorrectable,
            FLU_HP_ERR.UE_CNT, 0x43), (.fatal, FLU_HP_ERR.UE_CNT, 0x44)]
          : List (PcieErr × Fld × Nat))))
    ∧ (∃ (s : State) (x : PortId) (_kind : InboundKind),
        (s.Still ∧ s.chip.domUp 18 = true ∧ s.chip.on FLU_HP_STAT.DL_UP x = true)) :=
  ⟨⟨(ch up (fun c => c.setPort 1 {c.port 1 with perstLow := true}) : State), (1 : PortId), by decide +kernel⟩,
   ⟨(up : State), (1 : PortId), by decide +kernel⟩,
   ⟨(puts (up) [(FLU_HP_STAT.DL_UP,1,1), (FLU_HP_STAT.BME,1,1), (FLU_HP_STAT.MSE,1,1)] : State), (1 : PortId),
       by decide +kernel⟩,
   ⟨(puts (up) [(FLU_HP_STAT.DL_UP,0,1), (FLU_HP_STAT.BME,0,1), (FLU_HP_STAT.MSE,0,1), (FLU_HP_STAT.SPEED,0,3)] : State),
       (0 : PortId), by decide +kernel⟩,
   ⟨(up : State), (0 : PortId), by decide +kernel⟩,
   ⟨(ch up (fun c => c.setPort 1 {c.port 1 with perstLow := false}) : State), (1 : PortId), (4 : Nat), (2 : Nat),
       by decide +kernel⟩,
   ⟨(up : State), (1 : PortId), (5 : Nat), (2 : Nat), by decide +kernel⟩,
   ⟨(puts (up) [(FLU_HP_STAT.DL_UP,0,1), (FLU_HP_STAT.BME,0,1), (FLU_HP_STAT.MSE,0,1)] : State), (0 : PortId), (true : Bool),
       (true : Bool), (true : Bool), by decide +kernel⟩,
   ⟨(ch (puts (up) [(FLU_HP_STAT.DL_UP,1,1)]) (fun c => c.setPort 1 {c.port 1 with lossRun := true, pba := [2,3,9], msix := [(15,0)]}) : State), (1 : PortId), by decide +kernel⟩,
   ⟨(puts (up) [(FLU_HP_STAT.DL_UP,0,1)] : State), (0 : PortId), (false : Bool), (true : Bool), (false : Bool),
       by decide +kernel⟩,
   ⟨(up : State), (0 : PortId), (false : Bool), (true : Bool), (true : Bool), by decide +kernel⟩,
   ⟨(puts (up) [(FLU_HP_ERR.UE_CNT,1,0xFFFF)] : State), (1 : PortId), (.fatal : PcieErr), (FLU_HP_ERR.UE_CNT : Fld),
       (0x44 : Nat), by decide +kernel⟩,
   ⟨(puts (up) [(FLU_HP_STAT.DL_UP,1,1)] : State), (1 : PortId), (.ioRequest : InboundKind), by decide +kernel⟩⟩

theorem witness_registerWrites :
    (∃ (s : State) (p : Path) (addr : Nat) (_v : Nat) (r : RegName) (i : Nat),
        (s.Still ∧ s.chip.served p (blkOf addr) true (decide (addr = 0x200004)) = true ∧ s.chip.holdsNothing p addr = none ∧
            addr < 0xD80000 ∧ addr % 4 = 0 ∧ regAt addr = some (r, i) ∧ r ∈ settingRegs))
    ∧ (∃ (s : State) (p : Path) (addr : Nat) (_v : Nat) (size : Nat),
        (s.Still ∧ s.chip.served p (blkOf addr) true (decide (addr = 0x200004)) = true ∧ s.chip.holdsNothing p addr = none ∧
            addr < 0xD80000 ∧ 1 ≤ size ∧ size < 4 ∧ addr % 4 + size ≤ 4))
    ∧ (∃ (s : State) (p : Path) (addr : Nat) (_v : Nat) (size : Nat) (u : Nat),
        (s.Still ∧ s.chip.served p (blkOf addr) true (decide (addr = 0x200004)) = true ∧ OneAccess addr size ∧
            s.chip.holdsNothing p addr = some u))
    ∧ (∃ (s : State) (p : Path) (addr : Nat) (_v : Nat) (size : Nat),
        (s.Still ∧ s.chip.served p (blkOf addr) true (decide (addr = 0x200004)) = false ∧ OneAccess addr size))
    ∧ (∃ (s : State) (p : Path) (addr : Nat) (_v : Nat) (size : Nat) (off : Nat),
        (s.Still ∧ s.chip.served p (blkOf addr) true (decide (addr = 0x200004)) = true ∧ s.chip.domUp 16 = true ∧
            addr = 0x1000000 + off ∧ 0x400000 ≤ off ∧ off < 0x1000000 ∧ s.chip.wear.groupsOut.contains (off / 65536) = false ∧
                (size = 1 ∨ size = 2 ∨ size = 4 ∨ size = 8) ∧ addr % size = 0))
    ∧ (∃ (s : State) (p : Path) (addr : Nat) (_v : Nat) (size : Nat) (off : Nat),
        (s.Still ∧ s.chip.served p (blkOf addr) true (decide (addr = 0x200004)) = true ∧ OneAccess addr size ∧
            s.chip.domUp 16 = true ∧ addr = 0x1000000 + off ∧ off < 0x1000000 ∧
                (off < 0x400000 ∨ s.chip.wear.groupsOut.contains (off / 65536) = true ∨ (size ≠ 1 ∧ size ≠ 2 ∧ size ≠ 4 ∧
                    size ≠ 8) ∨ addr % size ≠ 0)))
    ∧ (∃ (s : State) (p : Path) (addr : Nat) (_v : Nat) (size : Nat) (k : CtxId) (off : Nat),
        (s.Still ∧ s.chip.served p (blkOf addr) true (decide (addr = 0x200004)) = true ∧ s.chip.domUp 17 = true ∧
            s.chip.ctxHost k = true ∧ s.chip.ctxPaired k = false ∧
                (s.chip.ctxState k = esIDLE ∨ s.chip.ctxState k = esDONE ∨ s.chip.ctxState k = esFENCED) ∧
                    (size = 1 ∨ size = 2 ∨ size = 4 ∨ size = 8) ∧ addr % size = 0 ∧ addr = 0xD80000 + 0x2000 * k.val + off ∧
                        off < 0x2000))
    ∧ (∃ (s : State) (p : Path) (addr : Nat) (_v : Nat) (size : Nat) (k : CtxId) (off : Nat),
        (s.Still ∧ s.chip.served p (blkOf addr) true (decide (addr = 0x200004)) = true ∧ s.chip.domUp 17 = true ∧
            s.chip.ctxHost k = true ∧ s.chip.ctxPaired k = false ∧
                (s.chip.ctxState k = esIDLE ∨ s.chip.ctxState k = esDONE ∨ s.chip.ctxState k = esFENCED) ∧
                    (size = 1 ∨ size = 2 ∨ size = 4 ∨ size = 8) ∧ addr % size = 0 ∧ addr = 0xDC0000 + 0x1000 * k.val + off ∧
                        off < 0x1000))
    ∧ (∃ (s : State) (p : Path) (addr : Nat) (_v : Nat) (size : Nat) (k : CtxId) (off : Nat),
        (s.Still ∧ s.chip.served p (blkOf addr) true (decide (addr = 0x200004)) = true ∧ OneAccess addr size ∧
            s.chip.domUp 17 = true ∧ ((addr = 0xD80000 + 0x2000 * k.val + off ∧
                off < 0x2000) ∨ (addr = 0xDC0000 + 0x1000 * k.val + off ∧ off < 0x1000)) ∧
                    (s.chip.ctxHost k = false ∨ s.chip.ctxPaired k = true ∨ (s.chip.ctxState k ≠ esIDLE ∧
                        s.chip.ctxState k ≠ esDONE ∧ s.chip.ctxState k ≠ esFENCED)
          ∨ (size ≠ 1 ∧ size ≠ 2 ∧ size ≠ 4 ∧ size ≠ 8) ∨ addr % size ≠ 0)))
    ∧ (∃ (s : State) (p : Path) (addr : Nat) (v : Nat) (size : Nat) (n : Nat) (t : State) (u : State),
        (s.Still ∧ n = (if isMemory addr = true then 8 - addr % 8 else 4 - addr % 4) ∧ n < size) ∧
            exec (.registerWrite p addr n v) s = .next t ∧
                exec (.registerWrite p (addr + n) (size - n) (v / 256 ^ n)) t = .next u)
    ∧ (∃ (s : State) (x : PortId) (off : Nat) (v : Nat),
        (s.Still ∧ s.chip.served (if x.val = 0 then .portA else .portB) 0x09 true false = true ∧ off % 4 = 0 ∧
            off < 16 * (s.chip.get FLU_HP_CFG.MSIX_LAST x + 1) ∧ off < 0x8000 ∧
                (off / 4 % 4 ≠ 3 ∨ v % 2 = 1 ∨ (s.chip.port x).pba.contains (off / 16) = false ∨ s.chip.portOpen x = false)))
    ∧ (∃ (s : State) (x : PortId) (off : Nat) (v : Nat),
        (s.Still ∧ s.chip.served (if x.val = 0 then .portA else .portB) 0x09 true false = true ∧ off % 4 = 0 ∧
            off < 16 * (s.chip.get FLU_HP_CFG.MSIX_LAST x + 1) ∧ off < 0x8000 ∧ off / 4 % 4 = 3 ∧ v % 2 = 0 ∧
                (s.chip.port x).pba.contains (off / 16) = true ∧ s.chip.portOpen x = true))
    ∧ (∃ (s : State) (x : PortId) (off : Nat) (_v : Nat),
        (s.Still ∧ s.chip.served (if x.val = 0 then .portA else .portB) 0x09 true false = true ∧ off % 4 = 0 ∧
            16 * (s.chip.get FLU_HP_CFG.MSIX_LAST x + 1) ≤ off ∧ off < 0x8000)) :=
  ⟨⟨(up : State), (.spi : Path), (0x200050 : Nat), (0x12345678 : Nat), (.ASH_IRQ_CFG : RegName), (0 : Nat), by decide +kernel⟩,
   ⟨(up : State), (.spi : Path), (0x200050 : Nat), (1 : Nat), (2 : Nat), by decide +kernel⟩,
   ⟨(up : State), (.spi : Path), (0x208FF8 : Nat), (1 : Nat), (4 : Nat), (2 : Nat), by decide +kernel⟩,
   ⟨(State.reset : State), (.portA : Path), (0xC00000 : Nat), (1 : Nat), (4 : Nat), by decide +kernel⟩,
   ⟨(up : State), (.spi : Path), (0x1400008 : Nat), (77 : Nat), (8 : Nat), (0x400008 : Nat), by decide +kernel⟩,
   ⟨(up : State), (.spi : Path), (0x1400004 : Nat), (77 : Nat), (3 : Nat), (0x400004 : Nat), by decide +kernel⟩,
   ⟨(up : State), (.spi : Path), (0xD88008 : Nat), (77 : Nat), (8 : Nat), (4 : CtxId), (8 : Nat), by decide +kernel⟩,
   ⟨(up : State), (.spi : Path), (0xDC4008 : Nat), (77 : Nat), (8 : Nat), (4 : CtxId), (8 : Nat), by decide +kernel⟩,
   ⟨(up : State), (.spi : Path), (0xDC1008 : Nat), (77 : Nat), (8 : Nat), (1 : CtxId), (8 : Nat), by decide +kernel⟩,
   ⟨(up : State), (.spi : Path), (0x200050 : Nat), (0x300000001 : Nat), (8 : Nat), (4 : Nat),
       ((match exec (.registerWrite .spi 0x200050 4 0x300000001) (up) with | .next t => t | _ => up) : State),
           ((match exec (.registerWrite .spi 0x200054 4 3) (match exec (.registerWrite .spi 0x200050 4 0x300000001) (up) with | .next t => t | _ => up) with | .next t => t | _ => up) : State), by decide +kernel, Eq.refl _, Eq.refl _⟩,
   ⟨(up : State), (1 : PortId), (0x18 : Nat), (99 : Nat), by decide +kernel⟩,
   ⟨(ch (puts (up) [(FLU_HP_STAT.DL_UP,1,1), (FLU_HP_STAT.BME,1,1),
       (FLU_HP_STAT.MSE,1,1)]) (fun c => c.setPort 1 {c.port 1 with pba := [0,1]}) : State), (1 : PortId), (0x1C : Nat),
           (0 : Nat), by decide +kernel⟩,
   ⟨(puts (up) [(FLU_HP_CFG.MSIX_LAST,1,5)] : State), (1 : PortId), (0x7FF0 : Nat), (99 : Nat), by decide +kernel⟩⟩

theorem witness_reads :
    (∃ (s : State) (p : Path) (addr : Nat) (size : Nat) (u : Nat),
        (s.Still ∧ s.chip.served p (blkOf addr) true (decide (addr = 0x200004)) = true ∧ OneAccess addr size ∧
            s.chip.holdsNothing p addr = some u))
    ∧ (∃ (s : State) (p : Path) (addr : Nat) (size : Nat),
        (s.Still ∧ s.chip.served p (blkOf addr) true (decide (addr = 0x200004)) = false ∧ OneAccess addr size))
    ∧ (∃ (s : State) (p : Path) (addr : Nat) (size : Nat) (u : Nat),
        (s.Still ∧ s.chip.served p (blkOf addr) false false = true ∧ mailboxWord p addr = false ∧ OneAccess addr size ∧
            s.chip.holdsNothing p addr = some u))
    ∧ (∃ (s : State) (p : Path) (addr : Nat) (size : Nat),
        (s.Still ∧ s.chip.served p (blkOf addr) false false = false ∧ mailboxWord p addr = false ∧ OneAccess addr size))
    ∧ (∃ (s : State) (p : Path) (addr : Nat) (size : Nat),
        (s.Still ∧ p = .spi ∧ addr = 0x301000 ∧ size = 4 ∧ s.chip.domUp 16 = false))
    ∧ (∃ (s : State) (p : Path) (addr : Nat) (size : Nat) (r : RegName) (i : Nat),
        (s.Still ∧ s.chip.served p (blkOf addr) false false = true ∧ s.chip.holdsNothing p addr = none ∧ OneAccess addr size ∧
            addr < 0xD80000 ∧ regAt (addr / 4 * 4) = some (r, i) ∧ ctxOfReg r i = none ∧ r ≠ .STK_MBX_RES))
    ∧ (∃ (s : State) (p : Path) (addr : Nat) (size : Nat) (off : Nat),
        (s.Still ∧ s.chip.served p (blkOf addr) false false = true ∧ s.chip.domUp 16 = true ∧ addr = 0x1000000 + off ∧
            0x400000 ≤ off ∧ off < 0x1000000 ∧ s.chip.wear.groupsOut.contains (off / 65536) = false ∧
                (size = 1 ∨ size = 2 ∨ size = 4 ∨ size = 8) ∧ addr % size = 0))
    ∧ (∃ (s : State) (p : Path) (addr : Nat) (size : Nat) (off : Nat),
        (s.Still ∧ s.chip.served p (blkOf addr) false false = true ∧ OneAccess addr size ∧ s.chip.domUp 16 = true ∧
            addr = 0x1000000 + off ∧ off < 0x400000 ∧ s.chip.granted 4 = false))
    ∧ (∃ (s : State) (p : Path) (addr : Nat) (size : Nat) (k : CtxId) (off : Nat),
        (s.Still ∧ s.chip.served p (blkOf addr) false false = true ∧ s.chip.domUp 17 = true ∧ s.chip.ctxHost k = true ∧
            s.chip.ctxPaired k = false ∧ (s.chip.ctxState k = esIDLE ∨ s.chip.ctxState k = esDONE ∨ s.chip.ctxState k = esFENCED) ∧ (size = 1 ∨ size = 2 ∨ size = 4 ∨ size = 8) ∧ addr % size = 0 ∧ addr = 0xD80000 + 0x2000 * k.val + off ∧ off < 0x2000 ∧ s.chip.opHidden k (off / 8) = false))
    ∧ (∃ (s : State) (p : Path) (addr : Nat) (size : Nat) (k : CtxId) (off : Nat),
        (s.Still ∧ s.chip.served p (blkOf addr) false false = true ∧ s.chip.domUp 17 = true ∧ s.chip.ctxHost k = true ∧
            s.chip.ctxPaired k = false ∧ (s.chip.ctxState k = esIDLE ∨ s.chip.ctxState k = esDONE ∨ s.chip.ctxState k = esFENCED) ∧ (size = 1 ∨ size = 2 ∨ size = 4 ∨ size = 8) ∧ addr % size = 0 ∧ addr = 0xDC0000 + 0x1000 * k.val + off ∧ off < 0x1000 ∧ (s.chip.ctx k).isSealed = false))
    ∧ (∃ (s : State) (p : Path) (addr : Nat) (size : Nat) (n : Nat) (t : State) (u : State),
        (s.Still ∧ n = (if isMemory addr = true then 8 - addr % 8 else 4 - addr % 4) ∧ n < size) ∧
            exec (.unmappedAccess p addr ⟨n, false⟩) s = .next t ∧ exec (.unmappedAccess p (addr + n) ⟨size - n,
                false⟩) t = .next u)
    ∧ (∃ (s : State) (p : Path) (w : WinX) (off : Nat) (size : Nat) (v : Nat) (a : Nat) (k : CtxId),
        (s.Still ∧ w.ready = true ∧ w.oneShot = true ∧ w.words ≠ [] ∧ w.words.length < 512 ∧ 1 ≤ size ∧ off + size ≤ 4 ∧
            v = (if size = 4 then w.words.getLastD 0 else w.words.getLastD 0 / 256 ^ off % 256 ^ size) ∧ s.chip.domUp 17 = true
                ∧ s.chip.served p blkEMB false false = true ∧ s.chip.ctxHost k = true ∧ w = (s.chip.ctx k).win ∧
                    (s.chip.ctx k).isSealed = false ∧ a = 0xD04000 + 0x800 * k.val + 4 * w.words.length))
    ∧ (∃ (s : State) (p : Path) (w : WinX) (off : Nat) (size : Nat) (v : Nat) (a : Nat),
        (s.Still ∧ w.ready = true ∧ w.oneShot = true ∧ w.words ≠ [] ∧ w.words.length < 512 ∧ 1 ≤ size ∧ off + size ≤ 4 ∧
            v = (if size = 4 then w.words.getLastD 0 else w.words.getLastD 0 / 256 ^ off % 256 ^ size) ∧ s.chip.domUp 16 = true
                ∧ s.chip.served p blkSTK false false = true ∧ w = s.chip.kln.mbx ∧ a = 0x301000 + 4 * w.words.length)) :=
  ⟨⟨(up : State), (.portA : Path), (0x2000000 : Nat), (4 : Nat), (0xFF : Nat), by decide +kernel⟩,
   ⟨(State.reset : State), (.portA : Path), (0x208FF8 : Nat), (4 : Nat), by decide +kernel⟩,
   ⟨(up : State), (.spi : Path), (0x208FF8 : Nat), (4 : Nat), (2 : Nat), by decide +kernel⟩,
   ⟨(State.reset : State), (.portA : Path), (0x208FF8 : Nat), (4 : Nat), by decide +kernel⟩,
   ⟨(State.reset : State), (.spi : Path), (0x301000 : Nat), (4 : Nat), by decide +kernel⟩,
   ⟨(put up ASH_IRQ_CFG.EN 0 1 : State), (.spi : Path), (0x200051 : Nat), (2 : Nat), (.ASH_IRQ_CFG : RegName), (0 : Nat),
       by decide +kernel⟩,
   ⟨({ (up) with sram := [(0x400009, 5)] } : State), (.portB : Path), (0x1400008 : Nat), (8 : Nat), (0x400008 : Nat),
       by decide +kernel⟩,
   ⟨(up : State), (.portB : Path), (0x1000008 : Nat), (8 : Nat), (8 : Nat), by decide +kernel⟩,
   ⟨({ (up) with opmem := [(0x8009, 5)] } : State), (.spi : Path), (0xD88008 : Nat), (4 : Nat), (4 : CtxId), (8 : Nat),
       by decide +kernel⟩,
   ⟨({ (up) with listmem := [(0x4009, 5)] } : State), (.spi : Path), (0xDC4008 : Nat), (4 : Nat), (4 : CtxId), (8 : Nat),
       by decide +kernel⟩,
   ⟨(up : State), (.spi : Path), (0x200050 : Nat), (8 : Nat), (4 : Nat), ((match exec (.unmappedAccess .spi 0x200050 ⟨4,
       false⟩) (up) with | .next t => t | _ => up) : State), ((match exec (.unmappedAccess .spi 0x200054 ⟨4,
           false⟩) (match exec (.unmappedAccess .spi 0x200050 ⟨4,
               false⟩) (up) with | .next t => t | _ => up) with | .next t => t | _ => up) : State), by decide +kernel,
                   Eq.refl _, Eq.refl _⟩,
   ⟨(ch (puts (up) [(EMB_CSTAT.STATE,4,7), (EMB_DST.LEN,4,2),
       (EMB_JOB.ONE_SHOT,4,1)]) (fun c => c.setCtx 4 {c.ctx 4 with win := ⟨[5,6,7,8], 0, true, true, false⟩, shy := some (0, 2, false)}) : State), (.portA : Path), (⟨[5,6,7,8], 0, true, true, false⟩ : WinX), (1 : Nat), (2 : Nat), (0 : Nat), (0xD04000 + 0x800 * 4 + 16 : Nat), (4 : CtxId), by decide +kernel⟩,
   ⟨(ch up (fun c => { c with kln := { c.kln with mbx := ⟨[5,6,7,8], 0, true, true, false⟩ } }) : State), (.portA : Path),
       (⟨[5,6,7,8], 0, true, true, false⟩ : WinX), (0 : Nat), (4 : Nat), (8 : Nat), (0x301010 : Nat), by decide +kernel⟩⟩

theorem witness_framesAndColdReset :
    (∃ (s : State) (b : List Byte) (i : Instr),
        (s.Still ∧ s.chip.seq.linkLock = true ∧ (i = .spiRead b ∨ i = .spiWrite b) ∧ (b.head? = some 0x0B ∧ 7 ≤ b.length ∧
            crc8 (b.take 6) ≠ (b.getD 6 0).toNat
          ∨ b.head? = some 0x02 ∧ 7 + 4 * ((b.getD 5 0).toNat + 1) ≤ b.length
            ∧ crc8 (b.take (6 + 4 * ((b.getD 5 0).toNat + 1))) ≠ (b.getD (6 + 4 * ((b.getD 5 0).toNat + 1)) 0).toNat)))
    ∧ (∃ (s : State) (b : List Byte) (i : Instr),
        (s.Still ∧ s.chip.seq.linkLock = true ∧ (i = .spiRead b ∨ i = .spiWrite b) ∧ b ≠ [] ∧ (b.head? ≠ some 0x0B ∧
            b.head? ≠ some 0x02 ∧ b.head? ≠ some 0x05
          ∨ b.head? = some 0x0B ∧ 7 ≤ b.length ∧ crc8 (b.take 6) = (b.getD 6 0).toNat ∧ beNat ((b.drop 1).take 4) % 4 ≠ 0)))
    ∧ (∃ (s : State) (b : List Byte) (i : Instr),
        (s.Still ∧ s.chip.seq.linkLock = true ∧ (i = .spiRead b ∨ i = .spiWrite b ∨ i = .spiFrameCut) ∧
            (i = .spiFrameCut ∨ b = [] ∨ b.head? = some 0x0B ∧ b.length < 7
          ∨ b.head? = some 0x02 ∧ b.length < 7 + 4 * ((b.getD 5 0).toNat + 1))))
    ∧ (∃ (s : State) (b : List Byte) (a : Nat) (v : Nat) (t : State),
        (s.Still ∧ s.chip.seq.linkLock = true ∧ a < 2 ^ 32 ∧ a % 4 = 0 ∧ v < 2 ^ 32 ∧ b = [0x02] ++ beBytes 4 a ++ [0]
            ++ beBytes 4 v ++ [BitVec.ofNat 8 (crc8 ([0x02] ++ beBytes 4 a ++ [0] ++ beBytes 4 v))]) ∧
                exec (.registerWrite .spi a 4 v) s = .next t)
    ∧ (∃ (s : State) (b : List Byte) (a : Nat) (r : RegName) (i : Nat),
        (s.Still ∧ s.chip.seq.linkLock = true ∧ a < 0xD80000 ∧ a % 4 = 0 ∧ regAt a = some (r, i) ∧ s.chip.regUp r i a = true ∧
            ctxOfReg r i = none ∧ r ≠ .STK_MBX_RES ∧ s.chip.served .spi (blkOf a) false false = true ∧ b = [0x0B] ++ beBytes 4 a
                ++ [0] ++ [BitVec.ofNat 8 (crc8 ([0x0B] ++ beBytes 4 a ++ [0]))]))
    ∧ (∃ (s : State) (b : List Byte) (i : Instr),
        (s.Still ∧ s.chip.seq.linkLock = false ∧ (i = .spiRead b ∨ i = .spiWrite b ∨ i = .spiStatus)))
    ∧ (∃ (s : State) (f : Fld) (_i : Nat),
        (voteValue s.nvs.repairVotes 2 = 0 ∧ f.reg ∉ [RegName.KLN_LC_WORD, .KLN_LC_MARK, .KLN_VER_FLOOR, .KLN_CER_SEQ,
            .KLN_TLOCK, .KLN_CFG_STAT, .ASH_JRN_HEAD, .DRG_WEAR_STAT,
          .DRG_WEAR_HRS, .DRG_AGE_STAT, .DRG_SRAM_STAT, .HTH_LEG_STAT, .EMB_COLMAP, .FLU_LANE_STAT, .EMB_STAT,
              .HTH_BANK_RICK])) :=
  ⟨⟨(up : State), ([0x0B,0,0,0,0,0,1] : List Byte), (.spiRead [0x0B,0,0,0,0,0,1] : Instr), by decide +kernel⟩,
   ⟨(up : State), ([9] : List Byte), (.spiRead [9] : Instr), by decide +kernel⟩,
   ⟨(up : State), ([0x0B,0,0,0,1] : List Byte), (.spiRead [0x0B,0,0,0,1] : Instr), by decide +kernel⟩,
   ⟨(up : State), ([0x02] ++ beBytes 4 0x200050 ++ [0] ++ beBytes 4 7 ++ [BitVec.ofNat 8 (crc8 ([0x02] ++ beBytes 4 0x200050
       ++ [0] ++ beBytes 4 7))] : List Byte), (0x200050 : Nat), (7 : Nat),
           ((match exec (.registerWrite .spi 0x200050 4 7) (up) with | .next t => t | _ => (up)) : State), by decide +kernel,
               Eq.refl _⟩,
   ⟨(put up ASH_IRQ_CFG.EN 0 1 : State), ([0x0B] ++ beBytes 4 0x200050 ++ [0] ++ [BitVec.ofNat 8 (crc8 ([0x0B]
       ++ beBytes 4 0x200050 ++ [0]))] : List Byte), (0x200050 : Nat), (.ASH_IRQ_CFG : RegName), (0 : Nat), by decide +kernel⟩,
   ⟨(ch up (fun c => { c with seq := { c.seq with linkLock := false } }) : State), ([5] : List Byte), (.spiStatus : Instr),
       by decide +kernel⟩,
   ⟨(puts up [(ASH_IRQ_CFG.EN,0,1)] : State), (ASH_IRQ_CFG.EN : Fld), (0 : Nat), by decide +kernel⟩⟩

/-! ### Statements over every state, and with a premise of another kind -/

theorem witness_warmReset :
    ∃ s : State, (s.Still ∧ s.chip.ash.warmPend = true
      ∧ (∀ n ∈ List.range 64, s.chip.slotState n = stOFF ∨ s.chip.slotState n = stABSENT ∨ s.chip.slotState n = stCLINKER)
      ∧ s.chip.pmb.bel.phase = .none ∧ s.chip.domUp 16 = true ∧ s.chip.dmp.grants = []
      ∧ s.chip.get KLN_LC_STAT.PHASE 0 = 0) ∧ s.chip.NoCinder :=
  ⟨ch up (fun c => { c with ash := { c.ash with warmPend := true } }), by decide +kernel, noCinder_of (by decide +kernel)⟩

theorem witness_spiStatusAndCrc : ∃ s : State, s.Still ∧ s.chip.seq.linkLock = true := ⟨up, by decide +kernel⟩

theorem witness_reservedBits :
    (regFields .ASH_IRQ_CFG ≠ [] ∧ tableBit .ASH_IRQ_CFG 30 = false)
    ∧ regAt 0x200050 = some (.ASH_IRQ_CFG, 0)
    ∧ (∀ k, tableBit .ASH_IRQ_CFG k = true → (0x40000000 : Nat).testBit k = (0 : Nat).testBit k) := by
  refine ⟨by decide +kernel, by decide +kernel, fun k h => ?_⟩
  have hk : k ≠ 30 := by
    have := List.any_eq_true.mp h
    obtain ⟨f, hf, hb⟩ := this
    have hall : ∀ f ∈ regFields .ASH_IRQ_CFG, f.lo + f.width ≤ 30 ∨ 31 ≤ f.lo := by decide +kernel
    have := hall f hf
    simp only [Bool.and_eq_true, decide_eq_true_eq] at hb
    omega
  rw [show (0x40000000 : Nat) = 2 ^ 30 from rfl, Nat.testBit_two_pow, Nat.zero_testBit]
  exact decide_eq_false (by omega)

theorem witness_stepTakesTheFrontCommand : ∃ s : State, s.pending = [] := ⟨up, rfl⟩

/-- A write of the SRAM that waits in the queue. -/
def waiting : State := { up with pending := [.registerWrite .spi 0x1400008 8 0x0102030405060708] }

theorem witness_memoriesStayCanonical : ∃ s t : State, s.MemOk ∧ step s = .next t :=
  ⟨waiting, _, ⟨by decide +kernel, by decide +kernel, by decide +kernel⟩, rfl⟩

theorem witness_burnedOtpStaysBurned : ∃ s t : State, step s = .next t := ⟨waiting, _, rfl⟩

theorem witness_journalStaysARing : ∃ s t : State, s.JournalOk ∧ step s = .next t :=
  ⟨waiting, _, ⟨by decide +kernel, by decide +kernel⟩, rfl⟩

theorem witness_noMemoryWorkIsLeft : ∃ s t : State, s.Still ∧ step s = .next t := ⟨waiting, _, by decide +kernel, rfl⟩

theorem witness_commandsMeetTheirGate :
    (∃ (i : Instr) (p : Path) (blk : Nat) (a : Bool) (dom : Option Nat) (s : State),
      s.Still ∧ registerCommand i = some (p, blk, a, dom) ∧ s.chip.served p blk true a = false)
    ∧ (∃ (i : Instr) (p : Path) (blk : Nat) (a : Bool) (dom : Option Nat) (s : State) (k : Nat),
      s.Still ∧ registerCommand i = some (p, blk, a, dom) ∧ dom = some k ∧ s.chip.served p blk true a = true
        ∧ s.chip.domUp k = false) :=
  ⟨⟨.warm .portA 0x5A, .portA, blkASH, true, none, State.reset, by decide +kernel⟩,
   ⟨.activate .spi 37, .spi, blkHTH, false, some 9, State.reset, 9, by decide +kernel⟩⟩

/-! ## Well-formedness: for each check, a command that it refuses -/

theorem test_wf_write : (Instr.registerWrite .portA 0x800000 4 1).wf = true := by decide
theorem test_wf_size : (Instr.registerWrite .portA 0x800000 0 0).wf = false := by decide
theorem test_wf_value : (Instr.registerWrite .portA 0x800000 1 256).wf = false := by decide
theorem test_wf_address : (Instr.registerWrite .portA 0x100000000 4 1).wf = false := by decide
theorem test_wf_key : (Instr.warm .portA 256).wf = false := by decide
theorem test_wf_ports : (Instr.liftPort .portA 0x5A 4).wf = false := by decide
theorem test_wf_mode : (Instr.monitorModeWrite .portA (.vmon 5) 4).wf = false := by decide
theorem test_wf_readings : (Instr.legMeasurementEnd 5 [⟨0, true, 25, [1, 2, 3, 4], []⟩]).wf = false := by decide
theorem test_wf_pps : (Instr.ppsResponseReceived 0 (List.replicate 7 0) true).wf = false := by decide
theorem test_wf_t1 : (Instr.t1BlockReceived 0 (List.replicate 260 0) true).wf = false := by decide
theorem test_wf_turf : (Instr.turfDataRx 5 [] (List.replicate (2 ^ 17) false)).wf = false := by
  rw [Instr.wf, fitsFrame, List.nil_append, List.length_replicate]; rfl
theorem test_wf_bell : (Instr.sqDoorbell .portA 3 (2 ^ 32)).wf = false := by decide
theorem test_wf_entry : (Instr.entryReceived 3 [List.replicate 63 0]).wf = false := by decide
theorem test_wf_payload : (Instr.commandPayloadReceived 3 65536 []).wf = false := by decide
theorem test_wf_dma : (Instr.dmaError 3 (.buffer 65536)).wf = false := by decide
theorem test_wf_handle : (Instr.clearStale .portA 4096 false 0).wf = false := by decide
theorem test_wf_mask : (Instr.liveNoticeRx 1 (2 ^ 64)).wf = false := by decide
theorem test_wf_cells : (Instr.domainUp 2 true [⟨0, 25, ⟨true, [65536]⟩⟩]).wf = false := by decide
theorem test_wf_pmbus : (Instr.pmbusTransactionEnd 5 (.ack [1, 2, 3, 4])).wf = false := by decide
theorem test_wf_margin : (Instr.bellowsGo .portA 4 0 1).wf = false := by decide
theorem test_wf_dwell : (Instr.dwellEnd 65536).wf = false := by decide
theorem test_wf_stage : (Instr.startRx 3 1).wf = false := by decide
theorem test_wf_sensors : (Instr.damperRecompute [50]).wf = false := by decide
theorem test_wf_row : (Instr.sramEccError 4 (.corrected 256)).wf = false := by decide
theorem test_wf_kind : (Instr.forceLift .portA 16 0).wf = false := by decide
theorem test_wf_overlay : (Instr.removeOvl .portA 8).wf = false := by decide
theorem test_wf_speed : (Instr.linkTrained 0 16 4).wf = false := by decide
theorem test_wf_msix : (Instr.msixTableWrite 0 65536 0).wf = false := by decide
theorem test_wf_spi : (Instr.spiRead (List.replicate 264 0)).wf = false := by decide
theorem test_wf_init : (Instr.initRx 0 4 0).wf = false := by decide
theorem test_wf_tag : (Instr.fwdCmdRx 0 0 65536 []).wf = false := by decide
theorem test_wf_seq : (Instr.kzAckRx 0 .traffic 256).wf = false := by decide

/-! ## The spec's worked examples -/

/-- The example of R497's chapter: five addresses decoded. -/
theorem test_addresses :
    regAt 0x82D0A4 = some (.HTH_TURF_STAT, 45) ∧ regAt 0x412C28 = some (.FLU_RING_EVT, 300)
      ∧ regAt 0xB000E8 = some (.HTH_MON_STAT, 14) ∧ regAt 0xB00138 = none ∧ blkOf 0xB00138 = 5 ∧ regAt 0xD000E0 = none
      ∧ blkOf 0xD000E0 = 7 := by decide +kernel

/-- The example of R46: device 1 reaches device 3 by KZ1, device 3 reaches device 1 by KZ1, device 1 reaches device 0 by KZ2. -/
theorem test_kuzagan_ports :
    (ch up (fun c => { c with grp := { c.grp with dev := 1, size := 3 } })).chip.peerOf 1 = 3
      ∧ (ch up (fun c => { c with grp := { c.grp with dev := 3, size := 3 } })).chip.peerOf 1 = 1
      ∧ (ch up (fun c => { c with grp := { c.grp with dev := 1, size := 3 } })).chip.peerOf 2 = 0 := by decide +kernel

/-- The example of a leg retirement (chapter 2), in 1/16 Ω: of a baseline of 38.0 Ω, 61.0 Ω at 70 °C lies within the window; 70.5 Ω
and 70.3 Ω at 72 °C do not. -/
theorem test_leg_window :
    (SideWindow.mk 8 24 608 (legAbs 1 false) 70).inside 976 = true ∧ (SideWindow.mk 8 24 608 (legAbs 1 false) 72).inside 1128 = false
      ∧ ron25 72 1128 = 949 := by decide +kernel

/-- The example of R469's chapter: the CRC after the last byte of either request and of the reply. -/
theorem test_crc8 :
    crc8 [0x02, 0x00, 0x20, 0x00, 0x08, 0x00, 0x00, 0x00, 0x00, 0x01] = 0xF6 ∧ crc8 [0x0B, 0x00, 0x20, 0x00, 0x00, 0x00] = 0xFA
      ∧ crc8 [0xA5, 0x20, 0x00, 0x00, 0x00] = 0xD0 := by decide +kernel

/-- The same example: the write frame sets HOLD and ALERT_N goes low; it answers 0xA5. -/
theorem test_spi_write :
    (match exec (.spiWrite [0x02, 0x00, 0x20, 0x00, 0x08, 0x00, 0x00, 0x00, 0x00, 0x01, 0xF6]) State.reset with
      | .next t => t.chip.out
      | _ => []) = [.alertN true, .spiReply [0xA5]] := by decide +kernel

/-- The same example: ASH_STAT then reads 0x2000_0000. -/
theorem test_spi_read :
    (match exec (.spiRead [0x0B, 0x00, 0x20, 0x00, 0x00, 0x00, 0xFA]) (put State.reset ASH_PIN_CTL.HOLD 0 1) with
      | .next t => t.chip.out
      | _ => []) = [.spiReply [0xA5, 0x20, 0x00, 0x00, 0x00, 0xD0]] := by decide +kernel

/-- The example of S41 (chapter 5): the command that opens the lane and its LRC, the header of LINK_UP, the bounds of its bits on the
wire, and the bits of a training phase; LINK_UP_ACK as a module sends it is heard as CTRL 2. -/
theorem test_turf_example :
    turfCmd 7 0 0x2B5C = [0xF4, 0x2C, 0x07, 0x00, 0x04, 0x42, 0x01, 0x2B, 0x5C, 0x02]
      ∧ ([0x00, 0x00, 0x0A] ++ turfCmd 7 0 0x2B5C).foldl (fun (x : Byte) b => x ^^^ b) 0 = 0xE7
      ∧ turfHeader 2 false 1 = 0x8001 ∧ 87 ≤ (turfFrame 2 false [1]).length ∧ (turfFrame 2 false [1]).length ≤ 95
      ∧ (phaseBits 0x2B5C).length = 780 ∧ turfParse (turfFrame 2 false [2]) = .ctrl 2 := by decide +kernel

/-- The example of S09 and its bank (chapter 6), in µV: VMON trips at 2.700 V and 3.300 V and releases inside 2.715 V and 3.285 V;
3.32 V lies in the band of a class B bank monitor with HYST 2, 3.50 V inside. -/
theorem test_windows :
    (MonWindow.mk (some 2700000) 3300000 15000).classify 2699999 = .below
      ∧ (put up HTH_SLOT_ESTAT.CLASS_APPLIED 9 2).chip.monWindow (.vmon 9) ⟨0, 0⟩ = ⟨some 2700000, 3300000, 15000⟩
      ∧ (MonWindow.mk (some (bankRange 2).1) (bankRange 2).2 50000).classify 3320000 = .band
      ∧ (MonWindow.mk (some (bankRange 2).1) (bankRange 2).2 50000).classify 3500000 = .inside := by decide +kernel

/-- The identity of the block: the configuration header (R458) and the IDCODE (R484). -/
theorem test_identity :
    up.chip.configWord 0 0 = some 0x64401D4B ∧ up.chip.configWord 1 2 = some 0x10800001 ∧ up.chip.configWord 1 7 = some 0
      ∧ State.reset.chip.configWord 0 0 = none ∧ tapRegister .idcode = some (32, 0x06440A3B)
      ∧ up.chip.tapOffers = [.bypass, .idcode] := by decide +kernel

/-! ## Published test vectors (FIPS 197 C.3; FIPS 180 examples of "abc"), and the tables of these standards from their definitions -/

/-- `k` holds the first 64 bits of the fraction of the cube root of `p`. -/
def cubeRootBits (p k : Nat) : Bool :=
  (List.range 8).any (fun w => decide ((w * 2 ^ 64 + k) ^ 3 ≤ p * 2 ^ 192) && decide (p * 2 ^ 192 < (w * 2 ^ 64 + k + 1) ^ 3))

def primes80 : List Nat :=
  (List.range 410).filter (fun n => decide (2 ≤ n) && (List.range n).all (fun d => decide (d < 2) || decide (n % d ≠ 0)))

theorem test_sha_constants :
    primes80.length = 80 ∧ sha512K.length = 80 ∧ (primes80.zip sha512K).all (fun e => cubeRootBits e.1 e.2) = true := by
  decide +kernel

/-- Product in the field of AES. -/
def fieldMul (a b : Nat) : Nat :=
  (List.range 8).foldr (fun i r => (if r < 128 then 2 * r else (2 * r) ^^^ 0x11B) ^^^ (if a.testBit i then b else 0)) 0

/-- The inverse in the field of AES, the 254th power. -/
def fieldInv (a : Nat) : Nat :=
  ((List.range 7).foldl (fun (e : Nat × Nat) _ => (fieldMul e.1 e.1, fieldMul e.2 (fieldMul e.1 e.1))) (a, 1)).2

/-- The affine map of the substitution box. -/
def affine (x : Nat) : Nat := [1, 2, 3, 4].foldl (fun y k => y ^^^ ((x * 2 ^ k) % 256 ||| x / 2 ^ (8 - k))) (x ^^^ 0x63)

theorem test_aes_sbox : (List.range 256).all (fun a => decide (aesSub (BitVec.ofNat 8 a) = BitVec.ofNat 8 (affine (fieldInv a)))) = true := by
  decide +kernel

theorem test_aes256 :
    aes256 ((List.range 32).map (BitVec.ofNat 8)) ((List.range 16).map (fun i => BitVec.ofNat 8 (0x11 * i)))
      = beBytes 16 0x8ea2b7ca516745bfeafc49904b496089 := by decide +kernel
theorem test_sha256 :
    sha256 [0x61, 0x62, 0x63] = beBytes 32 0xba7816bf8f01cfea414140de5dae2223b00361a396177a9cb410ff61f20015ad := by decide +kernel
theorem test_sha384 :
    sha384 [0x61, 0x62, 0x63] = beBytes 48
      0xcb00753f45a35e8bb5a03d699ac65007272c32ab0eded1631a8b605a43ff5bed8086072ba1e7cc2358baeca134c825a7 := by decide +kernel

end Sys2Proof.Tests
end

section
/-! Every command is a chain of actions on the chip and of cold resets; what each link of such a chain keeps, every step keeps. -/

namespace Sys2Proof.Machine

/-! ## Chains of actions -/

/-- The state `t` follows from `s` by actions on the chip, each with the memory work that it asks for, and by cold resets. -/
inductive State.Reaches (s : State) : State → Prop
  | refl : Reaches s s
  | act {t : State} (h : Reaches s t) (f : Chip → Chip) : Reaches s (t.act f)
  | coldReset {t : State} (h : Reaches s t) : Reaches s t.coldReset

variable {s t u : State}

theorem State.Reaches.settle1 (h : s.Reaches t) : s.Reaches t.settle1 := h.act _

theorem State.Reaches.settle (h : s.Reaches t) : s.Reaches t.settle := by
  unfold State.settle
  exact h.settle1.settle1.settle1.settle1

theorem State.Reaches.coldDue (h : s.Reaches t) : s.Reaches t.coldDue := by
  unfold State.coldDue
  split
  · exact h.coldReset
  · exact h

theorem State.Reaches.run (h : s.Reaches t) (f : Chip → Chip) : s.Reaches (t.run f) := ((h.act f).settle).coldDue

theorem State.Reaches.trans (h : s.Reaches t) (h' : t.Reaches u) : s.Reaches u := by
  induction h' with
  | refl => exact h
  | act _ f ih => exact ih.act f
  | coldReset _ ih => exact ih.coldReset

/-- Accesses that follow one another. -/
theorem State.Reaches.foldl {α : Type} {g : State → α → State} (hg : ∀ (s : State) (a : α), s.Reaches (g s a)) (l : List α) (s : State) :
    s.Reaches (l.foldl g s) := by
  induction l generalizing s with
  | nil => exact .refl
  | cons a l ih => exact (hg s a).trans (ih _)

theorem State.write_reaches (s : State) (p : Path) (a size v : Nat) : s.Reaches (s.write p a size v) :=
  State.Reaches.foldl (fun _ _ => State.Reaches.refl.run _) _ s

theorem State.hostRead_reaches (s : State) (p : Path) (a size : Nat) : s.Reaches (s.hostRead p a size) :=
  State.Reaches.foldl (fun _ _ => State.Reaches.refl.run _) _ s

theorem State.spiPut_reaches (s : State) (a : Nat) (ws : List (List Byte)) : s.Reaches (s.spiPut a ws) :=
  State.Reaches.foldl (fun s _ => s.write_reaches _ _ _ _) _ s

theorem State.read_reaches (s : State) (p : Path) (a : Nat) : s.Reaches (s.read p a).2 := by
  unfold State.read
  dsimp only
  exact State.Reaches.refl.run _

theorem State.spiWords_reaches (n : Nat) (s : State) (a : Nat) : s.Reaches (s.spiWords a n).2 := by
  induction n generalizing s a with
  | zero => exact .refl
  | succ n ih =>
    unfold State.spiWords
    exact (s.read_reaches _ _).trans (ih _ _)

theorem State.spiFrame_reaches (s : State) (b : List Byte) : s.Reaches (s.spiFrame b) := by
  unfold State.spiFrame
  split
  · exact State.Reaches.refl.act _
  split
  · exact .refl
  split
  · exact .refl
  split
  · exact State.Reaches.refl.act _
  dsimp only
  split
  · exact (s.spiPut_reaches _ _).act _
  · exact (s.spiWords_reaches _ _).act _

/-- Every command completes, and the state after it is reached by such a chain. -/
theorem exec_reaches (i : Instr) (s : State) : ∃ t, exec i s = .next t ∧ s.Reaches t := by
  cases i
  case registerWrite p a size v => exact ⟨_, rfl, s.write_reaches p a size v⟩
  case unmappedAccess p a req =>
    refine ⟨_, rfl, ?_⟩
    split
    · exact State.Reaches.foldl (fun _ _ => State.Reaches.refl.run _) _ s
    · exact s.hostRead_reaches p a req.size
  case resultLastWordRead p part => exact ⟨_, rfl, s.hostRead_reaches p _ part.size⟩
  case coldReset => exact ⟨_, rfl, State.Reaches.refl.coldReset⟩
  case spiRead b => exact ⟨_, rfl, s.spiFrame_reaches b⟩
  case spiWrite b => exact ⟨_, rfl, s.spiFrame_reaches b⟩
  case spiStatus => exact ⟨_, rfl, State.Reaches.refl.act _⟩
  case spiFrameCut => exact ⟨_, rfl, State.Reaches.refl.act _⟩
  all_goals exact ⟨_, rfl, State.Reaches.refl.run _⟩

/-- What every action and every cold reset keeps, a chain of them keeps. -/
theorem State.Reaches.keeps {P : State → Prop} (hact : ∀ s f, P s → P (s.act f)) (hreset : ∀ s, P s → P s.coldReset)
    (h : s.Reaches t) (hs : P s) : P t := by
  induction h with
  | refl => exact hs
  | act _ f ih => exact hact _ f ih
  | coldReset _ ih => exact hreset _ ih

/-- And every step keeps it, where the commands that wait have no part in it. -/
theorem step_keeps {P : State → Prop} (hact : ∀ s f, P s → P (s.act f)) (hreset : ∀ s, P s → P s.coldReset)
    (hq : ∀ s q, P s → P { s with pending := q }) (hs : P s) (h : step s = .next t) : P t := by
  unfold step at h
  split at h
  · cases h; exact hs
  · next c rest hp =>
    obtain ⟨u, hu, hr⟩ := exec_reaches c { s with pending := rest }
    rw [hu] at h
    cases h
    exact hr.keeps hact hreset (hq _ _ hs)

/-! ## The memory work of an action -/

@[simp] theorem State.applyMem_chip (s : State) (m : MemOp) : (s.applyMem m).chip = s.chip := by cases m <;> rfl

@[simp] theorem State.foldl_applyMem_chip (l : List MemOp) (s : State) : (l.foldl State.applyMem s).chip = s.chip := by
  induction l generalizing s with
  | nil => rfl
  | cons m l ih => rw [List.foldl_cons, ih, State.applyMem_chip]

theorem State.flush_chip (s : State) : s.flush.chip = { s.chip with memq := [] } := State.foldl_applyMem_chip _ _

theorem State.flush_still (s : State) : s.flush.Still := by
  show s.flush.chip.memq = []
  rw [State.flush_chip]

theorem State.act_still (s : State) (f : Chip → Chip) : (s.act f).Still := State.flush_still _

theorem State.coldReset_still (s : State) : s.coldReset.Still := State.flush_still _

theorem State.Reaches.still (h : s.Reaches t) (hs : s.Still) : t.Still :=
  h.keeps (P := State.Still) (fun s f _ => s.act_still f) (fun s _ => s.coldReset_still) hs

/-- The commands that wait are no part of what an action or a cold reset changes. -/
theorem State.flush_pending (s : State) : s.flush.pending = s.pending :=
  State.flush_keeps (fun u => u.pending = s.pending) (fun _ _ h => h) (fun u m h => (u.applyMem_pending m).trans h) s rfl

theorem State.Reaches.pending (h : s.Reaches t) : t.pending = s.pending :=
  h.keeps (P := fun u => u.pending = s.pending) (fun _ _ hu => (State.flush_pending _).trans hu)
    (fun _ hu => (State.flush_pending _).trans hu) rfl

/-! ## Steps -/

/-- Settles O54: every meaning answers a next state, reached without a change of the queue. -/
theorem everyCommandCompletes : Obligations.EveryCommandCompletes := by
  intro s
  cases hp : s.pending with
  | nil => exact ⟨s, by simp [step, hp], by simp [hp]⟩
  | cons c rest =>
    obtain ⟨t, ht, hr⟩ := exec_reaches c { s with pending := rest }
    exact ⟨t, by simp [step, hp, ht], hr.pending⟩

/-- Settles O58: each action ends by carrying out what it asked of the memories. -/
theorem noMemoryWorkIsLeft : Obligations.NoMemoryWorkIsLeft := fun _ _ hs h =>
  step_keeps (P := State.Still) (fun s f _ => s.act_still f) (fun s _ => s.coldReset_still) (fun _ _ h => h) hs h

/-- Settles O59: at reset no register is listed, no memory lists a byte and no work waits. -/
theorem resetMeetsTheInvariants : Obligations.ResetMeetsTheInvariants := by
  refine ⟨fun f i => ?_, State.reset_memOk, ?_, rfl⟩
  · show tabGet (f.resetAt i) [] (⟨f, i⟩ : Key) = f.resetAt i
    exact tabGet_nil _ _
  · exact And.intro (by decide) (by simp [State.reset, Nvs.init])

end Sys2Proof.Machine
end

section
/-! An idle block: no slot in work, no job, no entry, no transition. The work that goes on by itself finds nothing to do there, so a
command leaves exactly its own changes. The refutations rest on it: it says what every chip with the changes of a statement becomes. -/

namespace Sys2Proof.Machine

/-- Nothing waits in the block: none of its units has work that could go on by itself, and no cold reset is pending. -/
structure Chip.Idle (c : Chip) : Prop where
  finished : c.ember.finished = []
  stokerQ : c.ember.stokerQ = []
  cin : ∀ n, (c.sessOf n).cin = none
  tokens : ∀ k, c.ctxState k ≠ esTOKENS
  queue : ∀ n, (c.slot n).queue = []
  wait : ∀ n, (c.slot n).wait = none
  state : ∀ n, c.slotState n ≠ stNEGOTIATE ∧ c.slotState n ≠ stREADY
  entries : c.entries = []
  grants : c.dmp.grants = []
  banksOff : ∀ b ∈ List.range 16, c.domUp b = false
  present : c.ash.present = []
  liveSeen : c.stack.liveSeen = 0
  lc : c.kln.lc = none
  xfer : c.kln.xfer = none
  ovls : c.kln.ovls = []
  removals : c.kln.removals = []
  mailbox : c.get STK_MBX_STAT.BUSY 0 = 0
  fresh : ∀ k, (c.kzOf k).txCtr < 2 ^ 32 ∧ (c.kzOf k).rxCtr < 2 ^ 32
  coldPend : c.get DRG_SEQ_STAT.COLD_PEND 0 = 0

/-- A fold whose every step leaves the chip as it is. -/
theorem foldl_eq_self {α β : Type} {g : β → α → β} {c : β} (l : List α) (h : ∀ a ∈ l, g c a = c) : l.foldl g c = c := by
  induction l with
  | nil => rfl
  | cons a l ih => rw [List.foldl_cons, h a (by simp)]; exact ih (fun b hb => h b (by simp [hb]))

section Idle

variable {c c' : Chip} (hi : c.Idle)
include hi

/-! ## What each part of a round does on an idle block -/

theorem Chip.Idle.cinTake_cinStep (n : Nat) (env : Env) : (c.cinTake n env).cinStep n = c := by
  have h : c.cinTake n env = c := by simp [Chip.cinTake, hi.cin n]
  rw [h]; simp [Chip.cinStep, hi.cin n]

theorem Chip.Idle.jobQueue (k : Nat) (rand : Bool) : c.jobQueue k rand = c := by
  simp [Chip.jobQueue, hi.tokens k]

/-- No bank is on and no peer is present: the live mask is empty, as it was last seen. -/
theorem Chip.Idle.watchLive : c.watchLive = c := by
  have h : (List.range 16).filter c.domUp = [] := List.filter_eq_nil_iff.2 (fun b hb => by simp [hi.banksOff b hb])
  simp [Chip.watchLive, Chip.liveMask, h, hi.present, hi.liveSeen]

theorem Chip.Idle.work : c.watchLive.evictRemote.rampAll.recheckTokens = c := by
  rw [hi.watchLive]
  have h1 : c.evictRemote = c := by simp [Chip.evictRemote, hi.entries]
  have h2 : c.rampAll = c := by simp [Chip.rampAll, hi.grants]
  rw [h1, h2]
  simp [Chip.recheckTokens, hi.entries]

/-- A slot that waits for nothing and takes no leg. -/
theorem Chip.Idle.slotWork (n : Nat) :
    (((((if (c.slot n).queue = [] then c else c.evict n).openLane n).dropWait n).repath n).trySend n).kick n = c := by
  rw [if_pos (hi.queue n)]
  have h1 : c.openLane n = c := by simp [Chip.openLane, (hi.state n).1]
  have h2 : c.dropWait n = c := by simp [Chip.dropWait, hi.wait n]
  have h3 : c.repath n = c := by simp [Chip.repath, hi.wait n]
  have h4 : c.trySend n = c := by simp [Chip.trySend, hi.grants]
  have h5 : c.kick n = c := by
    simp [Chip.kick, Chip.standBack, hi.wait n, Chip.kickN, Chip.slotIdle, (hi.state n).2]
  rw [h1, h2, h3, h4, h5]

theorem Chip.Idle.kilnWork : c.lcIntent.xferStep.challengeStep.watchQuorum.kzWorn.nextRemoval = c := by
  have h1 : c.lcIntent = c := by simp [Chip.lcIntent, hi.lc]
  have h2 : c.xferStep = c := by simp [Chip.xferStep, hi.xfer]
  have h3 : c.challengeStep = c := by simp [Chip.challengeStep, Chip.on, hi.mailbox]
  have h4 : c.watchQuorum = c := by simp [Chip.watchQuorum, hi.ovls]
  have h5 : c.kzWorn = c := foldl_eq_self _ (fun k _ => by
    rw [if_neg]
    obtain ⟨ht, hr⟩ := hi.fresh k
    omega)
  rw [h1, h2, h3, h4, h5]
  simp [Chip.nextRemoval, hi.removals]

/-- A round on an idle block changes nothing. -/
theorem Chip.Idle.settle1 (env : Env) (rand : Nat → Bool) : c.settle1 env rand = c := by
  unfold Chip.settle1
  have h1 : (c.sess.map Prod.fst).foldl (fun c n => (c.cinTake n env).cinStep n) c = c :=
    foldl_eq_self _ (fun n _ => hi.cinTake_cinStep n env)
  have h2 : c.identityJob env = c := by simp [Chip.identityJob, hi.lc]
  have h3 : (c.ctxs.map Prod.fst).foldl (fun c k => c.jobQueue k (rand k)) c = c :=
    foldl_eq_self _ (fun k _ => hi.jobQueue k _)
  have h4 := foldl_eq_self (g := fun (c : Chip) n =>
      (((((if (c.slot n).queue = [] then c else c.evict n).openLane n).dropWait n).repath n).trySend n).kick n)
      (c.slots.map Prod.fst) (fun n _ => hi.slotWork n)
  simp only [hi.finished, hi.stokerQ, if_true, h1, h2, h3, hi.work, h4]
  exact hi.kilnWork

/-! ## States -/

omit hi in
/-- The memory work that is left is no part of what makes a block idle. -/
theorem Chip.Idle.memq (hi : c.Idle) (q : List MemOp) : ({ c with memq := q } : Chip).Idle :=
  { hi with }

end Idle

/-- An action that leaves a chip with no memory work left. -/
theorem State.act_of_still {s : State} {f : Chip → Chip} (hm : (f s.chip).memq = []) : s.act f = { s with chip := f s.chip } := by
  rw [State.act_eq, hm, List.foldl_nil]
  congr 1
  rw [← hm]

theorem State.settle_idle {s : State} (hs : s.Still) (hi : s.chip.Idle) : s.settle = s := by
  have h : s.settle1 = s := by
    unfold State.settle1
    rw [State.act_of_still (by rw [hi.settle1]; exact hs), hi.settle1]
  unfold State.settle
  rw [h, h, h, h]

theorem State.coldDue_idle {s : State} (hi : s.chip.Idle) : s.coldDue = s := by
  unfold State.coldDue
  rw [if_neg]
  simp [Chip.on, hi.coldPend]

/-- On an idle block an action is all that a run does. -/
theorem State.run_idle {s : State} {f : Chip → Chip} (hi : (f s.chip).Idle) (hm : (f s.chip).memq = []) :
    s.run f = { s with chip := f s.chip } := by
  unfold State.run
  rw [State.act_of_still hm, State.settle_idle hm hi, State.coldDue_idle hi]

/-! ## Changes that leave a block idle -/

/-- The fields that say of a block that it is idle. -/
def idleFields : List Fld :=
  [HTH_SLOT_STAT.STATE, EMB_CSTAT.STATE, DRG_DOM_STAT.UP, STK_MBX_STAT.BUSY, DRG_SEQ_STAT.COLD_PEND]

/-- A change that starts no work: it leaves alone the parts that hold any and the fields above, and asks for no memory work. -/
structure Change.Calm (d : Change) : Prop where
  regs : ∀ e ∈ d.regs, e.1.fld ∉ idleFields
  resets : d.resets = []
  slots : d.slots = []
  sess : d.sess = []
  kz : d.kz = []
  entries : d.entries = none
  dmp : d.dmp = none
  ember : d.ember = none
  stack : d.stack = none
  kln : d.kln = none
  ash : d.ash = none
  mems : d.mems = []

theorem tabFind_eq_none {κ α : Type} [DecidableEq κ] {t : List (κ × α)} {k : κ} (h : ∀ e ∈ t, e.1 ≠ k) : tabFind t k = none := by
  induction t with
  | nil => rfl
  | cons e t ih => rw [tabFind, if_neg (h e (by simp))]; exact ih (fun f hf => h f (by simp [hf]))

theorem Change.Calm.get {d : Change} {c c' : Chip} (hd : d.Calm) (h : d.Of c c') {f : Fld} (hf : f ∈ idleFields) (i : Nat) :
    c'.get f i = c.get f i := by
  have hn : tabFind d.regs ⟨f, i⟩ = none := tabFind_eq_none (fun e he hk => hd.regs e he (by rw [hk]; exact hf))
  rw [h.reg, Change.reg, hn, hd.resets]
  rfl

/-- A chip with calm changes of an idle one is idle. -/
theorem Chip.Idle.of_calm {d : Change} {c c' : Chip} (hi : c.Idle) (hd : d.Calm) (h : d.Of c c') : c'.Idle := by
  have hreg : ∀ f ∈ idleFields, ∀ i, c'.get f i = c.get f i := fun f hf i => hd.get h hf i
  have hslot : ∀ n, c'.slot n = c.slot n := fun n => by rw [h.slot, hd.slots]; rfl
  have hsess : ∀ n, c'.sessOf n = c.sessOf n := fun n => by rw [h.sessOf, hd.sess]; rfl
  have hkz : ∀ k, c'.kzOf k = c.kzOf k := fun k => by rw [h.kzOf, hd.kz]; rfl
  have hember : c'.ember = c.ember := by rw [h.ember, hd.ember]; rfl
  have hkln : c'.kln = c.kln := by rw [h.kln, hd.kln]; rfl
  have hdmp : c'.dmp = c.dmp := by rw [h.dmp, hd.dmp]; rfl
  have hpresent : c'.ash.present = c.ash.present := by rw [h.ash, hd.ash]; rfl
  have hstack : c'.stack = c.stack := by rw [h.stack, hd.stack]; rfl
  exact
    { finished := by rw [hember]; exact hi.finished
      stokerQ := by rw [hember]; exact hi.stokerQ
      cin := fun n => by rw [hsess]; exact hi.cin n
      tokens := fun k => by
        unfold Chip.ctxState; rw [hreg _ (by simp [idleFields])]; exact hi.tokens k
      queue := fun n => by rw [hslot]; exact hi.queue n
      wait := fun n => by rw [hslot]; exact hi.wait n
      state := fun n => by
        unfold Chip.slotState; rw [hreg _ (by simp [idleFields])]; exact hi.state n
      entries := by rw [h.entries, hd.entries]; exact hi.entries
      grants := by rw [hdmp]; exact hi.grants
      banksOff := fun b hb => by
        unfold Chip.domUp Chip.bit; rw [hreg _ (by simp [idleFields])]; exact hi.banksOff b hb
      present := by rw [hpresent]; exact hi.present
      liveSeen := by rw [hstack]; exact hi.liveSeen
      lc := by rw [hkln]; exact hi.lc
      xfer := by rw [hkln]; exact hi.xfer
      ovls := by rw [hkln]; exact hi.ovls
      removals := by rw [hkln]; exact hi.removals
      mailbox := by rw [hreg _ (by simp [idleFields])]; exact hi.mailbox
      fresh := fun k => by rw [hkz]; exact hi.fresh k
      coldPend := by rw [hreg _ (by simp [idleFields])]; exact hi.coldPend }

/-- What a command with calm changes leaves of an idle block: the chip with these changes and nothing else. -/
theorem Effect.chip_of_idle {i : Instr} {s t : State} {d : Change} (he : Effect i s d) (hi : s.chip.Idle) (hd : d.Calm)
    (ht : exec i s = .next t) : ∃ c', d.Of s.chip c' ∧ t.chip = { c' with memq := [] } := by
  obtain ⟨c', ho, hx⟩ := he
  have hi' : ({ c' with memq := [] } : Chip).Idle := (hi.of_calm hd ho).memq []
  refine ⟨c', ho, ?_⟩
  rw [hd.mems, List.foldl_nil, State.settle_idle rfl hi', State.coldDue_idle hi', ht] at hx
  cases hx
  rfl

end Sys2Proof.Machine
end

section
/-! Statements that the model does not meet, each with the state that shows it. -/

namespace Sys2Proof.Machine

/-! ## Sample blocks that are idle -/

theorem Chip.get_init (f : Fld) (i : Nat) : Chip.init.get f i = f.resetAt i := tabGet_nil _ _

theorem Chip.slotState_init (n : Nat) : Chip.init.slotState n = stOFF ∨ Chip.init.slotState n = stABSENT := by
  unfold Chip.slotState
  rw [Chip.get_init]
  by_cases h : n < 4
  · right; simp [Fld.resetAt, h, stABSENT]
  · left; simp [Fld.resetAt, h, Fld.spec, regFields, stOFF]

/-- The block after reset is idle. -/
theorem Chip.Idle.init : Chip.init.Idle where
  finished := rfl
  stokerQ := rfl
  cin := fun _ => rfl
  tokens := fun k => by unfold Chip.ctxState; rw [Chip.get_init]; exact Nat.zero_ne_add_one 1
  queue := fun _ => rfl
  wait := fun _ => rfl
  state := fun n => by
    obtain h | h := Chip.slotState_init n <;> rw [h] <;> decide
  entries := rfl
  grants := rfl
  banksOff := by decide +kernel
  present := rfl
  liveSeen := rfl
  lc := rfl
  xfer := rfl
  ovls := rfl
  removals := rfl
  mailbox := rfl
  fresh := fun _ => ⟨Nat.two_pow_pos 32, Nat.two_pow_pos 32⟩
  coldPend := rfl

theorem Chip.Idle.put {c : Chip} (hi : c.Idle) {f : Fld} (hf : f ∉ idleFields) (i v : Nat) : (c.put f i v).Idle :=
  hi.of_calm (d := ({} : Change).put f i v)
    { regs := by simpa [Change.put] using hf
      resets := rfl, slots := rfl, sess := rfl, kz := rfl, entries := rfl, dmp := rfl, ember := rfl, stack := rfl, kln := rfl,
      ash := rfl, mems := rfl }
    ((Change.Of.refl c).put f i v)

/-- Domains other than the banks' are on. -/
theorem Chip.Idle.domainsOn {c : Chip} (hi : c.Idle) {v : Nat} (hv : ∀ b ∈ List.range 16, (v % 2 ^ 20).testBit b = false) :
    (c.put DRG_DOM_STAT.UP 0 v).Idle :=
  { hi with
    tokens := fun k => by
      unfold Chip.ctxState; rw [Chip.get_put_ne _ _ _ _ _ _ (by simp [EMB_CSTAT.STATE, DRG_DOM_STAT.UP])]; exact hi.tokens k
    state := fun n => by
      unfold Chip.slotState; rw [Chip.get_put_ne _ _ _ _ _ _ (by simp [HTH_SLOT_STAT.STATE, DRG_DOM_STAT.UP])]; exact hi.state n
    banksOff := fun b hb => by
      unfold Chip.domUp Chip.bit; rw [Chip.get_put_self]; exact hv b hb
    mailbox := by rw [Chip.get_put_ne _ _ _ _ _ _ (by decide)]; exact hi.mailbox
    coldPend := by rw [Chip.get_put_ne _ _ _ _ _ _ (by decide)]; exact hi.coldPend }

/-! ## O60: a bank between the rise of its rail and the end of its isolation -/

/-- The rail of bank 0 was judged good, and its domain is not up yet (R206, R334). -/
def railGoodBank : State :=
  { State.reset with chip := { Chip.init with seq := { SeqX.init with powered := [0] } } }

theorem railGoodBank_idle : railGoodBank.chip.Idle := { Chip.Idle.init with }

/-- FORCE reaches its slot there, which holds no command: nothing happens. -/
theorem exec_force_railGoodBank : exec (.force .spi 0) railGoodBank = .next railGoodBank := by
  show Host.Outcome.next (railGoodBank.run fun c => c.slotWrite .spi 0 fun c => c.forceCmd 0) = _
  have hf : (railGoodBank.chip.slotWrite .spi 0 fun c => c.forceCmd 0) = railGoodBank.chip := rfl
  rw [State.run_idle (by rw [hf]; exact railGoodBank_idle) rfl, hf]

/-- Refutes O60: the registers of a bank are reached from the rise of its rail (R206), before its domain is up; a write to one of them
is then taken and sends no access error. -/
theorem not_commandsMeetTheirGate : ¬ Obligations.CommandsMeetTheirGate := by
  intro h
  have he := (h (.force .spi 0) .spi blkHTH false (some 0) railGoodBank rfl rfl).2 0 rfl (by decide +kernel) (by decide +kernel)
  obtain ⟨c', ho, hc⟩ := he.chip_of_idle railGoodBank_idle
    ⟨by simp, rfl, rfl, rfl, rfl, rfl, rfl, rfl, rfl, rfl, rfl, rfl⟩ exec_force_railGoodBank
  have hash : railGoodBank.chip.ash = c'.ash := (congrArg Chip.ash hc).trans rfl
  rw [ho.ash] at hash
  exact absurd (congrArg AshX.inbox hash) (by decide +kernel)

/-! ## O39: a session that comes of age -/

/-- PD16 is on, and slot 0 holds a session one minute before it is due for rekey (R285). -/
def dueSession : State :=
  { State.reset with
    chip := ((Chip.init.put DRG_DOM_STAT.UP 0 (2 ^ 16)).put CRD_SESS_STAT.SESS 0 ssACTIVE).put CRD_SESS_AGE.AGE_MIN 0
      (Chip.init.ageLimit - 1) }

theorem dueSession_idle : dueSession.chip.Idle :=
  ((Chip.Idle.init.domainsOn (by decide +kernel)).put (by decide) _ _).put (by decide) _ _

/-- Refutes O39: the minute in which the age of a session reaches REKEY_HOURS × 60 sets REKEY_DUE too (R285, R296), which the
statement leaves as it was. -/
theorem not_sparesAndWear : ¬ Obligations.SparesAndWear := by
  intro h
  obtain ⟨-, -, -, -, -, -, -, -, hmin⟩ := h.1 dueSession rfl
  have he := hmin _ (by decide +kernel) rfl
  obtain ⟨c', ho, hc⟩ := he.chip_of_idle dueSession_idle
    ⟨by simp only [List.mem_append, List.mem_cons, List.mem_map]
        rintro e ((rfl | ⟨n, -, rfl⟩) | ⟨i, -, rfl⟩)
        · decide
        · exact (by decide : CRD_SESS_AGE.AGE_MIN ∉ idleFields)
        · exact (by decide : KLN_OVL_STAT.REMAIN ∉ idleFields),
      rfl, rfl, rfl, rfl, rfl, rfl, rfl, rfl, rfl, rfl, rfl⟩ (t := dueSession.run Chip.minute) rfl
  have hdue : (dueSession.run Chip.minute).chip.get CRD_SESS_STAT.REKEY_DUE 0 = 1 := by decide +kernel
  have hreg : c'.get CRD_SESS_STAT.REKEY_DUE 0 = 0 := by rw [ho.reg]; decide +kernel
  rw [hc] at hdue
  exact absurd (hdue.symm.trans hreg) (by decide)

/-! ## O49: a word that the window cannot show -/

/-- PD17 is on, and the window of context 4, one of host software (R302), presents one word that is wider than a register. -/
def wideResult : State :=
  { State.reset with
    chip := { Chip.init with ctxs := [(4, { CtxX.init with win := ⟨[2 ^ 32], 0, true, true, false⟩ })] }.put DRG_DOM_STAT.UP 0
      (2 ^ 17) }

theorem wideResult_idle : wideResult.chip.Idle := by
  have hi : ({ Chip.init with ctxs := [(4, { CtxX.init with win := ⟨[2 ^ 32], 0, true, true, false⟩ })] } : Chip).Idle :=
    { Chip.Idle.init with }
  exact hi.domainsOn (by decide +kernel)

/-- Refutes O49: the last word of a result is read through a window of 32-bit words (R241), so a part that holds a word of 2^32, which
no job leaves but which the statement admits, answers 0 and not that word. -/
theorem not_reads : ¬ Obligations.Reads := by
  intro h
  have he := (h.2 .spi ⟨[2 ^ 32], 0, true, true, false⟩ 0 4 (2 ^ 32) 0xD06004 wideResult rfl rfl rfl (by simp) (by simp) (by simp)
    (by simp) rfl).1 4 (by decide +kernel) (by decide +kernel) (by decide +kernel) (by decide +kernel) (by decide +kernel) rfl
  obtain ⟨c', ho, hc⟩ := he.chip_of_idle wideResult_idle
    ⟨by simp, rfl, rfl, rfl, rfl, rfl, rfl, rfl, rfl, rfl, rfl, rfl⟩ (t := wideResult.hostRead .spi 0xD06004 4) rfl
  have hread : (wideResult.hostRead .spi 0xD06004 4).chip.out = [.value .spi 0xD06004 0] := by decide +kernel
  have hout : c'.out = [.value .spi 0xD06004 (2 ^ 32)] := ho.out
  rw [hc] at hread
  exact absurd (hread.symm.trans hout) (by decide +kernel)

/-! ## O50: retirements that the wear record holds -/

/-- A device whose wear record counts a retired leg of bank 0. -/
def wornDevice : State :=
  { State.reset with nvs := { Nvs.init with wear0 := some (0, { WearRec.init with retirements := [(0, 1)] }) } }

/-- Refutes O50: a cold reset loads the retirements of the wear record into RETIRE_CNT of HTH_BANK_LCNT (R374), a register that the
statement has at its reset value. -/
theorem not_framesAndColdReset : ¬ Obligations.FramesAndColdReset := by
  intro h
  have hkept := (h.2.2 wornDevice).2 HTH_BANK_LCNT.RETIRE_CNT 0 (by decide +kernel) (by decide)
  have hcount : wornDevice.coldReset.chip.get HTH_BANK_LCNT.RETIRE_CNT 0 = 1 := by decide +kernel
  rw [hcount] at hkept
  exact absurd hkept (by decide)

end Sys2Proof.Machine
end

section
/-! The register space as addresses: where registers lie, and the accesses that a request makes. -/

namespace Sys2Proof.Machine

/-! ## Where registers lie -/

/-- A register of a range lies at the base plus whole strides. -/
theorem RegRange.index_eq_some {x : RegRange} {a i : Nat} (h : x.index a = some i) :
    ∃ o j, (o = 0 ∨ 1 < x.outerCount) ∧ (j = 0 ∨ 1 < x.innerCount) ∧ o < x.outerCount ∧ j < x.innerCount
      ∧ a = x.base + o * x.outerStride + j * x.innerStride := by
  unfold RegRange.index at h
  split at h
  · cases h
  next hb =>
    simp only [Option.ite_none_right_eq_some] at h
    obtain ⟨⟨ho, hj, hrest⟩, -⟩ := h
    refine ⟨_, _, ?_, ?_, ho, hj, ?_⟩
    · split
      · exact .inl rfl
      · exact .inr (by omega)
    · split
      · exact .inl rfl
      · exact .inr (by omega)
    · have hle : (if x.outerCount ≤ 1 then 0 else (a - x.base) / x.outerStride) * x.outerStride ≤ a - x.base := by
        split
        · omega
        · exact Nat.div_mul_le_self _ _
      omega

/-- The places of a range of registers: words, below the memories. -/
def RegRange.wordsBelow (x : RegRange) : Bool :=
  decide (x.base % 4 = 0) && (decide (x.outerCount ≤ 1) || decide (x.outerStride % 4 = 0))
    && (decide (x.innerCount ≤ 1) || decide (x.innerStride % 4 = 0))
    && decide (x.base + (x.outerCount - 1) * x.outerStride + (x.innerCount - 1) * x.innerStride < 0xD80000)

theorem regRanges_wordsBelow : regRanges.all (fun e => e.2.wordsBelow) = true := by decide +kernel

/-- Every register lies at a word of register space (R3, R494). -/
theorem regAt_word {a i : Nat} {r : RegName} (h : regAt a = some (r, i)) : a % 4 = 0 ∧ a < 0xD80000 := by
  unfold regAt at h
  split at h
  · next r' i' hf =>
    obtain ⟨e, he, hi⟩ := List.exists_of_findSome?_eq_some hf
    obtain ⟨i'', hi, -⟩ := Option.map_eq_some_iff.1 hi
    obtain ⟨o, j, ho0, hj0, ho, hj, ha⟩ := RegRange.index_eq_some hi
    have hw := List.all_eq_true.1 regRanges_wordsBelow e he
    simp only [RegRange.wordsBelow, Bool.and_eq_true, Bool.or_eq_true, decide_eq_true_eq] at hw
    obtain ⟨⟨⟨hbase, hos⟩, his⟩, hmax⟩ := hw
    have h1 : o * e.2.outerStride % 4 = 0 := by
      obtain rfl | ho0 := ho0
      · simp
      · rw [Nat.mul_mod, hos.resolve_left (by omega)]; simp
    have h2 : j * e.2.innerStride % 4 = 0 := by
      obtain rfl | hj0 := hj0
      · simp
      · rw [Nat.mul_mod, his.resolve_left (by omega)]; simp
    have h3 : o * e.2.outerStride ≤ (e.2.outerCount - 1) * e.2.outerStride := Nat.mul_le_mul_right _ (by omega)
    have h4 : j * e.2.innerStride ≤ (e.2.innerCount - 1) * e.2.innerStride := Nat.mul_le_mul_right _ (by omega)
    exact ⟨by omega, by omega⟩
  · cases h

/-! ## The accesses of a request (R462) -/

/-- A request within one unit is one part. -/
theorem unitParts_one {unit a size : Nat} (hs : 1 ≤ size) (h : a % unit + size ≤ unit) : unitParts unit a size = [(a, size)] := by
  have hu : 0 < unit := by omega
  have hd := Nat.div_add_mod' a unit
  have hq : (a + size - 1) / unit = a / unit := by
    rw [Nat.div_eq_iff hu]
    have : (a / unit + 1) * unit = a / unit * unit + unit := Nat.succ_mul _ _
    constructor <;> omega
  have hm : (a / unit + 1) * unit = a / unit * unit + unit := Nat.succ_mul _ _
  unfold unitParts
  rw [if_neg (by omega), hq, Nat.sub_self, Nat.zero_add, List.range_one, List.map_singleton, Nat.add_zero,
    Nat.max_eq_left (by omega), Nat.min_eq_left (by omega)]
  simp

/-- A request that reaches past its first unit is the part in that unit, and the request for the rest. -/
theorem unitParts_cons {unit a size : Nat} (hu : 0 < unit) (h : unit - a % unit < size) :
    unitParts unit a size = (a, unit - a % unit) :: unitParts unit (a + (unit - a % unit)) (size - (unit - a % unit)) := by
  have hlt := Nat.mod_lt a hu
  have hd := Nat.div_add_mod' a unit
  have hnext : a + (unit - a % unit) = (a / unit + 1) * unit := by rw [Nat.succ_mul]; omega
  have hq : (a + (unit - a % unit)) / unit = a / unit + 1 := by rw [hnext, Nat.mul_div_cancel _ hu]
  have hend : a + (unit - a % unit) + (size - (unit - a % unit)) = a + size := by omega
  have hlast : a / unit + 1 ≤ (a + size - 1) / unit := by
    rw [Nat.le_div_iff_mul_le hu]; omega
  unfold unitParts
  rw [if_neg (by omega), if_neg (by omega), hq, hend,
    show (a + size - 1) / unit - a / unit + 1 = ((a + size - 1) / unit - (a / unit + 1) + 1) + 1 by omega,
    List.range_succ_eq_map, List.map_cons, List.map_map]
  congr 1
  · have : (a / unit + 0 + 1) * unit = a + (unit - a % unit) := hnext.symm
    rw [Nat.add_zero, Nat.max_eq_left (by omega), ← hnext, Nat.min_eq_right (by omega)]
    simp
  · refine List.map_congr_left (fun k _ => ?_)
    have hk : a / unit + (k + 1) = a / unit + 1 + k := by omega
    have hge : (a / unit + 1) * unit ≤ (a / unit + 1 + k) * unit := Nat.mul_le_mul_right _ (by omega)
    simp only [Function.comp_apply, Nat.succ_eq_add_one, hk]
    rw [Nat.max_eq_right (by omega), Nat.max_eq_right (by omega)]

/-- A request of one access. -/
theorem accessParts_one {a size : Nat} (h : OneAccess a size) : accessParts a size = [(a, size)] := by
  obtain ⟨hs, ⟨hm, h⟩ | ⟨hm, h⟩⟩ := h
  · simp [accessParts, unitParts_one hs h, hm]
  · simp [accessParts, unitParts_one hs (show a % 8 + size ≤ 8 by omega), hm, unitParts_one hs h]

/-- The memories begin and end at units of eight bytes. -/
theorem isMemory_add {a n : Nat} (h : a % 8 + n < 8) : isMemory (a + n) = isMemory a := by
  rw [Bool.eq_iff_iff]
  simp only [isMemory, Bool.or_eq_true, Bool.and_eq_true, decide_eq_true_eq]
  omega

/-- The bytes up to the end of the first access of a request. -/
def firstAccess (a : Nat) : Nat := if isMemory a = true then 8 - a % 8 else 4 - a % 4

/-- A request that reaches past its first access is that access, then the request for the rest. -/
theorem accessParts_cons {a size : Nat} (h : firstAccess a < size) :
    accessParts a size = (a, firstAccess a) :: accessParts (a + firstAccess a) (size - firstAccess a) := by
  unfold firstAccess at *
  cases hm : isMemory a with
  | true =>
    rw [hm, if_pos rfl] at h
    simp only [accessParts, if_true]
    rw [unitParts_cons (by omega) h]
    simp [hm]
  | false =>
    rw [hm, if_neg (by simp)] at h
    simp only [accessParts, Bool.false_eq_true, if_false]
    by_cases hhalf : a % 8 < 4
    · have hm' : isMemory (a + (4 - a % 4)) = false := by rw [isMemory_add (by omega), hm]
      by_cases hin : size ≤ 8 - a % 8
      · rw [unitParts_one (unit := 8) (by omega) (by omega), unitParts_one (unit := 8) (a := a + (4 - a % 4)) (by omega) (by omega)]
        simp only [List.flatMap_cons, List.flatMap_nil, List.append_nil, hm, hm', Bool.false_eq_true, if_false]
        exact unitParts_cons (by omega) h
      · have hfour : unitParts 8 (a + (4 - a % 4)) (size - (4 - a % 4))
            = (a + (4 - a % 4), 4) :: unitParts 8 (a + (8 - a % 8)) (size - (8 - a % 8)) := by
          rw [unitParts_cons (by omega) (by omega)]
          congr 2 <;> omega
        rw [unitParts_cons (unit := 8) (by omega) (by omega), hfour]
        simp only [List.flatMap_cons, hm, hm', Bool.false_eq_true, if_false]
        rw [unitParts_cons (unit := 4) (by omega) (show 4 - a % 4 < 8 - a % 8 by omega), List.cons_append]
        congr 3; omega
    · have hn : 8 - a % 8 = 4 - a % 4 := by omega
      rw [unitParts_cons (unit := 8) (by omega) (by omega), hn]
      simp only [List.flatMap_cons, hm, Bool.false_eq_true, if_false]
      rw [unitParts_one (by omega) (by omega)]
      rfl

/-- The first access of a request is one access. -/
theorem oneAccess_first (a : Nat) : OneAccess a (firstAccess a) := by
  unfold firstAccess
  cases hm : isMemory a with
  | true => exact ⟨by simp; omega, .inl ⟨hm, by simp; omega⟩⟩
  | false => exact ⟨by simp; omega, .inr ⟨hm, by simp; omega⟩⟩

theorem firstAccess_pos (a : Nat) : 1 ≤ firstAccess a := (oneAccess_first a).1

/-- The accesses of a request lie at its address and after it. -/
theorem le_of_mem_accessParts {a size : Nat} {e : Nat × Nat} (h : e ∈ accessParts a size) : a ≤ e.1 := by
  have key : ∀ {unit a size : Nat} {e : Nat × Nat}, e ∈ unitParts unit a size → a ≤ e.1 := by
    intro unit a size e he
    unfold unitParts at he
    split at he
    · cases he
    · obtain ⟨k, -, rfl⟩ := List.mem_map.1 he
      exact Nat.le_max_left _ _
  obtain ⟨u, hu, he⟩ := List.mem_flatMap.1 h
  split at he
  · rw [List.mem_singleton.1 he]; exact key hu
  · exact (key hu).trans (key he)

/-- A write of a word of register space is one access. -/
theorem accessParts_reg {a i : Nat} {r : RegName} (hr : regAt a = some (r, i)) : accessParts a 4 = [(a, 4)] := by
  obtain ⟨h4, hlt⟩ := regAt_word hr
  exact accessParts_one ⟨by omega, .inr ⟨by simp [isMemory]; omega, by omega⟩⟩

/-! ## One access that writes (R5–R7, R22, R302, R460) -/

section Write

variable {c : Chip} {sram : List Host.Cell} {otp : List (Nat × Nat)} {nvs : Nvs} {p : Path} {a size v : Nat}

/-- A write of a path is served at an address. -/
abbrev Chip.WritesAt (c : Chip) (p : Path) (a : Nat) : Prop := c.served p (blkOf a) true (decide (a = 0x200004)) = true

theorem Chip.busWrite_unserved (h : c.served p (blkOf a) true (decide (a = 0x200004)) = false) :
    c.busWrite sram otp nvs p a size v = c := by
  unfold Chip.busWrite
  rw [h]
  rfl

theorem Chip.busWrite_nothing {u : Nat} (h : c.WritesAt p a) (hn : c.holdsNothing p a = some u) :
    c.busWrite sram otp nvs p a size v = c.raise 0x09 u := by
  unfold Chip.busWrite
  rw [h, hn]
  rfl

/-- A 32-bit write of a word that a register holds. -/
theorem Chip.busWrite_word {r : RegName} {i : Nat} (h : c.WritesAt p a) (hn : c.holdsNothing p a = none)
    (hr : regAt a = some (r, i)) : c.busWrite sram otp nvs p a 4 v = c.regWrite sram otp nvs p r i (v % 2 ^ 32) := by
  obtain ⟨h4, hlt⟩ := regAt_word hr
  unfold Chip.busWrite
  rw [h, hn]
  simp only [Bool.not_true, Bool.false_eq_true, if_false]
  rw [if_neg (by omega), if_neg (by omega), if_neg (by omega), if_neg (by omega), hr]

/-- A narrower one is discarded. -/
theorem Chip.busWrite_narrow (h : c.WritesAt p a) (hn : c.holdsNothing p a = none) (hlt : a < 0xD80000) (hs : size < 4) :
    c.busWrite sram otp nvs p a size v = c.raise 0x09 (blkOf a) := by
  unfold Chip.busWrite
  rw [h, hn]
  simp only [Bool.not_true, Bool.false_eq_true, if_false]
  rw [if_neg (by omega), if_neg (by omega), if_neg (by omega), if_pos (by omega)]

end Write

end Sys2Proof.Machine
end

section
/-! Reserved bits (R5): what a register reads as lies in the fields of its table, and a write takes nothing but their bits. -/

namespace Sys2Proof.Machine

/-! ## Reads -/

/-- A bit lies in a field. -/
def FieldSpec.has (f : FieldSpec) (k : Nat) : Prop := f.lo ≤ k ∧ k < f.lo + f.width

theorem tableBit_iff (r : RegName) (k : Nat) : tableBit r k = true ↔ ∃ f ∈ regFields r, f.has k := by
  simp [tableBit, FieldSpec.has]

/-- A table lists its fields from the highest down, none over another. -/
theorem regFields_falling (r : RegName) : (regFields r).Pairwise (fun f g => g.lo + g.width ≤ f.lo) := by
  cases r <;> decide

theorem testBit_mod_mul_two_pow {x lo width k : Nat} (h : (x % 2 ^ width * 2 ^ lo).testBit k = true) : lo ≤ k ∧ k < lo + width := by
  rw [Nat.testBit_mul_two_pow, Nat.testBit_mod_two_pow] at h
  simp only [Bool.and_eq_true, decide_eq_true_eq] at h
  omega

/-- Fields added to a word above them set bits of theirs alone. -/
theorem testBit_foldl_fields (val : FieldSpec → Nat) (l : List FieldSpec) (hl : l.Pairwise (fun f g => g.lo + g.width ≤ f.lo))
    (m a k : Nat) (hm : ∀ f ∈ l, f.lo + f.width ≤ m)
    (h : (l.foldl (fun w f => if f.acc = .WO then w else w + val f % 2 ^ f.width * 2 ^ f.lo) (2 ^ m * a)).testBit k = true) :
    (2 ^ m * a).testBit k = true ∨ ∃ f ∈ l, f.has k := by
  induction l generalizing m a with
  | nil => exact .inl h
  | cons f l ih =>
    obtain ⟨hf, hl⟩ := List.pairwise_cons.1 hl
    rw [List.foldl_cons] at h
    by_cases hw : f.acc = .WO
    · rw [if_pos hw] at h
      obtain h | ⟨g, hg, hk⟩ := ih hl m a (fun g hg => hm g (by simp [hg])) h
      · exact .inl h
      · exact .inr ⟨g, by simp [hg], hk⟩
    · obtain ⟨j, hj⟩ := Nat.exists_eq_add_of_le (hm f (by simp))
      have hdiv : 2 ^ m * a = 2 ^ (f.lo + f.width) * (2 ^ j * a) := by rw [hj, Nat.pow_add 2 (f.lo + f.width) j, Nat.mul_assoc]
      have hmul : 2 ^ m * a + val f % 2 ^ f.width * 2 ^ f.lo = 2 ^ f.lo * (2 ^ f.width * (2 ^ j * a) + val f % 2 ^ f.width) := by
        rw [hdiv, Nat.pow_add]; ring
      rw [if_neg hw, hmul] at h
      obtain h | ⟨g, hg, hk⟩ := ih hl f.lo _ (fun g hg => hf g hg) h
      · have hlt : val f % 2 ^ f.width * 2 ^ f.lo < 2 ^ (f.lo + f.width) := by
          rw [Nat.pow_add, Nat.mul_comm]
          exact Nat.mul_lt_mul_of_pos_left (Nat.mod_lt _ (Nat.two_pow_pos _)) (Nat.two_pow_pos _)
        rw [← hmul, hdiv, Nat.two_pow_add_eq_or_of_lt hlt, Nat.testBit_or, Bool.or_eq_true, ← hdiv] at h
        exact h.imp id (fun h => ⟨f, by simp, testBit_mod_mul_two_pow h⟩)
      · exact .inr ⟨g, by simp [hg], hk⟩

/-- The word of the stored fields has bits of the table alone. -/
theorem Chip.testBit_word {c : Chip} {r : RegName} {i k : Nat} (h : (c.word r i).testBit k = true) : tableBit r k = true := by
  have hm : ∀ f ∈ regFields r, f.lo + f.width ≤ 32 := by cases r <;> decide
  obtain h | h := testBit_foldl_fields (fun f => c.get ⟨r, f.lo⟩ i) (regFields r) (regFields_falling r) 32 0 k hm h
  · simp at h
  · exact (tableBit_iff r k).2 h

/-- A field replaced in a word changes bits of that field alone. -/
theorem testBit_withField {w lo width v k : Nat} (hk : ¬(lo ≤ k ∧ k < lo + width)) :
    (withField w lo width v).testBit k = w.testBit k := by
  have hlow := Nat.div_add_mod w (2 ^ lo)
  have hhigh := Nat.div_add_mod (w / 2 ^ lo) (2 ^ width)
  have hlt := Nat.mod_lt w (Nat.two_pow_pos lo)
  have hw : w = 2 ^ lo * (2 ^ width * (w / 2 ^ lo / 2 ^ width) + w / 2 ^ lo % 2 ^ width) + w % 2 ^ lo := by rw [hhigh, hlow]
  have hwith : withField w lo width v
      = 2 ^ lo * (2 ^ width * (w / 2 ^ lo / 2 ^ width) + v % 2 ^ width) + w % 2 ^ lo := by
    unfold withField
    rw [Nat.mul_add] at hw
    rw [Nat.mul_add, Nat.mul_comm (w / 2 ^ lo % 2 ^ width) (2 ^ lo), Nat.mul_comm (v % 2 ^ width) (2 ^ lo)]
    omega
  rw [hwith]
  conv_rhs => rw [hw]
  rw [Nat.testBit_two_pow_mul_add _ hlt, Nat.testBit_two_pow_mul_add _ hlt]
  split
  · rfl
  · rw [Nat.testBit_two_pow_mul_add _ (Nat.mod_lt _ (Nat.two_pow_pos _)),
      Nat.testBit_two_pow_mul_add _ (Nat.mod_lt _ (Nat.two_pow_pos _)), if_neg (by omega), if_neg (by omega)]

/-- A stretch of bits lies in the fields of a table. -/
def inTable (r : RegName) (lo width : Nat) : Bool := (List.range width).all (fun j => tableBit r (lo + j))

theorem inTable_bit {r : RegName} {lo width k : Nat} (h : inTable r lo width = true) (h1 : lo ≤ k) (h2 : k < lo + width) :
    tableBit r k = true := by
  have := List.all_eq_true.1 h (k - lo) (by simp; omega)
  rwa [Nat.add_sub_cancel' h1] at this

/-- The fields that show other parts of the state are fields of the table. -/
theorem State.shown_inTable (s : State) (r : RegName) (i : Nat) (hr : regFields r ≠ []) :
    ∀ e ∈ s.shown r i, inTable r e.1 e.2.1 = true := by
  suffices h : (s.shown r i).all (fun e => inTable r e.1 e.2.1) = true from List.all_eq_true.1 h
  unfold State.shown
  split
  -- the result windows, whose tables are empty
  case h_41 | h_42 => exact absurd rfl hr
  case h_7 | h_9 | h_22 | h_34 | h_36 | h_37 | h_38 =>
    dsimp only
    split <;> rfl
  case h_35 =>
    dsimp only
    split
    · rfl
    · split <;> rfl
  all_goals rfl

/-- A register reads as zero where its table has no field. -/
theorem State.testBit_regWord {s : State} {r : RegName} {i k : Nat} (hr : regFields r ≠ []) (hk : tableBit r k = false) :
    (s.regWord r i).testBit k = false := by
  have key : ∀ (l : List (Nat × Nat × Nat)) (w : Nat), (∀ e ∈ l, inTable r e.1 e.2.1 = true) → w.testBit k = false →
      (l.foldl (fun w f => withField w f.1 f.2.1 f.2.2) w).testBit k = false := by
    intro l
    induction l with
    | nil => exact fun _ _ hw => hw
    | cons e l ih =>
      intro w hl hw
      refine ih _ (fun g hg => hl g (by simp [hg])) ?_
      rw [testBit_withField]
      · exact hw
      · rintro ⟨h1, h2⟩
        rw [inTable_bit (hl e (by simp)) h1 h2] at hk
        cases hk
  refine key _ _ (s.shown_inTable r i hr) ?_
  by_contra h
  rw [Chip.testBit_word (Bool.eq_true_of_not_eq_false h)] at hk
  cases hk

end Sys2Proof.Machine
end

section
/-! Writes that differ in reserved bits only are one write (R5). -/

namespace Sys2Proof.Machine

/-- Two words have the same bits in the fields of a register. -/
def AgreeOn (r : RegName) (v w : Nat) : Prop := ∀ k, tableBit r k = true → v.testBit k = w.testBit k

variable {r : RegName} {v w : Nat}

/-- Such words have the same values in every stretch of bits that lies in the fields. -/
theorem AgreeOn.bits (h : AgreeOn r v w) {lo width : Nat} (hin : inTable r lo width = true) :
    v / 2 ^ lo % 2 ^ width = w / 2 ^ lo % 2 ^ width := by
  refine Nat.eq_of_testBit_eq (fun j => ?_)
  rw [Nat.testBit_mod_two_pow, Nat.testBit_mod_two_pow, Nat.testBit_div_two_pow, Nat.testBit_div_two_pow]
  by_cases hj : j < width
  · rw [h _ (inTable_bit hin (Nat.le_add_left lo j) (by omega))]
  · simp [hj]

theorem AgreeOn.low (h : AgreeOn r v w) {width : Nat} (hin : inTable r 0 width = true) : v % 2 ^ width = w % 2 ^ width := by
  simpa using h.bits hin

theorem AgreeOn.mod (h : AgreeOn r v w) (m : Nat) : AgreeOn r (v % 2 ^ m) (w % 2 ^ m) := fun k hk => by
  rw [Nat.testBit_mod_two_pow, Nat.testBit_mod_two_pow, h k hk]

theorem inTable_field {f : FieldSpec} (hf : f ∈ regFields r) : inTable r f.lo f.width = true :=
  List.all_eq_true.2 (fun j hj => (tableBit_iff r _).2 ⟨f, hf, by simp [FieldSpec.has] at *; omega⟩)

/-- They have the same values in every field. -/
theorem AgreeOn.fieldOf (h : AgreeOn r v w) {f : FieldSpec} (hf : f ∈ regFields r) : fieldOf f v = fieldOf f w :=
  h.bits (inTable_field hf)

/-! ## What the writes of registers take -/

theorem foldl_congr {α β : Type} {g g' : β → α → β} {l : List α} (h : ∀ b, ∀ a ∈ l, g b a = g' b a) (b : β) :
    l.foldl g b = l.foldl g' b := by
  induction l generalizing b with
  | nil => rfl
  | cons a l ih =>
    rw [List.foldl_cons, List.foldl_cons, h b a (by simp)]
    exact ih (fun b a' ha => h b a' (by simp [ha])) _

theorem Chip.onesWrite_agree (c : Chip) (i : Nat) (h : AgreeOn r v w) : c.onesWrite r i v = c.onesWrite r i w :=
  foldl_congr (fun c f hf => by rw [h.fieldOf hf]) c

theorem Chip.maskedWrite_agree (c : Chip) (i mask : Nat) (ok : Fld → Bool) (h : AgreeOn r v w) :
    c.maskedWrite r i v mask ok = c.maskedWrite r i w mask ok := by
  unfold Chip.maskedWrite
  rw [foldl_congr (fun c f hf => by rw [h.fieldOf hf]) c]

theorem Chip.plainWrite_agree (c : Chip) (i : Nat) (h : AgreeOn r v w) : c.plainWrite r i v = c.plainWrite r i w := by
  unfold Chip.plainWrite
  simp only [c.onesWrite_agree i h, Chip.maskedWrite_agree _ i _ _ h]

theorem Chip.ringBase_agree (c : Chip) (i : Nat) (h : AgreeOn r v w) : c.ringBase r i v = c.ringBase r i w := by
  unfold Chip.ringBase
  rw [c.plainWrite_agree i h]

theorem Chip.ctxRegWrite_agree (c : Chip) (k : Nat) (h : AgreeOn r v w) : c.ctxRegWrite r k v = c.ctxRegWrite r k w := by
  unfold Chip.ctxRegWrite
  simp only [fun c : Chip => c.plainWrite_agree k h]
  by_cases hr : r = .EMB_CMD
  · subst hr
    rw [h 0 (by decide), h 1 (by decide)]
  · simp only [if_neg hr]

theorem Chip.ringCtl_agree (c : Chip) (p : Path) (i : Nat) (h : AgreeOn .FLU_RING_CTL v w) : c.ringCtl p i v = c.ringCtl p i w := by
  unfold Chip.ringCtl
  simp only [h.bits (lo := 31) (width := 1) (by decide), h.bits (lo := 20) (width := 4) (by decide),
    h.bits (lo := 24) (width := 4) (by decide), h.bits (lo := 17) (width := 1) (by decide),
    h.bits (lo := 8) (width := 9) (by decide), h.bits (lo := 4) (width := 4) (by decide),
    h.bits (lo := 0) (width := 4) (by decide)]

theorem Chip.ringCmdWord_agree (c : Chip) (i : Nat) (h : AgreeOn .FLU_RING_CMD v w) : c.ringCmdWord i v = c.ringCmdWord i w := by
  unfold Chip.ringCmdWord
  rw [h 0 (by decide), h 1 (by decide), h 2 (by decide), h 3 (by decide)]

theorem Chip.slotCmdWord_agree (c : Chip) (n : Nat) (h : AgreeOn .HTH_SLOT_CMD v w) : c.slotCmdWord n v = c.slotCmdWord n w := by
  unfold Chip.slotCmdWord
  have h3 : v % 8 = w % 8 := h.low (width := 3) (by decide)
  rw [h 4 (by decide), h3]

theorem Chip.seqCmdWord_agree (c : Chip) (p : Path) (h : AgreeOn .DRG_SEQ_CMD v w) : c.seqCmdWord p v = c.seqCmdWord p w := by
  unfold Chip.seqCmdWord
  have h5 : v / 2 ^ 24 % 32 = w / 2 ^ 24 % 32 := h.bits (width := 5) (by decide)
  rw [h 0 (by decide), h 1 (by decide), h 2 (by decide), h 3 (by decide), h5]

theorem Chip.belCmdWord_agree (c : Chip) (h : AgreeOn .DRG_BEL_CMD v w) : c.belCmdWord v = c.belCmdWord w := by
  unfold Chip.belCmdWord
  have h2 : v / 2 ^ 24 % 4 = w / 2 ^ 24 % 4 := h.bits (width := 2) (by decide)
  have h5 : v / 2 ^ 16 % 32 = w / 2 ^ 16 % 32 := h.bits (width := 5) (by decide)
  have h16 : v % 65536 = w % 65536 := h.low (width := 16) (by decide)
  rw [h 30 (by decide), h 31 (by decide), h2, h5, h16]

theorem Chip.ashCmdWord_agree (c : Chip) (h : AgreeOn .ASH_CMD v w) : c.ashCmdWord v = c.ashCmdWord w := by
  unfold Chip.ashCmdWord
  have h8 : v / 2 ^ 24 % 256 = w / 2 ^ 24 % 256 := h.bits (width := 8) (by decide)
  have h2 : v / 2 ^ 8 % 4 = w / 2 ^ 8 % 4 := h.bits (width := 2) (by decide)
  rw [h 0 (by decide), h8, h2]

theorem Chip.forceWord_agree (c : Chip) (h : AgreeOn .ASH_FORCE v w) : c.forceWord v = c.forceWord w := by
  unfold Chip.forceWord
  have h4 : v / 2 ^ 24 % 16 = w / 2 ^ 24 % 16 := h.bits (width := 4) (by decide)
  have h8 : v % 256 = w % 256 := h.low (width := 8) (by decide)
  rw [h 30 (by decide), h 31 (by decide), h4, h8]

theorem Chip.stackCmdWord_agree (c : Chip) (h : AgreeOn .FLU_STACK_CMD v w) : c.stackCmdWord v = c.stackCmdWord w := by
  unfold Chip.stackCmdWord
  have h4 : v / 2 ^ 28 % 16 = w / 2 ^ 28 % 16 := h.bits (width := 4) (by decide)
  have h8 : v / 2 ^ 20 % 256 = w / 2 ^ 20 % 256 := h.bits (width := 8) (by decide)
  have h12 : v % 4096 = w % 4096 := h.low (width := 12) (by decide)
  rw [h 12 (by decide), h4, h8, h12]

theorem Chip.imgCmdWord_agree (c : Chip) (sram : List Host.Cell) (h : AgreeOn .KLN_IMG_CMD v w) :
    c.imgCmdWord sram v = c.imgCmdWord sram w := by
  unfold Chip.imgCmdWord
  have h4 : v / 2 ^ 28 % 16 = w / 2 ^ 28 % 16 := h.bits (width := 4) (by decide)
  have h4' : v % 16 = w % 16 := h.low (width := 4) (by decide)
  rw [h4, h4']

theorem Chip.mbxCmdWord_agree (c : Chip) (p : Path) (otp : List (Nat × Nat)) (nvs : Nvs) (h : AgreeOn .STK_MBX_CMD v w) :
    c.mbxCmdWord p otp nvs v = c.mbxCmdWord p otp nvs w := by
  unfold Chip.mbxCmdWord
  have h8 : v % 256 = w % 256 := h.low (width := 8) (by decide)
  rw [h 31 (by decide), h8]

/-- A register that only its ring's owner writes. -/
theorem Chip.ownerWrite_agree (c : Chip) (p : Path) (i : Nat) (h : AgreeOn r v w) : c.ownerWrite p r i v = c.ownerWrite p r i w := by
  unfold Chip.ownerWrite
  congr 1
  split
  · have h12 : v % 4096 = w % 4096 := h.low (width := 12) (by decide)
    rw [h12]
  · have h12 : v % 4096 = w % 4096 := h.low (width := 12) (by decide)
    rw [h12]
  · exact c.ringCtl_agree p i h
  · exact c.ringCmdWord_agree i h
  · exact c.ringBase_agree i h

/-- HTH_LEG_CMD: MEAS_REQ, and the bits above it, which are written as ones. -/
theorem AgreeOn.above (h : AgreeOn r v w) : AgreeOn r (v / 2 * 2) (w / 2 * 2) := fun k hk => by
  have hv : v / 2 * 2 = v / 2 ^ 1 * 2 ^ 1 := by simp
  have hw : w / 2 * 2 = w / 2 ^ 1 * 2 ^ 1 := by simp
  rw [hv, hw, Nat.testBit_mul_two_pow, Nat.testBit_mul_two_pow, Nat.testBit_div_two_pow, Nat.testBit_div_two_pow]
  by_cases h1 : 1 ≤ k
  · rw [Nat.sub_add_cancel h1, h k hk]
  · simp [h1]

/-- A write that reached a register takes nothing but the bits of its fields. -/
theorem Chip.regWrite_agree (c : Chip) (sram : List Host.Cell) (otp : List (Nat × Nat)) (nvs : Nvs) (p : Path) (i : Nat)
    (h : AgreeOn r v w) : c.regWrite sram otp nvs p r i v = c.regWrite sram otp nvs p r i w := by
  unfold Chip.regWrite
  split
  case h_1 => exact c.ashCmdWord_agree h
  case h_2 => exact c.forceWord_agree h
  case h_3 =>
    have h8 : v / 2 ^ 16 % 256 = w / 2 ^ 16 % 256 := h.bits (width := 8) (by decide)
    have h8' : v % 256 = w % 256 := h.low (width := 8) (by decide)
    rw [h 31 (by decide), h8, h8']
  case h_4 => exact c.slotCmdWord_agree i h
  case h_5 => rw [h 0 (by decide), c.onesWrite_agree i h.above]
  case h_6 | h_7 | h_8 | h_9 | h_10 | h_11 | h_12 | h_13 => exact c.ownerWrite_agree p i h
  case h_14 => exact c.stackCmdWord_agree h
  case h_15 => exact c.seqCmdWord_agree p h
  case h_16 => exact c.belCmdWord_agree h
  case h_17 => rw [h 31 (by decide)]
  case h_18 => exact c.imgCmdWord_agree sram h
  case h_19 => exact c.mbxCmdWord_agree p otp nvs h
  case h_20 => rw [c.plainWrite_agree i h]
  case h_21 =>
    split
    · exact c.ctxRegWrite_agree _ h
    · exact c.plainWrite_agree i h

/-- So does an access that writes a word. -/
theorem Chip.busWrite_agree (c : Chip) (sram : List Host.Cell) (otp : List (Nat × Nat)) (nvs : Nvs) (p : Path) {a i : Nat}
    (hr : regAt a = some (r, i)) (h : AgreeOn r v w) : c.busWrite sram otp nvs p a 4 v = c.busWrite sram otp nvs p a 4 w := by
  cases hs : c.served p (blkOf a) true (decide (a = 0x200004)) with
  | false => rw [Chip.busWrite_unserved hs, Chip.busWrite_unserved hs]
  | true =>
    cases hn : c.holdsNothing p a with
    | some u => rw [Chip.busWrite_nothing hs hn, Chip.busWrite_nothing hs hn]
    | none => rw [Chip.busWrite_word hs hn hr, Chip.busWrite_word hs hn hr, c.regWrite_agree sram otp nvs p i (h.mod 32)]

/-- Settles O52: the word read lies in the fields, the write takes their bits only. -/
theorem reservedBits : Obligations.ReservedBits := by
  refine ⟨fun s r i k hr hk => State.testBit_regWord hr hk, fun s p a r i v w hr hvw => ?_⟩
  have h : AgreeOn r v w := hvw
  have hm : (256 : Nat) ^ 4 = 2 ^ 32 := by norm_num
  show Host.Outcome.next (s.write p a 4 v) = .next (s.write p a 4 w)
  unfold State.write
  simp only [accessParts_reg hr, List.foldl_cons, List.foldl_nil, Nat.sub_self, Nat.pow_zero, Nat.div_one, hm,
    fun c : Chip => c.busWrite_agree s.sram s.otp s.nvs p hr (h.mod 32)]

end Sys2Proof.Machine
end

section
/-! Writes of a path (R5–R9, R22, R302, R460–R462): a register of settings, the memories, the MSI-X table, and requests of more than
one access. -/

namespace Sys2Proof.Machine

/-! ## Registers of settings -/

theorem tabFind_append {κ α : Type} [DecidableEq κ] (t u : List (κ × α)) (k : κ) :
    tabFind (t ++ u) k = (tabFind t k).or (tabFind u k) := by
  induction t with
  | nil => rfl
  | cons e t ih =>
    rw [List.cons_append, tabFind, tabFind, ih]
    split <;> rfl

/-- A table whose keys are distinct finds the same from either end. -/
theorem tabFind_reverse {κ α : Type} [DecidableEq κ] (t : List (κ × α)) (h : (t.map Prod.fst).Nodup) (k : κ) :
    tabFind t.reverse k = tabFind t k := by
  induction t with
  | nil => rfl
  | cons e t ih =>
    rw [List.map_cons, List.nodup_cons] at h
    rw [List.reverse_cons, tabFind_append, ih h.2]
    by_cases hk : e.1 = k
    · have hn : tabFind t k = none := tabFind_eq_none (fun f hf he => h.1 (List.mem_map.2 ⟨f, hf, he.trans hk.symm⟩))
      simp [tabFind, hk, hn]
    · simp [tabFind, hk]

/-- Values stored one after another in fields of one another's own. -/
theorem Change.Of.foldl_put {c : Chip} (l : List (Key × Nat)) (hl : (l.map Prod.fst).Nodup) :
    ({ regs := l.map (fun e => (e.1, e.2 % 2 ^ e.1.fld.width)) } : Change).Of c
      (l.foldl (fun c e => c.put e.1.fld e.1.idx e.2) c) := by
  have key : ∀ (l : List (Key × Nat)) (d : Change) (c' : Chip), d.Of c c' →
      ({ d with regs := (l.map (fun e => (e.1, e.2 % 2 ^ e.1.fld.width))).reverse ++ d.regs } : Change).Of c
        (l.foldl (fun c e => c.put e.1.fld e.1.idx e.2) c') := by
    intro l
    induction l with
    | nil => exact fun d c' h => h
    | cons e l ih =>
      intro d c' h
      rw [List.foldl_cons, List.map_cons, List.reverse_cons, List.append_assoc]
      exact ih _ _ (h.put e.1.fld e.1.idx e.2)
  have h := key l {} c (Change.Of.refl c)
  refine { h with reg := fun f i => (h.reg f i).trans ?_ }
  have hl' : ((l.map (fun e => (e.1, e.2 % 2 ^ e.1.fld.width))).map Prod.fst).Nodup := by
    rw [List.map_map]
    exact hl
  unfold Change.reg
  rw [List.append_nil, tabFind_reverse _ hl']

/-- A field of a table is the field that its place names. -/
theorem Fld.spec_eq {r : RegName} {f : FieldSpec} (hf : f ∈ regFields r) : (⟨r, f.lo⟩ : Fld).spec = f := by
  revert f
  cases r <;> decide

theorem regFields_nodup (r : RegName) : (regFields r).Nodup := by
  cases r <;> decide

/-- The access code at an index is the table's, or a code of a setting. -/
theorem Fld.accAt_or (f : Fld) (i : Nat) : f.accAt i = f.spec.acc ∨ f.accAt i = .RW ∨ f.accAt i = .RO ∨ f.accAt i = .RWL := by
  unfold Fld.accAt
  split <;> (repeat' split) <;> simp

/-- What the tables of the registers of settings have in common: no field that a one written clears or sets, none without bits, none
past the word. -/
theorem settingRegs_fields : ∀ r ∈ settingRegs, ∀ f ∈ regFields r,
    f.acc ≠ .W1C ∧ f.acc ≠ .W1S ∧ fieldOf f 0xFFFFFFFF = 2 ^ f.width - 1 ∧ f.width ≠ 0 := by
  decide

/-- No register of settings is one whose stored values or whose writes do more. -/
theorem settingRegs_plain : ∀ r ∈ settingRegs,
    r ∉ [RegName.HTH_BANK_CFG, .DRG_DMP_CFG, .DRG_PMB_CFG, .FLU_SQ_BASE_LO, .HTH_MON_CFG, .HTH_BMON_CFG, .DRG_RMON_CFG, .DRG_AVS_CFG,
      .DRG_PMB_MAP, .FLU_RING_CFG, .HTH_PROT_CFG, .HTH_PROT_LIM, .HTH_TURF_CFG, .DRG_SEQ_CFG, .ASH_PIN_CTL] := by
  decide

section Settings

variable {c : Chip} {r : RegName} {i v : Nat} (hr : r ∈ settingRegs)
include hr

theorem Chip.regWrite_setting (sram : List Host.Cell) (otp : List (Nat × Nat)) (nvs : Nvs) (p : Path) :
    c.regWrite sram otp nvs p r i v = c.plainWrite r i v := by
  fin_cases hr <;> rfl

theorem Chip.onesWrite_setting : c.onesWrite r i v = c :=
  foldl_eq_self _ (fun f hf => by
    obtain ⟨h1, h2, -, -⟩ := settingRegs_fields r hr f hf
    have hs := Fld.spec_eq hf
    obtain h | h | h | h := Fld.accAt_or ⟨r, f.lo⟩ i <;> simp [h, hs, h1, h2])

theorem Chip.setField_setting (lo : Nat) : c.setField ⟨r, lo⟩ i v = c.put ⟨r, lo⟩ i ((⟨r, lo⟩ : Fld).within i v) := by
  have h := settingRegs_plain r hr
  simp only [List.mem_cons, not_or] at h
  simp [Chip.setField, HTH_BANK_CFG.CLASS, DRG_DMP_CFG.CAP, DRG_PMB_CFG.SPEED, FLU_SQ_BASE_LO.ADDR_LO, h]

theorem Chip.fixReg_setting : c.fixReg r i = c := by
  have h := settingRegs_plain r hr
  simp only [List.mem_cons, not_or] at h
  simp [Chip.fixReg, monCfgReg, h]

theorem Chip.regEffect_setting (old : Chip) : c.regEffect old r i = c := by
  have h := settingRegs_plain r hr
  simp only [List.mem_cons, not_or] at h
  simp [Chip.regEffect, monOf, h]

/-- The whole of a field is written: its bits of the word, brought within its limits. -/
theorem Chip.maskedWrite_setting (ok : Fld → Bool) :
    c.maskedWrite r i v 0xFFFFFFFF ok
      = (((regFields r).filter (fun f => ok ⟨r, f.lo⟩)).map (fun f =>
          ((⟨⟨r, f.lo⟩, i⟩, (⟨r, f.lo⟩ : Fld).within i (v / 2 ^ f.lo % 2 ^ f.width)) : Key × Nat))).foldl
            (fun c e => c.put e.1.fld e.1.idx e.2) c := by
  unfold Chip.maskedWrite
  dsimp only
  rw [Chip.fixReg_setting hr, Chip.regEffect_setting hr, List.foldl_map, List.foldl_filter]
  refine foldl_congr (fun c f hf => ?_) c
  obtain ⟨-, -, hm, hw⟩ := settingRegs_fields r hr f hf
  have hpow : 1 < 2 ^ f.width := Nat.one_lt_two_pow hw
  have hne : ¬ 2 ^ f.width - 1 = 0 := by omega
  dsimp only
  rw [hm]
  cases hok : ok ⟨r, f.lo⟩ with
  | false => simp
  | true => simp [hne, Chip.setField_setting hr, fieldOf, Nat.and_two_pow_sub_one_eq_mod]

/-- A write of a register of settings stores its fields and does no more. -/
theorem Change.Of.plainWrite_setting : ({ regs := stored c r i v } : Change).Of c (c.plainWrite r i v) := by
  have hput := Change.Of.foldl_put (c := c)
    (((regFields r).filter (fun f => decide ((⟨r, f.lo⟩ : Fld).accAt i = .RW)
      || (decide ((⟨r, f.lo⟩ : Fld).accAt i = .RWL) && !c.on KLN_CFG_STAT.LOCK 0))).map (fun f =>
        ((⟨⟨r, f.lo⟩, i⟩, (⟨r, f.lo⟩ : Fld).within i (v / 2 ^ f.lo % 2 ^ f.width)) : Key × Nat))) (by
    rw [List.map_map]
    refine List.Nodup.map_on ?_ ((regFields_nodup r).filter _)
    intro f hf g hg he
    have hlo : f.lo = g.lo := congrArg (fun k : Key => k.fld.lo) he
    have hf' := Fld.spec_eq (List.mem_of_mem_filter hf)
    rw [hlo, Fld.spec_eq (List.mem_of_mem_filter hg)] at hf'
    exact hf'.symm)
  have hstored : ∀ t : List FieldSpec, (∀ f ∈ t, f ∈ regFields r) →
      (t.map (fun f => ((⟨⟨r, f.lo⟩, i⟩, (⟨r, f.lo⟩ : Fld).within i (v / 2 ^ f.lo % 2 ^ f.width)) : Key × Nat))).map
        (fun e => (e.1, e.2 % 2 ^ e.1.fld.width))
      = t.map (fun f => (⟨⟨r, f.lo⟩, i⟩, (⟨r, f.lo⟩ : Fld).within i (v / 2 ^ f.lo % 2 ^ f.width) % 2 ^ f.width)) := by
    intro t ht
    rw [List.map_map]
    refine List.map_congr_left (fun f hf => ?_)
    simp only [Function.comp_apply, Fld.width, Fld.spec_eq (ht f hf)]
  rw [hstored _ (fun f hf => List.mem_of_mem_filter hf), ← Chip.maskedWrite_setting hr (fun f =>
    decide (f.accAt i = .RW) || (decide (f.accAt i = .RWL) && !c.on KLN_CFG_STAT.LOCK 0))] at hput
  unfold Chip.plainWrite
  dsimp only
  rw [Chip.onesWrite_setting hr]
  split
  · exact hput
  next hnone =>
    have hempty : stored c r i v = [] := by
      rw [stored, List.map_eq_nil_iff, List.filter_eq_nil_iff]
      simpa [beq_iff_eq] using hnone
    rw [hempty]
    exact Change.Of.refl c

end Settings

end Sys2Proof.Machine
end

section
/-! Writes of a path that lie in a memory or in the MSI-X table, requests of more than one access, and the statement of register
writes (R5–R9, R22, R302, R460–R462). -/

namespace Sys2Proof.Machine

/-! ## The bytes of a value -/

theorem leBytes_mod (n v : Nat) : leBytes n (v % 256 ^ n) = leBytes n v := by
  unfold leBytes
  refine List.map_congr_left (fun k hk => BitVec.eq_of_toNat_eq ?_)
  have hk : n = (n - k - 1) + 1 + k := by rw [List.mem_range] at hk; omega
  have hpow : 256 ^ n = 256 ^ k * (256 * 256 ^ (n - k - 1)) := by
    conv_lhs => rw [hk]
    ring
  rw [BitVec.toNat_ofNat, BitVec.toNat_ofNat, hpow, Nat.mod_mul_right_div_self, show 2 ^ 8 = 256 from rfl,
    Nat.mod_mul_right_mod]

/-- The sizes that a memory takes. -/
abbrev MemSize (a size : Nat) : Prop := (size = 1 ∨ size = 2 ∨ size = 4 ∨ size = 8) ∧ a % size = 0

theorem memAccess_eq_true {a size : Nat} : memAccess a size = true ↔ MemSize a size := by
  simp [memAccess, MemSize]

theorem memAccess_eq_false {a size : Nat} (h : (size ≠ 1 ∧ size ≠ 2 ∧ size ≠ 4 ∧ size ≠ 8) ∨ a % size ≠ 0) :
    memAccess a size = false := by
  rw [Bool.eq_false_iff, ne_eq, memAccess_eq_true]
  rintro ⟨hs, ha⟩
  omega

/-- An aligned access of a memory is one access. -/
theorem MemSize.oneAccess {a size : Nat} (h : MemSize a size) (hm : isMemory a = true) : OneAccess a size := by
  obtain ⟨hs | hs | hs | hs, ha⟩ := h <;> subst hs <;> exact ⟨by omega, .inl ⟨hm, by omega⟩⟩

theorem isMemory_sram {a : Nat} (h : 0x1000000 ≤ a) : isMemory a = true := by simp [isMemory, h]

theorem isMemory_ember {a : Nat} (h : 0xD80000 ≤ a) (h' : a < 0xE00000) : isMemory a = true := by simp [isMemory, h, h']

/-! ## The memories -/

section Write

variable {c : Chip} {sram : List Host.Cell} {otp : List (Nat × Nat)} {nvs : Nvs} {p : Path} {a size v : Nat}

theorem Chip.holdsNothing_sram (hd : c.domUp 16 = true) (h1 : 0x1000000 ≤ a) (h2 : a < 0x2000000) :
    c.holdsNothing p a = none := by
  unfold Chip.holdsNothing
  rw [if_neg (by omega), if_pos h1, if_pos hd]

theorem Chip.holdsNothing_ember (hd : c.domUp 17 = true) (h1 : 0xD80000 ≤ a) (h2 : a < 0xD90000 ∨ 0xDC0000 ≤ a ∧ a < 0xDC8000) :
    c.holdsNothing p a = none := by
  unfold Chip.holdsNothing
  rw [if_neg (by omega), if_neg (by omega), if_neg (by omega), if_pos h1, if_pos ⟨h2, hd⟩]

/-- Bytes of the host's part of the SRAM, with no repair group over them (R22, R460). -/
theorem Chip.busWrite_sram {off : Nat} (h : c.WritesAt p a) (hd : c.domUp 16 = true) (ha : a = 0x1000000 + off)
    (h1 : 0x400000 ≤ off) (h2 : off < 0x1000000) (hg : c.wear.groupsOut.contains (off / 65536) = false) (hm : MemSize a size) :
    c.busWrite sram otp nvs p a size v = c.mem (.sram off (leBytes size v)) := by
  have hsub : a - 0x1000000 = off := by omega
  unfold Chip.busWrite
  rw [h, Chip.holdsNothing_sram hd (by omega) (by omega)]
  simp only [Bool.not_true, Bool.false_eq_true, if_false, hsub, hg, memAccess_eq_true.2 hm]
  rw [if_pos (by omega), if_neg (by simp; omega)]

/-- A write to another byte of the SRAM window is discarded. -/
theorem Chip.busWrite_sram_discard {off : Nat} (h : c.WritesAt p a) (hd : c.domUp 16 = true) (ha : a = 0x1000000 + off)
    (h2 : off < 0x1000000)
    (hno : off < 0x400000 ∨ c.wear.groupsOut.contains (off / 65536) = true ∨ memAccess a size = false) :
    c.busWrite sram otp nvs p a size v = c.raise 0x09 0x08 := by
  have hsub : a - 0x1000000 = off := by omega
  unfold Chip.busWrite
  rw [h, Chip.holdsNothing_sram hd (by omega) (by omega)]
  simp only [Bool.not_true, Bool.false_eq_true, if_false, hsub]
  rw [if_pos (by omega), if_pos (by simpa using hno)]

/-- A context of host software that is IDLE, DONE or FENCED and no half of a pair: its memories are open (R302). -/
abbrev Chip.OpenHost (c : Chip) (k : Nat) : Prop := c.ctxHost k = true ∧ c.ctxOpen k = true

theorem Chip.ctxOpen_iff {k : Nat} :
    c.ctxOpen k = true ↔ (c.ctxState k = esIDLE ∨ c.ctxState k = esDONE ∨ c.ctxState k = esFENCED) ∧ c.ctxPaired k = false := by
  simp [Chip.ctxOpen]

/-- The bytes of a context's operand memory. -/
theorem Chip.busWrite_operands {k : CtxId} {off : Nat} (h : c.WritesAt p a) (hd : c.domUp 17 = true) (hk : c.OpenHost k)
    (ha : a = 0xD80000 + 0x2000 * k.val + off) (ho : off < 0x2000) (hm : MemSize a size) :
    c.busWrite sram otp nvs p a size v = c.mem (.opWrite (0x2000 * k.val + off) (leBytes size v)) := by
  have hk8 := k.isLt
  have hidx : (a - 0xD80000) / 0x2000 = k.val := by omega
  have hsub : a - 0xD80000 = 0x2000 * k.val + off := by omega
  unfold Chip.busWrite
  rw [h, Chip.holdsNothing_ember hd (by omega) (by omega)]
  simp only [Bool.not_true, Bool.false_eq_true, if_false]
  rw [if_neg (by omega), if_neg (by omega), if_pos (by omega)]
  simp [show ¬ 0xDC0000 ≤ a by omega, hidx, hk.1, hk.2, memAccess_eq_true.2 hm]
  exact congrArg _ (by rw [hsub])

/-- The bytes of a context's list slice. -/
theorem Chip.busWrite_list {k : CtxId} {off : Nat} (h : c.WritesAt p a) (hd : c.domUp 17 = true) (hk : c.OpenHost k)
    (ha : a = 0xDC0000 + 0x1000 * k.val + off) (ho : off < 0x1000) (hm : MemSize a size) :
    c.busWrite sram otp nvs p a size v = c.mem (.listWrite (0x1000 * k.val + off) (leBytes size v)) := by
  have hk8 := k.isLt
  have hidx : (a - 0xDC0000) / 0x1000 = k.val := by omega
  have hsub : a - 0xDC0000 = 0x1000 * k.val + off := by omega
  unfold Chip.busWrite
  rw [h, Chip.holdsNothing_ember hd (by omega) (by omega)]
  simp only [Bool.not_true, Bool.false_eq_true, if_false]
  rw [if_neg (by omega), if_neg (by omega), if_pos (by omega)]
  simp [show 0xDC0000 ≤ a by omega, hidx, hk.1, hk.2, memAccess_eq_true.2 hm]
  exact congrArg _ (by rw [hsub])

/-- A write to either memory of a context that is not open, or of a size or place that the memory does not take. -/
theorem Chip.busWrite_ember_discard {k : CtxId} {off : Nat} (h : c.WritesAt p a) (hd : c.domUp 17 = true)
    (ha : (a = 0xD80000 + 0x2000 * k.val + off ∧ off < 0x2000) ∨ (a = 0xDC0000 + 0x1000 * k.val + off ∧ off < 0x1000))
    (hno : c.ctxHost k = false ∨ c.ctxOpen k = false ∨ memAccess a size = false) :
    c.busWrite sram otp nvs p a size v = c.raise 0x09 blkEMB := by
  have hk8 := k.isLt
  have hidx : (if decide (0xDC0000 ≤ a) = true then (a - 0xDC0000) / 0x1000 else (a - 0xD80000) / 0x2000) = k.val := by
    split
    next hl => rw [decide_eq_true_eq] at hl; omega
    next hl => rw [decide_eq_true_eq] at hl; omega
  unfold Chip.busWrite
  rw [h, Chip.holdsNothing_ember hd (by omega) (by omega)]
  simp only [Bool.not_true, Bool.false_eq_true, if_false, hidx]
  rw [if_neg (by omega), if_neg (by omega), if_pos (by omega), if_pos (by simpa [or_assoc] using hno)]

/-! ## The MSI-X table (R461) -/

theorem portOf_portPath (x : PortId) : portOf (portPath x.val) = some x.val := by
  fin_cases x <;> rfl

/-- What the path of a port may write at its table. -/
theorem Chip.writesAt_msix {x : PortId} {off : Nat} (hoff : off < 0x8000)
    (h : c.served (if x.val = 0 then .portA else .portB) 0x09 true false = true) : c.WritesAt (portPath x.val) (0xE00000 + off) := by
  have hblk : blkOf (0xE00000 + off) = 0x09 := by
    unfold blkOf
    rw [if_neg (by omega), if_neg (by omega), if_neg (by omega), if_neg (by omega), if_neg (by omega), if_pos (by omega)]
  have hcmd : decide (0xE00000 + off = 0x200004) = false := decide_eq_false (by omega)
  rw [Chip.WritesAt, hblk, hcmd]
  exact h

/-- A word within the table of an open port's vectors. -/
theorem Chip.busWrite_msix {x : PortId} {off : Nat} (h : c.WritesAt (portPath x.val) (0xE00000 + off)) (h4 : off % 4 = 0)
    (hin : off < 16 * (c.get FLU_HP_CFG.MSIX_LAST x.val + 1)) (hoff : off < 0x8000) :
    c.busWrite sram otp nvs (portPath x.val) (0xE00000 + off) 4 v = c.msixWrite x.val off v := by
  have hn : c.holdsNothing (portPath x.val) (0xE00000 + off) = none := by
    unfold Chip.holdsNothing
    rw [if_neg (by omega), if_neg (by omega), if_pos (by omega), portOf_portPath]
    have hcount : c.msixCount x.val = c.get FLU_HP_CFG.MSIX_LAST x.val + 1 := rfl
    exact if_pos (.inl (by omega))
  unfold Chip.busWrite
  rw [h, hn]
  simp only [Bool.not_true, Bool.false_eq_true, if_false, portOf_portPath]
  rw [if_neg (by omega), if_pos (by omega), if_neg (by omega), if_pos (by omega), Nat.add_sub_cancel_left]

/-- A word past the port's vectors. -/
theorem Chip.holdsNothing_msix {x : PortId} {off : Nat} (hout : 16 * (c.get FLU_HP_CFG.MSIX_LAST x.val + 1) ≤ off)
    (hoff : off < 0x8000) : c.holdsNothing (portPath x.val) (0xE00000 + off) = some 0x09 := by
  unfold Chip.holdsNothing
  rw [if_neg (by omega), if_neg (by omega), if_pos (by omega), portOf_portPath]
  have hcount : c.msixCount x.val = c.get FLU_HP_CFG.MSIX_LAST x.val + 1 := rfl
  exact if_neg (by omega)

/-- The table with one of its words written; a vector's control word is masked at reset. -/
def PortX.msixSet (y : PortX) (off v : Nat) : PortX :=
  { y with msix := tabPut id (if off / 4 % 4 = 3 then 1 else 0) y.msix (off / 4) (v % 2 ^ 32) }

/-- The write does not unmask a pending vector of an open port. -/
theorem Chip.msixWrite_quiet {x off : Nat}
    (h : off / 4 % 4 ≠ 3 ∨ v % 2 = 1 ∨ (c.port x).pba.contains (off / 16) = false ∨ c.portOpen x = false) :
    c.msixWrite x off v = c.setPort x ((c.port x).msixSet off v) := by
  have hdiv : off / 4 / 4 = off / 16 := Nat.div_div_eq_div_mul _ _ _
  unfold Chip.msixWrite
  dsimp only
  rw [if_neg, PortX.msixSet]
  rw [Nat.testBit_zero, hdiv]
  rintro ⟨h3, hv, hp, ho⟩
  have hv : v % 2 ≠ 1 := by simpa using hv
  obtain h | h | h | h := h
  · exact h h3
  · exact hv h
  · rw [h] at hp; cases hp
  · exact absurd (h.symm.trans ho) Bool.false_ne_true

theorem Chip.msixWrite_unmask {x off : Nat} (h3 : off / 4 % 4 = 3) (hv : v % 2 = 0)
    (hp : (c.port x).pba.contains (off / 16) = true) (ho : c.portOpen x = true) :
    c.msixWrite x off v = ((c.setPort x ((c.port x).msixSet off v)).setPort x
      { (c.port x).msixSet off v with pba := (c.port x).pba.filter (fun k => decide (k ≠ off / 16)) }).emit (.msix x (off / 16)) := by
  have hdiv : off / 4 / 4 = off / 16 := Nat.div_div_eq_div_mul _ _ _
  unfold Chip.msixWrite
  dsimp only
  rw [if_pos, hdiv, PortX.msixSet]
  rw [Nat.testBit_zero, hdiv, hv]
  exact ⟨h3, rfl, hp, ho⟩

end Write

/-! ## The commands -/

section Commands

variable {s : State} {p : Path} {a size v : Nat}

/-- A write request of one access. -/
theorem State.write_one (h : OneAccess a size) :
    s.write p a size v = s.run fun c => c.busWrite s.sram s.otp s.nvs p a size (v % 256 ^ size) := by
  simp [State.write, accessParts_one h]

/-- A register write of one access makes the changes of that access. -/
theorem Effect.registerWrite {d : Change} (hs : s.Still) (h : OneAccess a size)
    (hd : d.Of s.chip (s.chip.busWrite s.sram s.otp s.nvs p a size (v % 256 ^ size))) : Effect (.registerWrite p a size v) s d :=
  Effect.of_run (f := fun c => c.busWrite s.sram s.otp s.nvs p a size (v % 256 ^ size))
    (by rw [← State.write_one h]; rfl) hs hd

/-- One that sends an access error only. -/
theorem Effect.registerWrite_raise {u : Nat} (hs : s.Still) (h : OneAccess a size)
    (he : s.chip.busWrite s.sram s.otp s.nvs p a size (v % 256 ^ size) = s.chip.raise 0x09 u) :
    Effect (.registerWrite p a size v) s { events := [⟨0x09, u, 0, false⟩] } :=
  Effect.registerWrite hs h (((Change.Of.refl s.chip).raise 0x09 u 0 false).eq he)

/-- One that changes bytes of a memory only. -/
theorem Effect.registerWrite_mem {m : MemOp} (hs : s.Still) (h : OneAccess a size)
    (he : s.chip.busWrite s.sram s.otp s.nvs p a size (v % 256 ^ size) = s.chip.mem m) :
    Effect (.registerWrite p a size v) s { mems := [m] } :=
  Effect.registerWrite hs h (((Change.Of.refl s.chip).mem m).eq he)

/-- A request that reaches past its first access is that access, then the request for the rest. -/
theorem State.write_cons (h : firstAccess a < size) :
    s.write p a size v = (s.write p a (firstAccess a) v).write p (a + firstAccess a) (size - firstAccess a) (v / 256 ^ firstAccess a) := by
  rw [State.write_one (oneAccess_first a), State.write, State.write, accessParts_cons h, List.foldl_cons, Nat.sub_self, Nat.pow_zero,
    Nat.div_one]
  refine foldl_congr (fun t e he => ?_) _
  have hle := le_of_mem_accessParts he
  rw [Nat.div_div_eq_div_mul, ← Nat.pow_add, show firstAccess a + (e.1 - (a + firstAccess a)) = e.1 - a by omega]

variable {x : PortId} {off : Nat}

/-- A port's write to its MSI-X table makes the changes of the access. -/
theorem Effect.msixTableWrite {d : Change} (hs : s.Still) (hoff : off < 0x8000)
    (hd : d.Of s.chip (s.chip.busWrite s.sram s.otp s.nvs (portPath x.val) (0xE00000 + off) 4 v)) :
    Effect (.msixTableWrite x off v) s d :=
  Effect.of_run (f := fun c => c.busWrite s.sram s.otp s.nvs (portPath x.val) (0xE00000 + off) 4 v)
    (by
      show Host.Outcome.next (s.run fun c => c.busWrite s.sram s.otp s.nvs (portPath x.val) (0xE00000 + off % 0x8000) 4 v) = _
      rw [Nat.mod_eq_of_lt hoff]) hs hd

end Commands

/-! ## Register writes -/

/-- Settles O48: each access is one of the cases of `Chip.busWrite`, and a longer request is a sequence of accesses. -/
theorem registerWrites : Obligations.RegisterWrites := by
  unfold Obligations.RegisterWrites
  refine ⟨fun p a v s hs => ⟨?_, ?_, ?_, ?_, ?_, ?_, ?_, ?_, ?_, ?_⟩, fun x off v s hs hw h4 => ⟨?_, ?_, ?_⟩⟩
  · intro r i hw hn hlt ha hr hset
    refine Effect.registerWrite hs ⟨by omega, .inr ⟨?_, by omega⟩⟩ ?_
    · simp [isMemory]; omega
    · have h := Change.Of.plainWrite_setting (c := s.chip) (i := i) (v := v % 2 ^ 32) hset
      rw [Chip.busWrite_word hw hn hr, Chip.regWrite_setting hset, show v % 256 ^ 4 % 2 ^ 32 = v % 2 ^ 32 by omega]
      exact h
  · intro size hw hn hlt h1 hsize ha
    refine Effect.registerWrite_raise hs ⟨h1, .inr ⟨?_, ha⟩⟩ (Chip.busWrite_narrow hw hn hlt hsize)
    simp [isMemory]; omega
  · exact fun size u hw hone hn => Effect.registerWrite_raise hs hone (Chip.busWrite_nothing hw hn)
  · intro size hw hone
    exact Effect.registerWrite hs hone ((Change.Of.refl s.chip).eq (Chip.busWrite_unserved hw))
  · intro size off hw hd ha h1 h2 hg hsize hal
    have hm : MemSize a size := ⟨hsize, hal⟩
    refine Effect.registerWrite_mem hs (hm.oneAccess (isMemory_sram (by omega))) ?_
    rw [Chip.busWrite_sram hw hd ha h1 h2 hg hm, leBytes_mod]
  · intro size off hw hone hd ha h2 hno
    refine Effect.registerWrite_raise hs hone (Chip.busWrite_sram_discard hw hd ha h2 ?_)
    exact hno.imp id (Or.imp id memAccess_eq_false)
  · intro size k off hw hd hh hp hst hsize hal ha ho
    have hm : MemSize a size := ⟨hsize, hal⟩
    have hk := k.isLt
    refine Effect.registerWrite_mem hs (hm.oneAccess (isMemory_ember (by omega) (by omega))) ?_
    rw [Chip.busWrite_operands hw hd ⟨hh, Chip.ctxOpen_iff.2 ⟨hst, hp⟩⟩ ha ho hm, leBytes_mod]
  · intro size k off hw hd hh hp hst hsize hal ha ho
    have hm : MemSize a size := ⟨hsize, hal⟩
    have hk := k.isLt
    refine Effect.registerWrite_mem hs (hm.oneAccess (isMemory_ember (by omega) (by omega))) ?_
    rw [Chip.busWrite_list hw hd ⟨hh, Chip.ctxOpen_iff.2 ⟨hst, hp⟩⟩ ha ho hm, leBytes_mod]
  · intro size k off hw hone hd ha hno
    refine Effect.registerWrite_raise hs hone (Chip.busWrite_ember_discard hw hd ha ?_)
    have hopen := Chip.ctxOpen_iff (c := s.chip) (k := k.val)
    obtain hh | hp | hst | hm := hno
    · exact .inl hh
    · exact .inr (.inl (Bool.eq_false_iff.2 (fun h => by rw [hp] at hopen; exact absurd (hopen.1 h).2 (by simp))))
    · exact .inr (.inl (Bool.eq_false_iff.2 (fun h => by have := (hopen.1 h).1; tauto)))
    · exact .inr (.inr (memAccess_eq_false hm))
  · intro size n t u hn hlt ht hu
    subst hn
    cases ht
    cases hu
    exact congrArg Host.Outcome.next (State.write_cons hlt)
  · intro hin hoff hq
    refine Effect.msixTableWrite hs hoff ?_
    rw [Chip.busWrite_msix (Chip.writesAt_msix hoff hw) h4 hin hoff, Chip.msixWrite_quiet hq]
    exact (Change.Of.refl s.chip).setPort x _
  · intro hin hoff h3 hv hp ho
    refine Effect.msixTableWrite hs hoff ?_
    rw [Chip.busWrite_msix (Chip.writesAt_msix hoff hw) h4 hin hoff, Chip.msixWrite_unmask h3 hv hp ho]
    have h := (((Change.Of.refl s.chip).setPort x ((s.chip.port x).msixSet off v)).setPort x
      { (s.chip.port x).msixSet off v with pba := (s.chip.port x).pba.filter (fun k => decide (k ≠ off / 16)) }).emit
        (.msix x (off / 16))
    refine { h with port := fun i => (h.port i).trans ?_ }
    by_cases hi : x.val = i
    · simp [Change.setPort, Change.emit, tabFind, hi, PortX.msixSet, h3]
    · simp [Change.setPort, Change.emit, tabFind, hi]
  · intro hout hoff
    exact Effect.msixTableWrite hs hoff
      (((Change.Of.refl s.chip).raise 0x09 0x09 0 false).eq (Chip.busWrite_nothing (Chip.writesAt_msix hoff hw) (Chip.holdsNothing_msix hout hoff)))

end Sys2Proof.Machine
end

section
/-! One change after another, and the zeroisation of the key store on a device without Cinder work (R291, R476). -/

namespace Sys2Proof.Machine

/-! ## One change after another -/

section Plus

variable {d e : Change} {c c1 c2 : Chip}

theorem tabFind_getD_append {κ α : Type} [DecidableEq κ] (t u : List (κ × α)) (k : κ) (a : α) :
    (tabFind (t ++ u) k).getD a = (tabFind t k).getD ((tabFind u k).getD a) := by
  rw [tabFind_append]
  cases tabFind t k <;> rfl

/-- What a field reads as after both changes. -/
theorem Change.reg_plus (d e : Change) {c c1 : Chip} (h : ∀ f i, c1.get f i = d.reg c f i) (f : Fld) (i : Nat) :
    (d.plus e).reg c f i = e.reg c1 f i := by
  have hf := tabFind_filter (fun k : Key => !(e.resets.contains (k.fld.reg, k.idx))) d.regs ⟨f, i⟩
  unfold Change.reg Change.plus
  dsimp only
  rw [tabFind_getD_append, h, hf]
  congr 1
  unfold Change.reg
  by_cases hr : (f.reg, i) ∈ e.resets
  · simp [hr]
  · simp [hr]

/-- The second change follows the first, and takes no event. -/
theorem Change.Of.plus (h : d.Of c c1) (h' : e.Of c1 c2) (ht : e.taken = 0) : (d.plus e).Of c c2 where
  reg f i := (h'.reg f i).trans (Change.reg_plus d e h.reg f i).symm
  slot i := by rw [h'.slot, h.slot, ← tabFind_getD_append]; rfl
  ring i := by rw [h'.ring, h.ring, ← tabFind_getD_append]; rfl
  sessOf i := by rw [h'.sessOf, h.sessOf, ← tabFind_getD_append]; rfl
  ctx i := by rw [h'.ctx, h.ctx, ← tabFind_getD_append]; rfl
  port i := by rw [h'.port, h.port, ← tabFind_getD_append]; rfl
  kzOf i := by rw [h'.kzOf, h.kzOf, ← tabFind_getD_append]; rfl
  entries := by rw [h'.entries, h.entries, ← Option.getD_or]; rfl
  nextUid := by rw [h'.nextUid, h.nextUid, ← Option.getD_or]; rfl
  nextOrder := by rw [h'.nextOrder, h.nextOrder, ← Option.getD_or]; rfl
  stack := by rw [h'.stack, h.stack, ← Option.getD_or]; rfl
  dmp := by rw [h'.dmp, h.dmp, ← Option.getD_or]; rfl
  cord := by rw [h'.cord, h.cord, ← Option.getD_or]; rfl
  ember := by rw [h'.ember, h.ember, ← Option.getD_or]; rfl
  seq := by rw [h'.seq, h.seq, ← Option.getD_or]; rfl
  pmb := by rw [h'.pmb, h.pmb, ← Option.getD_or]; rfl
  grp := by rw [h'.grp, h.grp, ← Option.getD_or]; rfl
  wear := by rw [h'.wear, h.wear, ← Option.getD_or]; rfl
  kln := by rw [h'.kln, h.kln, ← Option.getD_or]; rfl
  blanked := by rw [h'.blanked, h.blanked, ← Option.getD_or]; rfl
  stage p := by rw [h'.stage, h.stage, ← tabFind_getD_append]; rfl
  monHist m := by rw [h'.monHist, h.monHist, ← tabFind_getD_append]; rfl
  base := by rw [h'.base, h.base, ← Option.getD_or]; rfl
  us := by rw [h'.us, h.us, ← Option.getD_or]; rfl
  tick := by rw [h'.tick, h.tick, ← Option.getD_or]; rfl
  free := by rw [h'.free, h.free, ← Option.getD_or]; rfl
  ash := by
    rw [h'.ash, h.ash]
    cases he : e.ash <;> simp [Change.plus, he, ht]
  memq := by rw [h'.memq, h.memq, List.append_assoc]; rfl
  out := by rw [h'.out, h.out, List.append_assoc]; rfl

end Plus

/-! ## Changes said another way -/

section Find

variable {d : Change} {c c' : Chip}

/-- A table where every value is the same finds it wherever it finds the key. -/
theorem tabFind_const {κ α : Type} [DecidableEq κ] [DecidableEq α] (t : List (κ × α)) (a : α) (h : ∀ e ∈ t, e.2 = a) (k : κ) :
    tabFind t k = if (k, a) ∈ t then some a else none := by
  induction t with
  | nil => rfl
  | cons e t ih =>
    have he : e.2 = a := h e List.mem_cons_self
    rw [tabFind, ih (fun e' he' => h e' (List.mem_cons_of_mem _ he'))]
    by_cases hk : e.1 = k
    · subst hk he
      simp
    · have hne : (k, a) ≠ e := fun h' => hk (congrArg Prod.fst h').symm
      simp [hk, hne]

/-- The order of a table of one value does not matter. -/
theorem tabFind_const_congr {κ α : Type} [DecidableEq κ] [DecidableEq α] {t u : List (κ × α)} (a : α) (ht : ∀ e ∈ t, e.2 = a) (h : ∀ e, e ∈ t ↔ e ∈ u)
    (k : κ) : tabFind t k = tabFind u k := by
  rw [tabFind_const t a ht, tabFind_const u a (fun e he => ht e ((h e).2 he))]
  simp only [h]

theorem Change.Of.regs_find (h : d.Of c c') {l : List (Key × Nat)} (e : ∀ k, tabFind d.regs k = tabFind l k) :
    ({ d with regs := l } : Change).Of c c' :=
  { h with reg := fun f i => by rw [h.reg]; unfold Change.reg; rw [e] }

theorem Change.Of.sess_find (h : d.Of c c') {l : List (Nat × SessX)} (e : ∀ k, tabFind d.sess k = tabFind l k) :
    ({ d with sess := l } : Change).Of c c' :=
  { h with sessOf := fun i => by rw [h.sessOf, e] }

theorem Change.Of.kz_find (h : d.Of c c') {l : List (Nat × KzX)} (e : ∀ k, tabFind d.kz k = tabFind l k) :
    ({ d with kz := l } : Change).Of c c' :=
  { h with kzOf := fun i => by rw [h.kzOf, e] }

/-- A table with one entry for each number below a bound. -/
theorem tabFind_range {α : Type} (g : Nat → α) (n k : Nat) :
    tabFind ((List.range n).map (fun i => (i, g i))) k = if k < n then some (g k) else none := by
  induction n with
  | zero => rfl
  | succ n ih =>
    rw [List.range_succ, List.map_append, tabFind_append, ih]
    by_cases hk : k < n
    · simp [hk, Nat.lt_succ_of_lt hk]
    · by_cases hn : n = k
      · simp [tabFind, hn]
      · simp [tabFind, hn, show ¬ k < n + 1 by omega, hk]

/-- The entries for the last number below a bound may stand first where all say the same. -/
theorem tabFind_flatMap_range_succ {κ α : Type} [DecidableEq κ] [DecidableEq α] (g : Nat → List (κ × α)) (a : α)
    (h : ∀ n, ∀ e ∈ g n, e.2 = a) (n : Nat) (k : κ) :
    tabFind (g n ++ (List.range n).flatMap g) k = tabFind ((List.range (n + 1)).flatMap g) k := by
  refine tabFind_const_congr a (fun e he => ?_) (fun e => ?_) k
  · obtain he | he := List.mem_append.1 he
    · exact h n e he
    · obtain ⟨m, -, he⟩ := List.mem_flatMap.1 he
      exact h m e he
  · simp [List.range_succ, or_comm]

theorem Chip.forN_succ (c : Chip) (n : Nat) (f : Chip → Nat → Chip) : c.forN (n + 1) f = f (c.forN n f) n := by
  unfold Chip.forN
  rw [List.range_succ, List.foldl_append]
  rfl

end Find

/-! ## The key store zeroised -/

/-- The parts of a chip that a change speaks of entry by entry and that stay as they are. -/
def Chip.SameHistory (c c' : Chip) : Prop := c'.stage = c.stage ∧ c'.mons = c.mons

theorem sessRegs_zero (n : Nat) : ∀ e ∈ sessRegs n, e.2 = 0 := by simp [sessRegs]

theorem unkeyedRegs_zero (c : Chip) (k : Nat) : ∀ e ∈ unkeyedRegs c k, e.2 = 0 := by simp [unkeyedRegs]

/-- A session retired, with its cached certificate gone. -/
def wipedSess (y : SessX) : SessX := { noSess y with cache := none }

theorem Chip.NoCinder.congr {c c' : Chip} (h : c.NoCinder) (hd : c'.dmp = c.dmp) (hx : ∀ k, c'.ctx k = c.ctx k)
    (he : c'.ember = c.ember) : c'.NoCinder where
  cordJob n := (h.cordJob n).congr hd
  host k := by rw [hx]; exact h.host k
  stokerQ := by rw [he]; exact h.stokerQ
  finished := by rw [he]; exact h.finished

/-- A count that stops at its largest value. -/
theorem Change.Of.incSat {d : Change} {c c' : Chip} (h : d.Of c c') (f : Fld) (i : Nat) :
    ({ d with regs := (⟨f, i⟩, c'.satInc f i) :: d.regs } : Change).Of c (c'.incSat f i) := by
  unfold Chip.incSat Chip.satInc
  dsimp only
  split
  next hlt =>
    have hput := h.put f i (c'.get f i + 1)
    rw [Change.put, Nat.mod_eq_of_lt hlt] at hput
    exact hput
  · exact { h with
      reg := fun g j => by
        unfold Change.reg
        rw [tabFind]
        by_cases hk : (⟨f, i⟩ : Key) = ⟨g, j⟩
        · obtain ⟨rfl, rfl⟩ := (Key.mk_eq f g i j).1 hk
          simp
        · rw [if_neg hk]
          exact h.reg g j }

/-- A field that no change names. -/
theorem Change.reg_of_ne {d : Change} {c : Chip} {f : Fld} (hr : d.resets = []) (h : ∀ e ∈ d.regs, e.1.fld ≠ f) (i : Nat) :
    d.reg c f i = c.get f i := by
  unfold Change.reg
  rw [tabFind_eq_none (fun e he hk => h e he (congrArg Key.fld hk)), hr]
  rfl

/-- The stored word of a register is that of its fields. -/
theorem Chip.word_congr {c c' : Chip} {r : RegName} {i : Nat} (h : ∀ lo, c'.get ⟨r, lo⟩ i = c.get ⟨r, lo⟩ i) : c'.word r i = c.word r i := by
  unfold Chip.word
  simp only [h]

/-- The registers that show sessions and links. -/
def keyRegs : List RegName := [.FLU_LIVE, .DRG_KZ_STAT, .CRD_SESS_STAT]

/-- The registers that a zeroised store changes. -/
def wipedRegs : List RegName := [.CRD_ZSTAT, .CRD_EVT, .CRD_STAT] ++ keyRegs

theorem storeWiped_reg {c : Chip} {cause : Nat} {f : Fld} (hf : f.reg ∉ wipedRegs) (i : Nat) :
    (storeWiped c cause).reg c f i = c.get f i := by
  refine Change.reg_of_ne rfl (fun e he hk => hf ?_) i
  subst hk
  simp only [storeWiped, List.mem_append, List.mem_flatMap, List.mem_cons, unkeyedRegs, sessRegs, List.not_mem_nil, or_false] at he
  obtain ((rfl | rfl | rfl | rfl) | ⟨k, -, rfl | rfl | rfl⟩) | ⟨k, -, rfl | rfl | rfl⟩ := he <;> simp [wipedRegs, keyRegs]

/-- Every session and the keys of every link are gone. -/
def keysWiped (c : Chip) : Change :=
  { regs := (List.range 3).flatMap (unkeyedRegs c) ++ (List.range 64).flatMap sessRegs,
    sess := (List.range 64).map (fun n => (n, wipedSess (c.sessOf n))),
    kz := (List.range 3).map (fun k => (k, unkeyed (c.kzOf k))) }

/-- The same, and the DRBG is empty. -/
def drbgWiped (c : Chip) : Change :=
  { keysWiped c with
    regs := (⟨CRD_STAT.DRBG_READY, 0⟩, 0) :: (keysWiped c).regs, cord := some { c.cord with drbg := [], drbgReqs := 0 } }

theorem drbgWiped_reg {c : Chip} {f : Fld} (hf : f.reg ∉ keyRegs) (hd : f.reg ≠ .CRD_STAT) (i : Nat) :
    (drbgWiped c).reg c f i = c.get f i := by
  refine Change.reg_of_ne rfl (fun e he hk => ?_) i
  subst hk
  simp only [drbgWiped, keysWiped, List.mem_append, List.mem_flatMap, List.mem_cons, unkeyedRegs, sessRegs, List.not_mem_nil,
    or_false] at he
  obtain rfl | ⟨k, -, rfl | rfl | rfl⟩ | ⟨k, -, rfl | rfl | rfl⟩ := he
  · exact hd rfl
  all_goals exact hf (by simp [keyRegs])

/-- An event of Cord on a chip whose CRD_EVT reads as that of the chip before. -/
theorem Change.Of.crdEvt_zeroised {d : Change} {c c' : Chip} (h : d.Of c c') (he : ∀ lo, c'.get ⟨.CRD_EVT, lo⟩ 0 = c.get ⟨.CRD_EVT, lo⟩ 0) :
    ({ d with
        regs := (⟨CRD_EVT.ZEROISED, 0⟩, 1) :: d.regs,
        events := d.events ++ [⟨0x59, 0, (c.flag CRD_EVT.ZEROISED 0 true).word .CRD_EVT 0, false⟩] } : Change).Of c
      (c'.crdEvt CRD_EVT.ZEROISED) := by
  have hword : (c'.flag CRD_EVT.ZEROISED 0 true).word .CRD_EVT 0 = (c.flag CRD_EVT.ZEROISED 0 true).word .CRD_EVT 0 :=
    Chip.word_congr (fun lo => by simp only [Chip.flag, Chip.get_put, he])
  unfold Chip.crdEvt
  dsimp only
  rw [if_neg (by decide), hword]
  exact (h.put CRD_EVT.ZEROISED 0 1).raise 0x59 0 _ false

theorem Chip.sameHistory_incSat {c c' : Chip} (h : c.SameHistory c') (f : Fld) (i : Nat) : c.SameHistory (c'.incSat f i) := by
  unfold Chip.incSat
  dsimp only
  split
  · exact h
  · exact h

section Wipe

variable {c : Chip} (h : c.NoCinder)
include h

/-- A session retired with its cached certificate. -/
theorem Chip.retireSession_wiped (n : Nat) :
    (c.retireSession n).modSess n (fun s => { s with cache := none })
      = ((((c.setSess n (noSess (c.sessOf n))).put CRD_SESS_STAT.SESS n ssNONE).put CRD_SESS_STAT.OLD_HELD n 0).put
          CRD_SESS_STAT.REKEY_DUE n 0).setSess n (wipedSess (c.sessOf n)) := by
  rw [Chip.retireSession_eq c n (h.cordJob n) h.host h.stokerQ h.finished, Chip.modSess_eq]
  simp only [Chip.sessOf_put, Chip.sessOf_setSess_self]
  rfl

/-- The sessions of the slots below a bound, retired with their caches. -/
theorem Chip.sessionsWiped_of (n : Nat) :
    ({ regs := (List.range n).flatMap sessRegs, sess := (List.range n).map (fun n => (n, wipedSess (c.sessOf n))) } : Change).Of c
        (c.forN n (fun c n => (c.retireSession n).modSess n (fun s => { s with cache := none })))
      ∧ c.SameHistory (c.forN n (fun c n => (c.retireSession n).modSess n (fun s => { s with cache := none }))) := by
  induction n with
  | zero => exact ⟨Change.Of.refl c, rfl, rfl⟩
  | succ n ih =>
    obtain ⟨ho, hstage, hmons⟩ := ih
    rw [Chip.forN_succ]
    generalize c.forN n (fun c n => (c.retireSession n).modSess n (fun s => { s with cache := none })) = cn at *
    have hsess : cn.sessOf n = c.sessOf n := by rw [ho.sessOf, tabFind_range, if_neg (Nat.lt_irrefl n)]; rfl
    rw [Chip.retireSession_wiped (h.congr ho.dmp ho.ctx ho.ember), hsess]
    have step := ((((ho.setSess n (noSess (c.sessOf n))).put CRD_SESS_STAT.SESS n ssNONE).put CRD_SESS_STAT.OLD_HELD n 0).put
      CRD_SESS_STAT.REKEY_DUE n 0).setSess n (wipedSess (c.sessOf n))
    refine ⟨(step.regs_find (l := (List.range (n + 1)).flatMap sessRegs) fun k => ?_).sess_find fun k => ?_, hstage, hmons⟩
    · show tabFind (sessRegs n ++ (List.range n).flatMap sessRegs) k = _
      exact tabFind_flatMap_range_succ sessRegs 0 sessRegs_zero n k
    · show tabFind ((n, wipedSess (c.sessOf n)) :: (n, noSess (c.sessOf n))
        :: (List.range n).map (fun n => (n, wipedSess (c.sessOf n)))) k = _
      rw [tabFind_range (fun n => wipedSess (c.sessOf n)), tabFind, tabFind, tabFind_range (fun n => wipedSess (c.sessOf n))]
      by_cases hk : n = k
      · simp [hk]
      · have hlt : k < n + 1 ↔ k < n := by omega
        simp [hk, hlt]

/-- The keys of a link are gone. -/
theorem Chip.kzUnkey_eq (k : Nat) :
    c.kzUnkey k = (((c.put DRG_KZ_STAT.KEYED k 0).setKz k (unkeyed (c.kzOf k))).put FLU_LIVE.LIVE (2 * c.peerOf k) 0).put
      FLU_LIVE.LIVE (2 * c.peerOf k + 1) 0 := by
  unfold Chip.kzUnkey
  rw [Chip.withdraw_of_noAsk _ _ (h.cordJob _), Chip.abandonJobs_eq c _ rfl h.host h.stokerQ h.finished]
  rfl

/-- The keys of the links below a bound are gone. -/
theorem Chip.linksUnkeyed_of (n : Nat) :
    ({ regs := (List.range n).flatMap (unkeyedRegs c), kz := (List.range n).map (fun k => (k, unkeyed (c.kzOf k))) } : Change).Of c
        (c.forN n Chip.kzUnkey)
      ∧ c.SameHistory (c.forN n Chip.kzUnkey) := by
  induction n with
  | zero => exact ⟨Change.Of.refl c, rfl, rfl⟩
  | succ n ih =>
    obtain ⟨ho, hstage, hmons⟩ := ih
    rw [Chip.forN_succ]
    generalize c.forN n Chip.kzUnkey = cn at *
    have hkz : cn.kzOf n = c.kzOf n := by rw [ho.kzOf, tabFind_range, if_neg (Nat.lt_irrefl n)]; rfl
    have hpeer : cn.peerOf n = c.peerOf n := by unfold Chip.peerOf; rw [ho.grp]; rfl
    rw [Chip.kzUnkey_eq (h.congr ho.dmp ho.ctx ho.ember), hkz, hpeer]
    have step := (((ho.put DRG_KZ_STAT.KEYED n 0).setKz n (unkeyed (c.kzOf n))).put FLU_LIVE.LIVE (2 * c.peerOf n) 0).put
      FLU_LIVE.LIVE (2 * c.peerOf n + 1) 0
    refine ⟨(step.regs_find (l := (List.range (n + 1)).flatMap (unkeyedRegs c)) fun k => ?_).kz_find fun k => ?_, hstage, hmons⟩
    · show tabFind (unkeyedRegs c n ++ (List.range n).flatMap (unkeyedRegs c)) k = _
      exact tabFind_flatMap_range_succ (unkeyedRegs c) 0 (unkeyedRegs_zero c) n k
    · show tabFind ((n, unkeyed (c.kzOf n)) :: (List.range n).map (fun k => (k, unkeyed (c.kzOf k)))) k = _
      rw [tabFind_range (fun k => unkeyed (c.kzOf k)), tabFind, tabFind_range (fun k => unkeyed (c.kzOf k))]
      by_cases hk : n = k
      · simp [hk]
      · have hlt : k < n + 1 ↔ k < n := by omega
        simp [hk, hlt]

/-- The sessions of every slot and the keys of every link are gone. -/
theorem Chip.keysWiped_of :
    ∃ c1 : Chip, c1 = c.forN 64 (fun c n => (c.retireSession n).modSess n (fun s => { s with cache := none }))
      ∧ (keysWiped c).Of c (c1.forN 3 Chip.kzUnkey) ∧ c.SameHistory (c1.forN 3 Chip.kzUnkey) ∧ c1.cord = c.cord := by
  obtain ⟨hs, hstage, hmons⟩ := Chip.sessionsWiped_of h 64
  refine ⟨_, rfl, ?_⟩
  generalize c.forN 64 (fun c n => (c.retireSession n).modSess n (fun s => { s with cache := none })) = c1 at *
  obtain ⟨hk, hstage', hmons'⟩ := Chip.linksUnkeyed_of (h.congr hs.dmp hs.ctx hs.ember) 3
  have hkz : (fun k => ((k, unkeyed (c1.kzOf k)) : Nat × KzX)) = fun k => (k, unkeyed (c.kzOf k)) := by
    funext k; rw [hs.kzOf]; rfl
  have hregs : unkeyedRegs c1 = unkeyedRegs c := by
    funext k; unfold unkeyedRegs Chip.peerOf; rw [hs.grp]; rfl
  rw [hkz, hregs] at hk
  exact ⟨((hs.plus hk rfl).regs_eq (by simp [Change.plus])).kz_find (fun k => by simp [Change.plus]),
    ⟨hstage'.trans hstage, hmons'.trans hmons⟩, hs.cord⟩

/-- Before it is recorded, a zeroisation has wiped the keys and the DRBG. -/
theorem Chip.zeroStore_stages {cause : Nat} (hc : cause ≠ 0) :
    ∃ c1 : Chip, (drbgWiped c).Of c c1 ∧ c.SameHistory c1
      ∧ c.zeroStore cause = ((c1.crdEvt CRD_EVT.ZEROISED).incSat CRD_ZSTAT.ZERO_CNT 0).put CRD_ZSTAT.LAST_CAUSE 0 cause := by
  obtain ⟨c1, hc1, hkeys, hsame, hcord⟩ := Chip.keysWiped_of h
  unfold Chip.zeroStore
  dsimp only
  rw [if_neg hc, ← hc1, hcord]
  generalize c1.forN 3 Chip.kzUnkey = c2 at *
  exact ⟨_, (hkeys.set_cord { c.cord with drbg := [], drbgReqs := 0 }).put CRD_STAT.DRBG_READY 0 0, hsame, rfl⟩

/-- The key store, the lanes and the DRBG are zeroised (R291). -/
theorem Chip.storeWiped_of {cause : Nat} (hc : cause ≠ 0) (hw : cause < 16) :
    (storeWiped c cause).Of c (c.zeroStore cause) ∧ c.SameHistory (c.zeroStore cause) := by
  obtain ⟨c1, hof, hsame, he⟩ := Chip.zeroStore_stages h hc
  have hget : ∀ g : Fld, g.reg ∉ keyRegs → g.reg ≠ .CRD_STAT → c1.get g 0 = c.get g 0 :=
    fun g hg hd => (hof.reg g 0).trans (drbgWiped_reg hg hd 0)
  have hevt := hof.crdEvt_zeroised (fun lo => hget ⟨.CRD_EVT, lo⟩ (by simp [keyRegs]) (by simp))
  have hsat : (c1.crdEvt CRD_EVT.ZEROISED).satInc CRD_ZSTAT.ZERO_CNT 0 = c.satInc CRD_ZSTAT.ZERO_CNT 0 := by
    have hcnt : (c1.crdEvt CRD_EVT.ZEROISED).get CRD_ZSTAT.ZERO_CNT 0 = c.get CRD_ZSTAT.ZERO_CNT 0 :=
      (Chip.get_put_ne c1 CRD_EVT.ZEROISED 0 1 CRD_ZSTAT.ZERO_CNT 0 (by simp)).trans (hget CRD_ZSTAT.ZERO_CNT (by simp [keyRegs]) (by simp))
    unfold Chip.satInc
    rw [hcnt]
  have hcause : cause % 2 ^ CRD_ZSTAT.LAST_CAUSE.width = cause := Nat.mod_eq_of_lt hw
  have hall := (hevt.incSat CRD_ZSTAT.ZERO_CNT 0).put CRD_ZSTAT.LAST_CAUSE 0 cause
  rw [hsat, Change.put, hcause] at hall
  rw [he]
  exact ⟨hall, (Chip.sameHistory_incSat (c := c) (c' := c1.crdEvt CRD_EVT.ZEROISED) hsame _ _ :)⟩

end Wipe

end Sys2Proof.Machine
end

section
/-! ASH_CMD and the warm reset (R10, R11, R112, R291, R381, R390, R414, R445). -/

namespace Sys2Proof.Machine

/-! ## WARM and LIFT_PORT -/

section Commands

variable {s : State} {p : Path} {key : Nat} {c : Chip} {d : Change}

theorem Chip.ashCmd_key {f : Chip → Chip} (h : c.served p blkASH true true = true) (hk : key = 0x5A) : c.ashCmd p key f = f c := by
  unfold Chip.ashCmd
  rw [h, if_neg (by simp), if_neg (not_not.2 hk)]

theorem Chip.ashCmd_wrong {f : Chip → Chip} (h : c.served p blkASH true true = true) (hk : key ≠ 0x5A) :
    c.ashCmd p key f = c.raise 0x1C blkASH := by
  unfold Chip.ashCmd
  rw [h, if_neg (by simp), if_pos hk]
  rfl

theorem Effect.warm (hs : s.Still) (hd : d.Of s.chip (s.chip.ashCmd p key Chip.warmCmd)) : Effect (.warm p key) s d :=
  Effect.of_run (f := fun c => c.ashCmd p key Chip.warmCmd) rfl hs hd

theorem Effect.liftPort {ports : Nat} (hs : s.Still) (hd : d.Of s.chip (s.chip.ashCmd p key fun c => c.liftPorts44 ports)) :
    Effect (.liftPort p key ports) s d :=
  Effect.of_run (f := fun c => c.ashCmd p key fun c => c.liftPorts44 ports) rfl hs hd

theorem Chip.warmCmd_tamper (h : c.ash.tamper = true) : c.warmCmd = c.raise 0x1C blkASH := by
  unfold Chip.warmCmd
  rw [if_pos h]
  rfl

theorem Chip.warmCmd_late (h : c.ash.tamper = false) (hl : c.kln.lc.isSome = true) (hp : 1 < c.get KLN_LC_STAT.PHASE 0) :
    c.warmCmd = c := by
  unfold Chip.warmCmd
  rw [if_neg (by simp [h]), if_pos ⟨hl, hp⟩]

theorem Chip.warmCmd_starts (h : c.ash.tamper = false) (hl : c.kln.lc = none ∨ c.get KLN_LC_STAT.PHASE 0 ≤ 1) :
    c.warmCmd = c.warmStart := by
  unfold Chip.warmCmd
  rw [if_neg (by simp [h]), if_neg]
  rintro ⟨h1, h2⟩
  obtain hl | hl := hl
  · rw [hl] at h1; cases h1
  · omega

/-- A slot is inactive. -/
abbrev Chip.Inactive (c : Chip) (n : Nat) : Prop := c.slotState n = stOFF ∨ c.slotState n = stABSENT ∨ c.slotState n = stCLINKER

/-- There is nothing to deactivate at an inactive slot. -/
theorem Chip.startDeact_inactive {n : Nat} (k : SeqKind) (cause : Nat) (h : c.Inactive n) : c.startDeact n k cause = c := by
  unfold Chip.startDeact
  dsimp only
  obtain h | h | h := h <;> rw [h, if_neg (by decide), if_neg (by decide)]

/-- A warm reset is pending. -/
def Chip.warmPending (c : Chip) : Chip := { c with ash := { c.ash with warmPend := true } }

theorem Change.Of.warmPending (c : Chip) : ({ ash := some { c.ash with warmPend := true } } : Change).Of c c.warmPending :=
  (Change.Of.refl c).set_ash _ rfl

theorem Chip.warmStart_inactive (h : ∀ n ∈ List.range 64, c.Inactive n) : c.warmStart = c.warmPending :=
  foldl_eq_self _ (fun n hn => Chip.startDeact_inactive _ _ (h n hn))

/-- Where an action changes nothing but at one place of a list, it acts there alone. -/
theorem foldl_eq_single {α β : Type} {g : β → α → β} {b : β} {a : α} {l : List α} (hn : l.Nodup) (ha : a ∈ l)
    (h : ∀ a' ∈ l, a' ≠ a → g b a' = b ∧ g (g b a) a' = g b a) : l.foldl g b = g b a := by
  obtain ⟨l1, l2, rfl⟩ := List.append_of_mem ha
  rw [List.nodup_append, List.nodup_cons] at hn
  obtain ⟨-, ⟨h2, -⟩, h12⟩ := hn
  rw [List.foldl_append, List.foldl_cons, foldl_eq_self l1, foldl_eq_self l2]
  · exact fun a' ha' => (h a' (by simp [ha']) (fun he => h2 (he ▸ ha'))).2
  · exact fun a' ha' => (h a' (by simp [ha']) (h12 a' ha' a (by simp))).1

/-- A deactivation changes registers of its slot alone. -/
theorem deactivation_idx {n : Nat} {k : SeqKind} {cause : Nat} : ∀ e ∈ (deactivation c n k cause).regs, e.1.idx = n := by
  have hlane : ∀ e ∈ laneRegs c n, e.1.idx = n := by
    intro e he
    unfold laneRegs at he
    split at he
    · cases he
    · split at he <;> simp at he <;> obtain rfl | rfl | rfl | rfl := he <;> rfl
  have hevt : ∀ e ∈ evtRegs n k, e.1.idx = n := by
    intro e he
    obtain he | he := List.mem_append.1 he <;> split at he <;> simp at he <;> subst he <;> rfl
  simp only [deactivation, List.mem_append, or_imp, forall_and]
  refine ⟨⟨⟨⟨⟨?_, hlane⟩, ?_⟩, ?_⟩, hevt⟩, ?_⟩ <;> simp [lowRegs, sessRegs]

/-- The state of another slot is as it was. -/
theorem slotState_deactivation {c c' : Chip} {n m : Nat} {k : SeqKind} {cause : Nat} (h : (deactivation c n k cause).Of c c')
    (hm : m ≠ n) : c'.slotState m = c.slotState m := by
  unfold Chip.slotState
  rw [h.reg, Change.reg, tabFind_eq_none]
  · rfl
  · exact fun e he hk => hm (by rw [← deactivation_idx e he, hk])

/-- One slot is active. -/
theorem Chip.warmStart_one {n : SlotId} (hst1 : 1 ≤ c.slotState n) (hst2 : c.slotState n ≤ stBUSY) (hb : c.Bare n)
    (h : ∀ m ∈ List.range 64, m = n.val ∨ c.Inactive m) :
    (({ ash := some { c.ash with warmPend := true } } : Change).plus (deactivation c n .commanded cauWARMDEV)).Of c c.warmStart := by
  have hb' : c.warmPending.Bare n := hb.of_slot rfl rfl (fun _ => rfl) rfl
  have hde := Chip.startDeact_of c.warmPending n .commanded cauWARMDEV hb' (by decide) hst1 hst2
  have hone : c.warmStart = c.warmPending.startDeact n .commanded cauWARMDEV :=
    foldl_eq_single List.nodup_range (List.mem_range.2 n.isLt) (fun m hm hne => by
      have hin : c.Inactive m := (h m hm).resolve_left hne
      have hst := slotState_deactivation hde hne
      refine ⟨Chip.startDeact_inactive _ _ hin, Chip.startDeact_inactive _ _ ?_⟩
      exact hin.imp hst.trans (Or.imp hst.trans hst.trans))
  rw [hone]
  exact (Change.Of.warmPending c).plus hde rfl

/-- The fences that LIFT_PORT leaves. -/
theorem Chip.liftPorts44_of {ports : Nat} (h : ∀ x ∈ List.range 2, c.serving x = false) :
    ({ ash := some { c.ash with
         fences := c.ash.fences.filter (fun f => match f.unit with
           | .port x => !(decide (f.src = 0x44) && !f.forced && ports.testBit x)
           | _ => true) } } : Change).Of c (c.liftPorts44 ports) := by
  have hlift : c.liftPorts44 ports = { c with ash := { c.ash with
         fences := c.ash.fences.filter (fun f => match f.unit with
           | .port x => !(decide (f.src = 0x44) && !f.forced && ports.testBit x)
           | _ => true) } } := by
    unfold Chip.liftPorts44 Chip.lift
    dsimp only
    rw [foldl_eq_self]
    · congr 3
      funext f
      cases f.unit <;> simp
    · intro u hu
      obtain ⟨f, hf, rfl⟩ := List.mem_map.1 hu
      have hf := (List.mem_filter.1 hf).2
      cases hu : f.unit with
      | port x =>
        have hx : c.serving x = false := h x (List.mem_range.2 x.isLt)
        show Chip.portServed _ x.val = _
        unfold Chip.portServed
        rw [if_neg]
        rw [Bool.and_eq_true, not_and]
        exact fun hs => absurd (hx.symm.trans hs) Bool.false_ne_true
      | _ => rw [hu] at hf; cases hf
  rw [hlift]
  exact (Change.Of.refl c).set_ash _ rfl

end Commands

end Sys2Proof.Machine
end

section
/-! The warm reset itself (R10, R11, R112, R291, R390, R414): what it keeps, clears and lifts on a device without Cinder work. -/

namespace Sys2Proof.Machine

/-! ## The units -/

section Units

variable {c : Chip}

theorem Chip.get_keepRegs (c : Chip) (p : Key → Bool) (f : Fld) (i : Nat) :
    (c.keepRegs p).get f i = if p ⟨f, i⟩ = true then c.get f i else f.resetAt i := by
  have hf := tabFind_filter p c.regs ⟨f, i⟩
  unfold Chip.get Chip.keepRegs
  unfold tabGet
  dsimp only
  rw [hf]
  split <;> rfl

/-- The slots below a bound start anew. -/
theorem Chip.restartSlots_eq (c : Chip) (n : Nat) :
    ∃ t, c.forN n (fun c n => c.modSlot n SlotX.restarted) = { c with slots := t }
      ∧ ∀ m, ({ c with slots := t } : Chip).slot m = if m < n then (c.slot m).restarted else c.slot m := by
  induction n with
  | zero => exact ⟨c.slots, rfl, fun m => (if_neg (Nat.not_lt_zero m)).symm⟩
  | succ n ih =>
    obtain ⟨t, he, hslot⟩ := ih
    rw [Chip.forN_succ, he, Chip.modSlot_eq]
    refine ⟨_, rfl, fun m => ?_⟩
    show (({ c with slots := t } : Chip).setSlot n _).slot m = _
    by_cases hm : m = n
    · subst hm
      rw [Chip.slot_setSlot_self, hslot, if_neg (Nat.lt_irrefl m), if_pos (Nat.lt_succ_self m)]
    · have hlt : m < n + 1 ↔ m < n := by omega
      rw [Chip.slot_setSlot_ne _ _ _ _ hm, hslot]
      simp only [hlt]

/-- What the units hold after a warm reset, with the slots of the table given. -/
def Chip.unitsWarm (c : Chip) (t : List (Nat × SlotX)) : Chip :=
  { c with
    slots := t, rings := [], entries := [], stack := StackX.init, sess := [], cord := { c.cord with esTest := true }, ctxs := [],
    ember := EmberX.init, dmp := { c.dmp with reqs := [], grants := [] }, blanked := [],
    kln := { c.kln with
      img := none, ovls := [], job := none, heldRings := [], heldSlots := [], removals := [], baseOn := false, nonce := none,
      xfer := none, mbx := WinX.init } }

theorem Chip.warmUnits_eq (h : c.dmp.grants = []) :
    ∃ t, c.warmUnits = c.unitsWarm t ∧ ∀ m, (c.unitsWarm t).slot m = if m < 64 then (c.slot m).restarted else c.slot m := by
  obtain ⟨t, he, hslot⟩ := c.restartSlots_eq 64
  refine ⟨t, ?_, hslot⟩
  unfold Chip.warmUnits
  dsimp only
  rw [he]
  dsimp only
  rw [h]
  rfl

/-- A chip with another table of registers. -/
def Chip.regsSet (c : Chip) (t : List (Key × Nat)) : Chip := { c with regs := t }

/-- Flags set for each of a list of instances. -/
theorem Chip.foldl_flag_eq (c : Chip) (f : Fld) (hw : f.width ≠ 0) (l : List Nat) :
    ∃ t, l.foldl (fun c x => c.flag f x true) c = c.regsSet t
      ∧ ∀ g i, (c.regsSet t).get g i = if g = f ∧ i ∈ l then 1 else c.get g i := by
  have h1 : 1 % 2 ^ f.width = 1 := Nat.mod_eq_of_lt (Nat.one_lt_two_pow hw)
  induction l generalizing c with
  | nil => exact ⟨c.regs, rfl, fun g i => (if_neg (by simp)).symm⟩
  | cons x l ih =>
    obtain ⟨t, he, hget⟩ := ih (c.flag f x true)
    refine ⟨t, he, fun g i => (hget g i).trans ?_⟩
    rw [Chip.flag, Chip.get_put, Bool.toNat_true, h1]
    by_cases hg : g = f <;> by_cases hx : i = x <;> by_cases hl : i ∈ l <;> simp [hg, hx, hl]

end Units

/-! ## What goes on once every slot is inactive -/

section Proceed

variable {c : Chip} {t : List (Nat × SlotX)}

/-- The chip after a warm reset, but for what is shown of lost ports, ALERT_N, the memories and the image that follows. -/
def Chip.warmBoot (c : Chip) (t : List (Nat × SlotX)) : Chip :=
  { (c.unitsWarm t).keepRegs warmKept with
    ash := { c.ash with
      fences := c.ash.fences.filter c.warmFence, windows := [], pulse := false, fatal := false, drilled := [], safe := false,
      warmPend := false } }

theorem Chip.get_warmBoot (f : Fld) (i : Nat) :
    (c.warmBoot t).get f i = if warmKept ⟨f, i⟩ = true then c.get f i else f.resetAt i :=
  (c.unitsWarm t).get_keepRegs warmKept f i

/-- HOLD is no field that a warm reset keeps: ALERT_N is released. -/
theorem Chip.alertLow_warmBoot : (c.warmBoot t).alertLow = false := by
  have hold : (c.warmBoot t).get ASH_PIN_CTL.HOLD 0 = 0 := by
    rw [Chip.get_warmBoot, if_neg (by decide)]
    decide
  unfold Chip.alertLow Chip.on
  rw [hold]
  rfl

/-- The chip after a warm reset with ALERT_N as it then is. -/
def Chip.warmBooted (c : Chip) (t : List (Nat × SlotX)) : Chip :=
  { c.warmBoot t with out := c.out ++ (if c.alertLow = true then [.alertN false] else []) }

theorem Chip.withAlert_warmBoot {f : Chip → Chip} (hf : f c = c.warmBoot t) : c.withAlert f = c.warmBooted t := by
  unfold Chip.withAlert
  dsimp only
  rw [hf, Chip.alertLow_warmBoot, Chip.warmBooted]
  cases c.alertLow with
  | true => rfl
  | false =>
    rw [if_pos rfl, if_neg Bool.false_ne_true, List.append_nil]
    rfl

/-- The ports that are lost and do not serve. -/
abbrev Chip.StaysLost (c : Chip) (x : Nat) : Prop := x < 2 ∧ c.on FLU_PORT_STAT.LOST x = true ∧ c.serving x = false

/-- What a field reads as after a warm reset. -/
def Chip.warmReg (c : Chip) (f : Fld) (i : Nat) : Nat :=
  if f = FLU_PORT_STAT.LOST ∧ c.StaysLost i then 1 else if warmKept ⟨f, i⟩ = true then c.get f i else f.resetAt i

/-- Whether the selection of a base image follows (R414). -/
abbrev Chip.Selects (c : Chip) : Prop :=
  (c.seqState = sqWAITIMAGE ∨ c.seqState = sqPLAN ∨ c.seqState = sqRUNNING) ∧ c.lcRuns = true

/-- The registers that say whether a selection follows stay. -/
theorem Chip.selects_congr {c' : Chip} (hr : ∀ f i, c'.get f i = c.warmReg f i) (hk : c'.kln.locked = c.kln.locked) : c'.Selects ↔ c.Selects := by
  have hseq : c'.seqState = c.seqState := (hr _ _).trans (by
    unfold Chip.warmReg
    rw [if_neg (by simp), if_pos (by decide)]
    rfl)
  have hword : c'.get KLN_LC_WORD.VALUE 0 = c.get KLN_LC_WORD.VALUE 0 := (hr _ _).trans (by
    unfold Chip.warmReg
    rw [if_neg (by simp), if_pos (by decide)])
  unfold Chip.Selects Chip.lcRuns Chip.lcState
  rw [hseq, hword, hk]

/-- The last steps of a warm reset: Kiln, the memories of Ember, and the image that follows. -/
def Chip.warmTail (c : Chip) : Chip :=
  let c := if c.get KLN_LC_STAT.PHASE 0 = 1 then c.lcDrop else c
  let c := (c.mem (.wipeOp 0 0x10000)).mem (.wipeList 0 0x8000)
  if (c.seqState = sqWAITIMAGE ∨ c.seqState = sqPLAN ∨ c.seqState = sqRUNNING) ∧ c.lcRuns then
    { c with kln := { c.kln with img := some ⟨.select, []⟩ } }
  else c

theorem Chip.warmTail_eq (h : c.get KLN_LC_STAT.PHASE 0 ≠ 1) :
    c.warmTail = { c with
      memq := c.memq ++ [.wipeOp 0 0x10000, .wipeList 0 0x8000],
      kln := { c.kln with img := if c.Selects then some ⟨.select, []⟩ else c.kln.img } } := by
  have hmem : (c.mem (.wipeOp 0 0x10000)).mem (.wipeList 0 0x8000)
      = { c with memq := c.memq ++ [.wipeOp 0 0x10000, .wipeList 0 0x8000] } := by
    unfold Chip.mem
    simp
  unfold Chip.warmTail
  rw [if_neg h]
  dsimp only
  rw [hmem]
  by_cases hs : c.Selects
  · rw [if_pos hs]
    exact if_pos hs
  · rw [if_neg hs]
    exact if_neg hs

/-- The steps of a warm reset that proceeds without a margin, with PD16 on. -/
theorem Chip.warmGo_stages {c1 : Chip} (hp : c.ash.warmPend = true) (hin : c.allInactive = true) (hb : c.pmb.bel.phase = .none)
    (hd : c.domUp 16 = true) (h1 : c.zeroStore 3 = c1) :
    c.warmGo = (((List.range 2).filter (fun x => c1.on FLU_PORT_STAT.LOST x && !c1.serving x)).foldl
      (fun c x => c.flag FLU_PORT_STAT.LOST x true) (c1.withAlert (fun c => { c.warmUnits.keepRegs warmKept with
        ash := { (c.warmUnits.keepRegs warmKept).ash with
          fences := (c.warmUnits.keepRegs warmKept).ash.fences.filter c1.warmFence, windows := [], pulse := false, fatal := false,
          drilled := [], safe := false, warmPend := false } }))).warmTail := by
  have habort : c.bellowsAbort 8 = c := if_pos hb
  unfold Chip.warmGo
  rw [hp, hin, if_neg (by decide), habort]
  dsimp only
  rw [if_pos hd, h1]
  rfl

/-- The chip after a warm reset, with its tables of slots and registers and the image work that follows. -/
def Chip.warmDone (c : Chip) (t : List (Nat × SlotX)) (R : List (Key × Nat)) (img : Option ImgJob) : Chip :=
  { (c.warmBooted t).regsSet R with
    memq := c.memq ++ [.wipeOp 0 0x10000, .wipeList 0 0x8000], kln := { (c.unitsWarm t).kln with img := img } }

/-- A warm reset that proceeds, its key store zeroised in `c1` (R112, R291). -/
theorem Chip.warmGo_eq {c1 : Chip} (hp : c.ash.warmPend = true) (hin : c.allInactive = true) (hb : c.pmb.bel.phase = .none)
    (hd : c.domUp 16 = true) (h1 : c.zeroStore 3 = c1) (hg : c1.dmp.grants = []) (hph : c1.get KLN_LC_STAT.PHASE 0 = 0) :
    ∃ t R img, c.warmGo = c1.warmDone t R img ∧ img = (if c1.Selects then some ⟨.select, []⟩ else none)
      ∧ (∀ m, (c1.unitsWarm t).slot m = if m < 64 then (c1.slot m).restarted else c1.slot m)
      ∧ ∀ f i, ((c1.warmBooted t).regsSet R).get f i = c1.warmReg f i := by
  obtain ⟨t, hunits, hslot⟩ := Chip.warmUnits_eq hg
  have halert := Chip.withAlert_warmBoot (c := c1) (t := t)
    (f := fun c => { c.warmUnits.keepRegs warmKept with
      ash := { (c.warmUnits.keepRegs warmKept).ash with
        fences := (c.warmUnits.keepRegs warmKept).ash.fences.filter c1.warmFence, windows := [], pulse := false, fatal := false,
        drilled := [], safe := false, warmPend := false } }) (by dsimp only; rw [hunits]; rfl)
  obtain ⟨R, hlost, hget⟩ := Chip.foldl_flag_eq (c1.warmBooted t) FLU_PORT_STAT.LOST (by decide)
    ((List.range 2).filter (fun x => c1.on FLU_PORT_STAT.LOST x && !c1.serving x))
  have hreg : ∀ f i, ((c1.warmBooted t).regsSet R).get f i = c1.warmReg f i := fun f i => by
    refine (hget f i).trans ?_
    unfold Chip.warmReg Chip.StaysLost
    simp only [List.mem_filter, List.mem_range, Bool.and_eq_true, Bool.not_eq_true']
    congr 1
    exact Chip.get_warmBoot f i
  have hphase : ((c1.warmBooted t).regsSet R).get KLN_LC_STAT.PHASE 0 ≠ 1 := by
    rw [hreg, Chip.warmReg, if_neg (by simp), hph]
    decide
  refine ⟨t, R, _, ?_, rfl, hslot, hreg⟩
  rw [Chip.warmGo_stages hp hin hb hd h1, halert, hlost, Chip.warmTail_eq hphase]
  have hsel : ((c1.warmBooted t).regsSet R).Selects ↔ c1.Selects := c1.selects_congr hreg rfl
  simp only [hsel]
  rfl

/-- A warm reset does not proceed. -/
theorem Chip.warmGo_waits (h : c.ash.warmPend = false ∨ c.allInactive = false) : c.warmGo = c := by
  unfold Chip.warmGo
  rw [if_pos]
  obtain h | h := h <;> simp [h]

theorem Chip.allInactive_of (h : ∀ n ∈ List.range 64, c.Inactive n) : c.allInactive = true :=
  List.all_eq_true.2 (fun n hn => by simpa using h n hn)

end Proceed

/-! ## What a warm reset reads of the chip whose key store is zeroised -/

section Wiped

variable {c c1 : Chip} (h : (storeWiped c 3).Of c c1)
include h

/-- Registers other than those of the key store. -/
theorem get_of_wiped {f : Fld} (hf : f.reg ∉ wipedRegs) (i : Nat) : c1.get f i = c.get f i :=
  (h.reg f i).trans (storeWiped_reg hf i)

theorem on_of_wiped {f : Fld} (hf : f.reg ∉ wipedRegs) (i : Nat) : c1.on f i = c.on f i := by
  unfold Chip.on
  rw [get_of_wiped h hf]

theorem serving_of_wiped (x : Nat) : c1.serving x = c.serving x := by
  unfold Chip.serving Chip.domUp Chip.bit
  rw [get_of_wiped h (by decide), on_of_wiped h (by decide), get_of_wiped h (f := FLU_HP_STAT.DSTATE) (by decide),
    on_of_wiped h (f := FLU_HP_STAT.BME) (by decide), on_of_wiped h (f := FLU_HP_STAT.MSE) (by decide)]

theorem warmReg_of_wiped (f : Fld) (i : Nat) :
    c1.warmReg f i = if f = FLU_PORT_STAT.LOST ∧ i < 2 ∧ c.on FLU_PORT_STAT.LOST i = true ∧ c.serving i = false then 1
      else if warmKept ⟨f, i⟩ = true then (storeWiped c 3).reg c f i else f.resetAt i := by
  unfold Chip.warmReg Chip.StaysLost
  rw [on_of_wiped h (by decide), serving_of_wiped h, h.reg]

theorem warmFence_of_wiped : c1.warmFence = c.warmFence := by
  have hmode : c1.modeApplied 4 = c.modeApplied 4 := by
    unfold Chip.modeApplied
    simp only [get_of_wiped h (f := KLN_OVL_STAT.STATE) (by decide), get_of_wiped h (f := KLN_OVL_STAT.MODE) (by decide)]
  have hslot : ∀ n, c1.slot n = c.slot n := h.slot
  funext f
  unfold Chip.warmFence
  simp only [hmode, hslot]

theorem selects_of_wiped : c1.Selects ↔ c.Selects := by
  have hkln : c1.kln = c.kln := h.kln
  unfold Chip.Selects Chip.seqState Chip.lcRuns Chip.lcState
  rw [hkln, get_of_wiped h (f := DRG_SEQ_STAT.STATE) (by decide), get_of_wiped h (f := KLN_LC_WORD.VALUE) (by decide)]

theorem alertLow_of_wiped : c1.alertLow = c.alertLow := by
  have hash := h.ash
  unfold Chip.alertLow
  rw [on_of_wiped h (by decide), hash]
  rfl

end Wiped

/-! ## The statement -/

/-- Settles O43: a command starts a reset or is discarded, and a reset that proceeds zeroises the key store and then starts the units
anew. -/
theorem ashCommandsAndWarmReset : Obligations.AshCommandsAndWarmReset := by
  unfold Obligations.AshCommandsAndWarmReset
  refine ⟨fun p key s hs hserved => ⟨?_, ?_, ?_, ?_, ?_, ?_⟩, fun s hs hw => ?_, ?_⟩
  · rintro i hk (rfl | rfl)
    · exact Effect.warm hs (((Change.Of.refl s.chip).raise 0x1C 2 0 false).eq (Chip.ashCmd_wrong hserved hk))
    · exact Effect.liftPort hs (((Change.Of.refl s.chip).raise 0x1C 2 0 false).eq (Chip.ashCmd_wrong hserved hk))
  · intro hk ht
    refine Effect.warm hs (((Change.Of.refl s.chip).raise 0x1C 2 0 false).eq ?_)
    rw [Chip.ashCmd_key hserved hk, Chip.warmCmd_tamper ht]
    rfl
  · intro hk ht hl hph
    refine Effect.warm hs ((Change.Of.refl s.chip).eq ?_)
    rw [Chip.ashCmd_key hserved hk, Chip.warmCmd_late ht hl hph]
  · intro hk ht hl hin
    refine Effect.warm hs ((Change.Of.warmPending s.chip).eq ?_)
    rw [Chip.ashCmd_key hserved hk, Chip.warmCmd_starts ht hl, Chip.warmStart_inactive hin]
  · intro n hk ht hl hst1 hst2 hb hin
    refine Effect.warm hs ?_
    rw [Chip.ashCmd_key hserved hk, Chip.warmCmd_starts ht hl]
    exact Chip.warmStart_one hst1 hst2 hb hin
  · intro ports hk hx
    refine Effect.liftPort hs ?_
    rw [Chip.ashCmd_key hserved hk]
    exact Chip.liftPorts44_of hx
  · exact Effect.of_run rfl hs ((Change.Of.refl s.chip).eq (Chip.warmGo_waits hw))
  · intro s hs hp hin hb hd hno hg hph
    obtain ⟨hw, hstage, hmons⟩ := Chip.storeWiped_of hno (cause := 3) (by decide) (by decide)
    obtain ⟨c1, h1⟩ : ∃ c1, s.chip.zeroStore 3 = c1 := ⟨_, rfl⟩
    rw [h1] at hw hstage hmons
    obtain ⟨t, R, img, he, himg, hslot, hreg⟩ := Chip.warmGo_eq hp (Chip.allInactive_of hin) hb hd h1 (by rw [hw.dmp]; exact hg)
      ((get_of_wiped hw (by decide) 0).trans hph)
    have hq : (c1.warmDone t R img).memq = [.wipeOp 0 0x10000, .wipeList 0 0x8000] := by
      show c1.memq ++ _ = _
      rw [hw.memq, hs]
      rfl
    refine ⟨{ c1.warmDone t R img with memq := [] }, ?_, fun f i => (hreg f i).trans (warmReg_of_wiped hw f i), ?_, ?_, hw.port, ?_⟩
    · show Host.Outcome.next (s.act Chip.warmGo).settle.coldDue = _
      rw [State.act_eq, he, hq]
    · exact fun n => (hslot n).trans (by rw [show c1.slot n = s.chip.slot n from hw.slot n])
    · intro k
      refine (hw.kzOf k).trans ?_
      simp only [storeWiped]
      rw [tabFind_range (fun k => unkeyed (s.chip.kzOf k))]
      split <;> rfl
    · have hcord : c1.cord = { s.chip.cord with drbg := [], drbgReqs := 0 } := hw.cord
      have hdmp : c1.dmp = s.chip.dmp := hw.dmp
      have hkln : c1.kln = s.chip.kln := hw.kln
      have hout : c1.out = s.chip.out ++ [] := hw.out
      have hash : c1.ash = { s.chip.ash with inbox := s.chip.ash.inbox ++ (storeWiped s.chip 3).events } := hw.ash
      refine ⟨rfl, rfl, rfl, rfl, rfl, rfl, ?_, ?_, ?_, ?_, hw.nextUid, hw.nextOrder, hw.seq, hw.pmb, hw.grp, hw.wear, rfl, hstage, hmons,
        hw.base, hw.us, hw.tick, hw.free, rfl, ?_⟩
      · show { c1.cord with esTest := true } = _
        rw [hcord]
      · show { c1.dmp with reqs := [], grants := [] } = _
        rw [hdmp]
      · show { c1.ash with
          fences := c1.ash.fences.filter c1.warmFence, windows := [], pulse := false, fatal := false, drilled := [], safe := false,
          warmPend := false } = _
        rw [warmFence_of_wiped hw, hash]
      · show { c1.kln with
          img := img, ovls := [], job := none, heldRings := [], heldSlots := [], removals := [], baseOn := false, nonce := none,
          xfer := none, mbx := WinX.init } = _
        rw [hkln, himg]
        simp only [selects_of_wiped hw]
      · show c1.out ++ _ = _
        rw [hout, List.append_nil, alertLow_of_wiped hw]

end Sys2Proof.Machine
end

section
/-! Every step keeps the memories in canonical form. -/

namespace Sys2Proof.Machine

/-- Settles O55: what an action or a cold reset does to the memories keeps their form, and every step is a chain of those. -/
theorem memoriesStayCanonical : Obligations.MemoriesStayCanonical := fun _ _ hs h =>
  step_keeps (P := State.MemOk) (fun s f hs => State.act_keeps State.MemOk (fun _ _ h => h) State.applyMem_memOk s f hs)
    (fun s _ => s.coldReset_memOk) (fun _ _ h => h) hs h

end Sys2Proof.Machine
end

section
/-! A block at rest: like an idle one, but with entries that have not reached their legs, and with slots that are live. -/

namespace Sys2Proof.Machine

/-- Nothing in the block goes on by itself, and no cold reset is pending. It may hold entries that neither wait for tokens nor have a
leg in a queue, and live slots whose live bits have been seen. -/
structure Chip.Resting (c : Chip) : Prop where
  finished : c.ember.finished = []
  stokerQ : c.ember.stokerQ = []
  cin : ∀ n, (c.sessOf n).cin = none
  tokens : ∀ k, c.ctxState k ≠ esTOKENS
  queue : ∀ n, (c.slot n).queue = []
  wait : ∀ n, (c.slot n).wait = none
  state : ∀ n, c.slotState n ≠ stNEGOTIATE ∧ c.slotState n ≠ stREADY
  entries : ∀ e ∈ c.entries, e.phase ≠ .tokens ∧ ∀ second, (e.leg second).st ≠ .queued
  grants : c.dmp.grants = []
  live : c.liveMask = c.stack.liveSeen
  lc : c.kln.lc = none
  xfer : c.kln.xfer = none
  ovls : c.kln.ovls = []
  removals : c.kln.removals = []
  mailbox : c.get STK_MBX_STAT.BUSY 0 = 0
  fresh : ∀ k, (c.kzOf k).txCtr < 2 ^ 32 ∧ (c.kzOf k).rxCtr < 2 ^ 32
  coldPend : c.get DRG_SEQ_STAT.COLD_PEND 0 = 0

section Resting

variable {c : Chip} (hr : c.Resting)
include hr

theorem Chip.Resting.fluxWork : c.watchLive.evictRemote.rampAll.recheckTokens = c := by
  have h1 : c.watchLive = c := by simp [Chip.watchLive, hr.live]
  have h2 : c.evictRemote = c := foldl_eq_self _ fun e he => by
    obtain ⟨-, hleg⟩ := hr.entries e he
    simp [hleg]
  have h3 : c.rampAll = c := by simp [Chip.rampAll, hr.grants]
  have h4 : c.entries.filter (fun e => decide (e.phase = .tokens)) = [] :=
    List.filter_eq_nil_iff.2 fun e he => by simpa using (hr.entries e he).1
  rw [h1, h2, h3]
  simp [Chip.recheckTokens, h4]

theorem Chip.Resting.slotWork (n : Nat) :
    (((((if (c.slot n).queue = [] then c else c.evict n).openLane n).dropWait n).repath n).trySend n).kick n = c := by
  rw [if_pos (hr.queue n)]
  have h1 : c.openLane n = c := by simp [Chip.openLane, (hr.state n).1]
  have h2 : c.dropWait n = c := by simp [Chip.dropWait, hr.wait n]
  have h3 : c.repath n = c := by simp [Chip.repath, hr.wait n]
  have h4 : c.trySend n = c := by simp [Chip.trySend, hr.grants]
  have h5 : c.kick n = c := by simp [Chip.kick, Chip.standBack, hr.wait n, Chip.kickN, Chip.slotIdle, (hr.state n).2]
  rw [h1, h2, h3, h4, h5]

theorem Chip.Resting.kilnWork : c.lcIntent.xferStep.challengeStep.watchQuorum.kzWorn.nextRemoval = c := by
  have h1 : c.lcIntent = c := by simp [Chip.lcIntent, hr.lc]
  have h2 : c.xferStep = c := by simp [Chip.xferStep, hr.xfer]
  have h3 : c.challengeStep = c := by simp [Chip.challengeStep, Chip.on, hr.mailbox]
  have h4 : c.watchQuorum = c := by simp [Chip.watchQuorum, hr.ovls]
  have h5 : c.kzWorn = c := foldl_eq_self _ fun k _ => if_neg (by obtain ⟨ht, hc⟩ := hr.fresh k; omega)
  rw [h1, h2, h3, h4, h5]
  simp [Chip.nextRemoval, hr.removals]

/-- A round on a block at rest changes nothing. -/
theorem Chip.Resting.settle1 (env : Env) (rand : Nat → Bool) : c.settle1 env rand = c := by
  unfold Chip.settle1
  have h1 := foldl_eq_self (c := c) (g := fun (c : Chip) n => (c.cinTake n env).cinStep n) (c.sess.map Prod.fst) fun n _ => by
    simp [Chip.cinTake, Chip.cinStep, hr.cin n]
  have h2 : c.identityJob env = c := by simp [Chip.identityJob, hr.lc]
  have h3 := foldl_eq_self (c := c) (g := fun (c : Chip) k => c.jobQueue k (rand k)) (c.ctxs.map Prod.fst) fun k _ => by
    simp [Chip.jobQueue, hr.tokens k]
  have h4 := foldl_eq_self (g := fun (c : Chip) n =>
      (((((if (c.slot n).queue = [] then c else c.evict n).openLane n).dropWait n).repath n).trySend n).kick n)
      (c.slots.map Prod.fst) fun n _ => hr.slotWork n
  simp only [hr.finished, hr.stokerQ, if_true, h1, h2, h3, hr.fluxWork, h4]
  exact hr.kilnWork

end Resting

/-- The memory work that is left is no part of what makes a block rest. -/
theorem Chip.Resting.memq {c : Chip} (hr : c.Resting) (q : List MemOp) : ({ c with memq := q } : Chip).Resting :=
  { hr with }

theorem State.settle_resting {s : State} (hs : s.Still) (hr : s.chip.Resting) : s.settle = s := by
  have h : s.settle1 = s := by
    unfold State.settle1
    rw [State.act_of_still (by rw [hr.settle1]; exact hs), hr.settle1]
  unfold State.settle
  rw [h, h, h, h]

theorem State.coldDue_resting {s : State} (hr : s.chip.Resting) : s.coldDue = s := by
  unfold State.coldDue
  rw [if_neg]
  simp [Chip.on, hr.coldPend]

/-- What a command leaves of a block that its changes bring to rest: the chip with these changes and nothing else. -/
theorem Effect.chip_of_leadsToRest {i : Instr} {s t : State} {d : Change} (he : Effect i s d) (hm : d.mems = [])
    (hr : ∀ c', d.Of s.chip c' → c'.Resting) (ht : exec i s = .next t) :
    ∃ c', d.Of s.chip c' ∧ t.chip = { c' with memq := [] } := by
  obtain ⟨c', ho, hx⟩ := he
  have hr' : ({ c' with memq := [] } : Chip).Resting := (hr c' ho).memq []
  refine ⟨c', ho, ?_⟩
  rw [hm, List.foldl_nil, State.settle_resting rfl hr', State.coldDue_resting hr', ht] at hx
  cases hx
  rfl

/-- An idle block is at rest. -/
theorem Chip.Idle.resting {c : Chip} (hi : c.Idle) : c.Resting :=
  { hi with
    entries := fun e he => by simp [hi.entries] at he
    live := by
      have h : (List.range 16).filter c.domUp = [] := List.filter_eq_nil_iff.2 (fun b hb => by simp [hi.banksOff b hb])
      simp [Chip.liveMask, h, hi.present, hi.liveSeen] }

/-! ## Changes of an idle block -/

/-- Changes that are calm but for entries that have not reached their legs bring an idle block to rest. -/
theorem Chip.Idle.resting_of_entries {c c' : Chip} {d : Change} (hi : c.Idle) (h : d.Of c c')
    (hd : ({ d with entries := none } : Change).Calm)
    (he : ∀ e ∈ c'.entries, e.phase ≠ .tokens ∧ ∀ second, (e.leg second).st ≠ .queued) : c'.Resting := by
  have hi' : ({ c' with entries := c.entries } : Chip).Idle := hi.of_calm hd { h with entries := rfl }
  exact { hi'.resting with entries := he }

/-! ## Changes that keep a block at rest -/

/-- The fields that say which slots are live. -/
def liveFields : List Fld := [DRG_DOM_STAT.UP, HTH_BANK_CFG.SLOT_EN, HTH_BANK_ESTAT.KILL, KLN_DBG_STAT.HELD, FLU_LIVE.LIVE]

theorem Chip.liveMask_congr {c c' : Chip} (hreg : ∀ f ∈ liveFields, ∀ i, c'.get f i = c.get f i)
    (hslot : ∀ n, (c'.slot n).clinker = (c.slot n).clinker) (hsafe : c'.ash.safe = c.ash.safe)
    (hfences : c'.ash.fences = c.ash.fences) (hpresent : c'.ash.present = c.ash.present) (hkln : c'.kln = c.kln)
    (hgrp : c'.grp = c.grp) : c'.liveMask = c.liveMask := by
  have hup : c'.domUp = c.domUp := funext fun k => by
    simp [Chip.domUp, Chip.bit, hreg DRG_DOM_STAT.UP (by simp [liveFields])]
  have hfenced : ∀ n, c'.slotFenced n = c.slotFenced n := fun n => by
    simp [Chip.slotFenced, Chip.slotLine, Chip.killLine, Chip.bankFenced, Chip.bscan, Chip.bit, Chip.on, hslot, hsafe, hfences,
      hreg HTH_BANK_ESTAT.KILL (by simp [liveFields]), hreg KLN_DBG_STAT.HELD (by simp [liveFields])]
  have hlocal : ∀ n, c'.liveLocal n = c.liveLocal n := fun n => by
    simp [Chip.liveLocal, Chip.slotEn, Chip.bit, hup, hfenced, hkln, hreg HTH_BANK_CFG.SLOT_EN (by simp [liveFields])]
  have hlive : c'.live = c.live := funext fun g => by
    simp [Chip.live, Chip.peerOk, Chip.bit, hlocal, hgrp, hpresent, hfences, hreg FLU_LIVE.LIVE (by simp [liveFields])]
  simp only [Chip.liveMask, hup, hlive, hgrp, hpresent]

/-- A change that keeps a block at rest: of the fields above it may set only the state of a slot, and its slots hold no leg. -/
structure Change.Restful (d : Change) (c : Chip) : Prop where
  regs : ∀ e ∈ d.regs, e.1.fld ∈ idleFields ++ liveFields → e.1.fld = HTH_SLOT_STAT.STATE ∧ e.2 ≠ stNEGOTIATE ∧ e.2 ≠ stREADY
  resets : ∀ r ∈ d.resets, ∀ f ∈ idleFields ++ liveFields, r.1 ≠ f.reg
  slots : ∀ e ∈ d.slots, e.2.queue = [] ∧ e.2.wait = none ∧ e.2.clinker = (c.slot e.1).clinker
  grants : (d.dmp.getD c.dmp).grants = []
  sess : d.sess = []
  kz : d.kz = []
  entries : d.entries = none
  ember : d.ember = none
  stack : d.stack = none
  grp : d.grp = none
  kln : d.kln = none
  ash : d.ash = none

/-- What a table lists of a key satisfies what each of its entries does. -/
theorem tabFind_getD_of_forall {κ α : Type} [DecidableEq κ] {P : κ → α → Prop} {t : List (κ × α)} (h : ∀ e ∈ t, P e.1 e.2)
    {k : κ} {a : α} (ha : P k a) : P k ((tabFind t k).getD a) := by
  induction t with
  | nil => exact ha
  | cons e t ih =>
    rw [tabFind]
    split
    · next hk => exact hk ▸ h e (by simp)
    · exact ih fun e he => h e (by simp [he])

theorem Chip.Resting.of_restful {c c' : Chip} {d : Change} (hr : c.Resting) (h : d.Of c c') (hd : d.Restful c) : c'.Resting := by
  have hreg : ∀ f ∈ idleFields ++ liveFields, ∀ i, c'.get f i = (tabFind d.regs ⟨f, i⟩).getD (c.get f i) := fun f hf i => by
    rw [h.reg, Change.reg, if_neg fun hm => hd.resets _ hm f hf rfl]
  have hget : ∀ f ∈ idleFields ++ liveFields, f ≠ HTH_SLOT_STAT.STATE → ∀ i, c'.get f i = c.get f i := fun f hf hs i => by
    rw [hreg f hf, tabFind_eq_none fun e he hk => ?_]
    · rfl
    · exact hs ((congrArg Key.fld hk).symm.trans (hd.regs e he (by rw [hk]; exact hf)).1)
  have hslot : ∀ n, (c'.slot n).queue = [] ∧ (c'.slot n).wait = none ∧ (c'.slot n).clinker = (c.slot n).clinker := fun n => by
    rw [h.slot]
    exact tabFind_getD_of_forall (P := fun n (x : SlotX) => x.queue = [] ∧ x.wait = none ∧ x.clinker = (c.slot n).clinker) hd.slots
      ⟨hr.queue n, hr.wait n, rfl⟩
  have hsess : ∀ n, c'.sessOf n = c.sessOf n := fun n => by rw [h.sessOf, hd.sess]; rfl
  have hkz : ∀ k, c'.kzOf k = c.kzOf k := fun k => by rw [h.kzOf, hd.kz]; rfl
  have hember : c'.ember = c.ember := by rw [h.ember, hd.ember]; rfl
  have hkln : c'.kln = c.kln := by rw [h.kln, hd.kln]; rfl
  have hstack : c'.stack = c.stack := by rw [h.stack, hd.stack]; rfl
  have hash : c'.ash = { c.ash with inbox := c'.ash.inbox } := by rw [h.ash, hd.ash]; rfl
  have hlive : c'.liveMask = c.liveMask :=
    Chip.liveMask_congr (fun f hf => hget f (by simp [hf]) (by rintro rfl; revert hf; decide)) (fun n => (hslot n).2.2)
      (by rw [hash]) (by rw [hash]) (by rw [hash]) hkln (by rw [h.grp, hd.grp]; rfl)
  exact
    { finished := by rw [hember]; exact hr.finished
      stokerQ := by rw [hember]; exact hr.stokerQ
      cin := fun n => by rw [hsess]; exact hr.cin n
      tokens := fun k => by unfold Chip.ctxState; rw [hget _ (by decide) (by decide)]; exact hr.tokens k
      queue := fun n => (hslot n).1
      wait := fun n => (hslot n).2.1
      state := fun n => by
        unfold Chip.slotState
        rw [hreg _ (by decide)]
        exact tabFind_getD_of_forall (P := fun k v => k.fld = HTH_SLOT_STAT.STATE → v ≠ stNEGOTIATE ∧ v ≠ stREADY)
          (fun e he hf => (hd.regs e he (by rw [hf]; decide)).2) (fun _ => hr.state n) rfl
      entries := by rw [h.entries, hd.entries]; exact hr.entries
      grants := by rw [h.dmp]; exact hd.grants
      live := by rw [hlive, hstack]; exact hr.live
      lc := by rw [hkln]; exact hr.lc
      xfer := by rw [hkln]; exact hr.xfer
      ovls := by rw [hkln]; exact hr.ovls
      removals := by rw [hkln]; exact hr.removals
      mailbox := by rw [hget _ (by decide) (by decide)]; exact hr.mailbox
      fresh := fun k => by rw [hkz]; exact hr.fresh k
      coldPend := by rw [hget _ (by decide) (by decide)]; exact hr.coldPend }

end Sys2Proof.Machine
end

section
/-! Statements of the architecture that the model does not meet, each with the state that shows it. -/

namespace Sys2Proof.Machine

/-! ## Registers outside their width -/

/-- A register that says nothing of whether the block is idle may hold any number, one wider than its field too. -/
theorem Chip.Idle.listed {c : Chip} (hi : c.Idle) {f : Fld} (hf : f ∉ idleFields) (i v : Nat) :
    ({ c with regs := (⟨f, i⟩, v) :: c.regs } : Chip).Idle :=
  hi.of_calm (d := { regs := [(⟨f, i⟩, v)] })
    { regs := by simpa using hf
      resets := rfl, slots := rfl, sess := rfl, kz := rfl, entries := rfl, dmp := rfl, ember := rfl, stack := rfl, kln := rfl,
      ash := rfl, mems := rfl }
    { Change.Of.refl c with
      reg := fun g j => by
        simp only [Change.reg, Chip.get, tabGet, tabFind]
        split <;> rfl }

/-! ## O5: the period of a latched slot monitor -/

/-- The registers of the block below, before its bank is on. -/
def latchedSlotRegs : Chip :=
  (((((Chip.init.put HTH_BANK_CFG.SLOT_EN 1 1).put HTH_SLOT_STAT.ACT_PEND 4 1).put HTH_BANK_ESTAT.CAL_OK 1 1).put
    HTH_MON_CFG.LATCH 18 2).put HTH_MON_STAT.STATE 18 1).put HTH_MON_STAT.LATCHED 18 1

theorem latchedSlotRegs_idle : latchedSlotRegs.Idle :=
  (((((Chip.Idle.init.put (by decide) _ _).put (by decide) _ _).put (by decide) _ _).put (by decide) _ _).put (by decide) _ _).put
    (by decide) _ _

/-- Slot 4 of bank 1, which is on and enabled, waits for the inrush budget of its activation, which the damper can grant; its IOMON
latches until the next period and is in alarm. -/
def latchedSlot : State :=
  { State.reset with
    chip :=
      { latchedSlotRegs.put DRG_DOM_STAT.UP 0 (2 ^ 1) with
        kln := { Chip.init.kln with baseOn := true }
        seq := { SeqX.init with cardLock := true }
        stack := { StackX.init with liveSeen := 2 ^ (64 * Chip.init.grp.dev + 4) }
        dmp := { DamperX.init with reqs := [⟨.activation 4, 4, 0, true⟩] } } }

/-- The one slot of the block that is live has been seen so. -/
theorem latchedSlot_resting : latchedSlot.chip.Resting :=
  have hget : ∀ (f : Fld) (i : Nat), f ≠ DRG_DOM_STAT.UP → latchedSlot.chip.get f i = latchedSlotRegs.get f i := fun f i hf => by
    show (latchedSlotRegs.put DRG_DOM_STAT.UP 0 (2 ^ 1)).get f i = _
    exact Chip.get_put_ne _ _ _ _ _ _ (by simp [hf])
  { latchedSlotRegs_idle.resting with
    tokens := fun k => by
      unfold Chip.ctxState; rw [hget _ _ (by decide)]; exact latchedSlotRegs_idle.tokens k
    state := fun n => by
      unfold Chip.slotState; rw [hget _ _ (by decide)]; exact latchedSlotRegs_idle.state n
    live := by decide +kernel
    mailbox := by decide +kernel
    coldPend := by decide +kernel }

/-- Refutes O5: the activation begins a period of every monitor of the slot (R203), and with that clears LATCHED of one that latches
until the next period whether it is in alarm or not; the statement keeps LATCHED of one in alarm. -/
theorem not_activationUpToVcc : ¬ Obligations.ActivationUpToVcc := by
  intro h
  have he := (h.1 4 latchedSlot rfl).1 ⟨.activation 4, 4, 0, true⟩ true (by decide +kernel) (by decide +kernel) (by decide +kernel)
    (by decide +kernel) rfl (by decide +kernel)
  obtain ⟨c', ho, hc⟩ := he.chip_of_leadsToRest rfl (fun _ ho => latchedSlot_resting.of_restful ho
        ⟨by decide +kernel, by decide, by decide +kernel, by decide +kernel, rfl, rfl, rfl, rfl, rfl, rfl, rfl, rfl⟩)
    (t := latchedSlot.run fun c => c.inrushGrant 4) rfl
  have hlatched : (latchedSlot.run fun c => c.inrushGrant 4).chip.get HTH_MON_STAT.LATCHED 18 = 0 := by decide +kernel
  have hreg : c'.get HTH_MON_STAT.LATCHED 18 = 1 := by rw [ho.reg]; decide +kernel
  rw [hc] at hlatched
  exact absurd (hlatched.symm.trans hreg) (by decide)

/-! ## O16: an entry that a revocation has ended -/

/-- PD16 is on, and ring 0 fetches one entry, which arrived before a revocation of the ceremony overlay (R236). -/
def revokedFetch : State :=
  { State.reset with
    chip := { Chip.init.put DRG_DOM_STAT.UP 0 (2 ^ 16) with
      rings := [(0, { RingX.init with fetching := 1, arrivals := [(0, 0)], policy := 1 })] } }

theorem revokedFetch_idle : revokedFetch.chip.Idle :=
  have hi : (Chip.init.put DRG_DOM_STAT.UP 0 (2 ^ 16)).Idle := Chip.Idle.init.domainsOn (by decide +kernel)
  { hi with }

/-- Refutes O16: the entries that arrived before a revocation end with POLICY when they are fetched, and the ring counts down how many
of them there are (R236); the statement has no hypothesis that there are none, and leaves the count as it was. -/
theorem not_entriesUpToTheirLegs : ¬ Obligations.EntriesUpToTheirLegs := by
  intro h
  obtain ⟨hfetch, -, -⟩ := h.1 0 revokedFetch rfl (by decide +kernel)
  have he := hfetch [] (0, 0) rfl rfl (.inl (by decide +kernel))
  obtain ⟨c', ho, hc⟩ := he.chip_of_leadsToRest rfl
    (fun c' ho => revokedFetch_idle.resting_of_entries ho
      ⟨by simp [idleFields], rfl, rfl, rfl, rfl, rfl, rfl, rfl, rfl, rfl, rfl, rfl⟩ (by rw [ho.entries]; decide +kernel))
    (t := revokedFetch.run fun c => c.inCore fun c => c.fetched 0 [[]]) rfl
  have hcount : ((revokedFetch.run fun c => c.inCore fun c => c.fetched 0 [[]]).chip.ring 0).policy = 0 := by decide +kernel
  have hkept : (c'.ring 0).policy = 1 := by rw [ho.ring]; decide +kernel
  rw [hc] at hcount
  exact absurd (hcount.symm.trans hkept) (by decide)

/-! ## O28: the period of a latched rail monitor -/

/-- A device alone in OFF with a power-up pending, whose VCORE monitor latches until the next period and is in alarm. -/
def latchedRail : State :=
  { State.reset with
    chip := ((((Chip.init.put DRG_RAIL_PG.MAIN 0 1).put DRG_SEQ_STAT.UP_PEND 0 1).put DRG_RMON_CFG.LATCH 0 2).put
      DRG_RMON_STAT.STATE 0 1).put DRG_RMON_STAT.LATCHED 0 1 }

theorem latchedRail_idle : latchedRail.chip.Idle :=
  ((((Chip.Idle.init.put (by decide) _ _).put (by decide) _ _).put (by decide) _ _).put (by decide) _ _).put (by decide) _ _

/-- The common start leaves an idle block idle: of Kiln it changes only whether the base image is applied. -/
theorem Chip.Idle.of_coreStarted {c c' : Chip} (hi : c.Idle) (h : (coreStarted c).Of c c') : c'.Idle := by
  have hkln : c'.kln = { c.kln with baseOn := false } := h.kln
  have hcalm : ({ coreStarted c with kln := none } : Change).Calm :=
    ⟨by
      simp only [coreStarted, seqRegs, List.mem_append, List.mem_cons, List.mem_map, List.not_mem_nil, or_false]
      rintro e ((rfl | rfl | rfl) | ⟨r, -, rfl⟩)
      · decide
      · decide
      · decide
      · exact (by decide : DRG_RMON_STAT.LATCHED ∉ idleFields), rfl, rfl, rfl, rfl, rfl, rfl, rfl, rfl, rfl, rfl, rfl⟩
  have hi' : ({ c' with kln := c.kln } : Chip).Idle := hi.of_calm hcalm { h with kln := rfl }
  exact
    { hi' with
      lc := by rw [hkln]; exact hi.lc
      xfer := by rw [hkln]; exact hi.xfer
      ovls := by rw [hkln]; exact hi.ovls
      removals := by rw [hkln]; exact hi.removals }

/-- Refutes O28: the common start begins a period of every rail monitor (R203, R331), and with that clears LATCHED of one that latches
until the next period whether it is in alarm or not; the statement keeps LATCHED of one in alarm. -/
theorem not_powerUp : ¬ Obligations.PowerUp := by
  intro h
  obtain ⟨-, -, hstart, -⟩ := h.1 latchedRail rfl
  have he := hstart (by decide +kernel) (by decide +kernel) (by decide +kernel) (by decide +kernel)
  obtain ⟨c', ho, hc⟩ := he.chip_of_leadsToRest rfl (fun _ ho => (latchedRail_idle.of_coreStarted ho).resting)
    (t := latchedRail.run Chip.coreStart) rfl
  have hlatched : (latchedRail.run Chip.coreStart).chip.get DRG_RMON_STAT.LATCHED 0 = 0 := by decide +kernel
  have hreg : c'.get DRG_RMON_STAT.LATCHED 0 = 1 := by rw [ho.reg]; decide +kernel
  rw [hc] at hlatched
  exact absurd (hlatched.symm.trans hreg) (by decide)

/-! ## O30: a register of UNREACH wider than its field -/

/-- A read has failed three times, UNREACH of its entry is set, and the register holds a bit beyond its 24. -/
def wideUnreach : State :=
  { State.reset with
    chip := { Chip.init with
      regs := [(⟨DRG_PMB_STAT.ENTRY, 0⟩, 2 ^ 24 + 1)]
      pmb := { PmbX.init with txs := [pmbGet 0 0x79 2], fails := 3 } } }

theorem wideUnreach_idle : wideUnreach.chip.Idle := { Chip.Idle.init.listed (by decide) 0 (2 ^ 24 + 1) with }

/-- Refutes O30: where UNREACH of the entry is set already, the fourth failure leaves the register as it is; the statement has it written
again, which loses a bit beyond its width. No write leaves such a bit there, but the statement admits one. -/
theorem not_pmbusAndBellows : ¬ Obligations.PmbusAndBellows := by
  intro h
  have he := (h.2.2.1 0 (pmbGet 0 0x79 2) [] .nack wideUnreach rfl rfl rfl rfl).2 none (by decide +kernel) (.inl rfl) rfl
  obtain ⟨c', ho, hc⟩ := he.chip_of_idle wideUnreach_idle
    ⟨by simp [idleFields], rfl, rfl, rfl, rfl, rfl, rfl, rfl, rfl, rfl, rfl, rfl⟩ (t := wideUnreach.run fun c => c.pmbEnd 0 .nack) rfl
  have hkept : (wideUnreach.run fun c => c.pmbEnd 0 .nack).chip.get DRG_PMB_STAT.ENTRY 0 = 2 ^ 24 + 1 := by decide +kernel
  have hreg : c'.get DRG_PMB_STAT.ENTRY 0 = 1 := by rw [ho.reg]; decide +kernel
  rw [hc] at hkept
  exact absurd (hkept.symm.trans hreg) (by decide)

/-! ## O34: a job of the keying that waits for budget -/

/-- Link 0 has symbol lock, and a job of Cord for its keying waits at the damper. -/
def keyingWaits : State :=
  { State.reset with
    chip := { Chip.init.put DRG_KZ_STAT.SYM_LOCK 0 1 with dmp := { DamperX.init with reqs := [⟨.cordJob 64, 0, 0, false⟩] } } }

theorem keyingWaits_idle : keyingWaits.chip.Idle :=
  have hi : (Chip.init.put DRG_KZ_STAT.SYM_LOCK 0 1).Idle := Chip.Idle.init.put (by decide) 0 1
  { hi with }

/-- The loss of a link leaves an idle block idle: no counter of the link is used up. -/
theorem Chip.Idle.of_linkDown {c c' : Chip} (hi : c.Idle) {k : Nat}
    (h : ((Machine.linkDown c k).plus { regs := [(⟨DRG_KZ_STAT.SYM_LOCK, k⟩, 0)] }).Of c c') : c'.Idle := by
  have hcalm : ({ (Machine.linkDown c k).plus { regs := [(⟨DRG_KZ_STAT.SYM_LOCK, k⟩, 0)] } with kz := [] } : Change).Calm :=
    ⟨by simp [Machine.linkDown, Change.plus, unkeyedRegs, idleFields], rfl, rfl, rfl, rfl, rfl, rfl, rfl, rfl, rfl, rfl, rfl⟩
  have hi' : ({ c' with kz := c.kz } : Chip).Idle := hi.of_calm hcalm { h with kzOf := fun _ => rfl }
  refine { hi' with fresh := fun j => ?_ }
  have hj : c'.kzOf j = if k = j then { KzX.init with fwds := (c.kzOf k).fwds, nextTag := (c.kzOf k).nextTag } else c.kzOf j := by
    rw [h.kzOf]
    show (if k = j then _ else none : Option KzX).getD _ = _
    split <;> rfl
  rw [hj]
  split
  · exact ⟨Nat.two_pow_pos 32, Nat.two_pow_pos 32⟩
  · exact hi.fresh j

/-- Refutes O34: the loss of symbol lock ends the keying of the link (R476), and with that withdraws the budget request of its job at
the damper, which the statement leaves there. -/
theorem not_kuzaganLinks : ¬ Obligations.KuzaganLinks := by
  intro h
  obtain ⟨-, hloss, -⟩ := h 0 0 keyingWaits rfl rfl
  have he := hloss (by decide +kernel)
  obtain ⟨c', ho, hc⟩ := he.chip_of_leadsToRest rfl (fun _ ho => (keyingWaits_idle.of_linkDown ho).resting)
    (t := keyingWaits.run fun c => c.symLoss 0) rfl
  have hgone : (keyingWaits.run fun c => c.symLoss 0).chip.dmp.reqs = [] := by decide +kernel
  have hkept : c'.dmp = keyingWaits.chip.dmp := ho.dmp
  rw [hc] at hgone
  exact absurd ((congrArg DamperX.reqs hkept).symm.trans hgone) (by decide +kernel)

/-! ## O37: a derate level wider than its field -/

/-- The derate level of PD17 holds 9, which two bits cannot hold. -/
def wideDerate : State :=
  { State.reset with chip := { Chip.init with regs := [(⟨DRG_AVS_STAT.DER17, 0⟩, 9)] } }

theorem wideDerate_idle : wideDerate.chip.Idle := Chip.Idle.init.listed (by decide) _ _

/-- Refutes O37: a level that falls is written to its field of two bits, so 9, which no write leaves there but which the
statement admits, falls to 0 and not to the 8 that the statement has. -/
theorem not_avsAndDerating : ¬ Obligations.AvsAndDerating := by
  intro h
  have he := (h.2 0 wideDerate rfl rfl).1 (by decide +kernel)
  obtain ⟨c', ho, hc⟩ := he.chip_of_idle wideDerate_idle
    ⟨by simp [idleFields], rfl, rfl, rfl, rfl, rfl, rfl, rfl, rfl, rfl, rfl, rfl⟩ (t := wideDerate.run fun c => c.derateFall true) rfl
  have hlevel : (wideDerate.run fun c => c.derateFall true).chip.get DRG_AVS_STAT.DER17 0 = 0 := by decide +kernel
  have hreg : c'.get DRG_AVS_STAT.DER17 0 = 8 := by rw [ho.reg]; decide +kernel
  rw [hc] at hlevel
  exact absurd (hlevel.symm.trans hreg) (by decide)

/-! ## O41: the relock of CK_LINK -/

/-- CK_LINK is unlocked, and a transaction waits for the PMBus. -/
def waitingTx : State :=
  { State.reset with
    chip := { Chip.init with seq := { SeqX.init with linkLock := false }, pmb := { PmbX.init with txs := [pmbGet 0 0x79 2] } } }

theorem waitingTx_idle : waitingTx.chip.Idle := { Chip.Idle.init with }

/-- Refutes O41: with the relock of CK_LINK the PMBus master, which runs from CK_LINK, goes on with the transaction that waits (R34),
which the statement leaves off the bus. -/
theorem not_ashTimersAndDetectors : ¬ Obligations.AshTimersAndDetectors := by
  intro h
  obtain ⟨-, -, -, -, -, -, -, -, -, -, -, -, -, he, -⟩ := h waitingTx rfl
  obtain ⟨c', ho, hc⟩ := he.chip_of_idle waitingTx_idle
    ⟨by simp, rfl, rfl, rfl, rfl, rfl, rfl, rfl, rfl, rfl, rfl, rfl⟩ (t := waitingTx.run Chip.linkBack) rfl
  have hsent : (waitingTx.run Chip.linkBack).chip.out ≠ [] := by decide +kernel
  have hout : c'.out = [] := ho.out
  rw [hc] at hsent
  exact hsent hout

end Sys2Proof.Machine
end

section
/-! Samples of a window monitor (R186–R206): what one sample records, what the filter's decision adds, and the STAT word that an event
carries. -/

namespace Sys2Proof.Machine

/-! ## Values that fit their fields -/

/-- A field takes a value that fits it. -/
theorem Change.Of.put_lt {d : Change} {c c' : Chip} (h : d.Of c c') {f : Fld} {v : Nat} (hv : v < 2 ^ f.width) (i : Nat) :
    ({ d with regs := (⟨f, i⟩, v) :: d.regs } : Change).Of c (c'.put f i v) := by
  have hput := h.put f i v
  rw [Change.put, Nat.mod_eq_of_lt hv] at hput
  exact hput

/-- A field of one bit is set or cleared. -/
theorem Change.Of.flag {d : Change} {c c' : Chip} (h : d.Of c c') {f : Fld} (hf : f.width = 1) (i : Nat) (b : Bool) :
    ({ d with regs := (⟨f, i⟩, b.toNat) :: d.regs } : Change).Of c (c'.flag f i b) :=
  h.put_lt (by rw [hf]; exact b.toNat_lt) i

/-! ## The fields of a monitor -/

/-- Status, settings, the regime and the slot's electrical status lie in registers of their own (R206). -/
theorem monReg_apart (m : MonId) : (monReg m).2.1 ≠ (monReg m).1 ∧ (monReg m).2.1 ≠ .HTH_MON_GSTAT
    ∧ (monReg m).1 ≠ .HTH_SLOT_ESTAT ∧ (monReg m).2.1 ≠ .HTH_SLOT_ESTAT := by
  cases m <;> simp [monReg]

/-- The flags of a monitor's status. -/
theorem monStat_flag (m : MonId) {lo : Nat} (hlo : lo ∈ [mSTATE, mLATCHED, mRAWSEEN, mUNDECIDED, mDECIDED]) :
    (monStat m lo).width = 1 := by
  simp only [List.mem_cons, List.not_mem_nil, or_false] at hlo
  obtain rfl | rfl | rfl | rfl | rfl := hlo <;> cases m <;> rfl

theorem SampleClass.code_lt (k : SampleClass) (m : MonId) : k.code < 2 ^ (monStat m mRAW).width := by
  have hw : (monStat m mRAW).width = 2 := by cases m <;> rfl
  rw [hw]
  cases k <;> decide

/-- The fields that a sample of a monitor writes. -/
def sampleFlds (m : MonId) : List Fld := [monStat m mRAWSEEN, HTH_SLOT_ESTAT.PRES_RAW, monStat m mRAW]

/-- Values for the status of a monitor and the unfiltered presence, and for nothing else. -/
def StatusOnly (m : MonId) (l : List (Key × Nat)) : Prop :=
  ∀ e ∈ l, e.1.fld.reg = (monReg m).2.1 ∨ e.1.fld = HTH_SLOT_ESTAT.PRES_RAW

theorem StatusOnly.nil (m : MonId) : StatusOnly m [] := fun _ he => nomatch he

theorem StatusOnly.append {m : MonId} {l l' : List (Key × Nat)} (h : StatusOnly m l) (h' : StatusOnly m l') :
    StatusOnly m (l ++ l') :=
  fun e he => (List.mem_append.1 he).elim (h e) (h' e)

theorem StatusOnly.cons_stat {m : MonId} {l : List (Key × Nat)} (h : StatusOnly m l) (lo i v : Nat) :
    StatusOnly m ((⟨monStat m lo, i⟩, v) :: l) :=
  List.forall_mem_cons.2 ⟨.inl rfl, h⟩

/-- The settings are not among them. -/
theorem StatusOnly.find_setting {m : MonId} {l : List (Key × Nat)} (h : StatusOnly m l) {f : Fld}
    (hf : f.reg = (monReg m).1 ∨ f.reg = .HTH_MON_GSTAT) (i : Nat) : tabFind l ⟨f, i⟩ = none := by
  obtain ⟨h1, h2, h3, -⟩ := monReg_apart m
  refine tabFind_eq_none (fun e he hk => ?_)
  have hk : e.1.fld = f := congrArg Key.fld hk
  obtain hs | hs := h e he
  · rw [hk] at hs
    exact hf.elim (fun hf => h1 (hs.symm.trans hf)) (fun hf => h2 (hs.symm.trans hf))
  · rw [← hk, hs] at hf
    exact hf.elim (fun hf => h3 hf.symm) (fun hf => nomatch hf)

/-- What the unfiltered presence reads as after a sample (R84). -/
def presRegs (m : MonId) (k : SampleClass) : List (Key × Nat) :=
  match m with
  | .pmon n => if k = .band then [] else [(⟨HTH_SLOT_ESTAT.PRES_RAW, n.val⟩, (!k.out).toNat)]
  | _ => []

theorem sampleRegs_eq (c : Chip) (m : MonId) (x : Sample) :
    sampleRegs c m x = (if (c.monClass m x).out = true then [(⟨monStat m mRAWSEEN, monIdx m⟩, 1)] else [])
      ++ presRegs m (c.monClass m x) ++ [(⟨monStat m mRAW, monIdx m⟩, (c.monClass m x).code)] := by
  cases m <;> rfl

theorem presRegs_fld {m : MonId} {k : SampleClass} : ∀ e ∈ presRegs m k, e.1.fld = HTH_SLOT_ESTAT.PRES_RAW := by
  unfold presRegs
  split
  · split <;> simp
  · simp

theorem sampleRegs_fld {c : Chip} {m : MonId} {x : Sample} : ∀ e ∈ sampleRegs c m x, e.1.fld ∈ sampleFlds m := by
  intro e he
  rw [sampleRegs_eq] at he
  simp only [List.mem_append] at he
  obtain (he | he) | he := he
  · split at he
    · rw [List.mem_singleton.1 he]; simp [sampleFlds]
    · cases he
  · rw [presRegs_fld e he]; simp [sampleFlds]
  · rw [List.mem_singleton.1 he]; simp [sampleFlds]

theorem sampleRegs_statusOnly (c : Chip) (m : MonId) (x : Sample) : StatusOnly m (sampleRegs c m x) := by
  intro e he
  have hf := sampleRegs_fld e he
  simp only [sampleFlds, List.mem_cons, List.not_mem_nil, or_false] at hf
  obtain hf | hf | hf := hf
  · exact .inl (by rw [hf]; rfl)
  · exact .inr hf
  · exact .inl (by rw [hf]; rfl)

/-! ## The STAT word of a monitor -/

/-- Registers written one after another read as the last value written, cut to the width. -/
theorem Chip.get_withRegs (c : Chip) (l : List (Key × Nat)) (f : Fld) (i : Nat) :
    (c.withRegs l).get f i = ((tabFind l ⟨f, i⟩).map (· % 2 ^ f.width)).getD (c.get f i) := by
  induction l with
  | nil => rfl
  | cons e l ih =>
    show ((c.withRegs l).put e.1.fld e.1.idx e.2).get f i = _
    rw [Chip.get_put, ih, tabFind]
    by_cases hk : f = e.1.fld ∧ i = e.1.idx
    · obtain ⟨rfl, rfl⟩ := hk
      simp
    · rw [if_neg hk, if_neg (fun he => hk ⟨(congrArg Key.fld he).symm, (congrArg Key.idx he).symm⟩)]

/-- The word of a register holds of each field the bits of its width. -/
theorem Chip.word_congr_mod {c c' : Chip} {r : RegName} {i : Nat}
    (h : ∀ lo, c'.get ⟨r, lo⟩ i % 2 ^ (⟨r, lo⟩ : Fld).width = c.get ⟨r, lo⟩ i % 2 ^ (⟨r, lo⟩ : Fld).width) :
    c'.word r i = c.word r i := by
  unfold Chip.word
  refine foldl_congr (fun w f hf => ?_) 0
  have hw := h f.lo
  rw [Fld.width, Fld.spec_eq hf] at hw
  rw [hw]

/-- The mode in use depends on the monitor's settings and on HTH_MON_GSTAT. -/
theorem Chip.modeEff_congr {c c' : Chip} {m : MonId}
    (h : ∀ f : Fld, f.reg = (monReg m).1 ∨ f.reg = .HTH_MON_GSTAT → ∀ i, c'.get f i = c.get f i) : c'.modeEff m = c.modeEff m := by
  have hg : c'.on HTH_MON_GSTAT.FIXED_M1 0 = c.on HTH_MON_GSTAT.FIXED_M1 0 := by
    unfold Chip.on; rw [h _ (.inr rfl)]
  have hm : c'.get (monCfg m mMODE) (monIdx m) = c.get (monCfg m mMODE) (monIdx m) := h _ (.inl rfl) _
  cases m <;> simp only [Chip.modeEff, hg, hm]

/-- After changes of its status alone a monitor's STAT word is that of the values written (R396). -/
theorem Change.Of.monWord {d : Change} {c c' : Chip} {m : MonId} (h : d.Of c c') (hr : d.resets = []) (hd : StatusOnly m d.regs) :
    c'.monWord m = (c.withRegs d.regs).monWord m := by
  have hreg : ∀ f i, c'.get f i = (tabFind d.regs ⟨f, i⟩).getD (c.get f i) := fun f i => by
    rw [h.reg, Change.reg, hr]; rfl
  have hword : c'.word (monReg m).2.1 (monIdx m) = (c.withRegs d.regs).word (monReg m).2.1 (monIdx m) :=
    Chip.word_congr_mod (fun lo => by
      rw [hreg, Chip.get_withRegs]
      cases tabFind d.regs (⟨⟨(monReg m).2.1, lo⟩, monIdx m⟩ : Key) <;> simp)
  have hmode : c'.modeEff m = (c.withRegs d.regs).modeEff m := Chip.modeEff_congr (fun f hf i => by
    rw [hreg, Chip.get_withRegs, hd.find_setting hf]; rfl)
  unfold Chip.monWord
  rw [hword, hmode]

/-! ## One sample -/

theorem Change.Of.presRaw {d : Change} {c c' : Chip} (h : d.Of c c') (m : MonId) (k : SampleClass) :
    ({ d with regs := presRegs m k ++ d.regs } : Change).Of c (c'.presRaw m k) := by
  cases m with
  | pmon n =>
    unfold Chip.presRaw presRegs
    dsimp only
    split
    · exact h
    · exact h.flag rfl _ _
  | _ => exact h

/-- An excursion is seen, and a rail monitor with glitch notices sends its event (R204). -/
theorem Change.Of.rawTrip {d : Change} {c c' : Chip} {m : MonId} (h : d.Of c c') (hr : d.resets = []) (hd : StatusOnly m d.regs) :
    ({ d with
        regs := (⟨monStat m mRAWSEEN, monIdx m⟩, 1) :: d.regs
        events := d.events ++ glitchEvents c m ((⟨monStat m mRAWSEEN, monIdx m⟩, 1) :: d.regs) } : Change).Of c (c'.rawTrip m) := by
  have hseen := h.flag (monStat_flag m (lo := mRAWSEEN) (by simp)) (monIdx m) true
  cases m with
  | rmon r =>
    have hglitch : (c'.flag (monStat (.rmon r) mRAWSEEN) (monIdx (.rmon r)) true).on (monCfg (.rmon r) mGLITCH) (monIdx (.rmon r))
        = c.on (monCfg (.rmon r) mGLITCH) (monIdx (.rmon r)) := by
      unfold Chip.on
      rw [hseen.reg, Change.reg, (hd.cons_stat mRAWSEEN _ _).find_setting (.inl rfl), hr]; rfl
    have hword := hseen.monWord hr (hd.cons_stat mRAWSEEN _ 1)
    unfold Chip.rawTrip glitchEvents
    dsimp only
    rw [hglitch, hword]
    split
    · exact hseen.raise _ _ _ _
    · rw [List.append_nil]; exact hseen
  | _ => simp only [glitchEvents, List.append_nil]; exact hseen

/-- The chip once a monitor has taken a sample and before its filter speaks (R187, R192, R204). -/
def Chip.takeSample (c : Chip) (m : MonId) (x : Sample) : Chip :=
  let k := c.monClass m x
  let c' := ((c.setMonHist m (c.sampled m x)).put (monStat m mRAW) (monIdx m) k.code).presRaw m k
  if k.out && decide (c.get (monStat m mRAW) (monIdx m) < 2) then c'.rawTrip m
  else if k.out then c'.flag (monStat m mRAWSEEN) (monIdx m) true else c'

/-- A sample makes the changes of `sampleTaken`. -/
theorem Chip.takeSample_of (c : Chip) (m : MonId) (x : Sample) : (sampleTaken c m x).Of c (c.takeSample m x) := by
  have hraw := ((((Change.Of.refl c).setMonHist m (c.sampled m x)).put_lt ((c.monClass m x).code_lt m) (monIdx m)).presRaw m
    (c.monClass m x))
  have hstatus : StatusOnly m (presRegs m (c.monClass m x) ++ [(⟨monStat m mRAW, monIdx m⟩, (c.monClass m x).code)]) :=
    StatusOnly.append (fun e he => .inr (presRegs_fld e he)) ((StatusOnly.nil m).cons_stat _ _ _)
  unfold Chip.takeSample sampleTaken
  rw [sampleRegs_eq]
  dsimp only
  cases hout : (c.monClass m x).out with
  | false => simpa using hraw
  | true =>
    by_cases hfresh : c.get (monStat m mRAW) (monIdx m) < 2
    · simpa [hfresh] using hraw.rawTrip rfl hstatus
    · simpa [hfresh] using hraw.flag (monStat_flag m (lo := mRAWSEEN) (by simp)) (monIdx m) true

/-- A sample leaves the fields that it does not write. -/
theorem Chip.get_takeSample {c : Chip} {m : MonId} {x : Sample} {f : Fld} (hf : f ∉ sampleFlds m) (i : Nat) :
    (c.takeSample m x).get f i = c.get f i := by
  rw [(c.takeSample_of m x).reg]
  exact Change.reg_of_ne rfl (fun e he hk => hf (by rw [← hk]; exact sampleRegs_fld e he)) i

theorem monCfg_notMem_sampleFlds (m : MonId) (lo : Nat) : monCfg m lo ∉ sampleFlds m := by
  obtain ⟨h, -, hp, -⟩ := monReg_apart m
  simp [sampleFlds, monCfg, monStat, h.symm, hp]

theorem monStat_notMem_sampleFlds (m : MonId) {lo : Nat} (h1 : lo ≠ mRAWSEEN) (h2 : lo ≠ mRAW) : monStat m lo ∉ sampleFlds m := by
  obtain ⟨-, -, -, hp⟩ := monReg_apart m
  simp [sampleFlds, monStat, hp, h1, h2]

/-- A monitor that is blanked or has no power takes no sample (R186, R196). -/
theorem Chip.monSample_deaf {c : Chip} {m : MonId} (x : Sample) (h : c.monUp m = false ∨ c.blanked.contains m = true) :
    c.monSample m x = (c, none) := by
  unfold Chip.monSample
  rw [if_pos]
  obtain h | h := h
  · rw [h]; rfl
  · rw [h, Bool.or_true]

theorem Chip.monSample_silent {c : Chip} {m : MonId} {x : Sample} (h : c.Says m x none) :
    c.monSample m x = (c.takeSample m x, none) := by
  obtain ⟨hup, hbl, hsays⟩ := h
  have hfilter : filterSays ((c.takeSample m x).get (monCfg m mNEED) (monIdx m)) (c.sampled m x) = none := by
    rw [Chip.get_takeSample (monCfg_notMem_sampleFlds m _), hsays]
  unfold Chip.takeSample Chip.sampled at hfilter
  unfold Chip.monSample Chip.takeSample Chip.sampled
  simp only [hup, hbl, Bool.not_true, Bool.or_self, Bool.false_eq_true, if_false]
  rw [hfilter]

theorem Chip.monSample_says {c : Chip} {m : MonId} {x : Sample} {alarm : Bool} (h : c.Says m x (some alarm)) :
    c.monSample m x = (c.takeSample m x).monDecide m alarm := by
  obtain ⟨hup, hbl, hsays⟩ := h
  have hfilter : filterSays ((c.takeSample m x).get (monCfg m mNEED) (monIdx m)) (c.sampled m x) = some alarm := by
    rw [Chip.get_takeSample (monCfg_notMem_sampleFlds m _), hsays]
  unfold Chip.takeSample Chip.sampled at hfilter
  unfold Chip.monSample Chip.takeSample Chip.sampled
  simp only [hup, hbl, Bool.not_true, Bool.or_self, Bool.false_eq_true, if_false]
  rw [hfilter]

end Sys2Proof.Machine
end

section
/-! What the filter of a monitor decides (R192, R197, R200, R203), and the statement of the monitors' records. -/

namespace Sys2Proof.Machine

/-! ## Decisions of the filter -/

/-- The chip once a monitor's filter has decided, before its filtered state moves (R197, R198). -/
def Chip.decided (c : Chip) (m : MonId) : Chip :=
  (c.flag (monStat m mDECIDED) (monIdx m) true).flag (monStat m mUNDECIDED) (monIdx m) false

theorem Change.Of.decided {d : Change} {c c' : Chip} (h : d.Of c c') (m : MonId) :
    ({ d with regs := decidedRegs m ++ d.regs } : Change).Of c (c'.decided m) :=
  (h.flag (monStat_flag m (lo := mDECIDED) (by simp)) (monIdx m) true).flag (monStat_flag m (lo := mUNDECIDED) (by simp)) (monIdx m)
    false

theorem decidedRegs_statusOnly (m : MonId) : StatusOnly m (decidedRegs m) :=
  ((StatusOnly.nil m).cons_stat _ _ _).cons_stat _ _ _

/-- A decision leaves the rest of the status word, and everything else. -/
theorem Chip.get_decided {c : Chip} {m : MonId} {f : Fld} (h1 : f ≠ monStat m mDECIDED) (h2 : f ≠ monStat m mUNDECIDED) (i : Nat) :
    (c.decided m).get f i = c.get f i := by
  simp [Chip.decided, Chip.get_put, h1, h2]

theorem monStat_inj {m : MonId} {a b : Nat} : monStat m a = monStat m b ↔ a = b := by simp [monStat]

theorem monCfg_ne_monStat (m : MonId) (a b : Nat) : monCfg m a ≠ monStat m b := by
  simp [monCfg, monStat, (monReg_apart m).1.symm]

theorem Chip.monAlarm_decided (c : Chip) (m : MonId) : (c.decided m).monAlarm m = c.monAlarm m := by
  unfold Chip.monAlarm Chip.on
  rw [Chip.get_decided] <;> simp [monStat_inj, mSTATE, mDECIDED, mUNDECIDED]

theorem Chip.monAlarm_takeSample (c : Chip) (m : MonId) (x : Sample) : (c.takeSample m x).monAlarm m = c.monAlarm m := by
  unfold Chip.monAlarm Chip.on
  rw [Chip.get_takeSample (monStat_notMem_sampleFlds m (by decide) (by decide))]

/-- The filter confirms the filtered state. -/
theorem Chip.monDecide_confirms {c : Chip} {m : MonId} {alarm : Bool} (h : c.monAlarm m = alarm) :
    c.monDecide m alarm = (c.decided m, none) :=
  if_pos ((c.monAlarm_decided m).trans h)

/-- It moves the filtered state. -/
theorem Chip.monDecide_moves {c : Chip} {m : MonId} {alarm : Bool} (h : c.monAlarm m ≠ alarm) :
    c.monDecide m alarm = (if alarm then (c.decided m).monTrip m else (c.decided m).monGood m, some alarm) :=
  if_neg (fun he => h ((c.monAlarm_decided m).symm.trans he))

/-! ## A move to the good side -/

/-- The chip after a move to the good side, before the insertion goes to Ash. -/
def Chip.goodSide (c : Chip) (m : MonId) : Chip :=
  let c := (c.decided m).flag (monStat m mSTATE) (monIdx m) false
  if c.get (monCfg m mLATCH) (monIdx m) = 0 then c.flag (monStat m mLATCHED) (monIdx m) false else c

theorem Chip.goodSide_of (c : Chip) (m : MonId) : ({ regs := goodRegs c m } : Change).Of c (c.goodSide m) := by
  have hstate := ((Change.Of.refl c).decided m).flag (monStat_flag m (lo := mSTATE) (by simp)) (monIdx m) false
  have hlatch : ((c.decided m).flag (monStat m mSTATE) (monIdx m) false).get (monCfg m mLATCH) (monIdx m)
      = c.get (monCfg m mLATCH) (monIdx m) := by
    rw [Chip.flag, Chip.get_put, if_neg (fun he => monCfg_ne_monStat m _ _ he.1),
      Chip.get_decided (monCfg_ne_monStat m _ _) (monCfg_ne_monStat m _ _)]
  unfold Chip.goodSide goodRegs
  dsimp only
  rw [hlatch]
  split
  · exact hstate.flag (monStat_flag m (lo := mLATCHED) (by simp)) (monIdx m) false
  · exact hstate

theorem goodRegs_statusOnly (c : Chip) (m : MonId) : StatusOnly m (goodRegs c m) := by
  unfold goodRegs
  refine (StatusOnly.append ?_ ((StatusOnly.nil m).cons_stat _ _ _)).append (decidedRegs_statusOnly m)
  split
  · exact (StatusOnly.nil m).cons_stat _ _ _
  · exact StatusOnly.nil m

theorem goodRegs_takeSample (c : Chip) (m : MonId) (x : Sample) : goodRegs (c.takeSample m x) m = goodRegs c m := by
  unfold goodRegs
  rw [Chip.get_takeSample (monCfg_notMem_sampleFlds m _)]

/-- A monitor other than PMON sends nothing. -/
theorem Chip.monGood_silent {c : Chip} {m : MonId} (h : ∀ n, m ≠ .pmon n) : (c.decided m).monGood m = c.goodSide m := by
  cases m with
  | pmon n => exact absurd rfl (h n)
  | _ => rfl

/-- A rise of PRES goes to Ash with the STAT word (R379). -/
theorem Chip.monGood_pmon (c : Chip) (n : Fin 4) :
    (c.decided (.pmon n)).monGood (.pmon n) = (c.goodSide (.pmon n)).raise 0x13 n.val ((c.goodSide (.pmon n)).monWord (.pmon n)) :=
  rfl

/-! ## Where commands reach -/

/-- A write of a path that is served acts where the register has power. -/
theorem Chip.hostWrite_taken {c : Chip} {p : Path} {blk : Nat} {up : Bool} (h : c.served p blk true false = true) (hup : up = true)
    (f : Chip → Chip) : c.hostWrite p blk up f = f c := by
  simp [Chip.hostWrite, h, hup]

/-- What happens at a slot is seen where its bank domain is on. -/
theorem Chip.atSlot_up {c : Chip} {n : Nat} (h : c.domUp (bankOf n) = true) (f : Chip → Chip) : c.atSlot n f = f c :=
  if_pos h

/-! ## Commands that bring one sample -/

theorem Chip.monFeed_of_none {c c' : Chip} {m : MonId} {x : Sample} (h : c.monSample m x = (c', none)) : c.monFeed m [x] = c' := by
  simp [Chip.monFeed, h]

theorem Chip.monFeed_of_some {c c' : Chip} {m : MonId} {x : Sample} {alarm : Bool} (h : c.monSample m x = (c', some alarm)) :
    c.monFeed m [x] = c'.monReact m alarm := by
  simp [Chip.monFeed, h]

theorem Effect.monitorGood {m : MonId} {xs : List Sample} {s : State} {d : Change} (hs : s.Still)
    (h : d.Of s.chip (s.chip.monFeed m xs)) : Effect (.monitorGood ⟨m, xs⟩) s d :=
  Effect.of_run (f := fun c => c.monFeed m xs) rfl hs h

/-- A monitor whose move to the good side drives nothing: not PMON, nor VMON at the end of a ramp. -/
def Chip.goodDrivesNothing (c : Chip) (m : MonId) : Bool :=
  match m with
  | .pmon _ => false
  | .vmon n => !(c.slot n).rampDone
  | _ => true

theorem Chip.monReact_good {c c' : Chip} {m : MonId} (h : c.goodDrivesNothing m = true) (hslot : ∀ n, c'.slot n = c.slot n) :
    c'.monReact m false = c' := by
  cases m with
  | pmon n => cases h
  | vmon n =>
    have hramp : (c'.slot n).rampDone = false := by
      rw [hslot]; simpa [Chip.goodDrivesNothing] using h
    show c'.vccTry n = c'
    unfold Chip.vccTry
    rw [if_neg (by simp [hramp])]
  | _ => rfl

/-- The filter moves a monitor to the good side, and nothing else happens. -/
theorem Change.Of.monFeed_good {c : Chip} {m : MonId} {x : Sample} (hsays : c.Says m x (some false)) (halarm : c.monAlarm m = true)
    (hgood : c.goodDrivesNothing m = true) : ((sampleTaken c m x).plus { regs := goodRegs c m }).Of c (c.monFeed m [x]) := by
  have hmove := (c.takeSample m x).goodSide_of m
  rw [goodRegs_takeSample] at hmove
  have hof := (c.takeSample_of m x).plus hmove rfl
  have hm : ∀ n, m ≠ .pmon n := by rintro n rfl; cases hgood
  have hsample : c.monSample m x = ((c.takeSample m x).goodSide m, some false) := by
    rw [Chip.monSample_says hsays, Chip.monDecide_moves (by rw [Chip.monAlarm_takeSample, halarm]; simp), if_neg (by simp),
      Chip.monGood_silent hm]
  rw [Chip.monFeed_of_some hsample, Chip.monReact_good hgood (fun n => hof.slot n)]
  exact hof

/-! ## O4: what the monitors record -/

/-- The samples of a monitor do what they do as samples of MONITOR_GOOD. -/
theorem exec_of_samplesOf {i : Instr} {m : MonId} {xs : List Sample} (s : State) (h : samplesOf i = some (m, xs)) :
    exec i s = exec (.monitorGood ⟨m, xs⟩) s := by
  have hpmon : ∀ x : SlotSamples, (pmonOf x.n).map (fun m => (m, x.samples)) = some (m, xs) →
      pmonOf x.n = some m ∧ x.samples = xs := by
    intro x hx
    obtain ⟨m', hm', he⟩ := Option.map_eq_some_iff.1 hx
    cases he
    exact ⟨hm', rfl⟩
  cases i
  case presRise x =>
    obtain ⟨hm, rfl⟩ := hpmon x h
    show execPresRise x s = execMonitorGood _ s
    simp only [execPresRise, execMonitorGood, hm]
  case removal x =>
    obtain ⟨hm, rfl⟩ := hpmon x h
    show execRemoval x s = execMonitorGood _ s
    simp only [execRemoval, execMonitorGood, hm]
  case imonHigh | vmonFault | iomonFault | bmonFault | rmonAlarm | monitorGood => cases h; rfl
  all_goals cases h

section Record

variable {s : State} {m : MonId}

/-- A sample with which the filter says nothing. -/
theorem Effect.monitorGood_silent {x : Sample} (hs : s.Still) (h : s.chip.Says m x none) :
    Effect (.monitorGood ⟨m, [x]⟩) s (sampleTaken s.chip m x) := by
  refine Effect.monitorGood hs ?_
  rw [Chip.monFeed_of_none (Chip.monSample_silent h)]
  exact s.chip.takeSample_of m x

/-- A sample that confirms the filtered state. -/
theorem Effect.monitorGood_confirms {x : Sample} {alarm : Bool} (hs : s.Still) (h : s.chip.Says m x (some alarm))
    (ha : s.chip.monAlarm m = alarm) :
    Effect (.monitorGood ⟨m, [x]⟩) s ((sampleTaken s.chip m x).plus { regs := decidedRegs m }) := by
  refine Effect.monitorGood hs ?_
  have hsample : s.chip.monSample m x = ((s.chip.takeSample m x).decided m, none) := by
    rw [Chip.monSample_says h, Chip.monDecide_confirms ((s.chip.monAlarm_takeSample m x).trans ha)]
  rw [Chip.monFeed_of_none hsample]
  exact (s.chip.takeSample_of m x).plus ((Change.Of.refl _).decided m) rfl

/-- A monitor that takes no sample. -/
theorem Effect.monitorGood_deaf {x : Sample} (hs : s.Still) (h : s.chip.monUp m = false ∨ s.chip.blanked.contains m = true) :
    Effect (.monitorGood ⟨m, [x]⟩) s {} := by
  refine Effect.monitorGood hs ?_
  rw [Chip.monFeed_of_none (Chip.monSample_deaf x h)]
  exact Change.Of.refl _

/-- An excursion between samples (R204). -/
theorem Effect.rawSeen {x : Sample} (hs : s.Still) (hup : s.chip.monUp m = true) (hbl : s.chip.blanked.contains m = false)
    (hout : (s.chip.monClass m x).out = true) :
    Effect (.rawSeen ⟨m, x⟩) s { regs := [(⟨monStat m mRAWSEEN, monIdx m⟩, 1)],
                                 events := glitchEvents s.chip m [(⟨monStat m mRAWSEEN, monIdx m⟩, 1)] } := by
  refine Effect.of_run (f := fun c => c.rawIn m x) rfl hs ?_
  have hin : s.chip.rawIn m x = s.chip.rawTrip m := by
    unfold Chip.rawIn
    rw [if_neg (by rw [hup, hbl, hout]; decide)]
  rw [hin]
  exact (Change.Of.refl _).rawTrip rfl (StatusOnly.nil m)

/-! ### Writes of a monitor's registers -/

variable {p : Path}

/-- A write of MODE (R196). -/
theorem Effect.monitorModeWrite (hs : s.Takes p (monBlk m) (s.chip.monWriteUp m)) (mode : Nat) :
    Effect (.monitorModeWrite p m mode) s
      { regs := [(⟨monCfg m mMODE, monIdx m⟩, mode % 2 ^ (monCfg m mMODE).width)],
        blanked := some (if s.chip.blanked.contains m then s.chip.blanked else s.chip.blanked ++ [m]) } := by
  obtain ⟨hstill, hserved, hup⟩ := hs
  refine Effect.of_run (f := fun c => c.hostWrite p (monBlk m) (c.monWriteUp m) fun c => c.modeWrite m mode) rfl hstill ?_
  rw [Chip.hostWrite_taken hserved hup]
  have hput := (Change.Of.refl s.chip).put (monCfg m mMODE) (monIdx m) mode
  unfold Chip.modeWrite Chip.monBlank
  rw [Chip.put_blanked]
  split
  · exact hput.set_blanked s.chip.blanked
  · exact hput.set_blanked _

/-- A write of 1 to LATCHED (R203). -/
theorem Effect.latchedClear {d : Change} (hs : s.Takes p (monBlk m) (s.chip.monWriteUp m)) (hd : d.Of s.chip (s.chip.latchClear m)) :
    Effect (.latchedClear p m) s d := by
  obtain ⟨hstill, hserved, hup⟩ := hs
  refine Effect.of_run (f := fun c => c.hostWrite p (monBlk m) (c.monWriteUp m) fun c => c.latchClear m) rfl hstill ?_
  rw [Chip.hostWrite_taken hserved hup]
  exact hd

theorem Chip.latchHeld_iff (c : Chip) (m : MonId) :
    c.latchHeld m = true ↔ c.monAlarm m = true ∨ c.get (monCfg m mLATCH) (monIdx m) = 2 := by
  simp [Chip.latchHeld]

theorem Chip.latchClear_clears {c : Chip} (ha : c.monAlarm m = false) (hl : c.get (monCfg m mLATCH) (monIdx m) ≠ 2) :
    ({ regs := [(⟨monStat m mLATCHED, monIdx m⟩, 0)] } : Change).Of c (c.latchClear m) := by
  unfold Chip.latchClear
  rw [if_neg (by rw [Chip.latchHeld_iff]; simp [ha, hl])]
  exact (Change.Of.refl c).flag (monStat_flag m (lo := mLATCHED) (by simp)) (monIdx m) false

theorem Chip.latchClear_held {c : Chip} (h : c.monAlarm m = true ∨ c.get (monCfg m mLATCH) (monIdx m) = 2) :
    c.latchClear m = c :=
  if_pos ((c.latchHeld_iff m).2 h)

/-! ### A limited switch -/

/-- The switch limits the current (R56). -/
theorem Effect.limiting {n : SlotId} (hs : s.At n) (hsw : s.chip.on HTH_SLOT_ESTAT.SW_CLOSED n = true) :
    Effect (.limiting n) s { regs := [(⟨HTH_SLOT_ESTAT.LIMIT_SEEN, n⟩, 1), (⟨HTH_SLOT_ESTAT.LIMITING, n⟩, 1)] } := by
  obtain ⟨hstill, hup⟩ := hs
  refine Effect.of_run (f := fun c => c.atSlot n.val fun c =>
    if c.on HTH_SLOT_ESTAT.SW_CLOSED n.val then
      (c.flag HTH_SLOT_ESTAT.LIMITING n.val true).flag HTH_SLOT_ESTAT.LIMIT_SEEN n.val true
    else c) rfl hstill ?_
  rw [Chip.atSlot_up hup, if_pos hsw]
  exact ((Change.Of.refl s.chip).flag rfl n.val true).flag rfl n.val true

end Record

/-- Settles O4: a sample is taken, and then the filter says nothing, confirms the filtered state or moves it; the other commands write
the registers that they name. -/
theorem monitorRecord : Obligations.MonitorRecord := by
  unfold Obligations.MonitorRecord
  refine ⟨fun m x s hs => ⟨Effect.monitorGood_silent hs, fun _ => Effect.monitorGood_confirms hs, fun hsays halarm hgood => ?_,
    Effect.monitorGood_deaf hs⟩, fun m i xs s => exec_of_samplesOf s, fun m s hs hup x => Effect.rawSeen hs hup,
    fun p m s hs => ⟨Effect.monitorModeWrite hs, fun ha hl => Effect.latchedClear hs (Chip.latchClear_clears ha hl), fun h => ?_⟩,
    fun m s hs => ?_, fun n s => Effect.limiting⟩
  · exact Effect.monitorGood hs (Change.Of.monFeed_good hsays halarm (by cases m <;> exact hgood))
  · exact Effect.latchedClear hs ((Change.Of.refl _).eq (Chip.latchClear_held h))
  · exact Effect.of_run (f := fun c => { c with blanked := c.blanked.filter (fun q => decide (q ≠ m)) }) rfl hs
      ((Change.Of.refl _).set_blanked _)

end Sys2Proof.Machine
end

section
/-! Presence at an operator slot (R88, R103, R104, R186): a move of PMON and what it does to its slot, the insertion timer, and the
statement of presence. -/

namespace Sys2Proof.Machine

/-! ## A move to the alarm side -/

/-- The chip after a move of a slot's monitor to the alarm side, before the event goes to Ash. -/
def Chip.alarmSide (c : Chip) (m : MonId) : Chip :=
  (((c.decided m).flag (monStat m mSTATE) (monIdx m) true).flag (monStat m mLATCHED) (monIdx m) true).incSat (monStat m mTRIP) (monIdx m)

theorem Chip.satInc_congr {c c' : Chip} {f : Fld} {i : Nat} (h : c'.get f i = c.get f i) : c'.satInc f i = c.satInc f i := by
  unfold Chip.satInc
  rw [h]

theorem Chip.alarmSide_of (c : Chip) (m : MonId) : ({ regs := tripRegs c m } : Change).Of c (c.alarmSide m) := by
  obtain ⟨c', hc'⟩ : ∃ c', c' = ((c.decided m).flag (monStat m mSTATE) (monIdx m) true).flag (monStat m mLATCHED) (monIdx m) true :=
    ⟨_, rfl⟩
  have hlatched : ({ regs := (⟨monStat m mLATCHED, monIdx m⟩, 1) :: (⟨monStat m mSTATE, monIdx m⟩, 1) :: decidedRegs m } : Change).Of
      c c' :=
    ((((Change.Of.refl c).decided m).flag (monStat_flag m (lo := mSTATE) (by simp)) (monIdx m) true).flag
      (monStat_flag m (lo := mLATCHED) (by simp)) (monIdx m) true).eq hc'
  have hcount : c'.get (monStat m mTRIP) (monIdx m) = c.get (monStat m mTRIP) (monIdx m) := by
    rw [hlatched.reg, Change.reg_of_ne rfl]
    simp [decidedRegs, monStat_inj, mTRIP, mSTATE, mLATCHED, mDECIDED, mUNDECIDED]
  have htrip := hlatched.incSat (monStat m mTRIP) (monIdx m)
  rw [Chip.satInc_congr hcount] at htrip
  exact htrip.eq (by rw [hc']; rfl)

theorem tripRegs_statusOnly (c : Chip) (m : MonId) : StatusOnly m (tripRegs c m) :=
  StatusOnly.append ((((StatusOnly.nil m).cons_stat _ _ _).cons_stat _ _ _).cons_stat _ _ _) (decidedRegs_statusOnly m)

theorem tripRegs_takeSample (c : Chip) (m : MonId) (x : Sample) : tripRegs (c.takeSample m x) m = tripRegs c m := by
  unfold tripRegs
  rw [Chip.satInc_congr (Chip.get_takeSample (monStat_notMem_sampleFlds m (by decide) (by decide)) _)]

/-- A fall of PRES goes to Ash with the STAT word (R200, R379). -/
theorem Chip.monTrip_pmon (c : Chip) (n : Fin 4) :
    (c.decided (.pmon n)).monTrip (.pmon n)
      = (c.alarmSide (.pmon n)).raise 0x13 n.val ((c.alarmSide (.pmon n)).monWord (.pmon n)) := by
  unfold Chip.monTrip
  dsimp only
  rw [if_neg (by simp [monRail])]
  rfl

/-! ## A move of PMON -/

section Move

variable {c : Chip} {n : Fin 4} {x : Sample}

/-- The STAT word after a sample and a move. -/
theorem Chip.monWord_moved {c' : Chip} {m : MonId} {l : List (Key × Nat)}
    (h : ({ regs := l } : Change).Of (c.takeSample m x) c') (hl : StatusOnly m l) :
    c'.monWord m = (c.withRegs (l ++ sampleRegs c m x)).monWord m := by
  have hboth := (c.takeSample_of m x).plus h rfl
  have hregs : ((sampleTaken c m x).plus { regs := l }).regs = l ++ sampleRegs c m x := by
    simp [Change.plus, sampleTaken]
  have hword := hboth.monWord rfl (by rw [hregs]; exact hl.append (sampleRegs_statusOnly c m x))
  rwa [hregs] at hword

/-- The rise of PRES on record: the sample, the move to the good side and its event. -/
def risen (c : Chip) (n : Fin 4) (x : Sample) : Change :=
  (sampleTaken c (.pmon n) x).plus { regs := goodRegs c (.pmon n), events := [moveEvent c (.pmon n) x (goodRegs c (.pmon n))] }

theorem Chip.monSample_rise (hsays : c.Says (.pmon n) x (some false)) (halarm : c.monAlarm (.pmon n) = true) :
    ∃ c', c.monSample (.pmon n) x = (c', some false) ∧ (risen c n x).Of c c' := by
  have hmove := (c.takeSample (.pmon n) x).goodSide_of (.pmon n)
  rw [goodRegs_takeSample] at hmove
  refine ⟨_, ?_, (c.takeSample_of (.pmon n) x).plus (hmove.raise 0x13 n.val _ false) rfl⟩
  rw [Chip.monSample_says hsays, Chip.monDecide_moves (by rw [Chip.monAlarm_takeSample, halarm]; simp), if_neg (by simp),
    Chip.monGood_pmon, Chip.monWord_moved hmove (goodRegs_statusOnly _ _)]

theorem Chip.monSample_fall (hsays : c.Says (.pmon n) x (some true)) (halarm : c.monAlarm (.pmon n) = false) :
    ∃ c', c.monSample (.pmon n) x = (c', some true) ∧ (tripped c (.pmon n) x).Of c c' := by
  have hmove := (c.takeSample (.pmon n) x).alarmSide_of (.pmon n)
  rw [tripRegs_takeSample] at hmove
  refine ⟨_, ?_, (c.takeSample_of (.pmon n) x).plus (hmove.raise 0x13 n.val _ false) rfl⟩
  rw [Chip.monSample_says hsays, Chip.monDecide_moves (by rw [Chip.monAlarm_takeSample, halarm]; simp), if_pos rfl,
    Chip.monTrip_pmon, Chip.monWord_moved hmove (tripRegs_statusOnly _ _)]

/-- A change of a monitor's record: its status and the unfiltered presence, events, and nothing else that a slot knows of. -/
structure Change.Recorded (d : Change) (m : MonId) : Prop where
  regs : StatusOnly m d.regs
  resets : d.resets = []
  slots : d.slots = []
  sess : d.sess = []
  ctxs : d.ctxs = []
  dmp : d.dmp = none
  ember : d.ember = none

theorem risen_recorded (c : Chip) (n : Fin 4) (x : Sample) : (risen c n x).Recorded (.pmon n) :=
  ⟨by simpa [risen, Change.plus, sampleTaken] using (goodRegs_statusOnly c (.pmon n)).append (sampleRegs_statusOnly c (.pmon n) x),
    rfl, rfl, rfl, rfl, rfl, rfl⟩

theorem tripped_recorded (c : Chip) (m : MonId) (x : Sample) : (tripped c m x).Recorded m :=
  ⟨by simpa [tripped, Change.plus, sampleTaken] using (tripRegs_statusOnly c m).append (sampleRegs_statusOnly c m x),
    rfl, rfl, rfl, rfl, rfl, rfl⟩

variable {c' : Chip} {d : Change} {m : MonId} (hd : d.Recorded m) (h : d.Of c c')
include hd h

/-- Registers of other kinds read as before. -/
theorem Change.Recorded.get {f : Fld} (hf : f.reg ≠ (monReg m).2.1) (hp : f ≠ HTH_SLOT_ESTAT.PRES_RAW) (i : Nat) :
    c'.get f i = c.get f i := by
  rw [h.reg, Change.reg_of_ne hd.resets]
  intro e he hk
  exact (hd.regs e he).elim (fun hs => hf (by rw [← hk, hs])) (fun hs => hp (hk.symm.trans hs))

theorem Change.Recorded.slotState (i : Nat) : c'.slotState i = c.slotState i :=
  hd.get h (by cases m <;> simp [monReg]) (by simp) i

theorem Change.Recorded.slot (i : Nat) : c'.slot i = c.slot i := by rw [h.slot, hd.slots]; rfl

theorem Change.Recorded.domUp (b : Nat) : c'.domUp b = c.domUp b := by
  unfold Chip.domUp Chip.bit
  rw [hd.get h (by cases m <;> simp [monReg]) (by simp)]

theorem Change.Recorded.bare {i : Nat} (hb : c.Bare i) : c'.Bare i :=
  hb.of_slot (hd.slot h i) (by rw [h.dmp, hd.dmp]; rfl) (fun k => by rw [h.ctx, hd.ctxs]; rfl) (by rw [h.ember, hd.ember]; rfl)

/-- A deactivation does what it would have done before the sample. -/
theorem Change.Recorded.deactivation_eq (i : Nat) (y : SlotX) (k : SeqKind) (cause : Nat) :
    deactivation (c'.setSlot i y) i k cause = deactivation (c.setSlot i y) i k cause := by
  have hlane : laneRegs (c'.setSlot i y) i = laneRegs (c.setSlot i y) i := by
    unfold laneRegs
    rw [Chip.get_setSlot, Chip.get_setSlot, hd.get h (by cases m <;> simp [monReg]) (by simp)]
  have hclosed : (c'.setSlot i y).on HTH_SLOT_ESTAT.SW_CLOSED i = (c.setSlot i y).on HTH_SLOT_ESTAT.SW_CLOSED i := by
    unfold Chip.on
    rw [Chip.get_setSlot, Chip.get_setSlot, hd.get h (monReg_apart m).2.2.2.symm (by simp)]
  have hstate : (c'.setSlot i y).slotState i = (c.setSlot i y).slotState i := hd.slotState h i
  have hsess : (c'.setSlot i y).sessOf i = (c.setSlot i y).sessOf i := by
    rw [Chip.sessOf_setSlot, Chip.sessOf_setSlot, h.sessOf, hd.sess]; rfl
  unfold deactivation
  rw [hlane, hclosed, hstate, hsess, Chip.slot_setSlot_self, Chip.slot_setSlot_self]

end Move

/-! ## What a move of PRES does to the slot -/

section Slot

variable {c : Chip} {n : Nat}

/-- The fields that every insertion writes (R113, R119). -/
def insertedRegs (n : Nat) : List (Key × Nat) :=
  [(⟨HTH_SLOT_RCNT.OK_RUN, n⟩, 0), (⟨HTH_SLOT_RCNT.FAIL_CNT, n⟩, 0), (⟨HTH_SLOT_RCNT.ESC_LEVEL, n⟩, 0), (⟨HTH_SLOT_EVT.INSERTED, n⟩, 1)]

/-- The recovery counts start over, and the slot notes the insertion. -/
theorem Chip.insertedNoted_of (c : Chip) (n : Nat) (y : SlotX) :
    ({ regs := insertedRegs n, slots := [(n, y)] } : Change).Of c
      (((((c.slotEvt HTH_SLOT_EVT.INSERTED n).put HTH_SLOT_RCNT.ESC_LEVEL n 0).put HTH_SLOT_RCNT.FAIL_CNT n 0).put
        HTH_SLOT_RCNT.OK_RUN n 0).setSlot n y) :=
  (((((Change.Of.refl c).put HTH_SLOT_EVT.INSERTED n 1).put HTH_SLOT_RCNT.ESC_LEVEL n 0).put HTH_SLOT_RCNT.FAIL_CNT n 0).put
    HTH_SLOT_RCNT.OK_RUN n 0).setSlot n y

/-- In ABSENT the slot goes to OFF, and the insertion timer runs (R88). -/
theorem Chip.inserted_absent (h : c.slotState n = stABSENT) :
    ({ regs := [(⟨HTH_SLOT_STAT.INS_PEND, n⟩, 1), (⟨HTH_SLOT_STAT.STATE, n⟩, stOFF)] ++ insertedRegs n,
       slots := [(n, { c.slot n with forcedAbsent := false })] } : Change).Of c (c.inserted n) := by
  unfold Chip.inserted
  dsimp only
  rw [h, if_neg (by decide), if_pos rfl]
  simp only [show decide (stABSENT = stDEACT) = false from rfl, Bool.or_false]
  exact ((c.insertedNoted_of n { c.slot n with forcedAbsent := false }).put HTH_SLOT_STAT.STATE n stOFF).flag
    (f := HTH_SLOT_STAT.INS_PEND) rfl n true

/-- In DEACTIVATING the reinsertion is remembered (R104). -/
theorem Chip.inserted_deact (h : c.slotState n = stDEACT) :
    ({ regs := insertedRegs n, slots := [(n, { c.slot n with forcedAbsent := false, reinserted := true })] } : Change).Of c
      (c.inserted n) := by
  unfold Chip.inserted
  dsimp only
  rw [h, if_neg (by decide), if_neg (by decide)]
  simp only [decide_true, Bool.or_true]
  exact c.insertedNoted_of n { c.slot n with forcedAbsent := false, reinserted := true }

/-- The card of an active slot is removed (R103, R104). -/
theorem Chip.removed_active (h1 : 1 ≤ c.slotState n) (h7 : c.slotState n ≤ stBUSY) (hb : c.Bare n) :
    (deactivation (c.setSlot n { c.slot n with reinserted := false }) n .removal cauREMOVAL).Of c (c.removed n) := by
  have h7' : c.slotState n ≤ 7 := h7
  have hst : ¬(c.slotState n = stOFF ∧ isOperator n = true) ∧ c.slotState n ≠ stCLINKER
      ∧ ¬(c.slotState n = stABSENT ∨ c.slotState n = stOFF) := by
    unfold stOFF stCLINKER stABSENT
    omega
  have hremoved : c.removed n
      = (c.setSlot n { c.slot n with reinserted := false }).startDeact n .removal cauREMOVAL := by
    unfold Chip.removed
    dsimp only
    rw [if_neg hst.1, if_neg hst.2.1, if_neg hst.2.2]
    rfl
  have hb' : (c.setSlot n { c.slot n with reinserted := false }).Bare n :=
    hb.congr (by rw [Chip.slot_setSlot_self]; exact hb.queue) (by rw [Chip.slot_setSlot_self]; exact hb.wait)
      (by rw [Chip.slot_setSlot_self]; exact hb.cur) (by rw [Chip.slot_setSlot_self]; exact hb.measuring) rfl (fun _ => rfl) rfl
  have hde := Chip.startDeact_of _ n .removal cauREMOVAL hb' (by decide) h1 h7'
  rw [hremoved]
  exact { hde with
    slot := fun i => by
      rw [hde.slot]
      by_cases hi : i = n
      · subst hi; simp [deactivation, tabFind]
      · rw [Chip.slot_setSlot_ne _ _ _ _ hi] }

/-- The card of an operator slot in OFF with nothing pending is removed: the class trial starts over (R88, R98). -/
theorem Chip.removed_off (hop : isOperator n = true) (h : c.slotState n = stOFF) (hb : c.Bare n)
    (hp : c.get HTH_SLOT_STAT.ACT_PEND n = 0) :
    ({ regs := [(⟨HTH_SLOT_STAT.STATE, n⟩, stABSENT), (⟨HTH_SLOT_STAT.TRIAL_CLASS, n⟩, 3), (⟨HTH_SLOT_STAT.INS_PEND, n⟩, 0)],
       slots := [(n, { c.slot n with schedReact := false })] } : Change).Of c (c.removed n) := by
  have hmeas : c.stopMeas n = c := by
    unfold Chip.stopMeas
    rw [if_neg (by simp [hb.measuring])]
  have hpend : c.untrigger n = c := if_neg (by simp [Chip.on, hp])
  unfold Chip.removed
  dsimp only
  rw [if_pos ⟨h, hop⟩, hmeas, hpend, Chip.trialReset, if_pos hop]
  exact Change.Of.evict
    (((((Change.Of.refl c).put HTH_SLOT_STAT.INS_PEND n 0).setSlot n { c.slot n with schedReact := false }).put
      HTH_SLOT_STAT.TRIAL_CLASS n 3).put HTH_SLOT_STAT.STATE n stABSENT) n
    (by simp [hb.queue])

end Slot

/-! ## The insertion timer -/

/-- An activation trigger on a slot in OFF with nothing pending (R88, R91). -/
theorem Change.Of.trigger {c : Chip} {n : Nat} (h : c.slotState n = stOFF) (hp : c.get HTH_SLOT_STAT.ACT_PEND n = 0) :
    (activation c n).Of c (c.trigger n) := by
  unfold Chip.trigger
  rw [if_pos ⟨h, by simp [Chip.on, hp]⟩]
  have hpend : ({ regs := [(⟨HTH_SLOT_STAT.BUDGET_WAIT, n⟩, 1), (⟨HTH_SLOT_STAT.ACT_PEND, n⟩, 1)] } : Change).Of c
      ((c.flag HTH_SLOT_STAT.ACT_PEND n true).flag HTH_SLOT_STAT.BUDGET_WAIT n true) :=
    ((Change.Of.refl c).flag rfl n true).flag rfl n true
  have hdepth : ((c.flag HTH_SLOT_STAT.ACT_PEND n true).flag HTH_SLOT_STAT.BUDGET_WAIT n true).get DRG_DMP_CFG.DEPTH 0
      = c.get DRG_DMP_CFG.DEPTH 0 := by
    rw [Chip.flag, Chip.get_put_ne _ _ _ _ _ _ (by simp), Chip.flag, Chip.get_put_ne _ _ _ _ _ _ (by simp)]
  unfold Chip.request
  dsimp only
  rw [hdepth]
  exact hpend.set_dmp _

/-- The class of a slot depends on four fields (R98). -/
theorem Chip.trialClass_congr {c c' : Chip} {n : Nat}
    (h : ∀ f ∈ [HTH_SLOT_ELEC.CLASS_MODE, HTH_SLOT_STAT.STATE, HTH_SLOT_STAT.TRIAL_CLASS, HTH_BANK_CFG.CLASS], ∀ i,
      c'.get f i = c.get f i) : c'.trialClass n = c.trialClass n := by
  unfold Chip.trialClass Chip.slotState
  simp only [h HTH_SLOT_ELEC.CLASS_MODE (by simp), h HTH_SLOT_STAT.STATE (by simp), h HTH_SLOT_STAT.TRIAL_CLASS (by simp),
    h HTH_BANK_CFG.CLASS (by simp)]

/-- The timer's own bit is no part of what an activation asks for. -/
theorem activation_insPend (c : Chip) (n : Nat) : activation (c.flag HTH_SLOT_STAT.INS_PEND n false) n = activation c n := by
  have hget : ∀ (f : Fld) (i : Nat), f ≠ HTH_SLOT_STAT.INS_PEND → (c.flag HTH_SLOT_STAT.INS_PEND n false).get f i = c.get f i :=
    fun f i hf => by rw [Chip.flag, Chip.get_put, if_neg (fun h => hf h.1)]
  have hclass : (c.flag HTH_SLOT_STAT.INS_PEND n false).trialClass n = c.trialClass n :=
    Chip.trialClass_congr (fun f hf i => hget f i (by rintro rfl; simp at hf))
  unfold activation Chip.cost
  rw [hclass, hget _ _ (by decide), hget _ _ (by decide)]
  rfl

section Expiry

variable {s : State} {n : SlotId}

theorem Effect.insertionTimerExpiry {d : Change} (hs : s.At n) (h : d.Of s.chip (s.chip.insExpire n)) :
    Effect (.insertionTimerExpiry n) s d := by
  obtain ⟨hstill, hup⟩ := hs
  refine Effect.of_run (f := fun c => c.atSlot n.val fun c => c.insExpire n.val) rfl hstill ?_
  rw [Chip.atSlot_up hup]
  exact h

theorem Chip.insPend_cleared (c : Chip) (n : Nat) :
    ({ regs := [(⟨HTH_SLOT_STAT.INS_PEND, n⟩, 0)] } : Change).Of c (c.flag HTH_SLOT_STAT.INS_PEND n false) :=
  (Change.Of.refl c).flag rfl n false

theorem Chip.autoAct_insPend (c : Chip) (n : Nat) :
    (c.flag HTH_SLOT_STAT.INS_PEND n false).on HTH_SLOT_CTL.AUTO_ACT n = c.on HTH_SLOT_CTL.AUTO_ACT n := by
  unfold Chip.on
  rw [Chip.flag, Chip.get_put_ne _ _ _ _ _ _ (by simp)]

/-- The timer runs out at a slot with AUTO_ACT. -/
theorem Chip.insExpire_auto {c : Chip} {n : Nat} (hins : c.on HTH_SLOT_STAT.INS_PEND n = true)
    (hauto : c.on HTH_SLOT_CTL.AUTO_ACT n = true) (hst : c.slotState n = stOFF) (hp : c.get HTH_SLOT_STAT.ACT_PEND n = 0) :
    (({ regs := [(⟨HTH_SLOT_STAT.INS_PEND, n⟩, 0)] } : Change).plus (activation c n)).Of c (c.insExpire n) := by
  unfold Chip.insExpire
  dsimp only
  rw [if_pos hins, if_pos ((c.autoAct_insPend n).trans hauto)]
  have htrigger := Change.Of.trigger (c := c.flag HTH_SLOT_STAT.INS_PEND n false) (n := n)
    (by rw [Chip.slotState, Chip.flag, Chip.get_put_ne _ _ _ _ _ _ (by simp)]; exact hst)
    (by rw [Chip.flag, Chip.get_put_ne _ _ _ _ _ _ (by simp)]; exact hp)
  rw [activation_insPend] at htrigger
  exact (c.insPend_cleared n).plus htrigger rfl

theorem Chip.insExpire_idle {c : Chip} {n : Nat} (hins : c.on HTH_SLOT_STAT.INS_PEND n = true)
    (hauto : c.on HTH_SLOT_CTL.AUTO_ACT n = false) :
    ({ regs := [(⟨HTH_SLOT_STAT.INS_PEND, n⟩, 0)] } : Change).Of c (c.insExpire n) := by
  unfold Chip.insExpire
  dsimp only
  rw [if_pos hins, if_neg (by rw [Chip.autoAct_insPend, hauto]; simp)]
  exact c.insPend_cleared n

end Expiry

/-! ## O2: presence at a slot -/

section Presence

variable {s : State} {n : Fin 4} {x : Sample} {d : Change}

theorem pmonOf_operatorSlot (n : Fin 4) : pmonOf (operatorSlot n) = some (.pmon n) := dif_pos n.isLt

theorem isOperator_operatorSlot (n : Fin 4) : isOperator n.val = true := decide_eq_true n.isLt

/-- The samples of a slot's presence monitor. -/
theorem Effect.presRise (hs : s.At (operatorSlot n)) (h : d.Of s.chip (s.chip.monFeed (.pmon n) [x])) :
    Effect (.presRise ⟨operatorSlot n, [x]⟩) s d := by
  refine Effect.of_run (f := fun c => c.monFeed (.pmon n) [x]) ?_ hs.1 h
  show execPresRise _ s = _
  simp only [execPresRise, pmonOf_operatorSlot]

theorem Effect.removal (hs : s.At (operatorSlot n)) (h : d.Of s.chip (s.chip.monFeed (.pmon n) [x])) :
    Effect (.removal ⟨operatorSlot n, [x]⟩) s d := by
  refine Effect.of_run (f := fun c => c.monFeed (.pmon n) [x]) ?_ hs.1 h
  show execRemoval _ s = _
  simp only [execRemoval, pmonOf_operatorSlot]

/-- A rise of PRES: what it records, then what it does to the slot. -/
theorem Effect.presRise_inserts (hs : s.At (operatorSlot n)) (hsays : s.chip.Says (.pmon n) x (some false))
    (halarm : s.chip.monAlarm (.pmon n) = true) (ht : d.taken = 0)
    (h : ∀ c', (risen s.chip n x).Of s.chip c' → d.Of c' (c'.inserted n)) :
    Effect (.presRise ⟨operatorSlot n, [x]⟩) s ((risen s.chip n x).plus d) := by
  obtain ⟨c', hsample, hrisen⟩ := Chip.monSample_rise hsays halarm
  refine Effect.presRise hs ?_
  have hup : c'.domUp (bankOf n.val) = true := ((risen_recorded _ n x).domUp hrisen _).trans hs.2
  have hreact : c'.monReact (.pmon n) false = c'.inserted n := if_pos hup
  rw [Chip.monFeed_of_some hsample, hreact]
  exact hrisen.plus (h c' hrisen) ht

/-- A fall of PRES. -/
theorem Effect.removal_removes (hs : s.At (operatorSlot n)) (hsays : s.chip.Says (.pmon n) x (some true))
    (halarm : s.chip.monAlarm (.pmon n) = false) (ht : d.taken = 0)
    (h : ∀ c', (tripped s.chip (.pmon n) x).Of s.chip c' → d.Of c' (c'.removed n)) :
    Effect (.removal ⟨operatorSlot n, [x]⟩) s ((tripped s.chip (.pmon n) x).plus d) := by
  obtain ⟨c', hsample, htripped⟩ := Chip.monSample_fall hsays halarm
  refine Effect.removal hs ?_
  have hup : c'.domUp (bankOf n.val) = true := ((tripped_recorded _ (.pmon n) x).domUp htripped _).trans hs.2
  have hreact : c'.monReact (.pmon n) true = c'.removed n := if_pos hup
  rw [Chip.monFeed_of_some hsample, hreact]
  exact htripped.plus (h c' htripped) ht

end Presence

/-- Settles O2: a move of PMON is recorded, and the slot, which the record leaves as it was, answers it by its state. -/
theorem presenceAtASlot : Obligations.PresenceAtASlot := by
  unfold Obligations.PresenceAtASlot
  refine ⟨fun n x s hs => ⟨fun hsays halarm hst => ?_, fun hsays halarm hst => ?_, fun hsays halarm h1 h7 hb => ?_,
    fun hsays halarm hst hb hp => ?_⟩, fun n s hs hins => ⟨fun hauto hst hp => ?_, fun hauto => ?_⟩⟩
  · refine Effect.presRise_inserts hs hsays halarm rfl (fun c' h => ?_)
    have hr := risen_recorded s.chip n x
    rw [← hr.slot h]
    exact Chip.inserted_absent ((hr.slotState h _).trans hst)
  · refine Effect.presRise_inserts hs hsays halarm rfl (fun c' h => ?_)
    have hr := risen_recorded s.chip n x
    rw [← hr.slot h]
    exact Chip.inserted_deact ((hr.slotState h _).trans hst)
  · refine Effect.removal_removes hs hsays halarm rfl (fun c' h => ?_)
    have hr := tripped_recorded s.chip (.pmon n) x
    rw [← hr.deactivation_eq h, ← hr.slot h]
    exact Chip.removed_active (by rw [hr.slotState h]; exact h1) (by rw [hr.slotState h]; exact h7) (hr.bare h hb)
  · refine Effect.removal_removes hs hsays halarm rfl (fun c' h => ?_)
    have hr := tripped_recorded s.chip (.pmon n) x
    rw [← hr.slot h]
    exact Chip.removed_off (isOperator_operatorSlot n) ((hr.slotState h _).trans hst) (hr.bare h hb)
      ((hr.get h (by simp [monReg]) (by simp) _).trans hp)
  · exact Effect.insertionTimerExpiry hs (Chip.insExpire_auto hins hauto hst hp)
  · exact Effect.insertionTimerExpiry hs (Chip.insExpire_idle hins hauto)

end Sys2Proof.Machine
end

section
/-! Leg measurement (R71–R84): the values of one side, the end of a measurement, the claim of a cell, and the statement of leg
measurement. -/

namespace Sys2Proof.Machine

/-! ## A side on record -/

/-- A completed side is counted and recorded (R77, R84). -/
theorem Chip.sideDone_of (c : Chip) (n k : Nat) (low : Bool) (v : Nat) :
    ({ regs := sideRegs c n k low v, slots := [(n, sideMeasured (c.slot n) k low)] } : Change).Of c (c.sideDone n k low v) := by
  have hside := (((Change.Of.refl c).put HTH_BANK_LCNT.MEAS_CNT (bankOf n) (c.get HTH_BANK_LCNT.MEAS_CNT (bankOf n) + 1)).put
    (if low then HTH_LEG_RON.LO_RON else HTH_LEG_RON.HI_RON) (12 * n + k) v).setSlot n (sideMeasured (c.slot n) k low)
  have hwidth : (if low then HTH_LEG_RON.LO_RON else HTH_LEG_RON.HI_RON).width = 16 := by cases low <;> rfl
  dsimp only [Change.put, Change.setSlot] at hside
  rw [hwidth] at hside
  exact hside

/-- The registers of a side say nothing of which legs are in service. -/
theorem sideRegs_fld {c : Chip} {n k : Nat} {low : Bool} {v : Nat} {f : Fld} (h1 : f.reg ≠ .HTH_LEG_RON)
    (h2 : f ≠ HTH_BANK_LCNT.MEAS_CNT) : ∀ e ∈ sideRegs c n k low v, e.1.fld ≠ f := by
  simp only [sideRegs, List.forall_mem_cons, List.not_mem_nil, false_imp_iff, implies_true, and_true]
  refine ⟨?_, Ne.symm h2⟩
  cases low <;> rintro rfl <;> exact h1 rfl

theorem Chip.get_sideDone {c : Chip} {n k : Nat} {low : Bool} {v : Nat} {f : Fld} (h1 : f.reg ≠ .HTH_LEG_RON)
    (h2 : f ≠ HTH_BANK_LCNT.MEAS_CNT) (i : Nat) : (c.sideDone n k low v).get f i = c.get f i := by
  rw [(c.sideDone_of n k low v).reg]
  exact Change.reg_of_ne rfl (sideRegs_fld h1 h2) i

theorem Chip.slot_sideDone (c : Chip) (n k : Nat) (low : Bool) (v : Nat) :
    (c.sideDone n k low v).slot n = sideMeasured (c.slot n) k low := by
  simp [(c.sideDone_of n k low v).slot, tabFind]

/-- Which sides are missing depends on the slot's part and on its legs in service. -/
theorem Chip.measWhole_congr {c c' : Chip} {n : Nat} (hslot : c'.slot n = c.slot n)
    (hret : c'.get HTH_LEG_STAT.LEG_RET n = c.get HTH_LEG_STAT.LEG_RET n)
    (hsub : c'.get HTH_LEG_STAT.RICK_SUB n = c.get HTH_LEG_STAT.RICK_SUB n) : c'.measWhole n = c.measWhole n := by
  unfold Chip.measWhole Chip.legServes Chip.bit
  rw [hslot, hret, hsub]

theorem Chip.measWhole_sideDone (c : Chip) (n k : Nat) (low : Bool) (v : Nat) :
    (c.sideDone n k low v).measWhole n = (c.setSlot n (sideMeasured (c.slot n) k low)).measWhole n :=
  Chip.measWhole_congr (by rw [Chip.slot_sideDone, Chip.slot_setSlot_self]) (Chip.get_sideDone (by decide) (by decide) n)
    (Chip.get_sideDone (by decide) (by decide) n)

/-- A slot's part that replaces one replaced before. -/
theorem Change.Of.setSlot_again {d : Change} {c c' : Chip} {n : Nat} {x : SlotX} (h : d.Of c c') (hd : d.slots = [(n, x)]) (y : SlotX) :
    ({ d with slots := [(n, y)] } : Change).Of c (c'.setSlot n y) :=
  (h.setSlot n y).slots_eq (fun i => by
    simp only [Change.setSlot, hd, tabFind]
    split <;> rfl)

/-! ## The values of one side -/

/-- The measurement of a slot waits for a side of a leg in service, which no cell serves. -/
structure Chip.Awaits (c : Chip) (n : Nat) (k : Fin 12) (low : Bool) : Prop where
  serves : c.legServes n k = true
  gone : k.val ∉ (c.slot n).measGone
  side : (k.val, low) ∉ (c.slot n).measSides
  ownLeg : c.bit HTH_LEG_STAT.RICK_SUB n k = false

section Side

variable {c : Chip} {n : Nat} {k : Fin 12} {low : Bool} {tj : Int} {raws : List Nat} {cells : List CellSide} {v : Nat}
variable (hw : c.Awaits n k low)
include hw

/-- The first value in the Test state under the TRIM grant is the side's baseline (R74). -/
theorem Chip.judgeSide_learns (hl : c.learns (n, k.val, low) = true) :
    c.judgeSide n ⟨k, low, tj, v :: raws, cells⟩ = (c.learn (n, k.val, low) (ron25 tj v)).sideDone n k low (ron25 tj v) := by
  obtain ⟨h1, h2, h3, h4⟩ := hw
  simp [Chip.judgeSide, h1, h2, h3, h4, hl]

/-- Values that decide nothing yet. -/
theorem Chip.judgeSide_waits (hl : c.learns (n, k.val, low) = false) (hj : (c.legWindow n k low tj).judge raws = none) :
    c.judgeSide n ⟨k, low, tj, raws, cells⟩ = c := by
  obtain ⟨h1, h2, h3, h4⟩ := hw
  unfold Chip.legWindow at hj
  cases raws with
  | nil => simp [Chip.judgeSide, h1, h2, h3]
  | cons x raws => simp [Chip.judgeSide, h1, h2, h3, h4, hl, hj]

/-- A value inside the window, or two of three. -/
theorem Chip.judgeSide_done (hl : c.learns (n, k.val, low) = false) (hj : (c.legWindow n k low tj).judge raws = some (true, v)) :
    c.judgeSide n ⟨k, low, tj, raws, cells⟩ = c.sideDone n k low (ron25 tj v) := by
  obtain ⟨h1, h2, h3, h4⟩ := hw
  unfold Chip.legWindow at hj
  cases raws with
  | nil => cases hj
  | cons x raws => simp [Chip.judgeSide, h1, h2, h3, h4, hl, hj]

/-- Two of three values outside: the leg is retired (R77, R79). -/
theorem Chip.judgeSide_retires {c' : Chip} {dead : Bool} (hl : c.learns (n, k.val, low) = false)
    (hj : (c.legWindow n k low tj).judge raws = some (false, v))
    (hr : (c.sideDone n k low (ron25 tj v)).retireLeg n ⟨k, low, tj, raws, cells⟩ (ron25 tj v) = some (c', dead)) :
    c.judgeSide n ⟨k, low, tj, raws, cells⟩
      = c'.modSlot n (fun x => { x with measGone := x.measGone ++ [k.val], measDead := x.measDead || dead }) := by
  obtain ⟨h1, h2, h3, h4⟩ := hw
  unfold Chip.legWindow at hj
  cases raws with
  | nil => cases hj
  | cons x raws => simp [Chip.judgeSide, h1, h2, h3, h4, hl, hj, hr]

end Side

/-! ## The end of a measurement -/

section End

variable {c c' : Chip} {n : Nat} {r : LegReading}

/-- A side of a leg in service is still missing. -/
theorem Chip.measEnd_goesOn (hm : (c.slot n).measuring = true) (hc : c.judgeSide n r = c') (hw : c'.measWhole n = false)
    (hd : (c'.slot n).measDead = false) : c.measEnd n [r] = c' := by
  simp [Chip.measEnd, hm, hc, hw, hd]

/-- A requested measurement ends (R82). -/
theorem Chip.measEnd_requested (hm : (c.slot n).measuring = true) (hc : c.judgeSide n r = c') (hw : c'.measWhole n = true)
    (hd : (c'.slot n).measDead = false) (hr : (c'.slot n).measAtRamp = false) :
    c.measEnd n [r] = (((c'.flag HTH_LEG_STAT.MEAS_VALID n true).modSlot n (fun x => { x with measuring := false })).flag
      HTH_LEG_CMD.MEAS_REQ n false).flag HTH_LEG_CMD.MEAS_DONE n true := by
  simp [Chip.measEnd, hm, hc, hw, hd, hr]

/-- A measurement at RAMP ends, and the switch closes (R88). -/
theorem Chip.measEnd_atRamp (hm : (c.slot n).measuring = true) (hc : c.judgeSide n r = c') (hw : c'.measWhole n = true)
    (hd : (c'.slot n).measDead = false) (hr : (c'.slot n).measAtRamp = true) :
    c.measEnd n [r]
      = ((c'.flag HTH_LEG_STAT.MEAS_VALID n true).modSlot n (fun x => { x with measuring := false })).closeSwitch n := by
  simp [Chip.measEnd, hm, hc, hw, hd, hr]

/-- The VCC switch closes with IMON on its good side (R92). -/
theorem Chip.closeSwitch_of (h : c.on HTH_MON_STAT.STATE (4 * n + 1) = false) :
    ({ regs := closedRegs n (c.trialClass n),
       slots := [(n, { c.slot n with measuring := false, measAtRamp := false, rampDone := false })],
       out := [.contact n .discharge false, .contact n .vcc true] } : Change).Of c (c.closeSwitch n) := by
  obtain ⟨c', hc'⟩ : ∃ c', c' = ((c.setSlot n { c.slot n with measuring := false, measAtRamp := false, rampDone := false }).flag
    HTH_SLOT_ESTAT.SW_CLOSED n true).flag HTH_SLOT_ESTAT.DISCHARGE n false := ⟨_, rfl⟩
  have hclosed : ({ regs := [(⟨HTH_SLOT_ESTAT.DISCHARGE, n⟩, 0), (⟨HTH_SLOT_ESTAT.SW_CLOSED, n⟩, 1)],
                    slots := [(n, { c.slot n with measuring := false, measAtRamp := false, rampDone := false })] } : Change).Of c c' :=
    ((((Change.Of.refl c).setSlot n { c.slot n with measuring := false, measAtRamp := false, rampDone := false }).flag
      (f := HTH_SLOT_ESTAT.SW_CLOSED) rfl n true).flag (f := HTH_SLOT_ESTAT.DISCHARGE) rfl n false).eq hc'
  have hclass : c'.trialClass n = c.trialClass n := Chip.trialClass_congr (fun f hf i => by
    rw [hclosed.reg, Change.reg_of_ne rfl]
    simp only [List.forall_mem_cons, List.not_mem_nil, false_imp_iff, implies_true, and_true]
    constructor <;> rintro rfl <;> simp at hf)
  have hoff : ∀ y, (c.setSlot n y).on HTH_MON_STAT.STATE (4 * n + 1) = false := fun _ => h
  have hswitch : c.closeSwitch n = ((((c'.flag HTH_SLOT_ESTAT.INACTIVE n false).put HTH_SLOT_ESTAT.CLASS_APPLIED n
      (c'.trialClass n)).emit (.contact n .discharge false)).emit (.contact n .vcc true)) := by
    unfold Chip.closeSwitch
    dsimp only
    rw [Chip.modSlot_eq, hoff, if_neg (by simp), hc']
    rfl
  rw [hswitch, hclass]
  exact (((hclosed.flag (f := HTH_SLOT_ESTAT.INACTIVE) rfl n false).put HTH_SLOT_ESTAT.CLASS_APPLIED n (c.trialClass n)).emit _).emit _

end End

/-! ## The claim of a cell -/

/-- A bit of a field is set that was clear. -/
theorem Change.Of.putBit_set {d : Change} {c c' : Chip} (h : d.Of c c') {f : Fld} {i k : Nat} (hk : c'.bit f i k = false) :
    ({ d with regs := (⟨f, i⟩, (c'.get f i + 2 ^ k) % 2 ^ f.width) :: d.regs } : Change).Of c (c'.putBit f i k true) := by
  unfold Chip.bit at hk
  unfold Chip.putBit
  dsimp only
  rw [if_neg (by rw [hk]; decide), if_pos rfl]
  exact h.put f i _

/-- The words of a leg take the values of the cell that serves it (R84). -/
theorem Change.Of.putRons (n k : Nat) (vals : List (Bool × Nat)) {d : Change} {c c' : Chip} (h : d.Of c c') :
    ({ d with
        regs := vals.reverse.map (fun e => (⟨if e.1 then HTH_LEG_RON.LO_RON else HTH_LEG_RON.HI_RON, 12 * n + k⟩, e.2 % 65536))
          ++ d.regs } : Change).Of c (vals.foldl (fun c e => c.putRon n k e.1 e.2) c') := by
  induction vals generalizing d c' with
  | nil => exact h
  | cons e vals ih =>
    have hput := h.put (if e.1 then HTH_LEG_RON.LO_RON else HTH_LEG_RON.HI_RON) (12 * n + k) e.2
    have hwidth : (if e.1 then HTH_LEG_RON.LO_RON else HTH_LEG_RON.HI_RON).width = 16 := by cases e.1 <;> rfl
    rw [Change.put, hwidth] at hput
    rw [List.reverse_cons, List.map_append, List.append_assoc]
    exact ih hput

/-- A retirement or claim is due for the wear record and goes to Ash (R79, R396). -/
theorem Change.Of.legEvent {d : Change} {c c' : Chip} (h : d.Of c c') (n k : Nat) (low claimed : Bool) (med : Nat) :
    ({ d with
        wear := some { c'.wear with writePend := true },
        events := d.events ++ [⟨0x15, n, claimed.toNat * 2 ^ 21 + low.toNat * 2 ^ 20 + k * 2 ^ 16 + med % 2 ^ 16, false⟩] } :
      Change).Of c (c'.legEvent n k low claimed med) :=
  (h.set_wear _).raise _ _ _ _

theorem cellFld_cases (kind : Nat) :
    cellFld kind = HTH_BANK_RICK.SUPPLY_CELL ∨ cellFld kind = HTH_BANK_RICK.SIGNAL_CELL ∨ cellFld kind = HTH_BANK_RICK.LANE_CELL := by
  unfold cellFld
  split
  · exact .inl rfl
  · split
    · exact .inr (.inl rfl)
    · exact .inr (.inr rfl)

theorem cellFld_width (kind : Nat) : (cellFld kind).width = 8 := by
  obtain h | h | h := cellFld_cases kind <;> rw [h] <;> rfl

theorem cellFld_reg (kind : Nat) : (cellFld kind).reg = .HTH_BANK_RICK := by
  obtain h | h | h := cellFld_cases kind <;> rw [h]

theorem cellFld_ne {f : Fld} (hf : f.reg ≠ .HTH_BANK_RICK) (kind : Nat) : cellFld kind ≠ f := fun h =>
  hf (h ▸ cellFld_reg kind)

section Claim

variable {c : Chip} {n : Nat} {r : LegReading} {med : Nat} {vals : List (Bool × Nat)}

/-- A leg that no cell serves is retired, and the free cell of its kind, which passes its measurement, takes its place (R79). -/
theorem Chip.retireLeg_claims (hsub : c.bit HTH_LEG_STAT.RICK_SUB n r.leg.val = false)
    (hfree : c.cellFree (bankOf n) (legKind r.leg.val) = true)
    (hj : c.cellJudge (bankOf n) (legKind r.leg.val) (c.slot n).measLo (c.slot n).measHi (r.cell.map (fun s => (r.tj, s)))
      = some (true, vals)) :
    c.retireLeg n r med = some
      ((((c.incSat HTH_BANK_LCNT.RETIRE_CNT (bankOf n)).putBit HTH_LEG_STAT.LEG_RET n r.leg.val true).claimCell n r.leg.val vals).legEvent
        n r.leg.val r.lowSide true med, false) := by
  simp [Chip.retireLeg, hsub, hfree, hj]

/-- What the retirement and the claim write. -/
def claimRegs (c : Chip) (n k : Nat) (vals : List (Bool × Nat)) : List (Key × Nat) :=
  vals.reverse.map (fun e => (⟨if e.1 then HTH_LEG_RON.LO_RON else HTH_LEG_RON.HI_RON, 12 * n + k⟩, e.2 % 65536))
    ++ [(⟨HTH_LEG_STAT.RICK_SUB, n⟩, (c.get HTH_LEG_STAT.RICK_SUB n + 2 ^ k) % 4096),
      (⟨cellFld (legKind k), bankOf n⟩, 64 + 16 * (n % 4) + k),
      (⟨HTH_LEG_STAT.LEG_RET, n⟩, (c.get HTH_LEG_STAT.LEG_RET n + 2 ^ k) % 4096),
      (⟨HTH_BANK_LCNT.RETIRE_CNT, bankOf n⟩, c.satInc HTH_BANK_LCNT.RETIRE_CNT (bankOf n))]

/-- The count, the retirement, and the claim, one after another. -/
theorem Chip.claimed_of (c : Chip) (n : Nat) {k : Nat} (hk : k < 12) (low : Bool) (med : Nat) (vals : List (Bool × Nat))
    (hret : c.bit HTH_LEG_STAT.LEG_RET n k = false) (hsub : c.bit HTH_LEG_STAT.RICK_SUB n k = false) :
    ({ regs := claimRegs c n k vals, wear := some { c.wear with writePend := true },
       events := [⟨0x15, n, 2 ^ 21 + low.toNat * 2 ^ 20 + k * 2 ^ 16 + med % 2 ^ 16, false⟩] } : Change).Of c
      ((((c.incSat HTH_BANK_LCNT.RETIRE_CNT (bankOf n)).putBit HTH_LEG_STAT.LEG_RET n k true).claimCell n k vals).legEvent
        n k low true med) := by
  obtain ⟨c1, h1⟩ : ∃ c1, c1 = c.incSat HTH_BANK_LCNT.RETIRE_CNT (bankOf n) := ⟨_, rfl⟩
  obtain ⟨c2, h2⟩ : ∃ c2, c2 = c1.putBit HTH_LEG_STAT.LEG_RET n k true := ⟨_, rfl⟩
  obtain ⟨c3, h3⟩ : ∃ c3, c3 = c2.put (cellFld (legKind k)) (bankOf n) (64 + 16 * (n % 4) + k) := ⟨_, rfl⟩
  have hcount : ({ regs := [(⟨HTH_BANK_LCNT.RETIRE_CNT, bankOf n⟩, c.satInc HTH_BANK_LCNT.RETIRE_CNT (bankOf n))] } : Change).Of c c1 :=
    ((Change.Of.refl c).incSat _ _).eq h1
  have hgetRet : c1.get HTH_LEG_STAT.LEG_RET n = c.get HTH_LEG_STAT.LEG_RET n := by
    rw [hcount.reg, Change.reg_of_ne rfl (by simp)]
  have hretired : ({ regs := [(⟨HTH_LEG_STAT.LEG_RET, n⟩, (c.get HTH_LEG_STAT.LEG_RET n + 2 ^ k) % 4096),
        (⟨HTH_BANK_LCNT.RETIRE_CNT, bankOf n⟩, c.satInc HTH_BANK_LCNT.RETIRE_CNT (bankOf n))] } : Change).Of c c2 := by
    have hset := hcount.putBit_set (f := HTH_LEG_STAT.LEG_RET) (i := n) (k := k) (by unfold Chip.bit at hret ⊢; rw [hgetRet, hret])
    rw [hgetRet] at hset
    exact hset.eq h2
  have hcell : ({ regs := [(⟨cellFld (legKind k), bankOf n⟩, 64 + 16 * (n % 4) + k),
        (⟨HTH_LEG_STAT.LEG_RET, n⟩, (c.get HTH_LEG_STAT.LEG_RET n + 2 ^ k) % 4096),
        (⟨HTH_BANK_LCNT.RETIRE_CNT, bankOf n⟩, c.satInc HTH_BANK_LCNT.RETIRE_CNT (bankOf n))] } : Change).Of c c3 :=
    (hretired.put_lt (by rw [cellFld_width]; omega) _).eq h3
  have hgetSub : c3.get HTH_LEG_STAT.RICK_SUB n = c.get HTH_LEG_STAT.RICK_SUB n := by
    rw [hcell.reg, Change.reg_of_ne rfl (by simp [cellFld_ne])]
  have hserved := hcell.putBit_set (f := HTH_LEG_STAT.RICK_SUB) (i := n) (k := k) (by unfold Chip.bit at hsub ⊢; rw [hgetSub, hsub])
  rw [hgetSub] at hserved
  have hwords := hserved.putRons n k vals
  have hwear : (vals.foldl (fun c e => c.putRon n k e.1 e.2) (c3.putBit HTH_LEG_STAT.RICK_SUB n k true)).wear = c.wear := hwords.wear
  have hevent := hwords.legEvent n k low true med
  rw [hwear, show Bool.toNat true * 2 ^ 21 = 2 ^ 21 from rfl] at hevent
  exact hevent.eq (by rw [h3, h2, h1]; rfl)

end Claim

/-- The words that say which legs are in service, after the claim of a cell for leg `k`. -/
def legsInService (c : Chip) (n k : Nat) : List (Key × Nat) :=
  [(⟨HTH_LEG_STAT.RICK_SUB, n⟩, (c.get HTH_LEG_STAT.RICK_SUB n + 2 ^ k) % 4096),
    (⟨HTH_LEG_STAT.LEG_RET, n⟩, (c.get HTH_LEG_STAT.LEG_RET n + 2 ^ k) % 4096)]

theorem tabFind_claimRegs {c : Chip} {n k : Nat} {vals : List (Bool × Nat)} {f : Fld} (hf : f.reg = .HTH_LEG_STAT) (i : Nat) :
    tabFind (claimRegs c n k vals) ⟨f, i⟩
      = tabFind (legsInService c n k) ⟨f, i⟩ := by
  have hcell : (⟨cellFld (legKind k), bankOf n⟩ : Key) ≠ ⟨f, i⟩ := fun h =>
    cellFld_ne (by rw [hf]; decide) _ (congrArg Key.fld h)
  have hcount : (⟨HTH_BANK_LCNT.RETIRE_CNT, bankOf n⟩ : Key) ≠ ⟨f, i⟩ := fun h => by
    rw [← show HTH_BANK_LCNT.RETIRE_CNT = f from congrArg Key.fld h] at hf
    cases hf
  unfold claimRegs
  rw [tabFind_append, tabFind_eq_none, Option.none_or]
  · simp only [legsInService, tabFind, hcell, hcount, if_false]
  · intro e he hk
    obtain ⟨v, -, rfl⟩ := List.mem_map.1 he
    have hk : (if v.1 then HTH_LEG_RON.LO_RON else HTH_LEG_RON.HI_RON) = f := congrArg Key.fld hk
    rw [← hk] at hf
    cases hv : v.1 <;> rw [hv] at hf <;> cases hf

/-- A leg that gives its place to a cell, marked on a chip by itself. -/
theorem Chip.legReplaced_of {c : Chip} {n k : Nat} (hret : c.bit HTH_LEG_STAT.LEG_RET n k = false)
    (hsub : c.bit HTH_LEG_STAT.RICK_SUB n k = false) (y : SlotX) :
    ({ regs := legsInService c n k, slots := [(n, y)] } : Change).Of c
      (((c.setSlot n y).putBit HTH_LEG_STAT.LEG_RET n k true).putBit HTH_LEG_STAT.RICK_SUB n k true) := by
  obtain ⟨c', hc'⟩ : ∃ c', c' = (c.setSlot n y).putBit HTH_LEG_STAT.LEG_RET n k true := ⟨_, rfl⟩
  have hretired : ({ regs := [(⟨HTH_LEG_STAT.LEG_RET, n⟩, (c.get HTH_LEG_STAT.LEG_RET n + 2 ^ k) % 4096)],
                     slots := [(n, y)] } : Change).Of c c' :=
    (((Change.Of.refl c).setSlot n y).putBit_set (f := HTH_LEG_STAT.LEG_RET) hret).eq hc'
  have hget : c'.get HTH_LEG_STAT.RICK_SUB n = c.get HTH_LEG_STAT.RICK_SUB n := by
    rw [hretired.reg, Change.reg_of_ne rfl (by simp)]
  have hserved := hretired.putBit_set (f := HTH_LEG_STAT.RICK_SUB) (i := n) (k := k) (by unfold Chip.bit at hsub ⊢; rw [hget, hsub])
  rw [hget] at hserved
  rw [← hc']
  exact hserved

theorem Chip.cellJudge_congr {c c' : Chip} (h : c'.base = c.base) (b kind lo hi : Nat) (sides : List (Int × CellSide)) :
    c'.cellJudge b kind lo hi sides = c.cellJudge b kind lo hi sides := by
  unfold Chip.cellJudge Chip.baseline
  rw [h]

/-! ## O6: leg measurement -/

/-- The last side is on record, and the measurement is over. -/
theorem Chip.measOver_of (c : Chip) (n k : Nat) (low : Bool) (v : Nat) :
    ({ regs := (⟨HTH_LEG_STAT.MEAS_VALID, n⟩, 1) :: sideRegs c n k low v,
       slots := [(n, { sideMeasured (c.slot n) k low with measuring := false })] } : Change).Of c
      (((c.sideDone n k low v).flag HTH_LEG_STAT.MEAS_VALID n true).modSlot n (fun x => { x with measuring := false })) := by
  rw [Chip.modSlot_eq, Chip.flag_eq, Chip.slot_put, Chip.slot_sideDone]
  exact ((c.sideDone_of n k low v).flag (f := HTH_LEG_STAT.MEAS_VALID) rfl n true).setSlot_again rfl _

/-- The part of a slot once a side is complete and a cell has taken the place of its leg. -/
def legReplaced (x : SlotX) (k : Nat) (low : Bool) : SlotX := { sideMeasured x k low with measGone := x.measGone ++ [k] }

section Measurement

variable {c : Chip} {n : Nat} {k : Fin 12} {low : Bool} {tj : Int} {raws : List Nat} {cells : List CellSide} {v : Nat}
variable (hm : (c.slot n).measuring = true) (hd : (c.slot n).measDead = false) (hw : c.Awaits n k low)
include hm hd hw

/-- A value that decides nothing changes nothing. -/
theorem Chip.measEnd_waits (hl : c.learns (n, k.val, low) = false) (hj : (c.legWindow n k low tj).judge raws = none)
    (hwhole : c.measWhole n = false) : ({} : Change).Of c (c.measEnd n [⟨k, low, tj, raws, cells⟩]) := by
  rw [Chip.measEnd_goesOn hm (Chip.judgeSide_waits hw hl hj) hwhole hd]
  exact Change.Of.refl c

/-- The first value of a side becomes its baseline. -/
theorem Chip.measEnd_learns (hl : c.learns (n, k.val, low) = true)
    (hwhole : (c.setSlot n (sideMeasured (c.slot n) k low)).measWhole n = false) :
    ({ regs := sideRegs c n k low (ron25 tj v), slots := [(n, sideMeasured (c.slot n) k low)],
       base := some (c.base ++ [((n, k.val, low), ron25 tj v)]) } : Change).Of c
      (c.measEnd n [⟨k, low, tj, v :: raws, cells⟩]) := by
  have hslot : ((c.learn (n, k.val, low) (ron25 tj v)).sideDone n k low (ron25 tj v)).slot n = sideMeasured (c.slot n) k low :=
    Chip.slot_sideDone ..
  have hlearnt : ((c.learn (n, k.val, low) (ron25 tj v)).sideDone n k low (ron25 tj v)).measWhole n = false := by
    rw [Chip.measWhole_sideDone, ← hwhole]
    exact Chip.measWhole_congr (by simp only [Chip.slot_setSlot_self]; rfl) rfl rfl
  rw [Chip.measEnd_goesOn hm (Chip.judgeSide_learns hw hl) hlearnt (by rw [hslot]; exact hd)]
  exact ((Change.Of.refl c).set_base (c.base ++ [((n, k.val, low), ron25 tj v)])).plus (Chip.sideDone_of ..) rfl

/-- A side completes, and others are missing. -/
theorem Chip.measEnd_side (hl : c.learns (n, k.val, low) = false) (hj : (c.legWindow n k low tj).judge raws = some (true, v))
    (hwhole : (c.setSlot n (sideMeasured (c.slot n) k low)).measWhole n = false) :
    ({ regs := sideRegs c n k low (ron25 tj v), slots := [(n, sideMeasured (c.slot n) k low)] } : Change).Of c
      (c.measEnd n [⟨k, low, tj, raws, cells⟩]) := by
  rw [Chip.measEnd_goesOn hm (Chip.judgeSide_done hw hl hj) ((Chip.measWhole_sideDone ..).trans hwhole)
    (by rw [Chip.slot_sideDone]; exact hd)]
  exact c.sideDone_of ..

/-- The last side of a requested measurement completes. -/
theorem Chip.measEnd_lastRequested (hl : c.learns (n, k.val, low) = false)
    (hj : (c.legWindow n k low tj).judge raws = some (true, v))
    (hwhole : (c.setSlot n (sideMeasured (c.slot n) k low)).measWhole n = true) (hr : (c.slot n).measAtRamp = false) :
    ({ regs := Sys2Proof.Machine.measDone n ++ sideRegs c n k low (ron25 tj v),
       slots := [(n, { sideMeasured (c.slot n) k low with measuring := false })] } : Change).Of c
      (c.measEnd n [⟨k, low, tj, raws, cells⟩]) := by
  have hslot := c.slot_sideDone n k low (ron25 tj v)
  rw [Chip.measEnd_requested hm (Chip.judgeSide_done hw hl hj) ((Chip.measWhole_sideDone ..).trans hwhole)
    (by rw [hslot]; exact hd) (by rw [hslot]; exact hr)]
  exact ((c.measOver_of n k low (ron25 tj v)).flag (f := HTH_LEG_CMD.MEAS_REQ) rfl n false).flag (f := HTH_LEG_CMD.MEAS_DONE) rfl n true

/-- The last side at RAMP completes, and the switch closes. -/
theorem Chip.measEnd_lastAtRamp (hl : c.learns (n, k.val, low) = false)
    (hj : (c.legWindow n k low tj).judge raws = some (true, v))
    (hwhole : (c.setSlot n (sideMeasured (c.slot n) k low)).measWhole n = true) (hr : (c.slot n).measAtRamp = true)
    (hi : c.on HTH_MON_STAT.STATE (4 * n + 1) = false) :
    ({ regs := closedRegs n (c.trialClass n) ++ [(⟨HTH_LEG_STAT.MEAS_VALID, n⟩, 1)] ++ sideRegs c n k low (ron25 tj v),
       slots := [(n, { sideMeasured (c.slot n) k low with measuring := false, measAtRamp := false, rampDone := false })],
       out := [.contact n .discharge false, .contact n .vcc true] } : Change).Of c (c.measEnd n [⟨k, low, tj, raws, cells⟩]) := by
  have hslot := c.slot_sideDone n k low (ron25 tj v)
  rw [Chip.measEnd_atRamp hm (Chip.judgeSide_done hw hl hj) ((Chip.measWhole_sideDone ..).trans hwhole)
    (by rw [hslot]; exact hd) (by rw [hslot]; exact hr)]
  obtain ⟨c', hc'⟩ : ∃ c', c' = ((c.sideDone n k low (ron25 tj v)).flag HTH_LEG_STAT.MEAS_VALID n true).modSlot n
    (fun x => { x with measuring := false }) := ⟨_, rfl⟩
  have hvalid : ({ regs := (⟨HTH_LEG_STAT.MEAS_VALID, n⟩, 1) :: sideRegs c n k low (ron25 tj v),
                   slots := [(n, { sideMeasured (c.slot n) k low with measuring := false })] } : Change).Of c c' :=
    (c.measOver_of n k low (ron25 tj v)).eq hc'
  have hget : ∀ f : Fld, f.reg ≠ .HTH_LEG_RON → f ≠ HTH_BANK_LCNT.MEAS_CNT → f ≠ HTH_LEG_STAT.MEAS_VALID → ∀ i,
      c'.get f i = c.get f i := fun f h1 h2 h3 i => by
    rw [hvalid.reg, Change.reg_of_ne rfl]
    exact List.forall_mem_cons.2 ⟨Ne.symm h3, sideRegs_fld h1 h2⟩
  have hclass : c'.trialClass n = c.trialClass n := Chip.trialClass_congr (fun f hf i => by
    simp only [List.mem_cons, List.not_mem_nil, or_false] at hf
    obtain rfl | rfl | rfl | rfl := hf <;> exact hget _ (by decide) (by decide) (by decide) i)
  have hslot' : c'.slot n = { sideMeasured (c.slot n) k low with measuring := false } := by
    rw [hvalid.slot]; simp [tabFind]
  have hclosed := Chip.closeSwitch_of (c := c') (n := n)
    (by unfold Chip.on at hi ⊢; rw [hget _ (by decide) (by decide) (by decide)]; exact hi)
  rw [hclass, hslot'] at hclosed
  rw [← hc']
  exact ((hvalid.plus hclosed rfl).regs_eq (by simp [Change.plus])).slots_eq (fun i => by
    simp only [Change.plus, List.cons_append, List.nil_append, tabFind]
    split <;> rfl)

/-- Two of three values outside: the leg is retired and the cell takes its place. -/
theorem Chip.measEnd_claims {vals : List (Bool × Nat)} (hret : c.bit HTH_LEG_STAT.LEG_RET n k = false)
    (hl : c.learns (n, k.val, low) = false) (hj : (c.legWindow n k low tj).judge raws = some (false, v))
    (hfree : c.cellFree (bankOf n) (legKind k) = true)
    (hcell : c.cellJudge (bankOf n) (legKind k) (c.slot n).measLo (c.slot n).measHi (cells.map (fun e => (tj, e))) = some (true, vals))
    (hwhole : (((c.setSlot n (legReplaced (c.slot n) k low)).putBit
      HTH_LEG_STAT.LEG_RET n k true).putBit HTH_LEG_STAT.RICK_SUB n k true).measWhole n = false) :
    ({ regs := claimRegs c n k vals ++ sideRegs c n k low (ron25 tj v),
       slots := [(n, legReplaced (c.slot n) k low)],
       wear := some { c.wear with writePend := true },
       events := [⟨0x15, n, 2 ^ 21 + low.toNat * 2 ^ 20 + k * 2 ^ 16 + ron25 tj v % 2 ^ 16, false⟩] } : Change).Of c
      (c.measEnd n [⟨k, low, tj, raws, cells⟩]) := by
  obtain ⟨c1, h1⟩ : ∃ c1, c1 = c.sideDone n k low (ron25 tj v) := ⟨_, rfl⟩
  have hside := (c.sideDone_of n k low (ron25 tj v)).eq h1
  have hslot : c1.slot n = sideMeasured (c.slot n) k low := by rw [h1, Chip.slot_sideDone]
  have hget : ∀ f : Fld, f.reg ≠ .HTH_LEG_RON → f ≠ HTH_BANK_LCNT.MEAS_CNT → ∀ i, c1.get f i = c.get f i :=
    fun f hf hf' i => by rw [h1, Chip.get_sideDone hf hf']
  have hret1 : c1.bit HTH_LEG_STAT.LEG_RET n k = false := by
    unfold Chip.bit at hret ⊢; rw [hget _ (by decide) (by decide), hret]
  have hsub1 : c1.bit HTH_LEG_STAT.RICK_SUB n k = false := by
    have hsub := hw.ownLeg
    unfold Chip.bit at hsub ⊢; rw [hget _ (by decide) (by decide), hsub]
  have hfree1 : c1.cellFree (bankOf n) (legKind k) = true := by
    unfold Chip.cellFree at hfree ⊢
    rw [hget _ (by rw [cellFld_reg]; decide) (cellFld_ne (by decide) _), hfree]
  have hclaims := Chip.retireLeg_claims (c := c1) (n := n) (r := ⟨k, low, tj, raws, cells⟩) (med := ron25 tj v) (vals := vals) hsub1 hfree1
    (by rw [Chip.cellJudge_congr hside.base, hslot]; exact hcell)
  have hclaimed := c1.claimed_of n k.isLt low (ron25 tj v) vals hret1 hsub1
  have hregs : claimRegs c1 n k vals = claimRegs c n k vals := by
    unfold claimRegs
    rw [hget _ (by decide) (by decide), hget _ (by decide) (by decide), Chip.satInc_congr (hget _ (by decide) (by decide) _)]
  rw [hregs, show c1.wear = c.wear from hside.wear] at hclaimed
  obtain ⟨c2, h2⟩ : ∃ c2, c2 = ((((c1.incSat HTH_BANK_LCNT.RETIRE_CNT (bankOf n)).putBit HTH_LEG_STAT.LEG_RET n k.val true).claimCell
    n k.val vals).legEvent n k.val low true (ron25 tj v)) := ⟨_, rfl⟩
  have hboth := hside.plus (hclaimed.eq h2) rfl
  have hslot2 : c2.slot n = sideMeasured (c.slot n) k low := by rw [hboth.slot]; simp [Change.plus, tabFind]
  have hjudge : c.judgeSide n ⟨k, low, tj, raws, cells⟩
      = c2.setSlot n (legReplaced (c.slot n) k low) := by
    rw [Chip.judgeSide_retires hw hl hj (by rw [← h1, hclaims, ← h2]), Chip.modSlot_eq, hslot2, Bool.or_false]
    rfl
  have hreplaced := Chip.legReplaced_of hret hw.ownLeg (legReplaced (c.slot n) k low)
  have hlegs : ∀ f : Fld, f.reg = .HTH_LEG_STAT → c2.get f n = (tabFind (legsInService c n k) ⟨f, n⟩).getD (c.get f n) := fun f hf => by
    rw [(hclaimed.eq h2).reg, Change.reg, tabFind_claimRegs hf, hget f (by rw [hf]; decide) (by rintro rfl; cases hf)]
    rfl
  have hsame := Chip.measWhole_congr (n := n)
    (c := ((c.setSlot n (legReplaced (c.slot n) k low)).putBit
      HTH_LEG_STAT.LEG_RET n k true).putBit HTH_LEG_STAT.RICK_SUB n k true)
    (c' := c2.setSlot n (legReplaced (c.slot n) k low))
    (by rw [Chip.slot_setSlot_self, hreplaced.slot]; simp [tabFind])
    (by rw [Chip.get_setSlot, hlegs _ rfl, hreplaced.reg]; rfl) (by rw [Chip.get_setSlot, hlegs _ rfl, hreplaced.reg]; rfl)
  rw [Chip.measEnd_goesOn hm hjudge (hsame.trans hwhole) (by rw [Chip.slot_setSlot_self]; exact hd)]
  have hall := (hboth.setSlot_again rfl (legReplaced (c.slot n) k low)).regs_eq
    (l := claimRegs c n k vals ++ sideRegs c n k low (ron25 tj v)) (by simp [Change.plus])
  exact hall

end Measurement

section Statement

variable {s : State} {n : SlotId} {d : Change}

theorem Effect.legMeasurementEnd {rs : List LegReading} (hs : s.At n) (h : d.Of s.chip (s.chip.measEnd n rs)) :
    Effect (.legMeasurementEnd n rs) s d := by
  obtain ⟨hstill, hup⟩ := hs
  refine Effect.of_run (f := fun c => c.atSlot n.val fun c => c.measEnd n.val rs) rfl hstill ?_
  rw [Chip.atSlot_up hup]
  exact h

end Statement

/-- Settles O6: the values of one side decide it, and the chip after it shows whether the measurement goes on. -/
theorem legMeasurement : Obligations.LegMeasurement := by
  unfold Obligations.LegMeasurement
  intro n k low tj cells s hs hm hserves hgone hside hdead
  have hw (hown : s.chip.bit HTH_LEG_STAT.RICK_SUB n k = false) : s.chip.Awaits n k low :=
    ⟨hserves, by simpa using hgone, by simpa using hside, hown⟩
  refine ⟨?side, ?lastRequested, ?lastAtRamp, ?claims, ?waits, ?learns⟩
  case side =>
    intro raws v hown hl hj hwhole
    exact Effect.legMeasurementEnd hs (Chip.measEnd_side hm hdead (hw hown) hl hj hwhole)
  case lastRequested =>
    intro raws v hown hl hj hwhole hr
    exact Effect.legMeasurementEnd hs (Chip.measEnd_lastRequested hm hdead (hw hown) hl hj hwhole hr)
  case lastAtRamp =>
    intro raws v hown hl hj hwhole hr hi
    exact Effect.legMeasurementEnd hs (Chip.measEnd_lastAtRamp hm hdead (hw hown) hl hj hwhole hr hi)
  case claims =>
    intro raws v vals hret hown hl hj hfree hcell hwhole
    exact Effect.legMeasurementEnd hs (Chip.measEnd_claims hm hdead (hw hown) hret hl hj hfree hcell hwhole)
  case waits =>
    intro raws hown hl hj hwhole
    exact Effect.legMeasurementEnd hs (Chip.measEnd_waits hm hdead (hw hown) hl hj hwhole)
  case learns =>
    intro v raws hown hl hwhole
    exact Effect.legMeasurementEnd hs (Chip.measEnd_learns hm hdead (hw hown) hl hwhole)

end Sys2Proof.Machine
end

section
/-! Moves of a monitor to its alarm side (R105, R115, R200, R379), what they drive, and the statement of the monitors' alarms. -/

namespace Sys2Proof.Machine

/-! ## The record of a move -/

section Trip

variable {c : Chip} {m : MonId} {x : Sample}

/-- A margin dwells on the rail of a monitor. -/
abbrev Chip.Dwells (c : Chip) (m : MonId) : Prop := monRail m = some c.pmb.bel.rail ∧ c.pmb.bel.phase = .dwell

/-- During the dwell of a margin on its rail a move counts there too (R350). -/
def Chip.dwellCounted (c : Chip) (m : MonId) : Chip := if c.Dwells m then c.incSat DRG_BEL_RES.MON_EVT 0 else c

/-- The move goes to Ash with the STAT word, of a bank monitor only after the release of its bank's isolation (R379). -/
def Chip.moveTold (c : Chip) (m : MonId) : Chip :=
  let c' := c.raise (monSource m).1 (monSource m).2 (c.monWord m)
  match m with
  | .bmon b => if c.domUp b.val then c' else c
  | _ => c'

theorem Chip.monTrip_eq (c : Chip) (m : MonId) : (c.decided m).monTrip m = ((c.alarmSide m).dwellCounted m).moveTold m := rfl

theorem Chip.moveTold_raises (hb : ∀ b, m ≠ .bmon b) :
    c.moveTold m = c.raise (monSource m).1 (monSource m).2 (c.monWord m) := by
  cases m with
  | bmon b => exact absurd rfl (hb b)
  | _ => rfl

/-- The move to the alarm side after a sample. -/
theorem Chip.alarmSide_takeSample_of (c : Chip) (m : MonId) (x : Sample) :
    ({ regs := tripRegs c m } : Change).Of (c.takeSample m x) ((c.takeSample m x).alarmSide m) := by
  have hmove := (c.takeSample m x).alarmSide_of m
  rwa [tripRegs_takeSample] at hmove

/-- A sample and the move change nothing of the margin. -/
theorem Chip.dwells_alarmSide : ((c.takeSample m x).alarmSide m).Dwells m ↔ c.Dwells m := by
  have hpmb : ((c.takeSample m x).alarmSide m).pmb = c.pmb :=
    (c.alarmSide_takeSample_of m x).pmb.trans (c.takeSample_of m x).pmb
  unfold Chip.Dwells
  rw [hpmb]

/-- A sample with which the filter moves to the alarm side. -/
theorem Chip.monSample_trips {d : Change} (hsays : c.Says m x (some true)) (halarm : c.monAlarm m = false) (ht : d.taken = 0)
    (h : d.Of (c.takeSample m x) (((c.takeSample m x).decided m).monTrip m)) :
    ∃ c', c.monSample m x = (c', some true) ∧ ((sampleTaken c m x).plus d).Of c c' := by
  refine ⟨_, ?_, (c.takeSample_of m x).plus h ht⟩
  rw [Chip.monSample_says hsays, Chip.monDecide_moves (by rw [Chip.monAlarm_takeSample, halarm]; simp), if_pos rfl]

theorem Chip.monSample_tripped (hsays : c.Says m x (some true)) (halarm : c.monAlarm m = false) (hb : ∀ b, m ≠ .bmon b)
    (hd : ¬c.Dwells m) : ∃ c', c.monSample m x = (c', some true) ∧ (tripped c m x).Of c c' := by
  have hmove := c.alarmSide_takeSample_of m x
  refine Chip.monSample_trips hsays halarm rfl ?_
  rw [Chip.monTrip_eq, Chip.dwellCounted, if_neg (mt Chip.dwells_alarmSide.1 hd), Chip.moveTold_raises hb,
    Chip.monWord_moved hmove (tripRegs_statusOnly _ _)]
  exact hmove.raise _ _ _ false

end Trip

/-! ## What a move drives -/

/-- A deactivation depends on its slot, the session, the lane and the VCC switch. -/
theorem deactivation_congr {c c' : Chip} {n : Nat} (hslot : c'.slot n = c.slot n) (hsess : c'.sessOf n = c.sessOf n)
    (hlane : c'.get HTH_TURF_STAT.LANE n = c.get HTH_TURF_STAT.LANE n)
    (hsw : c'.get HTH_SLOT_ESTAT.SW_CLOSED n = c.get HTH_SLOT_ESTAT.SW_CLOSED n) (hstate : c'.slotState n = c.slotState n)
    (k : SeqKind) (cause : Nat) : deactivation c' n k cause = deactivation c n k cause := by
  unfold deactivation laneRegs Chip.on
  rw [hslot, hsess, hlane, hsw, hstate]

section Slot

variable {s : State} {n : SlotId} {m : MonId} {x : Sample}

/-- The monitors of a slot other than PMON, and of a rail, have no margin of a bank to dwell on. -/
theorem Chip.not_dwells_of_none {c : Chip} (h : monRail m = none) : ¬c.Dwells m := by
  rintro ⟨hr, -⟩
  rw [h] at hr
  cases hr

/-- The move is on record, and deactivates the slot. -/
theorem Effect.monitorGood_deactivates {cause : Nat} (hs : s.Still) (hsays : s.chip.Says m x (some true))
    (halarm : s.chip.monAlarm m = false) (hb : ∀ b, m ≠ .bmon b) (hr : monRail m = none) (hc : cause < 64)
    (h1 : 1 ≤ s.chip.slotState n) (h7 : s.chip.slotState n ≤ stBUSY) (hbare : s.chip.Bare n)
    (hreact : ∀ c', (tripped s.chip m x).Of s.chip c' → c'.monReact m true = c'.startDeact n .fault cause) :
    Effect (.monitorGood ⟨m, [x]⟩) s ((tripped s.chip m x).plus (deactivation s.chip n .fault cause)) := by
  obtain ⟨c', hsample, htripped⟩ := Chip.monSample_tripped hsays halarm hb (Chip.not_dwells_of_none hr)
  have hrec := tripped_recorded s.chip m x
  have hde := Chip.startDeact_of c' n .fault cause (hrec.bare htripped hbare) hc (by rw [hrec.slotState htripped]; exact h1)
    (by rw [hrec.slotState htripped]; exact h7)
  rw [deactivation_congr (hrec.slot htripped n) (by rw [htripped.sessOf, hrec.sess]; rfl)
    (hrec.get htripped (by cases m <;> simp [monReg]) (by simp) _)
    (hrec.get htripped (monReg_apart m).2.2.2.symm (by simp) _) (hrec.slotState htripped n)] at hde
  refine Effect.monitorGood hs ?_
  rw [Chip.monFeed_of_some hsample, hreact c' htripped]
  exact htripped.plus hde rfl

/-- The move is on record, and drives nothing. -/
theorem Effect.monitorGood_trips (hs : s.Still) (hsays : s.chip.Says m x (some true))
    (halarm : s.chip.monAlarm m = false) (hb : ∀ b, m ≠ .bmon b) (hd : ¬s.chip.Dwells m)
    (hreact : ∀ c', (tripped s.chip m x).Of s.chip c' → c'.monReact m true = c') :
    Effect (.monitorGood ⟨m, [x]⟩) s (tripped s.chip m x) := by
  obtain ⟨c', hsample, htripped⟩ := Chip.monSample_tripped hsays halarm hb hd
  refine Effect.monitorGood hs ?_
  rw [Chip.monFeed_of_some hsample, hreact c' htripped]
  exact htripped

/-- The samples of a monitor of a slot, of a bank or of a rail are samples of MONITOR_GOOD. -/
theorem Effect.of_samplesOf {i : Instr} {xs : List Sample} {d : Change} (h : samplesOf i = some (m, xs))
    (he : Effect (.monitorGood ⟨m, xs⟩) s d) : Effect i s d := by
  obtain ⟨c', ho, hx⟩ := he
  exact ⟨c', ho, (exec_of_samplesOf s h).trans hx⟩

/-- A move of IMON is a short while the VCC switch is closed or has still to open (R105). -/
theorem Chip.monReact_imon {c c' : Chip} (h : (tripped c (.imon n) x).Of c c') :
    c'.monReact (.imon n) true =
      if c.on HTH_SLOT_ESTAT.SW_CLOSED n || (c.slot n).opening then c'.startDeact n .fault cauSHORT else c' := by
  have hrec := tripped_recorded c (.imon n) x
  unfold Chip.monReact Chip.on
  dsimp only
  rw [hrec.slot h, hrec.get h (by simp [monReg]) (by simp)]

/-- A move of VMON is a fault of an armed slot (R115). -/
theorem Chip.monReact_vmon {c c' : Chip} (h : (tripped c (.vmon n) x).Of c c') :
    c'.monReact (.vmon n) true = if (c.slot n).armed then c'.startDeact n .fault cauVCC else c' := by
  rw [← (tripped_recorded c (.vmon n) x).slot h]
  rfl

/-- A move of IOMON likewise. -/
theorem Chip.monReact_iomon {c c' : Chip} (h : (tripped c (.iomon n) x).Of c c') :
    c'.monReact (.iomon n) true = if (c.slot n).armed then c'.startDeact n .fault cauIO else c' := by
  rw [← (tripped_recorded c (.iomon n) x).slot h]
  rfl

end Slot

/-! ## Banks and rails -/

/-- A move before it is told. -/
theorem untold_recorded (c : Chip) (m : MonId) (x : Sample) : ((sampleTaken c m x).plus { regs := tripRegs c m }).Recorded m :=
  ⟨by simpa [Change.plus, sampleTaken] using (tripRegs_statusOnly c m).append (sampleRegs_statusOnly c m x),
    rfl, rfl, rfl, rfl, rfl, rfl⟩

/-- A bank monitor before the release of its bank's isolation only records (R379). -/
theorem Effect.bmonFault_records {s : State} {b : BankId} {x : Sample} (hs : s.Still) (hsays : s.chip.Says (.bmon b) x (some true))
    (halarm : s.chip.monAlarm (.bmon b) = false) (hup : s.chip.domUp b = false) (hd : ¬s.chip.Dwells (.bmon b)) :
    Effect (.bmonFault b [x]) s ((sampleTaken s.chip (.bmon b) x).plus { regs := tripRegs s.chip (.bmon b) }) := by
  have hmove := s.chip.alarmSide_takeSample_of (.bmon b) x
  have hboth := (s.chip.takeSample_of (.bmon b) x).plus hmove rfl
  have hrec := untold_recorded s.chip (.bmon b) x
  have hdom : ((s.chip.takeSample (.bmon b) x).alarmSide (.bmon b)).domUp b ≠ true := by
    rw [hrec.domUp hboth, hup]; decide
  obtain ⟨c', hsample, hc'⟩ := Chip.monSample_trips hsays halarm rfl (d := { regs := tripRegs s.chip (.bmon b) }) (by
    rw [Chip.monTrip_eq, Chip.dwellCounted, if_neg (mt Chip.dwells_alarmSide.1 hd)]
    exact hmove.eq (if_neg hdom))
  have hreact : c'.monReact (.bmon b) true = c' := if_neg (by rw [hrec.domUp hc', hup]; decide)
  refine Effect.of_samplesOf (m := .bmon b) rfl (Effect.monitorGood hs ?_)
  rw [Chip.monFeed_of_some hsample, hreact]
  exact hc'

/-- A change, said another way. -/
theorem Change.Of.change_eq {d d' : Change} {c c' : Chip} (h : d.Of c c') (e : d = d') : d'.Of c c' := e ▸ h

/-- MON_EVT counts a move during the dwell of a margin on its rail (R350). -/
def dwellRegs (c : Chip) (m : MonId) : List (Key × Nat) :=
  if c.Dwells m then [(⟨DRG_BEL_RES.MON_EVT, 0⟩, c.satInc DRG_BEL_RES.MON_EVT 0)] else []

/-- MON_EVT is no part of the record of a rail monitor. -/
theorem Chip.get_monEvt_alarmSide (c : Chip) (r : Fin 5) (x : Sample) :
    ((c.takeSample (.rmon r) x).alarmSide (.rmon r)).get DRG_BEL_RES.MON_EVT 0 = c.get DRG_BEL_RES.MON_EVT 0 :=
  (untold_recorded c (.rmon r) x).get ((c.takeSample_of (.rmon r) x).plus (c.alarmSide_takeSample_of (.rmon r) x) rfl)
    (by simp [monReg]) (by simp) 0

/-- The STAT word of a monitor depends on its status, its settings and the regime. -/
theorem Chip.monWord_congr {c c' : Chip} {m : MonId}
    (h : ∀ f : Fld, f.reg = (monReg m).2.1 ∨ f.reg = (monReg m).1 ∨ f.reg = .HTH_MON_GSTAT → ∀ i, c'.get f i = c.get f i) :
    c'.monWord m = c.monWord m := by
  have hword : c'.word (monReg m).2.1 (monIdx m) = c.word (monReg m).2.1 (monIdx m) := Chip.word_congr fun lo => h _ (.inl rfl) _
  unfold Chip.monWord
  rw [hword, Chip.modeEff_congr (fun f hf => h f (.inr hf))]

theorem Chip.monWord_dwellCounted (c : Chip) (r : Fin 5) : (c.dwellCounted (.rmon r)).monWord (.rmon r) = c.monWord (.rmon r) := by
  unfold Chip.dwellCounted
  split
  · refine Chip.monWord_congr (fun f hf i => ?_)
    rw [((Change.Of.refl c).incSat DRG_BEL_RES.MON_EVT 0).reg, Change.reg_of_ne rfl]
    rintro e he rfl
    rw [List.mem_singleton.1 he] at hf
    simp [monReg] at hf
  · rfl

theorem Chip.dwellCounted_of (c : Chip) (r : Fin 5) (x : Sample) :
    ({ regs := dwellRegs c (.rmon r) ++ tripRegs c (.rmon r) } : Change).Of (c.takeSample (.rmon r) x)
      (((c.takeSample (.rmon r) x).alarmSide (.rmon r)).dwellCounted (.rmon r)) := by
  have hmove := c.alarmSide_takeSample_of (.rmon r) x
  unfold Chip.dwellCounted dwellRegs
  by_cases hd : c.Dwells (.rmon r)
  · rw [if_pos (Chip.dwells_alarmSide.2 hd), if_pos hd]
    have hcount := hmove.incSat DRG_BEL_RES.MON_EVT 0
    rwa [Chip.satInc_congr (c.get_monEvt_alarmSide r x)] at hcount
  · rw [if_neg (mt Chip.dwells_alarmSide.1 hd), if_neg hd]
    exact hmove

/-- A rail monitor records, tells and counts. -/
theorem Effect.rmonAlarm_records {s : State} {r : Fin 5} {x : Sample} (hs : s.Still) (hsays : s.chip.Says (.rmon r) x (some true))
    (halarm : s.chip.monAlarm (.rmon r) = false) :
    Effect (.rmonAlarm r [x]) s ((tripped s.chip (.rmon r) x).plus { regs := dwellRegs s.chip (.rmon r) }) := by
  have hcount := s.chip.dwellCounted_of r x
  have hword : (((s.chip.takeSample (.rmon r) x).alarmSide (.rmon r)).dwellCounted (.rmon r)).monWord (.rmon r)
      = (s.chip.withRegs (tripRegs s.chip (.rmon r) ++ sampleRegs s.chip (.rmon r) x)).monWord (.rmon r) := by
    rw [Chip.monWord_dwellCounted, Chip.monWord_moved (s.chip.alarmSide_takeSample_of (.rmon r) x) (tripRegs_statusOnly _ _)]
  obtain ⟨c', hsample, hc'⟩ := Chip.monSample_trips hsays halarm rfl (by
    rw [Chip.monTrip_eq, Chip.moveTold_raises (by simp), hword]
    exact hcount.raise _ _ _ false)
  refine Effect.of_samplesOf (m := .rmon r) rfl (Effect.monitorGood hs ?_)
  rw [Chip.monFeed_of_some hsample, show c'.monReact (.rmon r) true = c' from rfl]
  refine hc'.change_eq ?_
  simp [Change.plus, Change.event, tripped, sampleTaken, moveEvent]

/-- Settles O3: a move is recorded and told, and its slot, which the record leaves as it was, is deactivated or left. -/
theorem monitorAlarms : Obligations.MonitorAlarms := by
  unfold Obligations.MonitorAlarms
  refine ⟨fun n x s hs => ⟨fun hsays halarm hsw h1 h7 hb => ?_, fun hsays halarm harmed h1 h7 hb => ?_,
    fun hsays halarm harmed h1 h7 hb => ?_, fun hsays halarm hsw hop => ?_, fun hsays halarm harmed => ?_, fun hsays halarm harmed => ?_⟩,
    fun x s hs => ⟨fun b hsays halarm => Effect.bmonFault_records hs hsays halarm, fun r hsays halarm => ?_⟩⟩
  · exact Effect.of_samplesOf (m := .imon n) rfl (Effect.monitorGood_deactivates hs hsays halarm (by simp) rfl (by decide) h1 h7 hb
      fun c' h => (Chip.monReact_imon h).trans (if_pos (by simpa using hsw)))
  · exact Effect.of_samplesOf (m := .vmon n) rfl (Effect.monitorGood_deactivates hs hsays halarm (by simp) rfl (by decide) h1 h7 hb
      fun c' h => (Chip.monReact_vmon h).trans (if_pos harmed))
  · exact Effect.of_samplesOf (m := .iomon n) rfl (Effect.monitorGood_deactivates hs hsays halarm (by simp) rfl (by decide) h1 h7 hb
      fun c' h => (Chip.monReact_iomon h).trans (if_pos harmed))
  · exact Effect.of_samplesOf (m := .imon n) rfl (Effect.monitorGood_trips hs hsays halarm (by simp) (Chip.not_dwells_of_none rfl)
      fun c' h => (Chip.monReact_imon h).trans (if_neg (by simp [hsw, hop])))
  · exact Effect.of_samplesOf (m := .vmon n) rfl (Effect.monitorGood_trips hs hsays halarm (by simp) (Chip.not_dwells_of_none rfl)
      fun c' h => (Chip.monReact_vmon h).trans (if_neg (by simp [harmed])))
  · exact Effect.of_samplesOf (m := .iomon n) rfl (Effect.monitorGood_trips hs hsays halarm (by simp) (Chip.not_dwells_of_none rfl)
      fun c' h => (Chip.monReact_iomon h).trans (if_neg (by simp [harmed])))
  · exact Effect.rmonAlarm_records hs hsays halarm

end Sys2Proof.Machine
end

section
/-! The end of a deactivation (R89, R108): INACTIVE rises, and REACT_MIN elapses. -/

namespace Sys2Proof.Machine

/-! ## A slot changed once or twice -/

/-- The first change of a slot. -/
theorem Change.Of.modSlot_first {d : Change} {c c' : Chip} (h : d.Of c c') (hd : d.slots = []) (n : Nat) (f : SlotX → SlotX) :
    ({ d with slots := [(n, f (c.slot n))] } : Change).Of c (c'.modSlot n f) := by
  have hslot : c'.slot n = c.slot n := by rw [h.slot, hd]; rfl
  rw [Chip.modSlot, hslot]
  exact (h.setSlot n _).slots_eq fun i => by rw [Change.setSlot, hd]

/-- A further change of the slot. -/
theorem Change.Of.modSlot_again {d : Change} {c c' : Chip} {n : Nat} {x : SlotX} (h : d.Of c c') (hd : d.slots = [(n, x)])
    (f : SlotX → SlotX) : ({ d with slots := [(n, f x)] } : Change).Of c (c'.modSlot n f) := by
  have hslot : c'.slot n = x := by rw [h.slot, hd, tabFind_one]; simp
  rw [Chip.modSlot, hslot]
  exact h.setSlot_again hd _

/-! ## INACTIVE rises -/

section Inactive

/-- The counts of failed activations and electrical faults that the end of a deactivation reaches (R114, R115). -/
def deactCountRegs (c : Chip) (n : Nat) : List (Key × Nat) :=
  (if elecCause (c.get HTH_SLOT_CAUSE.CAUSE n) then [(⟨HTH_SLOT_RCNT.ELEC_CNT, n⟩, c.satInc HTH_SLOT_RCNT.ELEC_CNT n)] else [])
    ++ (if actFailCause (c.get HTH_SLOT_CAUSE.CAUSE n) && (c.slot n).coldAct then
          [(⟨HTH_SLOT_RCNT.ACT_FAIL_CNT, n⟩, c.satInc HTH_SLOT_RCNT.ACT_FAIL_CNT n)] else [])

/-- The chip with these counts. -/
def Chip.deactCounted (c : Chip) (n : Nat) : Chip :=
  let k := c.get HTH_SLOT_CAUSE.CAUSE n
  let c' := if actFailCause k && (c.slot n).coldAct then c.incSat HTH_SLOT_RCNT.ACT_FAIL_CNT n else c
  if elecCause k then c'.incSat HTH_SLOT_RCNT.ELEC_CNT n else c'

theorem Chip.deactCounted_of (c : Chip) (n : Nat) : ({ regs := deactCountRegs c n } : Change).Of c (c.deactCounted n) := by
  obtain ⟨l, hl⟩ : ∃ l, l = (if actFailCause (c.get HTH_SLOT_CAUSE.CAUSE n) && (c.slot n).coldAct then
    [((⟨HTH_SLOT_RCNT.ACT_FAIL_CNT, n⟩ : Key), c.satInc HTH_SLOT_RCNT.ACT_FAIL_CNT n)] else []) := ⟨_, rfl⟩
  obtain ⟨c', hc'⟩ : ∃ c', c' = (if actFailCause (c.get HTH_SLOT_CAUSE.CAUSE n) && (c.slot n).coldAct then
    c.incSat HTH_SLOT_RCNT.ACT_FAIL_CNT n else c) := ⟨_, rfl⟩
  have hfail : ({ regs := l } : Change).Of c c' := by
    rw [hl, hc']
    split
    · exact (Change.Of.refl c).incSat _ _
    · exact Change.Of.refl c
  have hcnt : c'.get HTH_SLOT_RCNT.ELEC_CNT n = c.get HTH_SLOT_RCNT.ELEC_CNT n := by
    rw [hfail.reg, Change.reg_of_ne rfl]
    intro e he
    rw [hl] at he
    split at he
    · rw [List.mem_singleton.1 he]; simp
    · cases he
  unfold Chip.deactCounted deactCountRegs
  dsimp only
  rw [← hl, ← hc']
  split
  · rw [← Chip.satInc_congr hcnt]
    exact hfail.incSat _ _
  · exact hfail

theorem deactCountRegs_fld {c : Chip} {n : Nat} :
    ∀ e ∈ deactCountRegs c n, e.1.fld.reg = .HTH_SLOT_RCNT := by
  intro e he
  unfold deactCountRegs at he
  obtain he | he := List.mem_append.1 he <;> split at he
  · rw [List.mem_singleton.1 he]
  · cases he
  · rw [List.mem_singleton.1 he]
  · cases he

/-- What a slot keeps of a deactivation that has ended (R108). -/
def SlotX.deactEnded (x : SlotX) : SlotX :=
  { x with seq := none, toClinker := false, noFollow := false, forcedRemoval := false,
           reinserted := false, coldAct := false, armed := false, opening := false }

/-- The chip once a deactivation has ended, before the slot's next state. -/
def Chip.deactEnded (c : Chip) (n : Nat) : Chip :=
  (((((c.deactCounted n).flag HTH_SLOT_ESTAT.INACTIVE n true).flag HTH_SLOT_STAT.REACT_WAIT n true).slotEvt HTH_SLOT_EVT.DEACT_DONE
    n)).modSlot n SlotX.deactEnded

/-- What the end of a deactivation changes before the slot's next state. -/
def deactEnd (c : Chip) (n : Nat) : Change :=
  { regs := [(⟨HTH_SLOT_EVT.DEACT_DONE, n⟩, 1), (⟨HTH_SLOT_STAT.REACT_WAIT, n⟩, 1), (⟨HTH_SLOT_ESTAT.INACTIVE, n⟩, 1)]
      ++ deactCountRegs c n,
    slots := [(n, (c.slot n).deactEnded)],
    events := [⟨0x14, n, c.causeWord n, false⟩] }

theorem Chip.deactEnded_of (c : Chip) (n : Nat) : (deactEnd c n).Of c (c.deactEnded n) := by
  have hflags := (((c.deactCounted_of n).flag (f := HTH_SLOT_ESTAT.INACTIVE) rfl n true).flag (f := HTH_SLOT_STAT.REACT_WAIT) rfl n
    true).flag (f := HTH_SLOT_EVT.DEACT_DONE) rfl n true
  have hword : ((((c.deactCounted n).flag HTH_SLOT_ESTAT.INACTIVE n true).flag HTH_SLOT_STAT.REACT_WAIT n true).flag
      HTH_SLOT_EVT.DEACT_DONE n true).causeWord n = c.causeWord n := Chip.word_congr fun lo => by
    rw [hflags.reg, Change.reg_of_ne rfl]
    simp only [List.forall_mem_cons]
    refine ⟨by simp, by simp, by simp, fun e he hk => ?_⟩
    have hfld := deactCountRegs_fld e he
    rw [hk] at hfld
    cases hfld
  unfold Chip.deactEnded Chip.slotEvt
  dsimp only
  rw [if_pos rfl, hword]
  exact (hflags.raise 0x14 n (c.causeWord n) false).modSlot_first rfl n SlotX.deactEnded

/-- No class trial and no slot reset, and the slot goes to OFF (R108). -/
theorem Chip.inactive_off {c : Chip} {n : Nat} {react ins : Bool} (hst : c.slotState n = stDEACT) (hr : (c.slot n).resetPend = false)
    (hc : c.get HTH_SLOT_CAUSE.CAUSE n ≠ cauNEXT) (hf : c.follow n = .off react ins) :
    c.inactive n =
      (let c1 := (if isOperator n then (c.deactEnded n).put HTH_SLOT_STAT.TRIAL_CLASS n 3 else c.deactEnded n).setSlotState n stOFF
       let c2 := c1.modSlot n (fun x => { x with schedReact := react })
       if ins then c2.flag HTH_SLOT_STAT.INS_PEND n true else c2).evict n := by
  unfold Chip.inactive
  dsimp only
  rw [if_neg (by simp [hst]), hf]
  simp only [hc, false_and, if_false, hr, Bool.false_eq_true]
  rfl

/-- The card is gone, and the slot goes to ABSENT (R88, R108). -/
theorem Chip.inactive_absent {c : Chip} {n : Nat} (hst : c.slotState n = stDEACT) (hr : (c.slot n).resetPend = false)
    (hf : c.follow n = .absent) :
    c.inactive n = (((c.deactEnded n).trialReset n).setSlotState n stABSENT).evict n := by
  unfold Chip.inactive
  dsimp only
  rw [if_neg (by simp [hst]), hf]
  dsimp only
  rw [if_neg (by simp [hr])]
  rfl

variable {c : Chip} {n : Nat}

/-- The class trial starts over at C at an operator slot (R98). -/
theorem Change.Of.trialOver {d : Change} {c' : Chip} (h : d.Of c c') (n : Nat) :
    ({ d with regs := (if isOperator n then [(⟨HTH_SLOT_STAT.TRIAL_CLASS, n⟩, 3)] else []) ++ d.regs } : Change).Of c
      (c'.trialReset n) := by
  unfold Chip.trialReset
  split
  · exact h.put_lt (by decide) n
  · exact h

theorem Chip.inactive_off_of {react ins : Bool} (hst : c.slotState n = stDEACT) (hr : (c.slot n).resetPend = false)
    (hq : (c.slot n).queue = []) (hc : c.get HTH_SLOT_CAUSE.CAUSE n ≠ cauNEXT) (hf : c.follow n = .off react ins) :
    ({ deactEnd c n with
       regs := (if ins then [(⟨HTH_SLOT_STAT.INS_PEND, n⟩, 1)] else []) ++ [(⟨HTH_SLOT_STAT.STATE, n⟩, stOFF)]
         ++ (if isOperator n then [(⟨HTH_SLOT_STAT.TRIAL_CLASS, n⟩, 3)] else []) ++ (deactEnd c n).regs,
       slots := [(n, { (c.slot n).deactEnded with schedReact := react })] } : Change).Of c (c.inactive n) := by
  rw [Chip.inactive_off hst hr hc hf]
  have hoff := (((c.deactEnded_of n).trialOver n).put_lt (f := HTH_SLOT_STAT.STATE) (v := stOFF) (by decide) n).modSlot_again rfl
    (fun x => { x with schedReact := react })
  dsimp only
  cases ins with
  | false => exact hoff.evict n (by rw [hoff.slot]; simp [tabFind, SlotX.deactEnded, hq])
  | true =>
    have hins := hoff.flag (f := HTH_SLOT_STAT.INS_PEND) rfl n true
    exact hins.evict n (by rw [hins.slot]; simp [tabFind, SlotX.deactEnded, hq])

theorem Chip.inactive_absent_of (hst : c.slotState n = stDEACT) (hr : (c.slot n).resetPend = false)
    (hq : (c.slot n).queue = []) (hf : c.follow n = .absent) :
    ({ deactEnd c n with
       regs := [(⟨HTH_SLOT_STAT.STATE, n⟩, stABSENT)] ++ (if isOperator n then [(⟨HTH_SLOT_STAT.TRIAL_CLASS, n⟩, 3)] else [])
         ++ (deactEnd c n).regs } : Change).Of c (c.inactive n) := by
  rw [Chip.inactive_absent hst hr hf]
  have habs := ((c.deactEnded_of n).trialOver n).put_lt (f := HTH_SLOT_STAT.STATE) (v := stABSENT) (by decide) n
  exact habs.evict n (by rw [habs.slot]; simp [deactEnd, tabFind, SlotX.deactEnded, hq])

end Inactive

/-! ## REACT_MIN elapses -/

section React

variable {c : Chip} {n : Nat}

/-- REACT_WAIT ends, and with it the schedule. -/
def Chip.reactOver (c : Chip) (n : Nat) : Chip :=
  (c.flag HTH_SLOT_STAT.REACT_WAIT n false).modSlot n (fun x => { x with schedReact := false })

theorem Chip.reactOver_of (c : Chip) (n : Nat) :
    ({ regs := [(⟨HTH_SLOT_STAT.REACT_WAIT, n⟩, 0)], slots := [(n, { c.slot n with schedReact := false })] } : Change).Of c
      (c.reactOver n) :=
  ((Change.Of.refl c).flag (f := HTH_SLOT_STAT.REACT_WAIT) rfl n false).modSlot_first rfl n (fun x => { x with schedReact := false })

theorem Chip.get_reactOver {f : Fld} (hf : f ≠ HTH_SLOT_STAT.REACT_WAIT) (i : Nat) : (c.reactOver n).get f i = c.get f i := by
  rw [(c.reactOver_of n).reg, Change.reg_of_ne rfl]
  simpa using hf.symm

/-- REACT_WAIT is no part of what an activation asks for. -/
theorem activation_reactOver (c : Chip) (n : Nat) : activation (c.reactOver n) n = activation c n := by
  have hclass : (c.reactOver n).trialClass n = c.trialClass n :=
    Chip.trialClass_congr (fun f hf i => Chip.get_reactOver (by rintro rfl; simp at hf) i)
  have hdmp : (c.reactOver n).dmp = c.dmp := (c.reactOver_of n).dmp
  unfold activation Chip.cost
  rw [hclass, hdmp, Chip.get_reactOver (by decide), Chip.get_reactOver (by decide)]

theorem Chip.reactExpire_eq (h : c.on HTH_SLOT_STAT.REACT_WAIT n = true) :
    c.reactExpire n = if (c.slot n).schedReact then (c.reactOver n).trigger n else c.reactOver n := by
  unfold Chip.reactExpire
  rw [if_pos h]
  rfl

end React

/-- Settles O9: the end of a deactivation is on record, and the slot goes where R108 has it go; REACT_MIN lets a scheduled reactivation
start. -/
theorem deactivationEnd : Obligations.DeactivationEnd := by
  unfold Obligations.DeactivationEnd
  refine ⟨fun n s hs hst hr hq hc => ⟨fun react ins hf => ?_, fun hf helec hfail => ?_⟩,
    fun n s hs hw => ⟨fun hsched hst hp => ?_, fun hsched => ?_⟩⟩
  · refine Effect.of_run (f := fun c => c.inactive n.val) rfl hs ((Chip.inactive_off_of hst hr hq hc hf).change_eq ?_)
    simp [deactEnd, deactCountRegs, SlotX.deactEnded]
  · refine Effect.of_run (f := fun c => c.inactive n.val) rfl hs ((Chip.inactive_absent_of hst hr hq hf).change_eq ?_)
    simp [deactEnd, deactCountRegs, SlotX.deactEnded, helec, hfail]
  · refine Effect.of_run (f := fun c => c.atSlot n.val fun c => c.reactExpire n.val) rfl hs.1 ?_
    have htrigger := Change.Of.trigger (c := s.chip.reactOver n) (n := n) ((Chip.get_reactOver (by decide) _).trans hst)
      ((Chip.get_reactOver (by decide) _).trans hp)
    rw [activation_reactOver] at htrigger
    rw [Chip.atSlot_up hs.2, Chip.reactExpire_eq hw, if_pos hsched]
    exact (s.chip.reactOver_of n).plus htrigger rfl
  · refine Effect.of_run (f := fun c => c.atSlot n.val fun c => c.reactExpire n.val) rfl hs.1 ?_
    rw [Chip.atSlot_up hs.2, Chip.reactExpire_eq hw, if_neg (by simp [hsched])]
    refine (s.chip.reactOver_of n).slots_eq fun i => ?_
    rw [tabFind_one]
    split
    · next hi => subst hi; simp [← hsched, tabFind]
    · rfl

end Sys2Proof.Machine
end

section
/-! Training of the Turf lane (R161–R166) up to its Cinder step. -/

namespace Sys2Proof.Machine

/-! ## Events that carry a register's word -/

/-- The word of a register with one more bit set. -/
theorem Chip.word_flag_congr {c c' : Chip} {r : RegName} {n : Nat} (h : ∀ lo, c'.get ⟨r, lo⟩ n = c.get ⟨r, lo⟩ n) (f : Fld) :
    (c'.flag f n true).word r n = (c.flag f n true).word r n :=
  Chip.word_congr fun lo => by rw [Chip.flag, Chip.flag, Chip.get_put, Chip.get_put, h]

/-- A field of a register that a change leaves alone. -/
theorem Change.Of.get_of_reg {d : Change} {c c' : Chip} (h : d.Of c c') (hr : d.resets = []) {r : RegName}
    (hd : ∀ e ∈ d.regs, e.1.fld.reg ≠ r) (lo n : Nat) : c'.get ⟨r, lo⟩ n = c.get ⟨r, lo⟩ n := by
  rw [h.reg, Change.reg_of_ne hr]
  exact fun e he hk => hd e he (by rw [hk])

/-- An event of the lane: its bit sets, and Ash hears of the register as it then reads (R185). -/
theorem Change.Of.turfEvt {d : Change} {c c' : Chip} (h : d.Of c c') (hr : d.resets = [])
    (hd : ∀ e ∈ d.regs, e.1.fld.reg ≠ .HTH_TURF_EVT) {f : Fld} (hf : f.width = 1) (n : Nat) :
    ({ d with regs := (⟨f, n⟩, 1) :: d.regs, events := d.events ++ [turfEvent c f n] } : Change).Of c (c'.turfEvt f n) := by
  have hevt := (h.flag hf n true).raise 0x1A n ((c.flag f n true).word .HTH_TURF_EVT n) false
  unfold Chip.turfEvt
  dsimp only
  rw [Chip.word_flag_congr (fun lo => h.get_of_reg hr hd lo n)]
  exact hevt

/-! ## The lane of a slot -/

/-- A slot that a change leaves alone may stand among its slots. -/
theorem Change.Of.known {d : Change} {c c' : Chip} (h : d.Of c c') (hd : d.slots = []) (n : Nat) :
    ({ d with slots := [(n, c.slot n)] } : Change).Of c c' :=
  h.slots_eq fun i => by
    rw [hd, tabFind_one]
    split
    · next hi => subst hi; rfl
    · rfl

/-- C4 and C8 are held low (R161). -/
def SlotX.parkedTf (x : SlotX) : SlotX := { x with tf := { x.tf with parked := true } }

theorem Change.Of.lanePark {d : Change} {c c' : Chip} {n : Nat} {x : SlotX} (h : d.Of c c') (hd : d.slots = [(n, x)]) :
    ({ d with
       slots := [(n, x.parkedTf)]
       out := d.out ++ if x.tf.parked = true then [] else [.contact n .lane false] } : Change).Of c (c'.lanePark n) := by
  have hslot : c'.slot n = x := by rw [h.slot, hd, tabFind_one]; simp
  unfold Chip.lanePark
  rw [hslot]
  by_cases hp : x.tf.parked = true
  · rw [if_pos hp, if_pos hp, List.append_nil]
    refine h.slots_eq fun i => ?_
    have hx : x.parkedTf = x := by unfold SlotX.parkedTf; rw [← hp]
    rw [hd, hx]
  · rw [if_neg hp, if_neg hp]
    exact (h.modSlot_again hd SlotX.parkedTf).emit _

/-- Bits go out on the lane at a rate (R161, R169). -/
theorem Change.Of.laneDrive {d : Change} {c c' : Chip} {n : Nat} {x : SlotX} (h : d.Of c c') (hd : d.slots = [(n, x)])
    (rate : Nat) (bits : List Bool) :
    ({ d with
       slots := [(n, { x with tf := { x.tf with parked := false } })]
       out := d.out ++ [.lane n rate bits] } : Change).Of c (c'.laneDrive n rate bits) :=
  (h.modSlot_again hd fun x => { x with tf := { x.tf with parked := false } }).emit _

/-! ## One attempt -/

section Attempt

variable {c : Chip} {n : Nat}

/-- A training attempt that fails where a lower rate is left (R164). -/
def trainFailed (c : Chip) (n phase rate : Nat) : Change :=
  { regs := [(⟨HTH_TURF_EVT.TRAIN_FAIL, n⟩, 1), (⟨HTH_TURF_LAST.FAIL_PHASE, n⟩, phase)],
    slots := [(n, { c.slot n with tf := { (c.slot n).tf with phase := .phaseA, tryRate := rate, parked := true } })],
    events := [turfEvent c HTH_TURF_EVT.TRAIN_FAIL n], out := (if (c.slot n).tf.parked = true then [] else [.contact n .lane false]) }

theorem Chip.trainFail_of {phase rate : Nat} (hp : phase < 2 ^ HTH_TURF_LAST.FAIL_PHASE.width)
    (hf : fallback (c.slot n).tf.rates (c.slot n).tf.tryRate = some rate) :
    (trainFailed c n phase rate).Of c (c.trainFail n phase) := by
  have hphase := (Change.Of.refl c).put_lt (f := HTH_TURF_LAST.FAIL_PHASE) (v := phase) hp n
  have hevt := hphase.turfEvt (f := HTH_TURF_EVT.TRAIN_FAIL) rfl (by simp) rfl n
  unfold Chip.trainFail
  dsimp only
  rw [hf]
  exact ((hevt.known rfl n).lanePark rfl).modSlot_again rfl fun x => { x with tf := { x.tf with phase := .phaseA, tryRate := rate } }

/-- Phase A goes out (R162). -/
theorem Chip.trainStart_of (h : (c.slot n).tf.phase = .phaseA) :
    ({ regs := [(⟨HTH_TURF_LAST.ATTEMPTS, n⟩, c.satInc HTH_TURF_LAST.ATTEMPTS n)],
       slots := [(n, { c.slot n with tf := { (c.slot n).tf with phase := .phaseB, parked := false } })],
       out := [.lane n (rateCode (c.slot n).tf.tryRate) (phaseBits (c.slot n).tf.seed)] } : Change).Of c (c.trainStart n) := by
  unfold Chip.trainStart
  dsimp only
  rw [if_pos h]
  exact ((((Change.Of.refl c).incSat HTH_TURF_LAST.ATTEMPTS n).known rfl n).modSlot_again rfl
    fun x => { x with tf := { x.tf with phase := .phaseB } }).laneDrive rfl _ _

/-- The bits of phase B are as they should be, and LINK_UP follows (R162, R163). -/
theorem Chip.trainB_good {bits rest : List Bool} (h : (c.slot n).tf.phase = .phaseB) (hsfd : afterSfd bits = some rest)
    (hbits : rest.take 512 = prbs15 512 ((c.slot n).tf.seed ^^^ 0x7FFF)) :
    ({ slots := [(n, { c.slot n with tf := { (c.slot n).tf with phase := .linkUp, parked := false } })],
       out := [.lane n (rateCode (c.slot n).tf.tryRate) (turfFrame 2 false [0x01])] } : Change).Of c (c.trainB n bits) := by
  unfold Chip.trainB
  dsimp only
  rw [h, hsfd]
  dsimp only
  rw [if_pos hbits]
  exact (((Change.Of.refl c).known rfl n).modSlot_again rfl fun x => { x with tf := { x.tf with phase := .linkUp } }).laneDrive rfl _ _

theorem Chip.trainB_bad {bits rest : List Bool} (h : (c.slot n).tf.phase = .phaseB) (hsfd : afterSfd bits = some rest)
    (hbits : rest.take 512 ≠ prbs15 512 ((c.slot n).tf.seed ^^^ 0x7FFF)) : c.trainB n bits = c.trainFail n 2 := by
  unfold Chip.trainB
  dsimp only
  rw [h, hsfd]
  dsimp only
  rw [if_neg hbits]

theorem Chip.trainB_none {bits : List Bool} (hsfd : afterSfd bits = none) : c.trainB n bits = c := by
  unfold Chip.trainB
  dsimp only
  rw [hsfd]
  split <;> simp_all

end Attempt

/-! ## LINK_UP_ACK, and the Cinder step -/

/-- The Cinder step of NEGOTIATE begins (R96). -/
theorem Change.Of.negCinder {d : Change} {c c' : Chip} {n : Nat} {x : SlotX} (h : d.Of c c') (hd : d.slots = [(n, x)])
    (hs : d.sess = []) :
    ({ d with
       regs := (⟨CRD_SESS_STAT.SESS, n⟩, ssESTABLISHING) :: d.regs
       slots := [(n, { x with neg := .cinder })]
       sess := [(n, { c.sessOf n with cin := (c.sessOf n).cin.map (fun k => { k with phase := .beginWait }) })] } : Change).Of c
      (c'.negCinder n) := by
  have hput := (h.modSlot_again hd fun x => { x with neg := .cinder }).put_lt (f := CRD_SESS_STAT.SESS) (v := ssESTABLISHING)
    (by decide) n
  have hsess := hput.setSess n { c.sessOf n with cin := (c.sessOf n).cin.map (fun k => { k with phase := .beginWait }) }
  have hsame : (((c'.modSlot n fun x => { x with neg := .cinder }).put CRD_SESS_STAT.SESS n ssESTABLISHING).sessOf n) = c.sessOf n := by
    rw [hput.sessOf, hs]; rfl
  unfold Chip.negCinder Chip.cinBegin Chip.modSess
  rw [hsame]
  exact hsess.change_eq (by rw [Change.setSess, hs])

/-- OPEN is over in NEGOTIATE, and the Cinder step begins (R160). -/
theorem Change.Of.turfOver_open {d : Change} {c c' : Chip} {n : Nat} {x : SlotX} {ex : Exch} (h : d.Of c c') (hd : d.slots = [(n, x)])
    (hs : d.sess = []) (hx : x.cur = some ex) (hu : ex.use = .turfOpen) :
    ({ d with
       regs := (⟨CRD_SESS_STAT.SESS, n⟩, ssESTABLISHING) :: d.regs
       slots := [(n, { x with cur := none, t1 := T1X.init, neg := .cinder })]
       sess := [(n, { c.sessOf n with cin := (c.sessOf n).cin.map (fun k => { k with phase := .beginWait }) })] } : Change).Of c
      (c'.turfOver n) := by
  have hcur : (c'.slot n).cur = some ex := by rw [h.slot, hd, tabFind_one]; simpa using hx
  unfold Chip.turfOver
  rw [hcur]
  dsimp only
  rw [hu]
  exact (h.modSlot_again hd fun x => { x with cur := none, t1 := T1X.init }).negCinder rfl hs

theorem Chip.laneRx_ctrl2 {c : Chip} {n : Nat} {bits : List Bool} (h : turfParse bits = .ctrl 2) (hp : (c.slot n).tf.phase = .linkUp) :
    c.laneRx n bits = c.trainUp n := by
  unfold Chip.laneRx
  rw [h]
  exact if_pos hp

/-- The code of a rate fits its field (R185). -/
theorem rateCode_lt (bit : Nat) : rateCode bit < 2 ^ HTH_TURF_STAT.RATE.width := by
  unfold rateCode
  repeat' split
  all_goals decide

/-- The lane is UP after OPEN (R162, R166, R174, R185). -/
theorem Chip.trainUp_of {c : Chip} {n : Nat} {ex : Exch} (hp : (c.slot n).tf.phase = .linkUp) (hres : (c.slot n).tf.isResume = false)
    (hc : (c.slot n).cur = some ex) (hu : ex.use = .turfOpen) :
    ({ regs := [(⟨CRD_SESS_STAT.SESS, n⟩, ssESTABLISHING), (⟨HTH_TURF_EVT.TRAIN_OK, n⟩, 1), (⟨HTH_TURF_LAST.CAUSE, n⟩, 0),
         (⟨HTH_TURF_STAT.SEQ, n⟩, 0), (⟨HTH_TURF_STAT.RATE, n⟩, rateCode (c.slot n).tf.tryRate), (⟨HTH_TURF_STAT.LANE, n⟩, lnUP)],
       slots := [(n, { c.slot n with
         cur := none, t1 := T1X.init, neg := .cinder,
         tf := { (c.slot n).tf with
           phase := .off, lastRate := (c.slot n).tf.tryRate, retrainDue := false, retrainNow := false,
           openRates := (c.slot n).tf.rates, parked := true } })],
       sess := [(n, { c.sessOf n with cin := (c.sessOf n).cin.map (fun k => { k with phase := .beginWait }) })],
       events := [turfEvent c HTH_TURF_EVT.TRAIN_OK n],
       out := (if (c.slot n).tf.parked = true then [] else [.contact n .lane false]) } : Change).Of c (c.trainUp n) := by
  have htf := ((Change.Of.refl c).known rfl n).modSlot_again rfl fun x => { x with tf := { x.tf with
    phase := .off, lastRate := x.tf.tryRate, retrainDue := false, retrainNow := false,
    openRates := if x.tf.isResume then x.tf.openRates else x.tf.rates } }
  have hrate := (htf.put_lt (f := HTH_TURF_STAT.LANE) (v := lnUP) (by decide) n).put_lt (rateCode_lt (c.slot n).tf.tryRate) n
  have hregs := (hrate.flag (f := HTH_TURF_STAT.SEQ) rfl n false).put_lt (f := HTH_TURF_LAST.CAUSE) (v := 0) (by decide) n
  have hevt := hregs.turfEvt (f := HTH_TURF_EVT.TRAIN_OK) rfl (by simp) rfl n
  unfold Chip.trainUp
  dsimp only
  rw [if_pos hp, if_neg (show ¬(c.slot n).tf.isResume = true by simp [hres])]
  exact ((hevt.lanePark rfl).turfOver_open rfl rfl hc hu).change_eq (by simp [hres, SlotX.parkedTf])

/-- What a command does at a slot whose bank domain is on. -/
theorem Effect.atSlot {i : Instr} {s : State} {n : SlotId} {f : Chip → Chip} {d : Change} (hs : s.At n)
    (hi : exec i s = .next (s.run fun c => c.atSlot n.val f)) (h : d.Of s.chip (f s.chip)) : Effect i s d := by
  refine Effect.of_run (f := fun c => c.atSlot n.val f) hi hs.1 ?_
  rw [Chip.atSlot_up hs.2]
  exact h

/-- Settles O12: the phases of an attempt, its ends, and the lane UP. -/
theorem turfTraining : Obligations.TurfTraining := by
  unfold Obligations.TurfTraining
  refine fun n s hs => ⟨fun hp => Effect.atSlot hs rfl (Chip.trainStart_of hp), fun bits rest hp hsfd hbits =>
    Effect.atSlot hs rfl (Chip.trainB_good hp hsfd hbits), fun rate bits rest hp hf hsfd hbits => Effect.atSlot hs rfl ?_,
    fun bits hsfd => Effect.atSlot hs rfl ((Change.Of.refl _).eq (Chip.trainB_none hsfd)), fun rate hp hf => Effect.atSlot hs rfl ?_,
    fun rate hp hf => Effect.atSlot hs rfl ?_, fun bits ex hb hp hres hc hu => Effect.atSlot hs rfl ?_⟩
  · exact (Chip.trainFail_of (by decide) hf).eq (Chip.trainB_bad hp hsfd hbits)
  · exact (Chip.trainFail_of (by decide) hf).eq (if_pos hp)
  · exact (Chip.trainFail_of (by decide) hf).eq (if_pos hp)
  · exact (Chip.trainUp_of hp hres hc hu).eq (Chip.laneRx_ctrl2 hb hp)

end Sys2Proof.Machine
end

section
/-! Deactivations that a command starts once it has changed something else, and the steps of NEGOTIATE (R96, R127, R134, R146, R275). -/

namespace Sys2Proof.Machine

/-! ## A deactivation after other changes -/

/-- What a deactivation goes by besides its slot (R101–R105). -/
def deactFields : List Fld := [HTH_SLOT_STAT.STATE, HTH_TURF_STAT.LANE, HTH_SLOT_ESTAT.SW_CLOSED]

/-- A change that leaves a deactivation as it would have been, but for the slot. -/
structure Change.Apart (d : Change) : Prop where
  regs : ∀ e ∈ d.regs, e.1.fld ∉ deactFields
  resets : d.resets = []
  sess : d.sess = []
  ctxs : d.ctxs = []
  dmp : d.dmp = none
  ember : d.ember = none

section Apart

variable {c c' : Chip} {d : Change} {n cause : Nat} {k : SeqKind}

theorem Change.Apart.get (ha : d.Apart) (h : d.Of c c') {f : Fld} (hf : f ∈ deactFields) (i : Nat) : c'.get f i = c.get f i := by
  rw [h.reg, Change.reg_of_ne ha.resets]
  rintro e he rfl
  exact ha.regs e he hf

/-- The deactivation of a slot that other changes have touched. -/
theorem Change.Of.startDeact {x : SlotX} (h : d.Of c c') (ha : d.Apart) (hd : d.slots = [(n, x)]) (hb : (c.setSlot n x).Bare n)
    (hc : cause < 64) (h1 : 1 ≤ c.slotState n) (h7 : c.slotState n ≤ 7) :
    (({ d with slots := [] } : Change).plus (deactivation (c.setSlot n x) n k cause)).Of c (c'.startDeact n k cause) := by
  have hslot : c'.slot n = (c.setSlot n x).slot n := by rw [h.slot, hd, tabFind_one, Chip.slot_setSlot_self]; simp
  have hstate : c'.slotState n = c.slotState n := ha.get h (by simp [deactFields]) n
  have hbare : c'.Bare n := hb.of_slot hslot (by rw [h.dmp, ha.dmp]; rfl) (fun i => by rw [h.ctx, ha.ctxs]; rfl)
    (by rw [h.ember, ha.ember]; rfl)
  have hde := Chip.startDeact_of c' n k cause hbare hc (by rw [hstate]; exact h1) (by rw [hstate]; exact h7)
  rw [deactivation_congr (c := c.setSlot n x) hslot (by rw [h.sessOf, ha.sess]; rfl) (ha.get h (by simp [deactFields]) n)
    (ha.get h (by simp [deactFields]) n) hstate] at hde
  refine (h.plus hde rfl).slots_eq fun i => ?_
  rw [Change.plus, hd]
  simp only [deactivation, List.cons_append, List.nil_append, tabFind]
  split <;> rfl

/-- One that they have not touched. -/
theorem Change.Of.startDeact_bare (h : d.Of c c') (ha : d.Apart) (hd : d.slots = []) (hb : c.Bare n)
    (hc : cause < 64) (h1 : 1 ≤ c.slotState n) (h7 : c.slotState n ≤ 7) :
    (d.plus (deactivation c n k cause)).Of c (c'.startDeact n k cause) := by
  have hslot : (c.setSlot n (c.slot n)).slot n = c.slot n := Chip.slot_setSlot_self ..
  have hde := (h.known hd n).startDeact (k := k) { ha with } rfl (hb.of_slot hslot rfl (fun _ => rfl) rfl) hc h1 h7
  rw [deactivation_congr hslot rfl rfl rfl rfl] at hde
  exact hde.change_eq (by rw [← hd])

end Apart

/-- A protocol error on record (R154). -/
theorem Change.Of.protLast {d : Change} {c c' : Chip} (h : d.Of c c') (n phase kind : Nat) :
    ({ d with regs := errRegs n phase kind ++ d.regs } : Change).Of c (c'.protLast n phase kind) :=
  (h.put HTH_PROT_LAST.PHASE n phase).put HTH_PROT_LAST.KIND n kind

/-- An event of the protocol engines: its bit sets, and Ash hears of the register as it then reads (R152). -/
theorem Change.Of.protEvt {d : Change} {c c' : Chip} (h : d.Of c c') (hr : d.resets = [])
    (hd : ∀ e ∈ d.regs, e.1.fld.reg ≠ .HTH_PROT_EVT) {f : Fld} (hf : f.width = 1) (n : Nat) :
    ({ d with regs := (⟨f, n⟩, 1) :: d.regs, events := d.events ++ [protEvent c f n] } : Change).Of c (c'.protEvt f n) := by
  have hevt := (h.flag hf n true).raise 0x19 n ((c.flag f n true).word .HTH_PROT_EVT n) false
  unfold Chip.protEvt
  dsimp only
  rw [Chip.word_flag_congr (fun lo => h.get_of_reg hr hd lo n)]
  exact hevt

theorem errRegs_apart (n phase kind : Nat) : ({ regs := errRegs n phase kind } : Change).Apart :=
  ⟨by simp [errRegs, deactFields], rfl, rfl, rfl, rfl, rfl⟩

/-! ## The PPS response -/

section Steps

variable {c : Chip} {n : Nat}

/-- A failure of NEGOTIATE on record (R88, R152). -/
theorem Chip.negFault_of (hst : c.slotState n = stNEGOTIATE) (hb : c.Bare n) (phase kind : Nat) :
    (({ regs := errRegs n phase kind } : Change).plus (deactivation c n .commanded cauNEGFAIL)).Of c (c.negFault n phase kind) :=
  ((Change.Of.refl c).protLast n phase kind).startDeact_bare (errRegs_apart n phase kind) rfl hb (by decide) (by rw [hst]; decide)
    (by rw [hst]; decide)

theorem Chip.ppsRsp_taken {bytes : List Byte} (hst : c.slotState n = stNEGOTIATE) (hneg : (c.slot n).neg = .pps)
    (hj : ppsJudge (c.slot n).pps bytes ≠ .refused) :
    ({ regs := [(⟨HTH_PROT_STAT.PPS_DONE, n⟩, 1)], slots := [(n, { c.slot n with neg := .clock, pps := bytes })] } : Change).Of c
      (c.ppsRsp n bytes true) := by
  unfold Chip.ppsRsp
  dsimp only
  rw [if_pos ⟨hst, hneg⟩, if_neg (by simp), if_neg hj]
  exact ((Change.Of.refl c).flag (f := HTH_PROT_STAT.PPS_DONE) rfl n true).modSlot_first rfl n fun x =>
    { x with neg := .clock, pps := bytes }

theorem Chip.ppsRsp_fault {bytes : List Byte} {parityOk : Bool} (hst : c.slotState n = stNEGOTIATE) (hneg : (c.slot n).neg = .pps)
    (hj : parityOk = false ∨ ppsJudge (c.slot n).pps bytes = .refused) :
    c.ppsRsp n bytes parityOk = c.negFault n 2 (if parityOk then kPPS else kPARITY) := by
  unfold Chip.ppsRsp
  dsimp only
  rw [if_pos ⟨hst, hneg⟩]
  cases parityOk with
  | false => rfl
  | true =>
    rw [if_neg (by simp), if_pos (hj.resolve_left (by simp))]
    rfl

/-! ## The clock change -/

/-- The protocol, F and D of a clock change, and CLK at the operating frequency (R125, R127). -/
def clockRegs (c : Chip) (n t p1 : Nat) : List (Key × Nat) :=
  clkRegs n (c.opClk n (p1 / 16))
    ++ [(⟨HTH_PROT_STAT.DI, n⟩, p1 % 16), (⟨HTH_PROT_STAT.FI, n⟩, p1 / 16), (⟨HTH_PROT_STAT.PROT, n⟩, t + 1)]

/-- The chip with these. -/
def Chip.clocked (c : Chip) (n t p1 : Nat) : Chip :=
  let c' := c.useParams n t (p1 / 16) (p1 % 16)
  c'.setClk n (c'.opClk n (p1 / 16))

theorem Chip.opClk_useParams (c : Chip) (n t fi di f : Nat) : (c.useParams n t fi di).opClk n f = c.opClk n f := by
  simp [Chip.opClk, Chip.useParams, Chip.on, Chip.get_put]

theorem Chip.clocked_of (c : Chip) (n : Nat) {t : Nat} (ht : t < 2) {p1 : Nat} (hp : p1 < 256) :
    ({ regs := clockRegs c n t p1,
       slots := [(n, { c.slot n with fastEdges := fastAt (c.slot n) (c.opClk n (p1 / 16)) })] } : Change).Of c (c.clocked n t p1) := by
  have hprot : t + 1 < 2 ^ HTH_PROT_STAT.PROT.width := by simp [Fld.width, Fld.spec, regFields]; omega
  have hfi : p1 / 16 < 2 ^ HTH_PROT_STAT.FI.width := by simp [Fld.width, Fld.spec, regFields]; omega
  have hdi : p1 % 16 < 2 ^ HTH_PROT_STAT.DI.width := by simp [Fld.width, Fld.spec, regFields]; omega
  have hparams := (((Change.Of.refl c).put_lt hprot n).put_lt hfi n).put_lt hdi n
  unfold Chip.clocked
  dsimp only
  rw [Chip.opClk_useParams]
  exact hparams.setClk n _

/-- At the clock change the step after it begins (R96). -/
theorem Chip.clkChange_eq {p0 p1 : Byte} (hst : c.slotState n = stNEGOTIATE) (hneg : (c.slot n).neg = .clock)
    (h0 : (c.slot n).pps.getD 1 0 = p0) (h1 : (if p0.toNat.testBit 4 then (c.slot n).pps.getD 2 0 else 0x11) = p1) :
    c.clkChange n = (c.clocked n (p0.toNat % 16) p1.toNat).negAfterPps n := by
  have hp1 : (if p0.toNat.testBit 4 then ((c.slot n).pps.getD 2 0).toNat else 0x11) = p1.toNat := by
    rw [← h1]
    split <;> rfl
  unfold Chip.clkChange
  dsimp only
  rw [if_pos ⟨hst, hneg⟩, h0, hp1]
  rfl

/-- The clock change writes PROT, and of what S(IFS request) is made of nothing else. -/
theorem Chip.get_clocked {t p1 : Nat} (ht : t < 2) (hp : p1 < 256) {f : Fld}
    (hf : f ≠ HTH_PROT_STAT.PROT ∧ f ≠ HTH_PROT_STAT.FI ∧ f ≠ HTH_PROT_STAT.DI ∧ f.reg ≠ .HTH_PROT_CLKDIV) (i : Nat) :
    (c.clocked n t p1).get f i = c.get f i := by
  obtain ⟨hprot, hfi, hdi, hclk⟩ := hf
  rw [(c.clocked_of n ht hp).reg, Change.reg_of_ne rfl]
  simp only [clockRegs, clkRegs, List.cons_append, List.nil_append, List.forall_mem_cons]
  refine ⟨?_, ?_, ?_, hdi.symm, hfi.symm, hprot.symm, by simp⟩ <;> (rintro rfl; exact hclk rfl)

theorem Chip.get_clocked_prot {t p1 : Nat} (ht : t < 2) (hp : p1 < 256) :
    (c.clocked n t p1).get HTH_PROT_STAT.PROT n = t + 1 := by
  rw [(c.clocked_of n ht hp).reg]
  simp [Change.reg, clockRegs, clkRegs, tabFind]

/-- The clock change holds no setting back and lets none go. -/
theorem Chip.cfg_clocked {t p1 : Nat} (ht : t < 2) (hp : p1 < 256) :
    (c.clocked n t p1).cfg HTH_PROT_CFG.IFSD n = c.cfg HTH_PROT_CFG.IFSD n := by
  have hslot := (c.clocked_of n ht hp).slot n
  rw [tabFind_one, if_pos rfl] at hslot
  unfold Chip.cfg
  rw [Chip.get_clocked ht hp (by simp), hslot]

/-- A block of T=1 goes out (R149). -/
theorem Change.Of.t1Put {d : Change} {c' : Chip} {x : SlotX} (h : d.Of c c') (hd : d.slots = [(n, x)]) (kind : T1Last) (b : List Byte) :
    ({ d with
       slots := [(n, { x with spoke := true, t1 := { x.t1 with last := kind, lastBlock := b } })]
       out := d.out ++ [.t1Block n b] } : Change).Of c (c'.t1Put n kind b) :=
  (h.modSlot_again hd fun x => { x with spoke := true, t1 := { x.t1 with last := kind, lastBlock := b } }).emit _

/-- S(IFS request) goes out (R146). -/
theorem Change.Of.t1Ifs {d : Change} {c' : Chip} {x : SlotX} (h : d.Of c c') (hd : d.slots = [(n, x)])
    (hv : c'.cfg HTH_PROT_CFG.IFSD n = c.cfg HTH_PROT_CFG.IFSD n) (he : c'.on HTH_PROT_STAT.EDC n = c.on HTH_PROT_STAT.EDC n) :
    ({ d with
       slots := [(n, { x with spoke := true, t1 := { x.t1 with
         ifsReq := some (c.cfg HTH_PROT_CFG.IFSD n), retries := 0, silent := true, last := .sReq,
         lastBlock := c.t1Bytes n 0xC1 [BitVec.ofNat 8 (c.cfg HTH_PROT_CFG.IFSD n)] } })]
       out := d.out ++ [.t1Block n (c.t1Bytes n 0xC1 [BitVec.ofNat 8 (c.cfg HTH_PROT_CFG.IFSD n)])] } : Change).Of c (c'.t1Ifs n) := by
  have hask := h.modSlot_again hd fun x => { x with t1 := { x.t1 with
    ifsReq := some (c.cfg HTH_PROT_CFG.IFSD n), retries := 0, silent := true } }
  have hbytes : ∀ f pcb inf, (c'.modSlot n f).t1Bytes n pcb inf = c.t1Bytes n pcb inf := fun f pcb inf => by
    have hf : (c'.modSlot n f).on HTH_PROT_STAT.EDC n = c.on HTH_PROT_STAT.EDC n := he
    simp only [Chip.t1Bytes, hf]
  unfold Chip.t1Ifs
  dsimp only
  rw [hbytes, hv]
  exact hask.t1Put rfl _ _

/-- T=1 starts with S(IFS request) where IFSD is not 32. -/
theorem Chip.negAfterPps_t1 {p1 : Nat} (hp : p1 < 256) (hv : c.cfg HTH_PROT_CFG.IFSD n ≠ 32) :
    ({ regs := clockRegs c n 1 p1,
       slots := [(n, { c.slot n with
         neg := .ifs, spoke := true, fastEdges := fastAt (c.slot n) (c.opClk n (p1 / 16)), t1 := { (c.slot n).t1 with
         ifsReq := some (c.cfg HTH_PROT_CFG.IFSD n), retries := 0, silent := true, last := .sReq,
         lastBlock := c.t1Bytes n 0xC1 [BitVec.ofNat 8 (c.cfg HTH_PROT_CFG.IFSD n)] } })]
       out := [.t1Block n (c.t1Bytes n 0xC1 [BitVec.ofNat 8 (c.cfg HTH_PROT_CFG.IFSD n)])] } : Change).Of c
      ((c.clocked n 1 p1).negAfterPps n) := by
  have hcfg := c.cfg_clocked (n := n) (t := 1) (by decide) hp
  have hedc : (c.clocked n 1 p1).on HTH_PROT_STAT.EDC n = c.on HTH_PROT_STAT.EDC n := by
    unfold Chip.on
    rw [Chip.get_clocked (by decide) hp (by simp)]
  unfold Chip.negAfterPps
  rw [if_pos ⟨Chip.get_clocked_prot (by decide) hp, by rw [hcfg]; exact hv⟩]
  refine ((c.clocked_of n (by decide) hp).modSlot_again rfl fun x => { x with neg := .ifs }).t1Ifs rfl ?_ ?_
  · unfold Chip.cfg at hcfg ⊢
    rw [Chip.modSlot, Chip.slot_setSlot_self]
    exact hcfg
  · exact hedc

/-- Under T=0 an operator slot goes on to its Cinder step. -/
theorem Chip.negAfterPps_t0 {p1 : Nat} (hop : isOperator n = true) (hp : p1 < 256) :
    ({ regs := (⟨CRD_SESS_STAT.SESS, n⟩, ssESTABLISHING) :: clockRegs c n 0 p1,
       slots := [(n, { c.slot n with neg := .cinder, fastEdges := fastAt (c.slot n) (c.opClk n (p1 / 16)) })],
       sess := [(n, { c.sessOf n with cin := (c.sessOf n).cin.map (fun k => { k with phase := .beginWait }) })] } : Change).Of c
      ((c.clocked n 0 p1).negAfterPps n) := by
  unfold Chip.negAfterPps
  rw [if_neg (by rw [Chip.get_clocked_prot (by decide) hp]; simp), Chip.negTurf, if_pos hop]
  exact (c.clocked_of n (by decide) hp).negCinder rfl rfl

/-! ## NEG_TMO -/

/-- CINDER_FAIL of a slot: its bit sets, and Ash hears of CINDER_ERR and the register as they then read (R396). -/
theorem Chip.drbgFail_of (c : Chip) (n : Nat) :
    ({ regs := [(⟨CRD_EVT.CINDER_FAIL, 0⟩, 1), (⟨CRD_SESS_STAT.CINDER_ERR, n⟩, 0x0D)],
       events := [⟨0x1B, n, 0x0D * 2 ^ 24 + (c.flag CRD_EVT.CINDER_FAIL 0 true).word .CRD_EVT 0, false⟩] } : Change).Of c
      ((c.put CRD_SESS_STAT.CINDER_ERR n 0x0D).crdSlotEvt CRD_EVT.CINDER_FAIL n) := by
  have hput := (Change.Of.refl c).put_lt (f := CRD_SESS_STAT.CINDER_ERR) (v := 0x0D) (by decide) n
  have hflag := hput.flag (f := CRD_EVT.CINDER_FAIL) rfl 0 true
  have herr : ((c.put CRD_SESS_STAT.CINDER_ERR n 0x0D).flag CRD_EVT.CINDER_FAIL 0 true).get CRD_SESS_STAT.CINDER_ERR n = 0x0D := by
    rw [hflag.reg]
    simp [Change.reg, tabFind]
  have hword := Chip.word_flag_congr (r := .CRD_EVT) (n := 0) (fun lo => hput.get_of_reg rfl (by simp) lo 0) CRD_EVT.CINDER_FAIL
  unfold Chip.crdSlotEvt
  dsimp only
  rw [herr, hword]
  exact hflag.raise _ _ _ false

/-- No Cinder exchange waits for the DRBG. -/
theorem Chip.negExpire_tmo (hst : c.slotState n = stNEGOTIATE) (h : (c.sessOf n).cin = none ∨ c.on CRD_STAT.DRBG_READY 0 = true) :
    c.negExpire n = c.startDeact n .commanded cauNEGTMO := by
  unfold Chip.negExpire
  dsimp only
  rw [if_pos (.inl hst)]
  obtain h | h := h
  · simp [h]
  · cases (c.sessOf n).cin <;> simp [h]

/-- A Cinder exchange waits for the DRBG (R275). -/
theorem Chip.negExpire_drbg {k : CinX} (hst : c.slotState n = stNEGOTIATE) (hk : (c.sessOf n).cin = some k)
    (hp : k.phase = .beginWait ∨ k.ephD = []) (hd : c.on CRD_STAT.DRBG_READY 0 = false) :
    c.negExpire n = ((c.put CRD_SESS_STAT.CINDER_ERR n 0x0D).crdSlotEvt CRD_EVT.CINDER_FAIL n).startDeact n .commanded cauNEGFAIL := by
  unfold Chip.negExpire
  dsimp only
  rw [if_pos (.inl hst), hk]
  simp [hp, hd, hst]

end Steps

/-- Settles O8: the PPS response, the clock change and the end of the time for NEGOTIATE. -/
theorem negotiationSteps : Obligations.NegotiationSteps := by
  unfold Obligations.NegotiationSteps
  refine fun n s hs hst => ⟨fun bytes hneg hj => Effect.atSlot hs rfl (Chip.ppsRsp_taken hst hneg hj),
    fun bytes parityOk hneg hj hb => Effect.atSlot hs rfl ?_, fun p0 p1 hneg h0 h1 hp hv => Effect.atSlot hs rfl ?_,
    fun p0 p1 hop hneg h0 h1 hp => Effect.atSlot hs rfl ?_, fun hb h => Effect.atSlot hs rfl ?_,
    fun k hb hk hp hd => Effect.atSlot hs rfl ?_⟩
  · rw [Chip.ppsRsp_fault hst hneg hj]
    exact Chip.negFault_of hst hb 2 _
  · rw [Chip.clkChange_eq hst hneg h0 h1, hp]
    exact Chip.negAfterPps_t1 p1.isLt hv
  · rw [Chip.clkChange_eq hst hneg h0 h1, hp]
    exact Chip.negAfterPps_t0 hop p1.isLt
  · rw [Chip.negExpire_tmo hst h]
    exact Chip.startDeact_of _ n .commanded _ hb (by decide) (by rw [hst]; decide) (by rw [hst]; decide)
  · rw [Chip.negExpire_drbg hst hk hp hd]
    exact (s.chip.drbgFail_of n).startDeact_bare ⟨by simp [deactFields], rfl, rfl, rfl, rfl, rfl⟩ rfl hb (by decide)
      (by rw [hst]; decide) (by rw [hst]; decide)

end Sys2Proof.Machine
end

section
/-! The ATR and Stoker's decision on it (R93–R99, R128–R130, R156). -/

namespace Sys2Proof.Machine

/-! ## An error on record before other registers -/

/-- An error record under one register of another kind. -/
theorem Change.Of.protLast_under {d : Change} {c c' : Chip} (h : d.Of c c') {e : Key × Nat} (hd : d.regs = [e])
    (he : e.1.fld.reg ≠ .HTH_PROT_LAST) (n phase kind : Nat) :
    ({ d with regs := e :: errRegs n phase kind } : Change).Of c (c'.protLast n phase kind) :=
  (h.protLast n phase kind).regs_find fun k => by
    have hkey : ∀ lo v, ((⟨⟨.HTH_PROT_LAST, lo⟩, n⟩, v) : Key × Nat).1 = k → e.1 ≠ k := by
      rintro lo v hk rfl
      exact he (by rw [← hk])
    rw [hd]
    simp only [errRegs, List.cons_append, List.nil_append, tabFind]
    by_cases hk : e.1 = k
    · rw [if_neg fun h => hkey _ _ h hk, if_neg fun h => hkey _ _ h hk, if_pos hk, if_pos hk]
    · rw [if_neg hk, if_neg hk]

/-! ## A character -/

section Atr

variable {c : Chip} {n : Nat} {b : Byte}

/-- The chip once a character of the ATR has come (R128). -/
def Chip.atrTaken (c : Chip) (n : Nat) (b : Byte) : Chip :=
  (c.modSlot n (fun x => { x with atr := (c.slot n).atr ++ [b] })).put HTH_SLOT_ATRLEN.ATR_LEN n ((c.slot n).atr ++ [b]).length

theorem Chip.atrTaken_of (c : Chip) (n : Nat) (b : Byte) :
    ({ regs := [(⟨HTH_SLOT_ATRLEN.ATR_LEN, n⟩, ((c.slot n).atr.length + 1) % 64)],
       slots := [(n, { c.slot n with atr := (c.slot n).atr ++ [b] })] } : Change).Of c (c.atrTaken n b) :=
  (((Change.Of.refl c).modSlot_first rfl n fun x => { x with atr := (c.slot n).atr ++ [b] }).put HTH_SLOT_ATRLEN.ATR_LEN n
    ((c.slot n).atr ++ [b]).length).regs_eq (by simp [Change.put, Fld.width, Fld.spec, regFields])

theorem Chip.atr_atrTaken : ((c.atrTaken n b).slot n).atr = (c.slot n).atr ++ [b] := by
  rw [(c.atrTaken_of n b).slot, tabFind_one, if_pos rfl]

theorem Chip.get_atrTaken {f : Fld} (hf : f ≠ HTH_SLOT_ATRLEN.ATR_LEN) (i : Nat) : (c.atrTaken n b).get f i = c.get f i := by
  rw [(c.atrTaken_of n b).reg, Change.reg_of_ne rfl]
  simpa using hf.symm

/-- What a character does that arrives in its window while the ATR is not complete. -/
theorem Chip.atrChar_inWindow (hst : c.slotState n = stATRWAIT) (hd : (c.slot n).atrDone = false) (parityOk : Bool) :
    c.atrChar n b parityOk true =
      if !parityOk then (c.atrTaken n b).atrFault n kPARITY
      else match atrJudge (!isOperator n) (c.get HTH_PROT_CFG.PROT_SEL n) ((c.slot n).atr ++ [b]) with
        | .more => c.atrTaken n b
        | .bad k => (c.atrTaken n b).atrFault n k
        | .whole => (c.atrTaken n b).atrWhole n := by
  have hsel : (c.atrTaken n b).get HTH_PROT_CFG.PROT_SEL n = c.get HTH_PROT_CFG.PROT_SEL n := Chip.get_atrTaken (by simp) n
  unfold Chip.atrChar
  dsimp only
  rw [if_neg (by simp [hst, hd, stATRWAIT, stNEGOTIATE]), if_neg (by simp [hst]), if_neg (by simp), ← hsel]
  rfl

/-- A faulty ATR is on record, and the slot deactivates (R93, R130). -/
theorem Chip.atrFault_taken (hst : c.slotState n = stATRWAIT) (hb : c.Bare n) (kind : Nat) :
    (({ regs := (⟨HTH_SLOT_ATRLEN.ATR_LEN, n⟩, ((c.slot n).atr.length + 1) % 64) :: errRegs n 1 kind } : Change).plus
      (deactivation (c.setSlot n { c.slot n with atr := (c.slot n).atr ++ [b] }) n .commanded cauATRBAD)).Of c
      ((c.atrTaken n b).atrFault n kind) := by
  have hbare : (c.setSlot n { c.slot n with atr := (c.slot n).atr ++ [b] }).Bare n :=
    hb.congr (by rw [Chip.slot_setSlot_self]; exact hb.queue) (by rw [Chip.slot_setSlot_self]; exact hb.wait)
      (by rw [Chip.slot_setSlot_self]; exact hb.cur) (by rw [Chip.slot_setSlot_self]; exact hb.measuring) rfl (fun _ => rfl) rfl
  exact ((c.atrTaken_of n b).protLast_under rfl (by simp) n 1 kind).startDeact ⟨by simp [errRegs, deactFields], rfl, rfl, rfl, rfl, rfl⟩
    rfl hbare (by decide) (by rw [hst]; decide) (by rw [hst]; decide)

/-- A character outside its window takes no place in the ATR. -/
theorem Chip.atrChar_early (hst : c.slotState n = stATRWAIT) (hd : (c.slot n).atrDone = false) (parityOk : Bool) :
    c.atrChar n b parityOk false = c.atrFault n kTS := by
  unfold Chip.atrChar
  dsimp only
  rw [if_neg (by simp [hst, hd, stATRWAIT, stNEGOTIATE]), if_neg (by simp [hst]), if_pos (by simp)]

/-- After a complete ATR a character is STRAY (R131). -/
theorem Chip.atrChar_stray (hst : c.slotState n = stATRWAIT) (hd : (c.slot n).atrDone = true) (parityOk inWindow : Bool) :
    c.atrChar n b parityOk inWindow = c.protEvt HTH_PROT_EVT.STRAY n := by
  unfold Chip.atrChar
  dsimp only
  rw [if_pos (.inl ⟨hst, hd⟩)]

/-! ## A complete ATR -/

theorem Change.Of.atrParams {d : Change} {c' : Chip} (h : d.Of c c') (atr : List Byte) :
    ({ d with regs := atrRegs n atr ++ d.regs } : Change).Of c (c'.atrParams n atr) := by
  have hparams := ((((((h.put HTH_PROT_STAT.N_EGT n (((atrOf atr).byte 2 1).getD 0)).flag (f := HTH_PROT_STAT.SPEC_MODE) rfl n
    ((atrOf atr).byte 0 2).isSome).put HTH_PROT_WT.WI n (((atrOf atr).byte 2 2).getD 10)).put HTH_PROT_STAT.IFSC n
    (((atrOf atr).first 0 1).getD 32)).put HTH_PROT_WT.BWI n (((atrOf atr).first 1 1).getD 0x4D / 16)).put HTH_PROT_WT.CWI n
    (((atrOf atr).first 1 1).getD 0x4D % 16)).flag (f := HTH_PROT_STAT.EDC) rfl n ((((atrOf atr).first 2 1).getD 0).testBit 0)
  exact hparams.regs_eq (by simp [Change.put, atrRegs, Fld.width, Fld.spec, regFields])

/-- The marker that a module's ATR no longer has (R157). -/
def noMarkRegs (n : Nat) : List (Key × Nat) :=
  [(⟨HTH_TURF_STAT.MARK_OK, n⟩, 0), (⟨HTH_TURF_STAT.MOD_TRN, n⟩, 0), (⟨HTH_TURF_STAT.MOD_MAXF, n⟩, 0),
    (⟨HTH_TURF_STAT.MOD_RATES, n⟩, 0)]

/-- Values that later ones replace do not show. -/
theorem tabFind_shadowed {κ α : Type} [DecidableEq κ] {l m : List (κ × α)} (h : ∀ e ∈ m, (tabFind l e.1).isSome = true)
    (r : List (κ × α)) (k : κ) : tabFind (l ++ (m ++ r)) k = tabFind (l ++ r) k := by
  rw [tabFind_append, tabFind_append, tabFind_append]
  cases hl : tabFind l k with
  | some v => rfl
  | none =>
    have hm : tabFind m k = none := tabFind_eq_none fun e he hk => by
      have hsome := h e he
      rw [hk, hl] at hsome
      cases hsome
    rw [hm]
    rfl

theorem Change.Of.atrMarker {d : Change} {c' : Chip} (h : d.Of c c') (hr : d.resets = [])
    (hd : ∀ e ∈ d.regs, e.1.fld.reg ≠ .HTH_TURF_EVT) (atr : List Byte) :
    ({ d with
       regs := markRegs n atr ++ d.regs
       events := d.events ++ if isOperator n = false ∧ markOf (histOf atr) = .bad then [turfEvent c HTH_TURF_EVT.MARK_BAD n] else [] } :
      Change).Of c (c'.atrMarker n atr) := by
  unfold Chip.atrMarker markRegs
  cases hop : isOperator n with
  | true => simpa using h
  | false =>
    have hnone := (((h.put HTH_TURF_STAT.MOD_RATES n 0).put HTH_TURF_STAT.MOD_MAXF n 0).put HTH_TURF_STAT.MOD_TRN n 0).flag
      (f := HTH_TURF_STAT.MARK_OK) rfl n false
    cases hmark : markOf (histOf atr) with
    | none => simpa [Change.put] using hnone
    | bad =>
      have hbad := hnone.turfEvt (f := HTH_TURF_EVT.MARK_BAD) hr (by simpa [Change.put] using hd) rfl n
      simpa [Change.put] using hbad
    | ok rates maxf trn =>
      have hok := (((hnone.put HTH_TURF_STAT.MOD_RATES n rates).put HTH_TURF_STAT.MOD_MAXF n maxf).put HTH_TURF_STAT.MOD_TRN n trn).flag
        (f := HTH_TURF_STAT.MARK_OK) rfl n true
      have hlist := hok.regs_eq (l := [(⟨HTH_TURF_STAT.MARK_OK, n⟩, 1), (⟨HTH_TURF_STAT.MOD_TRN, n⟩, trn % 16),
          (⟨HTH_TURF_STAT.MOD_MAXF, n⟩, maxf % 256), (⟨HTH_TURF_STAT.MOD_RATES, n⟩, rates % 8)] ++ (noMarkRegs n ++ d.regs))
        (by simp [Change.put, noMarkRegs, Fld.width, Fld.spec, regFields])
      have hfind := hlist.regs_find (tabFind_shadowed (by simp [noMarkRegs, tabFind]) d.regs)
      simpa [Change.put] using hfind

/-- The chip once the parameters and the marker of a complete ATR are taken, before the class decision (R94, R129, R156). -/
def Chip.atrRead (c : Chip) (n : Nat) : Chip :=
  ((((c.flag HTH_SLOT_ATRLEN.ATR_VALID n true).slotEvt HTH_SLOT_EVT.ATR_DONE n).atrParams n (c.slot n).atr).atrMarker n
    (c.slot n).atr).modSlot n (fun x => { x with atrDone := true })

theorem Chip.atrWhole_eq (c : Chip) (n : Nat) :
    c.atrWhole n = match classDec ((c.atrRead n).slot n).trial ((c.atrRead n).trialClass n) (atrOf (c.slot n).atr).classes with
      | .stay => c.atrRead n
      | .next _ => (c.atrRead n).startDeact n .commanded cauNEXT
      | .decline => (c.atrRead n).startDeact n .commanded cauATRBAD := rfl

/-- What a complete ATR writes. -/
def atrReadRegs (n : Nat) (atr : List Byte) : List (Key × Nat) :=
  markRegs n atr ++ atrRegs n atr ++ [(⟨HTH_SLOT_EVT.ATR_DONE, n⟩, 1), (⟨HTH_SLOT_ATRLEN.ATR_VALID, n⟩, 1),
    (⟨HTH_SLOT_ATRLEN.ATR_LEN, n⟩, atr.length % 64)]

/-- The registers that it writes. -/
def atrRegNames : List RegName := [.HTH_TURF_STAT, .HTH_TURF_EVT, .HTH_PROT_STAT, .HTH_PROT_WT, .HTH_SLOT_EVT, .HTH_SLOT_ATRLEN]

theorem atrReadRegs_reg {n : Nat} {atr : List Byte} : ∀ e ∈ atrReadRegs n atr, e.1.fld.reg ∈ atrRegNames := by
  have hmark : ∀ e ∈ markRegs n atr, e.1.fld.reg ∈ atrRegNames := by
    unfold markRegs
    split
    · simp
    · cases markOf (histOf atr) <;> simp [atrRegNames]
  simp only [atrReadRegs, List.forall_mem_append]
  exact ⟨⟨hmark, by simp [atrRegs, atrRegNames]⟩, by simp [atrRegNames]⟩

/-- The chip after the last character, with the ATR read. -/
theorem Chip.atrRead_of (c : Chip) (n : Nat) (b : Byte) :
    ({ regs := atrReadRegs n ((c.slot n).atr ++ [b]),
       slots := [(n, { c.slot n with atr := (c.slot n).atr ++ [b], atrDone := true })],
       events := if isOperator n = false ∧ markOf (histOf ((c.slot n).atr ++ [b])) = .bad then
         [turfEvent c HTH_TURF_EVT.MARK_BAD n] else [] } : Change).Of c ((c.atrTaken n b).atrRead n) := by
  have hdone : ∀ c' : Chip, c'.slotEvt HTH_SLOT_EVT.ATR_DONE n = c'.flag HTH_SLOT_EVT.ATR_DONE n true := fun c' => by
    unfold Chip.slotEvt
    dsimp only
    rw [if_neg (by decide), if_neg (by decide), if_neg (by decide), if_neg (by decide)]
  unfold Chip.atrRead
  rw [Chip.atr_atrTaken, hdone]
  have hflags := ((c.atrTaken_of n b).flag (f := HTH_SLOT_ATRLEN.ATR_VALID) rfl n true).flag (f := HTH_SLOT_EVT.ATR_DONE) rfl n true
  have hparams := hflags.atrParams (n := n) ((c.slot n).atr ++ [b])
  have hmark := hparams.atrMarker (n := n) rfl (by simp [atrRegs]) ((c.slot n).atr ++ [b])
  refine (hmark.modSlot_again rfl fun x => { x with atrDone := true }).change_eq ?_
  simp [atrReadRegs]

/-- The class of a slot is none of it. -/
theorem Chip.trialClass_atrRead : ((c.atrTaken n b).atrRead n).trialClass n = c.trialClass n :=
  Chip.trialClass_congr fun f hf i => by
    rw [(c.atrRead_of n b).reg, Change.reg_of_ne rfl]
    intro e he hk
    have hreg := atrReadRegs_reg e he
    rw [hk] at hreg
    simp only [List.mem_cons, List.not_mem_nil, or_false] at hf
    obtain rfl | rfl | rfl | rfl := hf <;> simp [atrRegNames] at hreg

/-- A complete ATR where the class decision lets the slot stay (R94, R99). -/
theorem Chip.atrWhole_stay (hdec : classDec (c.slot n).trial (c.trialClass n) (atrOf ((c.slot n).atr ++ [b])).classes = .stay) :
    (c.atrTaken n b).atrWhole n = (c.atrTaken n b).atrRead n := by
  have htrial : (((c.atrTaken n b).atrRead n).slot n).trial = (c.slot n).trial := by
    rw [(c.atrRead_of n b).slot, tabFind_one, if_pos rfl]
  rw [Chip.atrWhole_eq, htrial, Chip.trialClass_atrRead, Chip.atr_atrTaken, hdec]

end Atr

/-! ## The ends of the ATR -/

section Ends

variable {c : Chip} {n : Nat}

/-- A faulty ATR with no character more (R93, R130). -/
theorem Chip.atrFault_of (hst : c.slotState n = stATRWAIT) (hb : c.Bare n) (kind : Nat) :
    (({ regs := errRegs n 1 kind } : Change).plus (deactivation c n .commanded cauATRBAD)).Of c (c.atrFault n kind) :=
  ((Change.Of.refl c).protLast n 1 kind).startDeact_bare (errRegs_apart n 1 kind) rfl hb (by decide) (by rw [hst]; decide)
    (by rw [hst]; decide)

/-- A deactivation in ATR_WAIT. -/
theorem Chip.startDeact_atrWait {cause : Nat} (hst : c.slotState n = stATRWAIT) (hb : c.Bare n) (hc : cause < 64) :
    (deactivation c n .commanded cause).Of c (c.startDeact n .commanded cause) :=
  Chip.startDeact_of c n .commanded cause hb hc (by rw [hst]; decide) (by rw [hst]; decide)

theorem Chip.atrClose_empty (hst : c.slotState n = stATRWAIT) (ha : (c.slot n).atr = []) :
    c.atrClose n =
      c.startDeact n .commanded (if (c.slot n).trial = true ∧ c.trialClass n ≠ 1 then cauNEXT else cauNOATR) := by
  unfold Chip.atrClose
  dsimp only
  rw [if_pos ⟨hst, ha⟩]
  simp

/-- The initial waiting time ends an ATR that has begun (R130, R137). -/
theorem Chip.initialWt_of {kind : Nat} (hst : c.slotState n = stATRWAIT) (hb : c.Bare n) :
    (({ regs := (⟨HTH_PROT_EVT.CARD_TMO, n⟩, 1) :: errRegs n 1 kind, events := [protEvent c HTH_PROT_EVT.CARD_TMO n] } : Change).plus
      (deactivation c n .commanded cauATRBAD)).Of c ((c.protEvt HTH_PROT_EVT.CARD_TMO n).atrFault n kind) := by
  have hevt := (Change.Of.refl c).protEvt (f := HTH_PROT_EVT.CARD_TMO) rfl (by simp) rfl n
  exact (hevt.protLast_under rfl (by simp) n 1 kind).startDeact_bare ⟨by simp [errRegs, deactFields], rfl, rfl, rfl, rfl, rfl⟩ rfl hb
    (by decide) (by rw [hst]; decide) (by rw [hst]; decide)

end Ends

/-! ## Stoker's decision -/

section Decision

variable {c : Chip} {n : Nat}

/-- Where Stoker has no free context its work waits (R302, R323). -/
theorem Chip.stokerStart_full (h : c.StokerFull) : c.stokerStart = c := by
  have hone : c.stokerStart1 = c := by
    have hfind : ((List.range 8).filter (fun k => !c.ctxHost k)).find? c.ctxFree = none := by
      rw [List.find?_eq_none]
      intro k hk
      obtain ⟨hk, hhost⟩ := List.mem_filter.1 hk
      obtain hh | ⟨hfree, -⟩ := h k hk
      · simp [hh] at hhost
      · simp [hfree]
    have hfenced : ¬((List.range 8).filter (fun k => !c.ctxHost k) ≠ [] ∧
        ((List.range 8).filter (fun k => !c.ctxHost k)).all (fun k => decide (c.ctxState k = esFENCED)) = true) := by
      rintro ⟨hne, hall⟩
      obtain ⟨k, hk⟩ := List.exists_mem_of_ne_nil _ hne
      have hstate := of_decide_eq_true (List.all_eq_true.1 hall k hk)
      obtain ⟨hk, hhost⟩ := List.mem_filter.1 hk
      obtain hh | ⟨-, hnot⟩ := h k hk
      · simp [hh] at hhost
      · exact hnot hstate
    unfold Chip.stokerStart1
    dsimp only
    rw [hfind]
    split
    · next heq => cases heq
    · exact if_neg hfenced
    · rfl
  exact foldl_eq_self _ fun _ _ => hone

/-- Whether Stoker has a free context depends on three fields and the contexts. -/
theorem Chip.StokerFull.congr {c' : Chip} (h : c.StokerFull)
    (hreg : ∀ f ∈ [EMB_CFG.CTX_HOST, EMB_CSTAT.STATE, EMB_JOB.PAIR], ∀ i, c'.get f i = c.get f i) (hctx : ∀ k, c'.ctx k = c.ctx k) :
    c'.StokerFull := by
  intro k hk
  have hk := h k hk
  simp only [Chip.ctxHost, Chip.ctxFree, Chip.ctxPaired, Chip.ctxJob, Chip.ctxState, Chip.bit, Chip.on] at hk ⊢
  rw [hreg EMB_CFG.CTX_HOST (by simp), hctx]
  simp only [hreg EMB_CSTAT.STATE (by simp), hreg EMB_JOB.PAIR (by simp)]
  exact hk

/-- The chip once Stoker has accepted an ATR and Ember's work on the ephemeral pair waits (R96, R274). -/
def Chip.cinAsked (c : Chip) (n : Nat) : Chip :=
  { (c.setSlotState n stNEGOTIATE).setSess n { c.sessOf n with cin := some (CinX.start .establish) } with
    ember := { c.ember with stokerQ := c.ember.stokerQ ++ [(.cinderGen n, 0x21, [])] } }

theorem Chip.cinAsked_of (c : Chip) (n : Nat) :
    ({ regs := [(⟨HTH_SLOT_STAT.STATE, n⟩, stNEGOTIATE)],
       sess := [(n, { c.sessOf n with cin := some (CinX.start .establish) })],
       ember := some { c.ember with stokerQ := c.ember.stokerQ ++ [(.cinderGen n, 0x21, [])] } } : Change).Of c (c.cinAsked n) :=
  (((Change.Of.refl c).put_lt (f := HTH_SLOT_STAT.STATE) (v := stNEGOTIATE) (by decide) n).setSess n
    { c.sessOf n with cin := some (CinX.start .establish) }).set_ember _

theorem Chip.cinStart_eq (c : Chip) (n : Nat) :
    (c.setSlotState n stNEGOTIATE).cinStart n .establish = (c.cinAsked n).stokerStart := rfl

theorem Chip.cinStarted_of (c : Chip) (n : Nat) (hq : c.ember.stokerQ = []) (hfull : c.StokerFull) :
    ({ regs := [(⟨HTH_SLOT_STAT.STATE, n⟩, stNEGOTIATE)],
       sess := [(n, { c.sessOf n with cin := some (CinX.start .establish) })],
       ember := some { c.ember with stokerQ := [(.cinderGen n, 0x21, [])] } } : Change).Of c
      ((c.setSlotState n stNEGOTIATE).cinStart n .establish) := by
  have hfull' : (c.cinAsked n).StokerFull := hfull.congr (fun f hf i => by
    rw [(c.cinAsked_of n).reg, Change.reg_of_ne rfl]
    simp only [List.forall_mem_cons]
    exact ⟨by rintro rfl; simp at hf, by simp⟩) (c.cinAsked_of n).ctx
  rw [Chip.cinStart_eq, Chip.stokerStart_full hfull']
  exact (c.cinAsked_of n).change_eq (by rw [hq]; rfl)

/-- Stoker accepts, and a PPS request goes out (R96, R132, R133). -/
theorem Chip.atrAccept_pps {t : Nat} (hta2 : (atrOf (c.slot n).atr).byte 0 2 = none) (hpps : c.on HTH_PROT_CFG.PPS_EN n = true)
    (ht : (atrOf (c.slot n).atr).choose (!isOperator n) (c.get HTH_PROT_CFG.PROT_SEL n) = some t) (hq : c.ember.stokerQ = [])
    (hfull : c.StokerFull) :
    (let a := atrOf (c.slot n).atr
     let req := ppsReq t ((a.byte 0 1).getD 0x11) (c.get HTH_PROT_CFG.DI_MAX n)
     { regs := [(⟨HTH_SLOT_STAT.STATE, n⟩, stNEGOTIATE)],
       slots := [(n, { c.slot n with neg := .pps, pps := req, spoke := true })],
       sess := [(n, { c.sessOf n with cin := some (CinX.start .establish) })],
       ember := some { c.ember with stokerQ := [(.cinderGen n, 0x21, [])] },
       out := [.cardBytes n req] } : Change).Of c (c.atrAccept n) := by
  have hcin := c.cinStarted_of n hq hfull
  have hpps' : ((c.setSlotState n stNEGOTIATE).cinStart n .establish).on HTH_PROT_CFG.PPS_EN n = true := by
    rw [← hpps, Chip.on, Chip.on, hcin.reg, Change.reg_of_ne rfl (by simp)]
  unfold Chip.atrAccept
  dsimp only
  rw [hta2, ht]
  dsimp only
  rw [if_neg (by rw [hpps']; simp)]
  exact (hcin.modSlot_first rfl n fun x => { x with
    neg := .pps, pps := ppsReq t (((atrOf (c.slot n).atr).byte 0 1).getD 0x11) (c.get HTH_PROT_CFG.DI_MAX n), spoke := true }).emit _

theorem Chip.policyIn_eq (hst : c.slotState n = stATRWAIT) (hd : (c.slot n).atrDone = true) (p : Policy) :
    c.policyIn n p = match p with
      | .accept => c.atrAccept n
      | .reject => c.startDeact n .commanded cauPOLREJ :=
  if_pos ⟨hst, hd⟩

end Decision

/-- Settles O7: the characters of an ATR, its ends, and Stoker's decision. -/
theorem atrAndPolicy : Obligations.AtrAndPolicy := by
  unfold Obligations.AtrAndPolicy
  refine fun n s hs => ⟨fun b hst hd hj => Effect.atSlot hs rfl ?_, fun b kind hst hd hb hj => Effect.atSlot hs rfl ?_,
    fun b hst hd hb => Effect.atSlot hs rfl ?_, fun b parityOk hst hd hb => Effect.atSlot hs rfl ?_,
    fun b hst hd hj hdec => Effect.atSlot hs rfl ?_, fun b parityOk inWindow hst hd => Effect.atSlot hs rfl ?_,
    fun hst ha hb => Effect.atSlot hs rfl ?_, fun hst ha hd hb => Effect.atSlot hs rfl ?_,
    fun t hst hd hta2 hpps ht hq hfull => Effect.atSlot hs rfl ?_, fun hst hd hb => Effect.atSlot hs rfl ?_,
    fun hst hd hb => Effect.atSlot hs rfl ?_⟩
  · rw [Chip.atrChar_inWindow hst hd, if_neg (by simp), hj]
    exact s.chip.atrTaken_of n b
  · rw [Chip.atrChar_inWindow hst hd, if_neg (by simp), hj]
    exact Chip.atrFault_taken hst hb kind
  · rw [Chip.atrChar_inWindow hst hd, if_pos (by simp)]
    exact Chip.atrFault_taken hst hb kPARITY
  · rw [Chip.atrChar_early hst hd]
    exact Chip.atrFault_of hst hb kTS
  · rw [Chip.atrChar_inWindow hst hd, if_neg (by simp), hj]
    exact (s.chip.atrRead_of n b).eq (Chip.atrWhole_stay hdec)
  · rw [Chip.atrChar_stray hst hd]
    exact (Change.Of.refl _).protEvt rfl (by simp) rfl n
  · rw [Chip.atrClose_empty hst ha]
    exact Chip.startDeact_atrWait hst hb (by split <;> decide)
  · refine (Chip.initialWt_of hst hb).eq ?_
    unfold Chip.initialWt
    dsimp only
    rw [if_pos ⟨hst, ha, by simp [hd]⟩]
  · exact (Chip.atrAccept_pps hta2 hpps ht hq hfull).eq (Chip.policyIn_eq hst hd .accept)
  · exact (Chip.startDeact_atrWait hst hb (by decide)).eq (Chip.policyIn_eq hst hd .reject)
  · exact (Chip.startDeact_atrWait hst hb (by decide)).eq (if_pos ⟨hst, hd⟩)

end Sys2Proof.Machine
end

section
/-! The force of a peer loss does not do what the statement says of it. -/

namespace Sys2Proof.Machine

/-! ## O42: a fault frame on the link of a peer that is forced away -/

/-- A device in life-cycle state Test, where forces are allowed. -/
def testDevice : Chip := Chip.init.put KLN_LC_WORD.VALUE 0 0xFF

theorem testDevice_idle : testDevice.Idle := Chip.Idle.init.put (by decide) _ _

/-- Peer 1 is present, and a frame of the fault class to it waits for its ACK. -/
def drilledPeer : State :=
  { State.reset with
    chip :=
      { testDevice with
        ash := { AshX.init with present := [1] }
        kz := [(testDevice.kzFor 1, { KzX.init with unacked := [⟨.fault, 0, 0, 0, []⟩] })] } }

/-- The loss of the one peer leaves the block idle: of Ash and of the link nothing is left that could go on. -/
theorem idle_of_drilledPeer {c' : Chip} {d : Change} (h : d.Of drilledPeer.chip c') (ha : d.ash.any (fun a => a.present = []) = true)
    (hk : ∀ e ∈ d.kz, e.2.txCtr < 2 ^ 32 ∧ e.2.rxCtr < 2 ^ 32)
    (hd : ({ d with kz := [], ash := none, events := [], taken := 0 } : Change).Calm) : c'.Idle := by
  have hi : ({ c' with ash := testDevice.ash, kz := testDevice.kz } : Chip).Idle :=
    testDevice_idle.of_calm hd { h with ash := rfl, kzOf := fun _ => rfl }
  refine { hi with present := ?_, fresh := fun k => ?_ }
  · rw [h.ash]
    cases hda : d.ash with
    | none => simp [hda] at ha
    | some a => simpa [hda] using ha
  · rw [h.kzOf]
    refine tabFind_getD_of_forall (P := fun _ (x : KzX) => x.txCtr < 2 ^ 32 ∧ x.rxCtr < 2 ^ 32) hk ?_
    show ((tabFind drilledPeer.chip.kz k).getD KzX.init).txCtr < _ ∧ ((tabFind drilledPeer.chip.kz k).getD KzX.init).rxCtr < _
    exact tabFind_getD_of_forall (P := fun _ (x : KzX) => x.txCtr < 2 ^ 32 ∧ x.rxCtr < 2 ^ 32) (by decide +kernel)
      (by decide +kernel)

/-- Refutes O42: a forced loss of a peer discards the traffic frames to it, while its sequencing and fault classes keep running (R398):
a frame of the fault class that waits for its ACK stays, which the statement, as for a loss that is none of a drill, has
discarded. -/
theorem not_forceAndInjection : ¬ Obligations.ForceAndInjection := by
  intro h
  obtain ⟨-, -, -, -, hpeer, -⟩ := h .spi drilledPeer ⟨rfl, by decide +kernel, rfl⟩
  have he := hpeer 1 (by decide +kernel) (by decide +kernel)
  obtain ⟨c', ho, hc⟩ := he.chip_of_leadsToRest rfl
    (fun _ ho => (idle_of_drilledPeer ho (by decide +kernel) (by decide +kernel)
      ⟨by decide +kernel, rfl, rfl, rfl, rfl, rfl, rfl, rfl, rfl, rfl, rfl, rfl⟩).resting)
    (t := drilledPeer.run fun c => c.ashWrite .spi fun c => c.forceWrite false 4 1) rfl
  have hkept : ((drilledPeer.run fun c => c.ashWrite .spi fun c => c.forceWrite false 4 1).chip.kzOf 0).unacked =
      [⟨.fault, 0, 0, 0, []⟩] := by decide +kernel
  have hgone : (c'.kzOf 0).unacked = [] := by rw [ho.kzOf]; decide +kernel
  rw [hc] at hkept
  exact absurd (hkept.symm.trans hgone) (by decide)

end Sys2Proof.Machine
end

section
/-! A block whose slots may be ready, but with nothing to start. -/

namespace Sys2Proof.Machine

/-- Nothing in the block goes on by itself, and no cold reset is pending. It is at rest but for slots that are ready: these have no leg
in their queue, and without the DRBG none of them rekeys or trains. -/
structure Chip.Settled (c : Chip) : Prop where
  finished : c.ember.finished = []
  stokerQ : c.ember.stokerQ = []
  cin : ∀ n, (c.sessOf n).cin = none
  tokens : ∀ k, c.ctxState k ≠ esTOKENS
  queue : ∀ n, (c.slot n).queue = []
  wait : ∀ n, (c.slot n).wait = none
  state : ∀ n, c.slotState n ≠ stNEGOTIATE
  noDrbg : c.on CRD_STAT.DRBG_READY 0 = false
  entries : ∀ e ∈ c.entries, e.phase ≠ .tokens ∧ ∀ second, (e.leg second).st ≠ .queued
  grants : c.dmp.grants = []
  live : c.liveMask = c.stack.liveSeen
  lc : c.kln.lc = none
  xfer : c.kln.xfer = none
  ovls : c.kln.ovls = []
  removals : c.kln.removals = []
  mailbox : c.get STK_MBX_STAT.BUSY 0 = 0
  fresh : ∀ k, (c.kzOf k).txCtr < 2 ^ 32 ∧ (c.kzOf k).rxCtr < 2 ^ 32
  coldPend : c.get DRG_SEQ_STAT.COLD_PEND 0 = 0

section Settled

variable {c : Chip} (hr : c.Settled)
include hr

/-- A slot with nothing to start chooses nothing. -/
theorem Chip.Settled.kick (n : Nat) : c.kick n = c := by
  have h1 : c.kick1 n = c := by
    simp [Chip.kick1, hr.queue n, bestLeg, legsReady, Chip.rekeyReady, Chip.retrainReady, hr.noDrbg]
  have hN : ∀ fuel, Chip.kickN fuel c n = c := fun fuel => by
    induction fuel with
    | zero => rfl
    | succ fuel ih => rw [Chip.kickN, h1, ih, ite_self]
  have hb : c.standBack n = c := by simp [Chip.standBack, hr.wait n]
  rw [Chip.kick, hb]
  exact hN _

theorem Chip.Settled.slotWork (n : Nat) :
    (((((if (c.slot n).queue = [] then c else c.evict n).openLane n).dropWait n).repath n).trySend n).kick n = c := by
  have h1 : c.openLane n = c := by simp [Chip.openLane, hr.state n]
  have h2 : c.dropWait n = c := by simp [Chip.dropWait, hr.wait n]
  have h3 : c.repath n = c := by simp [Chip.repath, hr.wait n]
  have h4 : c.trySend n = c := by simp [Chip.trySend, hr.grants]
  rw [if_pos (hr.queue n), h1, h2, h3, h4, hr.kick]

theorem Chip.Settled.fluxWork : c.watchLive.evictRemote.rampAll.recheckTokens = c := by
  have h1 : c.watchLive = c := by simp [Chip.watchLive, hr.live]
  have h2 : c.evictRemote = c := foldl_eq_self _ fun e he => by simp [(hr.entries e he).2]
  have h3 : c.rampAll = c := by simp [Chip.rampAll, hr.grants]
  have h4 : c.entries.filter (fun e => decide (e.phase = .tokens)) = [] :=
    List.filter_eq_nil_iff.2 fun e he => by simpa using (hr.entries e he).1
  rw [h1, h2, h3]
  simp [Chip.recheckTokens, h4]

theorem Chip.Settled.kilnWork : c.lcIntent.xferStep.challengeStep.watchQuorum.kzWorn.nextRemoval = c := by
  have h1 : c.lcIntent = c := by simp [Chip.lcIntent, hr.lc]
  have h2 : c.xferStep = c := by simp [Chip.xferStep, hr.xfer]
  have h3 : c.challengeStep = c := by simp [Chip.challengeStep, Chip.on, hr.mailbox]
  have h4 : c.watchQuorum = c := by simp [Chip.watchQuorum, hr.ovls]
  have h5 : c.kzWorn = c := foldl_eq_self _ fun k _ => if_neg (by have := hr.fresh k; omega)
  rw [h1, h2, h3, h4, h5]
  simp [Chip.nextRemoval, hr.removals]

theorem Chip.Settled.settle1 (env : Env) (rand : Nat → Bool) : c.settle1 env rand = c := by
  unfold Chip.settle1
  have h1 := foldl_eq_self (c := c) (g := fun (c : Chip) n => (c.cinTake n env).cinStep n) (c.sess.map Prod.fst) fun n _ => by
    simp [Chip.cinTake, Chip.cinStep, hr.cin n]
  have h2 : c.identityJob env = c := by simp [Chip.identityJob, hr.lc]
  have h3 := foldl_eq_self (c := c) (g := fun (c : Chip) k => c.jobQueue k (rand k)) (c.ctxs.map Prod.fst) fun k _ => by
    simp [Chip.jobQueue, hr.tokens k]
  have h4 := foldl_eq_self (g := fun (c : Chip) n =>
      (((((if (c.slot n).queue = [] then c else c.evict n).openLane n).dropWait n).repath n).trySend n).kick n)
      (c.slots.map Prod.fst) fun n _ => hr.slotWork n
  simp only [hr.finished, hr.stokerQ, if_true, h1, h2, h3, hr.fluxWork, h4]
  exact hr.kilnWork

end Settled

theorem State.settle_settled {s : State} (hs : s.Still) (hr : s.chip.Settled) : s.settle.coldDue = s := by
  have h : s.settle1 = s := by
    unfold State.settle1
    rw [State.act_of_still (by rw [hr.settle1]; exact hs), hr.settle1]
  have hc : s.coldDue = s := by
    unfold State.coldDue
    rw [if_neg]
    simp [Chip.on, hr.coldPend]
  rw [State.settle, h, h, h, h, hc]

/-- What a command leaves of a block that its changes settle: the state with these changes and nothing else. -/
theorem Effect.state_of_settled {i : Instr} {s t : State} {d : Change} (he : Effect i s d) (hm : d.mems = [])
    (hr : ∀ c', d.Of s.chip c' → c'.Settled) (ht : exec i s = .next t) :
    ∃ c', d.Of s.chip c' ∧ t = { s with chip := { c' with memq := [] } } := by
  obtain ⟨c', ho, hx⟩ := he
  have hr' : ({ c' with memq := [] } : Chip).Settled := { hr c' ho with }
  rw [hm, List.foldl_nil, State.settle_settled rfl hr', ht] at hx
  exact ⟨c', ho, Host.Outcome.next.inj hx⟩

/-- A change of a block at rest settles it, where it sets of the fields that make it so only states of slots, and brings no leg to a
queue. -/
theorem Chip.Resting.settled_of {c c' : Chip} {d : Change} (hr : c.Resting) (h : d.Of c c') (hres : d.resets = [])
    (hregs : ∀ e ∈ d.regs, e.1.fld ∈ idleFields ++ liveFields → e.1.fld = HTH_SLOT_STAT.STATE ∧ e.2 ≠ stNEGOTIATE)
    (hrest : ({ d with regs := [], entries := none } : Change).Restful c)
    (hent : ∀ e ∈ c'.entries, e.phase ≠ .tokens ∧ ∀ second, (e.leg second).st ≠ .queued)
    (hdrbg : c'.on CRD_STAT.DRBG_READY 0 = false) : c'.Settled := by
  have ht : ({ c' with regs := c.regs, entries := c.entries } : Chip).Resting :=
    hr.of_restful (d := { d with regs := [], entries := none })
      { h with reg := fun f i => by simp only [Change.reg, hres]; rfl, entries := rfl } hrest
  have hreg : ∀ f i, c'.get f i = (tabFind d.regs ⟨f, i⟩).getD (c.get f i) := fun f i => by rw [h.reg, Change.reg, hres]; rfl
  have hget : ∀ f ∈ idleFields ++ liveFields, f ≠ HTH_SLOT_STAT.STATE → ∀ i, c'.get f i = c.get f i := fun f hf hs i => by
    rw [hreg, tabFind_eq_none fun e he hk => hs ((congrArg Key.fld hk).symm.trans (hregs e he (by rw [hk]; exact hf)).1)]
    rfl
  exact
    { ht with
      entries := hent
      noDrbg := hdrbg
      tokens := fun k => by unfold Chip.ctxState; rw [hget _ (by decide) (by decide)]; exact hr.tokens k
      state := fun n => by
        unfold Chip.slotState
        rw [hreg]
        exact tabFind_getD_of_forall (P := fun k v => k.fld = HTH_SLOT_STAT.STATE → v ≠ stNEGOTIATE)
          (fun e he hf => (hregs e he (by rw [hf]; decide)).2) (fun _ => (hr.state n).1) rfl
      live := by
        rw [← show _ = c'.stack.liveSeen from ht.live]
        exact Chip.liveMask_congr (fun f hf i => hget f (by simp [hf]) (by rintro rfl; exact absurd hf (by decide)) i)
          (fun _ => rfl) rfl rfl rfl rfl rfl
      mailbox := by rw [hget _ (by decide) (by decide)]; exact hr.mailbox
      coldPend := by rw [hget _ (by decide) (by decide)]; exact hr.coldPend }

end Sys2Proof.Machine
end

section
/-! The end of an exchange whose entry has a staging place does not do what the statements say of it. -/

namespace Sys2Proof.Machine

/-! ## A block that carries a staged leg -/

/-- A wrapped response: the data byte 0x77 and 9000 under session keys that are all zero. -/
def stagedRsp : List Byte :=
  [64, 132, 82, 132, 112, 153, 125, 147, 223, 18, 168, 244, 138, 200, 196, 83, 204, 10, 58, 58, 69, 62, 121, 156, 144, 0]

/-- Those keys. -/
def zeroKeys : KeySet :=
  { enc := List.replicate 32 0, mac := List.replicate 32 0, rmac := List.replicate 32 0, dek := List.replicate 32 0, counter := 0,
    mcv := List.replicate 16 0, th := [] }

theorem unwrapRsp_stagedRsp : unwrapRsp zeroKeys stagedRsp = some ([0x77], 0x9000) := by decide +kernel

/-- The limits of the recovery of slot 5. -/
def recoveryRegs : Chip := (Chip.init.put HTH_SLOT_RCV.RCV_CLEAR 5 100).put HTH_SLOT_RCV.FAIL_LIMIT 5 5

theorem recoveryRegs_idle : recoveryRegs.Idle := (Chip.Idle.init.put (by decide) _ _).put (by decide) _ _

/-- A WRITE whose first leg is at slot 5 and whose second leg is on its way, with staging place 0. -/
def stagedEntry : Entry :=
  { uid := 7, ring := 3, index := 0, raw := [2] ++ List.replicate 11 0 ++ [0, 1] ++ List.replicate 50 0, arrived := 0,
    phase := .active, deferUs := 0, order := 1, epoch := 0, prefLeg := false, cqReserved := true,
    leg0 := ⟨.sent, 5, 0, false, false⟩, leg1 := ⟨.sent, 9, 0, false, false⟩, retried := false, dlMissed := false,
    staleMarked := false, apdu := [], rsp := [], sw := 0, cardUs := 0, status := 0, silent := false, counted := false, dmaBad := false,
    place := some 0 }

/-- The exchange of that leg on a path. -/
def stagedExch (path : XPath) : Exch :=
  { use := .leg (.entry 7 false), wire := [1, 2, 3], mcv := [], path := path, cls := 0, front := false, sent := true, startUs := 0,
    back := none }

/-- Slot 5, in BUSY with its bank on, carries the first leg of this entry on a path, with the engines as given. -/
def stagedLeg (path : XPath) (t0 : T0X) (t1 : T1X) : State :=
  { State.reset with
    chip :=
      { (recoveryRegs.put DRG_DOM_STAT.UP 0 (2 ^ 1)).put HTH_SLOT_STAT.STATE 5 stBUSY with
        slots := [(5, { SlotX.init with cur := some (stagedExch path), t0 := t0, t1 := t1 })]
        sess := [(5, { SessX.init with cur := some zeroKeys })]
        entries := [stagedEntry] } }

theorem stagedLeg_resting (path : XPath) (t0 : T0X) (t1 : T1X) : (stagedLeg path t0 t1).chip.Resting :=
  have hget : ∀ (f : Fld) (i : Nat), f ≠ DRG_DOM_STAT.UP → f ≠ HTH_SLOT_STAT.STATE →
      (stagedLeg path t0 t1).chip.get f i = recoveryRegs.get f i := fun f i hu hs => by
    show ((recoveryRegs.put DRG_DOM_STAT.UP 0 (2 ^ 1)).put HTH_SLOT_STAT.STATE 5 stBUSY).get f i = _
    rw [Chip.get_put_ne _ _ _ _ _ _ (by simp [hs]), Chip.get_put_ne _ _ _ _ _ _ (by simp [hu])]
  have hslot : ∀ n, ((stagedLeg path t0 t1).chip.slot n).queue = [] ∧ ((stagedLeg path t0 t1).chip.slot n).wait = none := fun n =>
    tabFind_getD_of_forall (P := fun _ (x : SlotX) => x.queue = [] ∧ x.wait = none) (by simp [stagedLeg, SlotX.init]) ⟨rfl, rfl⟩
  { recoveryRegs_idle.resting with
    cin := fun n => tabFind_getD_of_forall (P := fun _ (x : SessX) => x.cin = none) (by simp [stagedLeg, SessX.init]) rfl
    tokens := fun k => by unfold Chip.ctxState; rw [hget _ _ (by decide) (by decide)]; exact recoveryRegs_idle.tokens k
    queue := fun n => (hslot n).1
    wait := fun n => (hslot n).2
    state := fun n => by
      show ((recoveryRegs.put DRG_DOM_STAT.UP 0 (2 ^ 1)).put HTH_SLOT_STAT.STATE 5 stBUSY).slotState n ≠ _ ∧
        ((recoveryRegs.put DRG_DOM_STAT.UP 0 (2 ^ 1)).put HTH_SLOT_STAT.STATE 5 stBUSY).slotState n ≠ _
      simp only [Chip.slotState, Chip.get_put]
      split
      · decide
      · exact recoveryRegs_idle.state n
    entries := by
      show ∀ e ∈ [stagedEntry], _
      decide +kernel
    live := by
      have h : (stagedLeg path t0 t1).chip.liveMask = (stagedLeg .t0 T0X.init T1X.init).chip.liveMask :=
        Chip.liveMask_congr (fun _ _ _ => rfl) (fun n => by simp only [Chip.slot, stagedLeg, tabGet, tabFind]; split <;> rfl)
          rfl rfl rfl rfl rfl
      have h0 : (stagedLeg .t0 T0X.init T1X.init).chip.liveMask = 0 := by decide +kernel
      exact h.trans h0
    mailbox := by rw [hget _ _ (by decide) (by decide)]; exact recoveryRegs_idle.mailbox
    coldPend := by rw [hget _ _ (by decide) (by decide)]; exact recoveryRegs_idle.coldPend }

/-- The end of this leg with OK settles the block: slot 5 is ready, and the entry waits for its second leg. -/
theorem settled_of_stagedLeg {path : XPath} {t0 : T0X} {t1 : T1X} {c' : Chip} {d : Change} (h : d.Of (stagedLeg path t0 t1).chip c')
    {regs : List (Key × Nat)} (hregs : ∀ e ∈ regs, e.1.fld ∉ CRD_STAT.DRBG_READY :: (idleFields ++ liveFields))
    (hd : d = ({ regs := regs } : Change).plus
      (exchangeEnd (stagedLeg path t0 t1).chip 5 (stagedExch path) 7 false stsOK [0x77] 0x9000)) : c'.Settled := by
  have hall : ∀ e ∈ d.regs, e.1.fld = HTH_SLOT_STAT.STATE ∧ e.2 = stREADY ∨
      e.1.fld ∉ CRD_STAT.DRBG_READY :: (idleFields ++ liveFields) := by
    subst hd
    intro e he
    simp only [Change.plus, exchangeEnd, if_true, List.mem_append, List.mem_filter, List.mem_cons, List.not_mem_nil, or_false] at he
    obtain (rfl | rfl | rfl) | ⟨he, -⟩ := he
    · exact .inl ⟨rfl, rfl⟩
    · exact .inr (by simp [idleFields, liveFields])
    · exact .inr (by simp [idleFields, liveFields])
    · exact .inr (hregs e he)
  refine (stagedLeg_resting path t0 t1).settled_of h (by rw [hd]; rfl) (fun e he hf => ?_) ?_ ?_ ?_
  · obtain ⟨hs, hv⟩ | hn := hall e he
    · exact ⟨hs, by rw [hv]; decide⟩
    · exact absurd (List.mem_cons_of_mem _ hf) hn
  · subst hd
    exact ⟨by simp, by simp [Change.plus, exchangeEnd],
      by simp [Change.plus, exchangeEnd, stagedLeg, Chip.slot, tabGet, tabFind, SlotX.init], rfl, rfl, rfl, rfl, rfl, rfl, rfl, rfl, rfl⟩
  · rw [h.entries, hd]
    show ∀ e ∈ legEnded { Chip.init with entries := [stagedEntry] } 7 false stsOK [0x77] 0x9000 0, _
    decide +kernel
  · have hnone : tabFind d.regs ⟨CRD_STAT.DRBG_READY, 0⟩ = none := tabFind_eq_none fun e he hk => by
      obtain ⟨hs, -⟩ | hn := hall e he
      · exact absurd (congrArg Key.fld hk) (by rw [hs]; decide)
      · exact hn (by rw [hk]; exact List.mem_cons_self)
    rw [Chip.on, h.reg, Change.reg, hnone, show d.resets = [] by rw [hd]; rfl]
    show decide ((stagedLeg .t0 T0X.init T1X.init).chip.get CRD_STAT.DRBG_READY 0 = 1) = false
    decide +kernel

/-! ## The end of its exchange -/

/-- An exchange of a leg that ends without escalation. -/
theorem Chip.exchDone_leg {c : Chip} {n : Nat} {ex : Exch} {src : LegSrc} (hc : (c.slot n).cur = some ex) (hu : ex.use = .leg src)
    (status : Nat) (rsp : List Byte) : c.exchDone n status rsp false = c.legOver n ex src status rsp false := by
  simp [Chip.exchDone, hc, hu]

/-- SW2 of a status word that the T=0 engine does not handle itself ends the exchange. -/
theorem Chip.t0Char_sw2 {c : Chip} {n : Nat} {sw1 : Byte} (hw : (c.slot n).t0.wait = .sw2 sw1) (h61 : sw1 ≠ 0x61) (h6c : sw1 ≠ 0x6C)
    (sw2 : Byte) : c.t0Char n sw2 true = c.exchDone n stsOK ((c.slot n).t0.rsp ++ [sw1, sw2]) false := by
  rw [Chip.t0Char, if_neg (by simp [hw]), if_neg (by simp), hw]
  exact (if_neg fun h => h61 h.2).trans (if_neg fun h => h6c h.2.1)

/-- An I-block of the card with the expected N(S), its information field all of the response, and the last of the chain. -/
theorem Chip.t1Block_last {c : Chip} {n : Nat} {b : List Byte} (hf : c.t1Fault n b true = none)
    (hr : (c.slot n).t1.resynch = false) (hp : b.getD 1 0 = 0) (hns : c.get HTH_PROT_STAT.NS_RX n = 0)
    (hli : (c.slot n).t1.lastInf ≠ []) (hlm : (c.slot n).t1.lastMore = false) (hifs : (c.slot n).t1.ifsReq = none) :
    c.t1Block n b true = c.t1Info n false ((b.drop 3).take (b.getD 2 0).toNat) := by
  simp only [Chip.t1Block, hf, hr, hp, hns, hlm, hifs]
  simp [hli]

/-- The chip once the information field of such a block has joined the response. -/
def Chip.t1Joined (c : Chip) (n : Nat) (inf : List Byte) : Chip :=
  (c.put HTH_PROT_STAT.NS_RX n (1 - c.get HTH_PROT_STAT.NS_RX n)).t1Set n (fun t =>
    { t with rsp := t.rsp ++ inf, retries := 0, silent := true, wtx := 0 })

theorem Chip.t1Info_last {c : Chip} {n : Nat} {inf : List Byte} {ex : Exch} (hov : (c.slot n).t1.overlong = false)
    (hlen : (c.slot n).t1.rsp.length + inf.length ≤ 4096) (hc : (c.slot n).cur = some ex) :
    c.t1Info n false inf = (c.t1Joined n inf).exchDone n stsOK ((c.slot n).t1.rsp ++ inf) false := by
  simp [Chip.t1Info, Chip.t1Joined, Chip.t1Set, Chip.modSlot, Chip.t1End, hov, hc, Nat.not_lt.2 hlen]

/-- The engines of a slot start over when its exchange ends. -/
def Chip.exchCut (c : Chip) (n : Nat) : Chip := c.modSlot n (fun x => { x with cur := none, t0 := T0X.init, t1 := T1X.init })

/-- What is left of the end of a leg once its response is unwrapped. -/
theorem Chip.legOver_ok {c : Chip} {n : Nat} {src : LegSrc} {rsp d : List Byte} {sw : Nat}
    (hj : (c.exchCut n).unwrapLeg n src rsp = (stsOK, d, sw)) (ex : Exch) :
    c.legOver n ex src stsOK rsp false =
      (((c.exchCut n).retireOld n).legResult n src stsOK d sw ex.startUs).afterLeg n stsOK false := by
  rw [Chip.exchCut] at hj ⊢
  simp only [Chip.legOver, if_true, hj]
  rfl

theorem Chip.unwrapLeg_ok {c : Chip} {n : Nat} {src : LegSrc} {ks : KeySet} {rsp d : List Byte} {sw : Nat}
    (hk : (c.sessOf n).cur = some ks) (hu : unwrapRsp ks rsp = some (d, sw)) (hm : d.length ≤ c.rspMaxOf src) :
    c.unwrapLeg n src rsp = (stsOK, d, sw) := by
  simp only [Chip.unwrapLeg, hk, hu]
  exact if_neg (Nat.not_lt.2 hm)

/-! ## O10: the response of a staged leg under T=0 -/

/-- All of the response but SW2 has come. -/
def t0Staged : State := stagedLeg .t0 { T0X.init with wait := .sw2 0x90, rsp := stagedRsp.take 24 } T1X.init

theorem t0Staged_sram : (t0Staged.run fun c => c.atSlot 5 fun c => c.t0Char 5 0 true).sram ≠ [] := by
  have h : t0Staged.chip.atSlot 5 (fun c => c.t0Char 5 0 true) =
      t0Staged.chip.legOver 5 (stagedExch .t0) (.entry 7 false) stsOK stagedRsp false := by
    rw [Chip.atSlot_up (by decide +kernel), Chip.t0Char_sw2 (sw1 := 0x90) rfl (by decide) (by decide)]
    exact Chip.exchDone_leg rfl rfl _ _
  rw [State.run, State.act, h, Chip.legOver_ok (Chip.unwrapLeg_ok rfl unwrapRsp_stagedRsp (by decide +kernel))]
  decide +kernel

/-- Refutes O10: the response that an entry takes goes to its staging place (R22, R25), which the statement, with no hypothesis that there is
none, has left as it was. -/
theorem not_characterProtocolT0 : ¬ Obligations.CharacterProtocolT0 := by
  intro h
  obtain ⟨-, -, -, hend, -⟩ := h 5 t0Staged (by decide +kernel)
  have he := hend 0x90 0 (stagedExch .t0) 7 false stagedEntry zeroKeys [0x77] 0x9000 rfl (by decide) (by decide) (by decide +kernel) rfl
    ((congrArg (unwrapRsp zeroKeys) (by decide +kernel)).trans unwrapRsp_stagedRsp) (by decide +kernel)
  obtain ⟨c', -, ht⟩ := he.state_of_settled rfl (fun _ ho => settled_of_stagedLeg (regs := []) ho (by simp) rfl) rfl
  exact t0Staged_sram (congrArg State.sram ht)

/-! ## O11: the response of a staged leg under T=1 -/

/-- The command has gone out in one I-block, and none of the response has come. -/
def t1Staged : State := stagedLeg .t1 T0X.init { T1X.init with last := .iBlock, lastInf := [1] }

/-- The I-block with the whole response. -/
def stagedBlock : List Byte := [0, 0, 26] ++ stagedRsp ++ edcOf false ([0, 0, 26] ++ stagedRsp)

theorem t1Staged_sram :
    (t1Staged.run fun c => c.atSlot 5 fun c => if c.t1Waits 5 then c.t1Block 5 stagedBlock true else c.strayChar 5).sram ≠ [] := by
  have h : t1Staged.chip.atSlot 5 (fun c => if c.t1Waits 5 then c.t1Block 5 stagedBlock true else c.strayChar 5) =
      (t1Staged.chip.t1Joined 5 stagedRsp).legOver 5 (stagedExch .t1) (.entry 7 false) stsOK stagedRsp false := by
    rw [Chip.atSlot_up (by decide +kernel), if_pos (by decide +kernel),
      Chip.t1Block_last (by decide +kernel) rfl (by decide) (by decide +kernel) (by decide +kernel) rfl rfl,
      show (stagedBlock.drop 3).take (stagedBlock.getD 2 0).toNat = stagedRsp by decide +kernel,
      Chip.t1Info_last rfl (by decide +kernel) rfl]
    exact Chip.exchDone_leg rfl rfl _ _
  rw [State.run, State.act, h, Chip.legOver_ok (Chip.unwrapLeg_ok rfl unwrapRsp_stagedRsp (by decide +kernel))]
  decide +kernel

/-- Refutes O11: the response that an entry takes goes to its staging place (R22, R25), which the statement, with no hypothesis that there is
none, has left as it was. -/
theorem not_characterProtocolT1 : ¬ Obligations.CharacterProtocolT1 := by
  intro h
  obtain ⟨-, hend, -⟩ := h 5 t1Staged (by decide +kernel) (by decide +kernel) rfl
  have he := hend stagedRsp (stagedExch .t1) 7 false stagedEntry zeroKeys [0x77] 0x9000 (by decide +kernel) (by decide) (by decide +kernel)
    (by decide +kernel) rfl rfl rfl (by decide +kernel) (by decide +kernel) rfl unwrapRsp_stagedRsp (by decide +kernel)
  obtain ⟨c', -, ht⟩ := he.state_of_settled rfl (fun _ ho =>
    settled_of_stagedLeg (regs := [(⟨HTH_PROT_STAT.NS_RX, 5⟩, 1)]) ho (by decide +kernel) (by rfl)) rfl
  exact t1Staged_sram (congrArg State.sram ht)

end Sys2Proof.Machine
end

section
/-! A Turf frame is read back as it was sent (R169–R173). -/

namespace Sys2Proof.Machine

/-! ## Bits and bytes (R169) -/

theorem bytesBits_append (a b : List Byte) : bytesBits (a ++ b) = bytesBits a ++ bytesBits b := List.flatMap_append

theorem bytesBits_length (b : List Byte) : (bytesBits b).length = 8 * b.length := by
  induction b with
  | nil => rfl
  | cons x b ih => rw [← List.singleton_append, bytesBits_append, List.length_append, ih, List.length_append, Nat.mul_add]; rfl

theorem bitsNat_append (a b : List Bool) : bitsNat (a ++ b) = bitsNat a * 2 ^ b.length + bitsNat b := by
  induction b using List.reverseRecOn with
  | nil => simp [bitsNat]
  | append_singleton b x ih =>
    have hsnoc : ∀ l : List Bool, bitsNat (l ++ [x]) = 2 * bitsNat l + x.toNat := fun l => List.foldl_append
    rw [← List.append_assoc, hsnoc, hsnoc, ih, List.length_append, List.length_singleton]
    ring

theorem bitsNat_byte (x : Byte) : bitsNat (bytesBits [x]) = x.toNat := by
  revert x
  decide +kernel

theorem bitsBytes_bytesBits (m : List Byte) (rest : List Bool) : bitsBytes m.length (bytesBits m ++ rest) = m := by
  induction m with
  | nil => rfl
  | cons x m ih =>
    have h8 : (bytesBits [x]).length = 8 := rfl
    rw [← List.singleton_append, bytesBits_append, List.append_assoc, List.length_append, Nat.add_comm]
    show BitVec.ofNat 8 (bitsNat (List.take 8 _)) :: bitsBytes m.length (List.drop 8 _) = _
    rw [List.take_left' h8, List.drop_left' h8, ih, bitsNat_byte, BitVec.ofNat_toNat, BitVec.setWidth_eq]
    rfl

theorem beBytes_length (n v : Nat) : (beBytes n v).length = n := by simp [beBytes, leBytes]

theorem beBytes_succ (n v : Nat) : beBytes (n + 1) v = [BitVec.ofNat 8 (v / 256 ^ n)] ++ beBytes n v := by
  simp [beBytes, leBytes, List.range_succ]

theorem bitsNat_beBytes (n v : Nat) : bitsNat (bytesBits (beBytes n v)) = v % 256 ^ n := by
  induction n with
  | zero => simp [beBytes, leBytes, bytesBits, bitsNat, Nat.mod_one]
  | succ n ih =>
    have h256 : (2 : Nat) ^ (8 * n) = 256 ^ n := by rw [Nat.pow_mul]
    rw [beBytes_succ, bytesBits_append, bitsNat_append, bitsNat_byte, ih, bytesBits_length, beBytes_length, h256, BitVec.toNat_ofNat,
      Nat.mod_pow_succ (b := 256), Nat.mul_comm, Nat.add_comm]

/-! ## Bit stuffing (R171) -/

/-- The run after the next bit of the message, with an inserted bit before it where one is due. -/
def Run.next (r : Run) (b : Bool) : Run := (if r.len = 6 then ⟨!r.last, 1⟩ else r).push b

theorem takeBits_one (n : Nat) (r : Run) (b : Bool) (m tail : List Bool) :
    takeBits (n + 1) r (stuffBits r (b :: m) ++ tail) =
      (takeBits n (r.next b) (stuffBits (r.next b) m ++ tail)).map (fun t => (b :: t.1, t.2)) := by
  by_cases h : r.len = 6 <;> simp [takeBits, stuffBits, Run.settle, Run.next, h]

/-- Unstuffing gives back the bits sent, the run that the sender has and what the sender puts out after them. -/
theorem takeBits_stuffBits (a b tail : List Bool) (r : Run) :
    takeBits a.length r (stuffBits r (a ++ b) ++ tail) =
      some (a, a.foldl Run.next r, stuffBits (a.foldl Run.next r) b ++ tail) := by
  induction a generalizing r with
  | nil => rfl
  | cons x a ih => rw [List.length_cons, List.cons_append, takeBits_one, ih]; rfl

/-- The bit that a full run at the end of the message calls for is there (R171). -/
theorem settle_stuffBits_nil (r : Run) (tail : List Bool) : (r.settle (stuffBits r [] ++ tail)).isSome = true := by
  by_cases h : r.len = 6 <;> simp [Run.settle, stuffBits, h]

/-! ## Frames (R170, R172) -/

theorem crc32_lt (m : List Byte) : crc32 m < 2 ^ 32 := by
  refine List.foldlRecOn (motive := (· < 2 ^ 32)) m _ (by decide) fun c hc b _ => ?_
  refine List.foldlRecOn (motive := (· < 2 ^ 32)) _ _ (Nat.xor_lt_two_pow hc (by omega)) fun c _ _ _ => ?_
  have hmod : 2 * c % 2 ^ 32 < 2 ^ 32 := Nat.mod_lt _ (by decide)
  split
  · exact Nat.xor_lt_two_pow hmod (by decide)
  · exact hmod

theorem afterSfd_lead (rest : List Bool) : afterSfd (preamble 8 ++ sfdBits ++ rest) = some rest := rfl

/-- Whatever follows it, a header word with LEN, the payload and the CRC of both are read back once they are unstuffed. -/
theorem turfBody_stuffBits {h : Nat} {payload m : List Byte} (hh : h < 2 ^ 16) (hl : h % 2 ^ 13 = payload.length)
    (hm : m = beBytes 2 h ++ payload) (tail : List Bool) :
    turfBody (stuffBits Run.start (bytesBits (m ++ beBytes 4 (crc32 m))) ++ tail) = some (h, payload) := by
  have hlen : m.length = 2 + payload.length := by rw [hm, List.length_append, beBytes_length]
  have hhead : bitsNat (bytesBits (beBytes 2 h)) = h := (bitsNat_beBytes 2 h).trans (Nat.mod_eq_of_lt hh)
  have hcrc : bitsNat (bytesBits (beBytes 4 (crc32 m))) = crc32 m :=
    (bitsNat_beBytes 4 _).trans (Nat.mod_eq_of_lt (crc32_lt m))
  have hbits : bytesBits (m ++ beBytes 4 (crc32 m)) = bytesBits (beBytes 2 h) ++ (bytesBits (payload ++ beBytes 4 (crc32 m)) ++ []) := by
    rw [hm, List.append_nil, List.append_assoc, bytesBits_append]
  have hback : bitsBytes (2 + payload.length) (bytesBits (beBytes 2 h) ++ bytesBits (payload ++ beBytes 4 (crc32 m))) = m := by
    rw [← List.append_nil (bytesBits (payload ++ _)), ← hbits, bytesBits_append, ← hlen, bitsBytes_bytesBits]
  have h16 : (bytesBits (beBytes 2 h)).length = 16 := by rw [bytesBits_length, beBytes_length]
  have hrest : (bytesBits (payload ++ beBytes 4 (crc32 m))).length = 8 * payload.length + 32 := by
    rw [bytesBits_length, List.length_append, beBytes_length]; ring
  have hdrop : (bytesBits (payload ++ beBytes 4 (crc32 m))).drop (8 * payload.length) = bytesBits (beBytes 4 (crc32 m)) := by
    rw [bytesBits_append, List.drop_left' (bytesBits_length payload)]
  have hpay : m.drop 2 = payload := by rw [hm, List.drop_left' (beBytes_length 2 h)]
  have htake := takeBits_stuffBits (bytesBits (beBytes 2 h)) (bytesBits (payload ++ beBytes 4 (crc32 m)) ++ []) tail Run.start
  have htake' := takeBits_stuffBits (bytesBits (payload ++ beBytes 4 (crc32 m))) [] tail
    ((bytesBits (beBytes 2 h)).foldl Run.next Run.start)
  rw [h16] at htake
  rw [hrest] at htake'
  simp only [turfBody, hbits, htake, hhead, hl, htake', hback, hdrop, hcrc, settle_stuffBits_nil, hpay, and_self, if_true]

theorem turfHeader_fields {ft len : Nat} (seq : Bool) (hf : ft < 4) (hl : len < 2 ^ 13) :
    turfHeader ft seq len < 2 ^ 16 ∧ turfHeader ft seq len % 2 ^ 13 = len ∧ turfHeader ft seq len / 2 ^ 14 = ft ∧
      (turfHeader ft seq len).testBit 13 = seq := by
  have hs := Bool.toNat_lt seq
  refine ⟨?_, ?_, ?_, ?_⟩
  · unfold turfHeader; omega
  · unfold turfHeader; omega
  · unfold turfHeader; omega
  · have h13 : turfHeader ft seq len / 2 ^ 13 % 2 = seq.toNat := by unfold turfHeader; omega
    rw [Nat.testBit_eq_decide_div_mod_eq, h13]
    cases seq <;> rfl

/-- A frame of any type that LEN can hold is read as what its type, SEQ and payload make of it. -/
theorem turfParse_turfFrame {ft : Nat} (seq : Bool) {payload : List Byte} (hf : ft < 4) (hl : payload.length < 2 ^ 13) :
    turfParse (turfFrame ft seq payload) = turfKind ft seq payload := by
  obtain ⟨hlt, hlen, htype, hseq⟩ := turfHeader_fields seq hf hl
  have hframe : turfFrame ft seq payload = preamble 8 ++ sfdBits ++
      (stuffBits Run.start (bytesBits ((beBytes 2 (turfHeader ft seq payload.length) ++ payload) ++
        beBytes 4 (crc32 (beBytes 2 (turfHeader ft seq payload.length) ++ payload)))) ++ List.replicate 4 false) :=
    List.append_assoc ..
  rw [turfParse, hframe, afterSfd_lead]
  simp only [turfBody_stuffBits hlt hlen rfl, htype, hseq]

/-- Settles O14: each of the three types is one that the receiver takes with this payload. -/
theorem turfFrameRoundTrip : Obligations.TurfFrameRoundTrip := by
  intro seq payload hl
  refine ⟨fun hne => ?_, ?_, fun code hlo hhi => ?_⟩
  · exact (turfParse_turfFrame seq (by decide) (by omega)).trans (if_pos ⟨rfl, hne, hl⟩)
  · exact turfParse_turfFrame seq (by decide) (by decide)
  · rw [turfParse_turfFrame seq (by decide) (by simp)]
    simp [turfKind, hlo, hhi]

end Sys2Proof.Machine
end

section
/-! A DATA frame that ends the exchange of a leg whose entry has a staging place does not do what the statement says of it. -/

namespace Sys2Proof.Machine

/-- A DATA frame with the expected SEQ, where an answer is due on a lane that is parked, ends the exchange (R174, R176). -/
theorem Chip.laneRx_data {c : Chip} {n : Nat} {bits : List Bool} {seq : Bool} {payload : List Byte}
    (hb : turfParse bits = .data seq payload) (hd : c.turfDue n = true) (hs : c.get HTH_TURF_STAT.SEQ n = seq.toNat)
    (hp : (c.slot n).tf.parked = true) :
    c.laneRx n bits = (c.flag HTH_TURF_STAT.SEQ n (!seq)).exchDone n stsOK payload false := by
  have hpark : (c.flag HTH_TURF_STAT.SEQ n (!seq)).lanePark n = c.flag HTH_TURF_STAT.SEQ n (!seq) := if_pos hp
  unfold Chip.laneRx
  rw [hb]
  dsimp only
  rw [Chip.turfData, if_neg (by simp [hd]), if_neg (by simp [hs]), hpark]

/-- The command has gone out on the lane, and its answer is due. -/
def turfStaged : State := stagedLeg .turf T0X.init T1X.init

/-- The DATA frame with the whole response. -/
def stagedFrame : List Bool := turfFrame 0 false stagedRsp

theorem turfParse_stagedFrame : turfParse stagedFrame = .data false stagedRsp :=
  (turfFrameRoundTrip false stagedRsp (by decide)).1 (by decide)

theorem turfStaged_sram : (turfStaged.run fun c => c.atSlot 5 fun c => c.laneRx 5 stagedFrame).sram ≠ [] := by
  have h : turfStaged.chip.atSlot 5 (fun c => c.laneRx 5 stagedFrame) =
      (turfStaged.chip.flag HTH_TURF_STAT.SEQ 5 true).legOver 5 (stagedExch .turf) (.entry 7 false) stsOK stagedRsp false := by
    rw [Chip.atSlot_up (by decide +kernel), Chip.laneRx_data turfParse_stagedFrame (by decide +kernel) (by decide +kernel) rfl]
    exact Chip.exchDone_leg rfl rfl _ _
  rw [State.run, State.act, h, Chip.legOver_ok (Chip.unwrapLeg_ok rfl unwrapRsp_stagedRsp (by decide +kernel))]
  decide +kernel

/-- Refutes O13: the response that an entry takes goes to its staging place (R22, R25), which the statement, with no hypothesis that there is
none, has left as it was. -/
theorem not_turfExchange : ¬ Obligations.TurfExchange := by
  intro h
  obtain ⟨hdata, -⟩ := h 5 turfStaged (by decide +kernel)
  have he := hdata [] stagedFrame _ false stagedRsp (stagedExch .turf) 7 false stagedEntry zeroKeys [0x77] 0x9000 rfl
    turfParse_stagedFrame (by decide) (by decide +kernel) (by decide +kernel) (by decide +kernel) rfl unwrapRsp_stagedRsp
    (by decide +kernel)
  obtain ⟨c', -, ht⟩ := he.state_of_settled rfl (fun _ ho =>
    settled_of_stagedLeg (regs := [(⟨HTH_TURF_STAT.SEQ, 5⟩, 1)]) ho (by decide +kernel) (by rfl)) rfl
  exact turfStaged_sram (congrArg State.sram ht)

end Sys2Proof.Machine
end

section
/-! The commit of an overlay does not do what the statement says of it. -/

namespace Sys2Proof.Machine

/-! ## O44: the regime where its register is wider than its field -/

/-- A block whose registers are listed, none of them one that says whether it is idle. -/
theorem Chip.Idle.listedAll {c : Chip} (hi : c.Idle) {l : List (Key × Nat)} (hl : ∀ e ∈ l, e.1.fld ∉ idleFields) :
    ({ c with regs := l ++ c.regs } : Chip).Idle := by
  induction l with
  | nil => exact hi
  | cons e l ih => exact (ih fun f hf => hl f (by simp [hf])).listed (hl e (by simp)) e.1.idx e.2

/-- Nine banks have four enabled slots each, and FIXED_M1 holds 2, which its one bit cannot hold. -/
def manySlotsRegs : List (Key × Nat) :=
  (⟨HTH_MON_GSTAT.FIXED_M1, 0⟩, 2) ::
    (List.range 9).flatMap (fun b => [(⟨HTH_BANK_CFG.SLOT_EN, b⟩, 15), (⟨HTH_BANK_CFG.BANK_EN, b⟩, 1)])

/-- A block with these registers whose base image is applied. -/
def manySlots : Chip :=
  { Chip.init with regs := manySlotsRegs ++ Chip.init.regs, kln := { KlnX.init with baseOn := true } }

theorem manySlots_idle : manySlots.Idle := { Chip.Idle.init.listedAll (l := manySlotsRegs) (by decide +kernel) with }

/-- An overlay that has set the share of class 0 in FLU_SCHED_CFG, which was 0 before. -/
def schedOverlay : OvlX := ⟨0, 1, [], [], [⟨0x700000, 2 ^ 16 * 0, 0x00FF0000⟩], [], false, []⟩

/-- Its removal is in work on this block. -/
def removalInWork : State :=
  { State.reset with
    chip := { manySlots with kln := { manySlots.kln with ovls := [schedOverlay], job := some ⟨0, true, true⟩ } } }

/-- Refutes O44: every commit writes FIXED_M1 anew (R191), so where the register holds 2, which no write leaves there but which the
statement admits, it reads 1 after the removal; the statement leaves it as it was wherever the regime does not change. -/
theorem not_imagesAndOverlays : ¬ Obligations.ImagesAndOverlays := by
  intro h
  obtain ⟨-, -, -, -, -, -, -, -, -, hremoval, -⟩ := h.2 removalInWork rfl rfl
  have he := hremoval ⟨0, true, true⟩ schedOverlay 0x700000 0 rfl rfl rfl (by decide +kernel) rfl (by decide +kernel) (by decide) rfl
    rfl rfl rfl (by decide +kernel) (by decide +kernel)
  obtain ⟨c', ho, hc⟩ := he.chip_of_leadsToRest rfl
    (fun c' ho => manySlots_idle.resting.of_restful (d := { regs := _, resets := [(.KLN_OVL_STAT, 0)] })
      { ho with kln := ho.kln }
      ⟨by decide +kernel, by decide, by simp, rfl, rfl, rfl, rfl, rfl, rfl, rfl, rfl, rfl⟩)
    (t := removalInWork.run fun c => c.ovlCommit removalInWork.nvs) rfl
  have hwritten : (removalInWork.run fun c => c.ovlCommit removalInWork.nvs).chip.get HTH_MON_GSTAT.FIXED_M1 0 = 1 := by decide +kernel
  have hkept : c'.get HTH_MON_GSTAT.FIXED_M1 0 = 2 := by rw [ho.reg]; decide +kernel
  rw [hc] at hwritten
  exact absurd (hwritten.symm.trans hkept) (by decide)

end Sys2Proof.Machine
end

section
/-! DRG_MON_SETTLE expires in a domain (R197–R199): a monitor that is still undecided is reported, and a bank monitor that is fails its
bank's rail. -/

namespace Sys2Proof.Machine

/-! ## A monitor that is settled -/

/-- The code of a monitor's kind in DETAIL of source 0x0A (R396). -/
def monKind : MonId → Nat
  | .bmon _ => 1
  | .rmon _ => 2
  | _ => 0

/-- A monitor is reported as undecided (R198): UNDECIDED sets, and source 0x0A carries the STAT word with the kind. -/
def undecidedTold (c : Chip) (m : MonId) : Change :=
  { regs := [(⟨monStat m mUNDECIDED, monIdx m⟩, 1)],
    events := [⟨0x0A, monIdx m, (c.flag (monStat m mUNDECIDED) (monIdx m) true).monWord m + monKind m * 2 ^ 20, false⟩] }

/-- The kind of a slot's monitor is 0. -/
theorem undecidedTold_slot {c : Chip} {n : SlotId} {m : MonId} (h : m = .vmon n ∨ m = .imon n ∨ m = .iomon n) :
    undecidedTold c m
      = { regs := [(⟨monStat m mUNDECIDED, monIdx m⟩, 1)],
          events := [⟨0x0A, monIdx m, (c.flag (monStat m mUNDECIDED) (monIdx m) true).monWord m, false⟩] } := by
  obtain rfl | rfl | rfl := h <;> simp [undecidedTold, monKind]

/-- The kind of a rail's monitor is 2. -/
theorem undecidedTold_rail (c : Chip) (r : Fin 5) :
    undecidedTold c (.rmon r)
      = { regs := [(⟨DRG_RMON_STAT.UNDECIDED, r⟩, 1)],
          events := [⟨0x0A, r, (c.flag DRG_RMON_STAT.UNDECIDED r true).monWord (.rmon r) + 2 ^ 21, false⟩] } := by
  rw [show 2 ^ 21 = 2 * 2 ^ 20 by norm_num]
  rfl

section Settle

variable {c : Chip} {m : MonId}

theorem Chip.monSettle_settled (h : c.on (monStat m mDECIDED) (monIdx m) = true ∨ c.on (monStat m mUNDECIDED) (monIdx m) = true) :
    c.monSettle m = c :=
  if_pos (by simpa using h)

theorem Chip.monSettle_undecided (hd : c.on (monStat m mDECIDED) (monIdx m) = false)
    (hu : c.on (monStat m mUNDECIDED) (monIdx m) = false) :
    c.monSettle m = (c.flag (monStat m mUNDECIDED) (monIdx m) true).raise 0x0A (monIdx m)
      ((c.flag (monStat m mUNDECIDED) (monIdx m) true).monWord m + monKind m * 2 ^ 20) := by
  unfold Chip.monSettle
  dsimp only
  rw [if_neg (by simp [hd, hu])]
  cases m <;> rfl

theorem Chip.monSettle_of (hd : c.on (monStat m mDECIDED) (monIdx m) = false)
    (hu : c.on (monStat m mUNDECIDED) (monIdx m) = false) : (undecidedTold c m).Of c (c.monSettle m) := by
  rw [Chip.monSettle_undecided hd hu]
  exact ((Change.Of.refl c).flag (monStat_flag m (lo := mUNDECIDED) (by simp)) (monIdx m) true).raise _ _ _ false

/-- Of a list of monitors of which one is undecided, that one alone is reported, and once. -/
theorem Chip.foldl_monSettle {l : List MonId} (hm : m ∈ l) (hd : c.on (monStat m mDECIDED) (monIdx m) = false)
    (hu : c.on (monStat m mUNDECIDED) (monIdx m) = false)
    (hl : ∀ q ∈ l, q = m ∨ c.on (monStat q mDECIDED) (monIdx q) = true) : l.foldl Chip.monSettle c = c.monSettle m := by
  have hof := Chip.monSettle_of hd hu
  have hrest : ∀ q, q = m ∨ c.on (monStat q mDECIDED) (monIdx q) = true → (c.monSettle m).monSettle q = c.monSettle m := by
    rintro q (rfl | hq)
    · refine Chip.monSettle_settled (.inr ?_)
      unfold Chip.on
      rw [hof.reg]
      simp [undecidedTold, Change.reg, tabFind]
    · refine Chip.monSettle_settled (.inl ?_)
      unfold Chip.on at hq ⊢
      rw [hof.reg, Change.reg_of_ne rfl (by simp [undecidedTold, monStat, mDECIDED, mUNDECIDED])]
      exact hq
  induction l with
  | nil => cases hm
  | cons q l ih =>
    have hl' : ∀ p ∈ l, p = m ∨ c.on (monStat p mDECIDED) (monIdx p) = true := fun p hp => hl p (by simp [hp])
    rw [List.foldl_cons]
    by_cases hq : q = m
    · rw [hq]
      exact foldl_eq_self l fun p hp => hrest p (hl' p hp)
    · rw [Chip.monSettle_settled (.inl ((hl q (by simp)).resolve_left hq))]
      exact ih ((List.mem_cons.1 hm).resolve_left (Ne.symm hq)) hl'

end Settle

/-! ## The monitors of a domain -/

theorem mem_slotsOf_bankOf (n : Nat) : n ∈ slotsOf (bankOf n) := by
  simp only [slotsOf, bankOf, List.mem_cons, List.not_mem_nil, or_false]
  omega

theorem slotMon_mem_domMons {n : SlotId} {m : MonId} (h : m = .vmon n ∨ m = .imon n ∨ m = .iomon n) : m ∈ domMons (bankOf n.val) := by
  have hm : m ∈ slotMons n.val := by
    rw [slotMons, dif_pos n.isLt]
    obtain rfl | rfl | rfl := h <;> simp
  rw [domMons, dif_pos (by unfold bankOf; omega)]
  exact List.mem_append_left _ (List.mem_flatMap.2 ⟨n.val, mem_slotsOf_bankOf n.val, hm⟩)

theorem bmon_mem_domMons (b : BankId) : .bmon b ∈ domMons b.val := by
  rw [domMons, dif_pos b.isLt]
  exact List.mem_append_right _ (by simp)

/-! ## What the expiry does -/

section Expiry

variable {c c' : Chip} {k : Nat}

/-- In a bank out of isolation the monitors are reported, and that is all. -/
theorem Chip.settleOut_up (hk : k < 16) (hpow : c.bankPow k = true) (hfold : (domMons k).foldl Chip.monSettle c = c')
    (hup : c'.domUp k = true) : c.settleOut k = c' := by
  unfold Chip.settleOut
  rw [if_pos hk, if_neg (by simp [hpow])]
  dsimp only
  rw [hfold, if_pos (by simp [hup])]

/-- In a bank in isolation whose own monitor has not decided the rail fails as well (R199). -/
theorem Chip.settleOut_late (hk : k < 16) (hpow : c.bankPow k = true) (hfold : (domMons k).foldl Chip.monSettle c = c')
    (hup : c'.domUp k = false) (hd : c'.on HTH_BMON_STAT.DECIDED k = false) :
    c.settleOut k = ({ c' with seq := { c'.seq with bmonLate := c'.seq.bmonLate ++ [k] } } : Chip).noPg (4 + k) := by
  unfold Chip.settleOut
  rw [if_pos hk, if_neg (by simp [hpow])]
  dsimp only
  rw [hfold, if_neg (by simp [hup, hd])]

/-- The rail monitors are settled with PD16 to PD19. -/
theorem Chip.settleOut_rails (hk : 16 ≤ k) :
    c.settleOut k = ([.rmon 0, .rmon 1, .rmon 2, .rmon 3, .rmon 4] : List MonId).foldl Chip.monSettle c := by
  unfold Chip.settleOut
  rw [if_neg (by omega)]
  rfl

theorem Effect.monSettleExpiry {s : State} {k : Fin 20} {d : Change} (hs : s.Still) (h : d.Of s.chip (s.chip.settleOut k.val)) :
    Effect (.monSettleExpiry k) s d :=
  Effect.of_run (f := fun c => c.settleOut k.val) rfl hs h

/-- The report of a monitor leaves the domains. -/
theorem Chip.domUp_monSettle {m : MonId} (h : (undecidedTold c m).Of c c') (b : Nat) : c'.domUp b = c.domUp b := by
  unfold Chip.domUp Chip.bit
  rw [h.reg, Change.reg_of_ne rfl (by cases m <;> simp [undecidedTold, monStat, monReg])]

end Expiry

/-- A slot monitor of a bank out of isolation. -/
theorem Effect.monSettleExpiry_slot {s : State} {k : Fin 20} {n : SlotId} {m : MonId} (hs : s.Still) (hk : bankOf n.val = k.val)
    (hm : m = .vmon n ∨ m = .imon n ∨ m = .iomon n) (hup : s.chip.domUp k = true)
    (hd : s.chip.on (monStat m mDECIDED) (monIdx m) = false) (hu : s.chip.on (monStat m mUNDECIDED) (monIdx m) = false)
    (hl : ∀ q ∈ domMons k, q = m ∨ s.chip.on (monStat q mDECIDED) (monIdx q) = true) :
    Effect (.monSettleExpiry k) s (undecidedTold s.chip m) := by
  have hof := Chip.monSettle_of hd hu
  have hmem : m ∈ domMons k := hk ▸ slotMon_mem_domMons hm
  have hlt : k.val < 16 := by
    have hn := n.isLt
    unfold bankOf at hk
    omega
  refine Effect.monSettleExpiry hs ?_
  rw [Chip.settleOut_up hlt (by simp [Chip.bankPow, hup]) (Chip.foldl_monSettle hmem hd hu hl) ((Chip.domUp_monSettle hof k).trans hup)]
  exact hof

theorem rmon_mem_rails : ∀ r : Fin 5, MonId.rmon r ∈ ([.rmon 0, .rmon 1, .rmon 2, .rmon 3, .rmon 4] : List MonId) := by
  decide

/-- A rail monitor. -/
theorem Effect.monSettleExpiry_rail {s : State} {k : Fin 20} {r : Fin 5} (hs : s.Still) (hk : 16 ≤ k.val)
    (hd : s.chip.on DRG_RMON_STAT.DECIDED r = false) (hu : s.chip.on DRG_RMON_STAT.UNDECIDED r = false)
    (hl : ∀ q : Fin 5, q = r ∨ s.chip.on DRG_RMON_STAT.DECIDED q = true) :
    Effect (.monSettleExpiry k) s (undecidedTold s.chip (.rmon r)) := by
  have hrail : ∀ q : Fin 5, MonId.rmon q = .rmon r ∨ s.chip.on (monStat (.rmon q) mDECIDED) (monIdx (.rmon q)) = true :=
    fun q => (hl q).imp (congrArg MonId.rmon) id
  have hl' : ∀ q ∈ ([.rmon 0, .rmon 1, .rmon 2, .rmon 3, .rmon 4] : List MonId),
      q = .rmon r ∨ s.chip.on (monStat q mDECIDED) (monIdx q) = true := by
    simp only [List.mem_cons, List.not_mem_nil, or_false]
    rintro q (rfl | rfl | rfl | rfl | rfl) <;> exact hrail _
  refine Effect.monSettleExpiry hs ?_
  rw [Chip.settleOut_rails hk, Chip.foldl_monSettle (rmon_mem_rails r) hd hu hl']
  exact Chip.monSettle_of hd hu

/-! ## A rail that fails and has a retry left -/

section Rail

variable {c c' : Chip} {d : Change} {i : Nat}

theorem Chip.withBit_congr {f : Fld} {n : Nat} (h : c'.get f n = c.get f n) (k : Nat) (b : Bool) : c'.withBit f n k b = c.withBit f n k b := by
  unfold Chip.withBit
  rw [h]

theorem Change.Of.putBit (h : d.Of c c') (f : Fld) (n k : Nat) (b : Bool) :
    ({ d with regs := (⟨f, n⟩, c'.withBit f n k b) :: d.regs } : Change).Of c (c'.putBit f n k b) :=
  h.put f n _

/-- An enable that is high drops (R328). -/
theorem Chip.enLow_of (h : c.railEn i = true) :
    ({ regs := [(⟨DRG_RAIL_PG.RAIL, 0⟩, c.withBit DRG_RAIL_PG.RAIL 0 i false), (⟨DRG_RAIL_EN.RAIL, 0⟩, c.withBit DRG_RAIL_EN.RAIL 0 i false)],
       seq := some { c.seq with powered := c.seq.powered.filter (fun k => decide (4 + k ≠ i)) },
       out := [.rail i false] } : Change).Of c (c.enLow i) := by
  have hseq := (Change.Of.refl c).set_seq { c.seq with powered := c.seq.powered.filter (fun k => decide (4 + k ≠ i)) }
  have hen := hseq.putBit DRG_RAIL_EN.RAIL 0 i false
  have hpg := (hen.putBit DRG_RAIL_PG.RAIL 0 i false).emit (.rail i false)
  rw [Chip.withBit_congr (c := c) ((hen.reg _ _).trans (Change.reg_of_ne rfl (by simp) _))] at hpg
  exact hpg.eq (if_pos h)

/-- The account of such a rail once it has failed: it waits for its retry (R343). -/
def retryAccount (q : SeqX) (i : Nat) : SeqX :=
  { q with
    retries := tabPut id 0 q.retries i (tabGet 0 q.retries i),
    retrying := q.retrying.filter (fun r => decide (r ≠ i)),
    retryWait := q.retryWait.filter (fun r => decide (r ≠ i)) ++ [i] }

theorem Chip.railRetry_waits (h2 : 2 ≤ i) (hlim : c.railTries i < c.get DRG_SEQ_CFG.RAIL_RETRY_LIM 0) :
    c.railRetry i false = { c with seq := retryAccount c.seq i } :=
  (if_neg (by omega)).trans (if_neg (Nat.not_le.2 hlim))

/-- A rail fails but is not judged yet (R341, R343). -/
def Chip.failRail (c : Chip) (i : Nat) (evt : Fld) : Chip :=
  (((c.enLow i).putBit DRG_RAIL_FAIL.RAIL 0 i true).flag evt 0 true).railRetry i (c.seq.retrying.contains i)

theorem Chip.failRail_of {evt : Fld} (h : c.RetryLeft i) (hreg : evt.reg = .DRG_SEQ_EVT) (hw : evt.width = 1) :
    ({ railFailed c i evt with
       seq := some (retryAccount { c.seq with powered := c.seq.powered.filter (fun k => decide (4 + k ≠ i)) } i) } : Change).Of c
      (c.failRail i evt) := by
  obtain ⟨h2, -, hen, hret, hlim⟩ := h
  have hlow := Chip.enLow_of hen
  have hfail := (hlow.putBit DRG_RAIL_FAIL.RAIL 0 i true).flag hw 0 true
  rw [Chip.withBit_congr (c := c) ((hlow.reg _ _).trans (Change.reg_of_ne rfl (by simp) _))] at hfail
  have hne : evt ≠ DRG_SEQ_CFG.RAIL_RETRY_LIM := by rintro rfl; cases hreg
  have hget := (hfail.reg DRG_SEQ_CFG.RAIL_RETRY_LIM 0).trans (Change.reg_of_ne rfl (by simp [hne]) _)
  have hseq := hfail.seq
  unfold Chip.failRail
  rw [hret, Chip.railRetry_waits h2 (by unfold Chip.railTries; rw [hseq, hget]; exact hlim), hseq]
  exact hfail.set_seq _

/-- A rail other than VNVS is judged, and that is all. -/
theorem Change.Of.judge {q : SeqX} (h : d.Of c c') (hq : d.seq = some q) (hi : i ≠ 2) :
    ({ d with seq := some { q with judged := if q.judged.contains i = true then q.judged else q.judged ++ [i] } } : Change).Of c
      (c'.judge i) := by
  have hseq : c'.seq = q := by rw [h.seq, hq]; rfl
  unfold Chip.judge
  rw [hseq]
  split
  · exact { h with seq := hseq }
  · exact (h.set_seq _).eq (if_neg fun hc => hi hc.1)

/-- No stage ends while the sequencer is in RUNNING (R331). -/
theorem Chip.stageEnd_running (h : c.seqState = sqRUNNING) : c.stageEnd = c := by
  unfold Chip.stageEnd
  rw [if_neg (by rw [h]; decide), if_neg (by rw [h]; decide)]

/-- A change that leaves the state of the sequencer in RUNNING ends no stage. -/
theorem Change.Of.stageEnd (h : d.Of c c') (hrun : c.seqState = sqRUNNING) (hr : d.resets = [])
    (hd : ∀ e ∈ d.regs, e.1.fld ≠ DRG_SEQ_STAT.STATE) : d.Of c c'.stageEnd :=
  h.eq (Chip.stageEnd_running (((h.reg _ _).trans (Change.reg_of_ne hr hd _)).trans hrun))

theorem Chip.seqEvt_noPg : c.seqEvt DRG_SEQ_EVT.NO_PG = c.flag DRG_SEQ_EVT.NO_PG 0 true := by
  unfold Chip.seqEvt
  dsimp only
  rw [if_neg (by decide), if_neg (by decide), if_neg (by decide)]

/-- A rail that is not good in time fails with NO_PG and with its source (R336, R341). -/
theorem Chip.noPg_of (h : c.RetryLeft i) (hi : i ≠ 2) (hrun : c.seqState = sqRUNNING) :
    ({ railFailed c i DRG_SEQ_EVT.NO_PG with events := [⟨railSource i false, railUnit i, c.railDetail i, false⟩] } : Change).Of c (c.noPg i) := by
  have hfail := Chip.failRail_of (evt := DRG_SEQ_EVT.NO_PG) h rfl rfl
  have hdetail : (c.failRail i DRG_SEQ_EVT.NO_PG).railDetail i = c.railDetail i := by
    unfold Chip.railDetail Chip.railTries
    rw [hfail.seq]
    exact congrArg (fun n => min 255 n * 256 + i) (tabGet_tabPut_self id 0 c.seq.retries i _)
  have hno : c.noPg i
      = (((c.failRail i DRG_SEQ_EVT.NO_PG).raise (railSource i false) (railUnit i) (c.railDetail i) false).judge i).stageEnd := by
    rw [← hdetail, Chip.noPg, Chip.seqEvt_noPg]
    rfl
  rw [hno]
  exact ((hfail.raise _ _ _ false).judge rfl hi).stageEnd hrun rfl (by simp [railFailed, Change.event])

end Rail

/-! ## Two chips that agree on the rails -/

/-- The fields on which the failure of a rail depends. -/
def railFields : List Fld := [DRG_RAIL_EN.RAIL, DRG_RAIL_PG.RAIL, DRG_RAIL_FAIL.RAIL, DRG_SEQ_CFG.RAIL_RETRY_LIM, DRG_SEQ_STAT.STATE]

section Same

variable {c c' : Chip} {i : Nat} (hget : ∀ f ∈ railFields, c'.get f 0 = c.get f 0)
include hget

theorem Chip.RetryLeft.of_same (h : c.RetryLeft i) (hretries : c'.seq.retries = c.seq.retries) (hretrying : c'.seq.retrying = c.seq.retrying) :
    c'.RetryLeft i := by
  obtain ⟨h2, h24, hen, hret, hlim⟩ := h
  refine ⟨h2, h24, ?_, hretrying ▸ hret, ?_⟩
  · unfold Chip.railEn Chip.bit
    rw [hget _ (by simp [railFields])]
    exact hen
  · unfold Chip.railTries
    rw [hget _ (by simp [railFields]), hretries]
    exact hlim

theorem railFailed_regs_of_same (evt : Fld) : (railFailed c' i evt).regs = (railFailed c i evt).regs := by
  unfold railFailed
  rw [Chip.withBit_congr (c := c) (hget DRG_RAIL_EN.RAIL (by simp [railFields])),
    Chip.withBit_congr (c := c) (hget DRG_RAIL_PG.RAIL (by simp [railFields])),
    Chip.withBit_congr (c := c) (hget DRG_RAIL_FAIL.RAIL (by simp [railFields]))]

theorem railFailed_of_same (hseq : c'.seq = c.seq) (evt : Fld) : railFailed c' i evt = railFailed c i evt := by
  refine (congrArg (fun l => ({ railFailed c' i evt with regs := l } : Change)) (railFailed_regs_of_same hget evt)).trans ?_
  unfold railFailed Chip.railTries
  rw [hseq]

end Same

theorem Change.regs_plus {d e : Change} (h : e.resets = []) : (d.plus e).regs = e.regs ++ d.regs := by
  simp [Change.plus, h]

/-- Tables that share no key may change places. -/
theorem tabFind_append_comm {κ α : Type} [DecidableEq κ] {t u : List (κ × α)} (h : ∀ e ∈ t, ∀ e' ∈ u, e.1 ≠ e'.1) (k : κ) :
    tabFind (t ++ u) k = tabFind (u ++ t) k := by
  rw [tabFind_append, tabFind_append]
  by_cases hk : ∃ e ∈ t, e.1 = k
  · obtain ⟨e, he, rfl⟩ := hk
    rw [tabFind_eq_none (t := u) (fun e' he' => (h e he e' he').symm)]
    simp
  · rw [tabFind_eq_none (t := t) (fun e he hek => hk ⟨e, he, hek⟩)]
    simp

/-! ## A bank monitor that has not decided -/

/-- A bank in isolation whose own monitor has not decided: the monitor is reported, and the bank's rail fails (R198, R199). -/
def bankLate (c : Chip) (b : BankId) : Change :=
  { railFailed c (4 + b) DRG_SEQ_EVT.NO_PG with
    regs := (⟨HTH_BMON_STAT.UNDECIDED, b⟩, 1) :: (railFailed c (4 + b) DRG_SEQ_EVT.NO_PG).regs,
    seq := (railFailed { c with seq := { c.seq with bmonLate := c.seq.bmonLate ++ [b.val] } } (4 + b) DRG_SEQ_EVT.NO_PG).seq,
    events := [⟨0x0A, b, (c.flag HTH_BMON_STAT.UNDECIDED b true).monWord (.bmon b) + 2 ^ 20, false⟩,
      ⟨0x22, b, c.railDetail (4 + b), false⟩] }

/-- The source of a bank's rail that is not good in time names the bank (R379). -/
theorem railSource_bank (b : BankId) : railSource (4 + b) false = 0x22 ∧ railUnit (4 + b) = b := by
  revert b; decide

theorem Chip.noPg_bankLate {c c' : Chip} {b : BankId} (hretry : c.RetryLeft (4 + b)) (hrun : c.seqState = sqRUNNING)
    (h : (undecidedTold c (.bmon b)).Of c c') :
    (bankLate c b).Of c (({ c' with seq := { c'.seq with bmonLate := c'.seq.bmonLate ++ [b.val] } } : Chip).noPg (4 + b)) := by
  have hseq : c'.seq = c.seq := h.seq
  rw [hseq]
  have hlate := h.set_seq { c.seq with bmonLate := c.seq.bmonLate ++ [b.val] }
  generalize ({ c' with seq := { c.seq with bmonLate := c.seq.bmonLate ++ [b.val] } } : Chip) = c2 at hlate ⊢
  have hq : c2.seq = { c.seq with bmonLate := c.seq.bmonLate ++ [b.val] } := hlate.seq
  have hget : ∀ f ∈ railFields, c2.get f 0 = c.get f 0 := fun f hf => by
    rw [hlate.reg, Change.reg_of_ne rfl]
    rintro e he rfl
    rw [List.mem_singleton.1 he] at hf
    simp [railFields, monStat, monReg] at hf
  have hrun2 : c2.seqState = sqRUNNING := (hget _ (by simp [railFields])).trans hrun
  have hfail := Chip.noPg_of (hretry.of_same hget (by rw [hq]) (by rw [hq])) (by omega) hrun2
  obtain ⟨hsource, hunit⟩ := railSource_bank b
  have hdetail : c2.railDetail (4 + b) = c.railDetail (4 + b) := by unfold Chip.railDetail Chip.railTries; rw [hq]
  rw [hsource, hunit, hdetail] at hfail
  refine ((hlate.plus hfail rfl).regs_find (l := (bankLate c b).regs) fun k => ?_).change_eq ?_
  · rw [Change.regs_plus rfl]
    dsimp only
    rw [railFailed_regs_of_same hget]
    exact tabFind_append_comm (by simp [railFailed, undecidedTold, monStat, monReg]) k
  · unfold Change.plus bankLate railFailed
    rw [hq]
    simp [undecidedTold, Chip.railTries, hq, monKind, monStat, monReg, monIdx, mUNDECIDED]

theorem Effect.monSettleExpiry_bank {s : State} {k : Fin 20} {b : BankId} (hs : s.Still) (hk : k.val = b.val)
    (hpow : s.chip.seq.powered.contains k.val = true) (hup : s.chip.domUp k = false) (hrun : s.chip.seqState = sqRUNNING)
    (hretry : s.chip.RetryLeft (4 + b)) (hd : s.chip.on HTH_BMON_STAT.DECIDED b = false)
    (hu : s.chip.on HTH_BMON_STAT.UNDECIDED b = false)
    (hl : ∀ q ∈ domMons k, q = .bmon b ∨ s.chip.on (monStat q mDECIDED) (monIdx q) = true) :
    Effect (.monSettleExpiry k) s (bankLate s.chip b) := by
  have hof := Chip.monSettle_of (c := s.chip) (m := .bmon b) hd hu
  have hd' : (s.chip.monSettle (.bmon b)).on HTH_BMON_STAT.DECIDED b = false := by
    unfold Chip.on at hd ⊢
    rw [hof.reg, Change.reg_of_ne rfl (by simp [undecidedTold, monStat, monReg, mUNDECIDED])]
    exact hd
  refine Effect.monSettleExpiry hs ?_
  rw [hk] at hpow hup hl ⊢
  rw [Chip.settleOut_late b.isLt (by simp only [Chip.bankPow, hpow, Bool.or_true]) (Chip.foldl_monSettle (bmon_mem_domMons b) hd hu hl)
    ((Chip.domUp_monSettle hof b).trans hup) hd']
  exact Chip.noPg_bankLate hretry hrun hof

/-! ## A bank that goes off while its slots are out -/

/-- A slot that carries nothing is cut: the class of an operator slot starts over (R91, R98). -/
def slotsCut (c : Chip) (l : List Nat) : Change :=
  { regs := (l.filter isOperator).map (fun n => (⟨HTH_SLOT_STAT.TRIAL_CLASS, n⟩, 3)),
    slots := l.map (fun n => (n, { c.slot n with schedReact := false })) }

/-- What `Chip.SlotsOut` says of one slot. -/
abbrev Chip.SlotOut (c : Chip) (n : Nat) : Prop :=
  (c.slotState n = stOFF ∨ c.slotState n = stABSENT) ∧ c.on HTH_SLOT_STAT.ACT_PEND n = false
    ∧ (c.slot n).measuring = false ∧ (c.slot n).queue = []

section Cut

variable {c c' : Chip} {d : Change} {n : Nat}

theorem Change.Of.trialReset (h : d.Of c c') (n : Nat) :
    ({ d with regs := (([n].filter isOperator).map (fun m => ((⟨HTH_SLOT_STAT.TRIAL_CLASS, m⟩ : Key), 3))) ++ d.regs } : Change).Of c
      (c'.trialReset n) := by
  unfold Chip.trialReset
  split <;> rename_i hop
  · simpa [hop] using h.put_lt (f := HTH_SLOT_STAT.TRIAL_CLASS) (v := 3) (by decide) n
  · simpa [hop] using h

theorem Chip.slot_trialReset (c : Chip) (n m : Nat) : (c.trialReset n).slot m = c.slot m := by
  unfold Chip.trialReset
  split <;> rfl

theorem Chip.cutSlot_out (h : c.SlotOut n) (k : SeqKind) : (slotsCut c [n]).Of c (c.cutSlot n k) := by
  obtain ⟨hst, hpend, hmeas, hqueue⟩ := h
  have hne : c.slotState n ≠ stCLINKER := by
    rintro he
    rw [he] at hst
    revert hst
    decide
  have hstop : c.stopMeas n = c := if_neg (by simp [hmeas])
  have hpend : c.untrigger n = c := if_neg (by simp [hpend])
  have hcut : c.cutSlot n k = ((c.trialReset n).modSlot n (fun x => { x with schedReact := false })).evict n := by
    unfold Chip.cutSlot
    dsimp only
    rw [if_neg hne, if_pos hst, hstop, hpend]
  have hclass := ((Change.Of.refl c).trialReset n).setSlot n { c.slot n with schedReact := false }
  rw [← c.slot_trialReset n n] at hclass
  rw [hcut]
  refine (hclass.evict n ?_).change_eq ?_
  · simp [Chip.slot_trialReset, hqueue]
  · simp [Change.setSlot, slotsCut, Chip.slot_trialReset]

theorem slotsCut_congr {l : List Nat} (h : ∀ m ∈ l, c'.slot m = c.slot m) : slotsCut c' l = slotsCut c l := by
  have hslots : (slotsCut c' l).slots = (slotsCut c l).slots := List.map_congr_left fun m hm => by rw [h m hm]
  exact congrArg (fun x => ({ slotsCut c l with slots := x } : Change)) hslots

theorem slotsCut_regs_cons (c : Chip) (n : Nat) (l : List Nat) :
    (slotsCut c (n :: l)).regs = (slotsCut c [n]).regs ++ (slotsCut c l).regs := by
  unfold slotsCut
  rw [← List.map_append, ← List.filter_append]
  rfl

theorem mem_slotsCut_regs {l : List Nat} {e : Key × Nat} (h : e ∈ (slotsCut c l).regs) :
    e.1.fld = HTH_SLOT_STAT.TRIAL_CLASS ∧ e.1.idx ∈ l := by
  obtain ⟨m, hm, rfl⟩ := List.mem_map.1 h
  exact ⟨rfl, (List.mem_filter.1 hm).1⟩

theorem mem_slotsCut_slots {l : List Nat} {e : Nat × SlotX} (h : e ∈ (slotsCut c l).slots) : e.1 ∈ l := by
  obtain ⟨m, hm, rfl⟩ := List.mem_map.1 h
  exact hm

/-- Slots that carry nothing are cut one after another. -/
theorem Chip.foldl_cutSlot {l : List Nat} (hl : l.Nodup) (hout : ∀ n ∈ l, c.SlotOut n) (k : SeqKind) :
    (slotsCut c l).Of c (l.foldl (fun c n => c.cutSlot n k) c) := by
  induction l generalizing c with
  | nil => exact Change.Of.refl c
  | cons n l ih =>
    obtain ⟨hn, hl⟩ := List.nodup_cons.1 hl
    have hcut := Chip.cutSlot_out (hout n (by simp)) k
    have hslot : ∀ m ∈ l, (c.cutSlot n k).slot m = c.slot m := fun m hm => by
      have hne : n ≠ m := by rintro rfl; exact hn hm
      rw [hcut.slot]
      simp [slotsCut, tabFind, hne]
    have hrest : ∀ m ∈ l, (c.cutSlot n k).SlotOut m := fun m hm => by
      have hget : ∀ f : Fld, f ≠ HTH_SLOT_STAT.TRIAL_CLASS → (c.cutSlot n k).get f m = c.get f m := fun f hf => by
        rw [hcut.reg, Change.reg_of_ne rfl]
        simp [slotsCut, Ne.symm hf]
      unfold Chip.SlotOut Chip.on Chip.slotState
      rw [hslot m hm, hget _ (by decide), hget _ (by decide)]
      exact hout m (by simp [hm])
    have hall := hcut.plus (slotsCut_congr hslot ▸ ih hl hrest) rfl
    refine ((hall.regs_find (l := (slotsCut c (n :: l)).regs) fun q => ?_).slots_eq (l := (slotsCut c (n :: l)).slots) fun i => ?_).change_eq rfl
    · rw [slotsCut_regs_cons, Change.regs_plus rfl]
      refine tabFind_append_comm (fun e he e' he' hee => hn ?_) q
      have hidx := (mem_slotsCut_regs he).2
      rw [hee, List.mem_singleton.1 (mem_slotsCut_regs he').2] at hidx
      exact hidx
    · refine congrArg (Option.getD · _) (tabFind_append_comm (t := (slotsCut c l).slots) (u := (slotsCut c [n]).slots) ?_ i)
      rintro e he e' he' hee
      have hidx := mem_slotsCut_slots he
      rw [hee, List.mem_singleton.1 (mem_slotsCut_slots he')] at hidx
      exact hn hidx

end Cut

/-! ## A bank that is lost -/

section Lost

variable {c : Chip} {b : BankId}

/-- What of the shutdown of a bank comes before its slots are cut: the kill line, the domain and its power (R43, R57). -/
def Chip.cutPower (c : Chip) (b : Nat) : Chip :=
  { ((c.flag HTH_BANK_ESTAT.KILL b true).putBit DRG_DOM_STAT.UP 0 b false).flag HTH_BANK_ESTAT.KILL b true with
    seq := { c.seq with powered := c.seq.powered.filter (fun k => decide (k ≠ b)) } }

/-- The same as a change. -/
def powerCut (c : Chip) (b : Nat) : Change :=
  { regs := [(⟨HTH_BANK_ESTAT.KILL, b⟩, 1), (⟨DRG_DOM_STAT.UP, 0⟩, c.withBit DRG_DOM_STAT.UP 0 b false), (⟨HTH_BANK_ESTAT.KILL, b⟩, 1)],
    seq := some { c.seq with powered := c.seq.powered.filter (fun k => decide (k ≠ b)) } }

theorem Chip.cutPower_of (c : Chip) (b : Nat) : (powerCut c b).Of c (c.cutPower b) := by
  have hkill := (Change.Of.refl c).flag (f := HTH_BANK_ESTAT.KILL) rfl b true
  have hup := (hkill.putBit DRG_DOM_STAT.UP 0 b false).flag (f := HTH_BANK_ESTAT.KILL) rfl b true
  rw [Chip.withBit_congr (c := c) ((hkill.reg _ _).trans (Change.reg_of_ne rfl (by simp) _))] at hup
  exact hup.set_seq _

theorem Chip.domOff_killed (hup : c.domUp b = true) :
    (c.flag HTH_BANK_ESTAT.KILL b true).domOff b = (slotsOf b).foldl (fun c n => c.cutSlot n .kill) (c.cutPower b) := by
  have hup' : (c.flag HTH_BANK_ESTAT.KILL b true).domUp b = true := by
    unfold Chip.domUp Chip.bit Chip.flag
    rw [Chip.get_put_ne _ _ _ _ _ _ (by simp)]
    exact hup
  unfold Chip.domOff
  rw [hup', if_neg (by decide), if_pos b.isLt]
  rfl

/-- The domain of a bank whose slots are out goes off (R43, R57, R106). -/
theorem Chip.domOff_bank (hup : c.domUp b = true) (hout : c.SlotsOut b) :
    ({ bankDown c b with seq := (powerCut c b).seq } : Change).Of c ((c.flag HTH_BANK_ESTAT.KILL b true).domOff b) := by
  have hcut := c.cutPower_of b
  have hget : ∀ f : Fld, f.reg = .HTH_SLOT_STAT → ∀ n, (c.cutPower b).get f n = c.get f n := fun f hf n => by
    rw [hcut.reg, Change.reg_of_ne rfl]
    simp only [powerCut, List.mem_cons, List.not_mem_nil, or_false]
    rintro e (rfl | rfl | rfl) rfl <;> cases hf
  have hslots := Chip.foldl_cutSlot (c := c.cutPower b) (l := slotsOf b) (by simp [slotsOf]) (fun n hn => by
    unfold Chip.SlotOut Chip.on Chip.slotState
    rw [hget _ rfl, hget _ rfl]
    exact hout n hn) .kill
  rw [slotsCut_congr fun n _ => hcut.slot n] at hslots
  rw [Chip.domOff_killed hup]
  refine ((hcut.plus hslots rfl).regs_find (l := (bankDown c b).regs) fun k => ?_).change_eq ?_
  · rw [Change.regs_plus rfl]
    refine (tabFind_append_comm (fun e he e' he' hee => ?_) k).trans ?_
    · have hfld := (mem_slotsCut_regs he).1
      rw [hee] at hfld
      simp only [powerCut, List.mem_cons, List.not_mem_nil, or_false] at he'
      obtain rfl | rfl | rfl := he' <;> cases hfld
    exact tabFind_shadowed (l := [_, _]) (m := [_]) (by simp [tabFind]) _ k
  · simp [Change.plus, slotsCut, powerCut, bankDown]

/-- The fields that the shutdown of a bank changes. -/
def bankFields : List Fld := [HTH_BANK_ESTAT.KILL, DRG_DOM_STAT.UP, HTH_SLOT_STAT.TRIAL_CLASS]

theorem mem_bankDown_regs {e : Key × Nat} (h : e ∈ (bankDown c b).regs) : e.1.fld ∈ bankFields := by
  simp only [bankDown, List.mem_append, List.mem_cons, List.not_mem_nil, or_false, List.mem_map] at h
  obtain (rfl | rfl) | ⟨n, -, rfl⟩ := h <;> simp [bankFields]

theorem mem_railFailed_regs {c : Chip} {i : Nat} {evt : Fld} {e : Key × Nat} (h : e ∈ (railFailed c i evt).regs) :
    e.1.fld ∈ [evt, DRG_RAIL_FAIL.RAIL, DRG_RAIL_PG.RAIL, DRG_RAIL_EN.RAIL] := by
  simp only [railFailed, List.mem_cons, List.not_mem_nil, or_false] at h
  obtain rfl | rfl | rfl | rfl := h <;> simp

/-- The shutdown of a bank changes no field of its rail, and none that the loss of a rail changes. -/
theorem bankFields_apart : ∀ f ∈ bankFields,
    f ∉ railFields ∧ f ∉ [DRG_SEQ_EVT.RAIL_LOST, DRG_RAIL_FAIL.RAIL, DRG_RAIL_PG.RAIL, DRG_RAIL_EN.RAIL] := by
  decide

/-- With no margin in progress there is none to end (R351). -/
theorem Chip.bellowsAbort_none (h : c.pmb.bel.phase = .none) (i reason : Nat) :
    (if c.pmb.bel.rail = i then c.bellowsAbort reason else c) = c := by
  split
  · exact if_pos h
  · rfl

/-- The rail of a bank is lost while no margin is in progress: the domain goes off, then the rail has failed (R341). -/
theorem Chip.bankLost_eq {c1 : Chip} (h1 : (c.flag HTH_BANK_ESTAT.KILL b true).domOff b = c1)
    (hret : c1.seq.retrying = c.seq.retrying) (hphase : (c1.failRail (4 + b) DRG_SEQ_EVT.RAIL_LOST).pmb.bel.phase = .none) :
    c.bankLost b false false = ((c1.failRail (4 + b) DRG_SEQ_EVT.RAIL_LOST).judge (4 + b)).stageEnd := by
  unfold Chip.bankLost
  dsimp only
  rw [h1, ← hret]
  exact congrArg (fun x => (Chip.judge x (4 + b)).stageEnd) (Chip.bellowsAbort_none hphase _ _)

theorem Chip.bankLost_of (hup : c.domUp b = true) (hout : c.SlotsOut b) (hretry : c.RetryLeft (4 + b)) (hrun : c.seqState = sqRUNNING)
    (hphase : c.pmb.bel.phase = .none) :
    ((railFailed c (4 + b) DRG_SEQ_EVT.RAIL_LOST).plus (bankDown c b)).Of c (c.bankLost b false false) := by
  have hoff := Chip.domOff_bank hup hout
  generalize hc1 : (c.flag HTH_BANK_ESTAT.KILL b true).domOff b = c1 at hoff
  have hseq : c1.seq = { c.seq with powered := c.seq.powered.filter (fun k => decide (k ≠ b.val)) } := hoff.seq
  have hget : ∀ f ∈ railFields, c1.get f 0 = c.get f 0 := fun f hf => by
    rw [hoff.reg, Change.reg_of_ne rfl]
    rintro e he rfl
    exact (bankFields_apart _ (mem_bankDown_regs he)).1 hf
  have hfail := Chip.failRail_of (evt := DRG_SEQ_EVT.RAIL_LOST) (hretry.of_same hget (by rw [hseq]) (by rw [hseq])) rfl rfl
  have hall := hoff.plus hfail rfl
  have hlost := (hall.judge rfl (i := 4 + b) (by omega)).stageEnd hrun rfl fun e he hst => by
    dsimp only at he
    rw [Change.regs_plus rfl] at he
    obtain he | he := List.mem_append.1 he
    · exact absurd (hst ▸ mem_railFailed_regs he) (by decide)
    · exact (bankFields_apart _ (mem_bankDown_regs he)).1 (by simp [hst, railFields])
  rw [Chip.bankLost_eq hc1 (by rw [hseq]) (by rw [hall.pmb]; exact hphase)]
  refine (hlost.regs_find (l := ((railFailed c (4 + b) DRG_SEQ_EVT.RAIL_LOST).plus (bankDown c b)).regs) fun k => ?_).change_eq ?_
  · dsimp only
    rw [Change.regs_plus rfl, Change.regs_plus rfl]
    dsimp only
    rw [railFailed_regs_of_same hget]
    exact tabFind_append_comm (fun e he e' he' hee => (bankFields_apart _ (mem_bankDown_regs he')).2 (hee ▸ mem_railFailed_regs he)) k
  · simp [Change.plus, bankDown, railFailed, retryAccount, hseq, Chip.railTries]

end Lost

/-! ## A bank monitor that moves to its alarm side -/

section Fault

variable {c : Chip} {b : BankId} {x : Sample}

/-- Out of isolation the move of a bank monitor is told as that of any other monitor is (R379). -/
theorem Chip.monSample_bmon (hsays : c.Says (.bmon b) x (some true)) (halarm : c.monAlarm (.bmon b) = false) (hup : c.domUp b = true)
    (hd : ¬c.Dwells (.bmon b)) : ∃ c', c.monSample (.bmon b) x = (c', some true) ∧ (tripped c (.bmon b) x).Of c c' := by
  have hmove := c.alarmSide_takeSample_of (.bmon b) x
  have hdom : ((c.takeSample (.bmon b) x).alarmSide (.bmon b)).domUp b = true :=
    ((untold_recorded c (.bmon b) x).domUp ((c.takeSample_of (.bmon b) x).plus hmove rfl) b).trans hup
  have htold : ((c.takeSample (.bmon b) x).alarmSide (.bmon b)).moveTold (.bmon b)
      = ((c.takeSample (.bmon b) x).alarmSide (.bmon b)).raise (monSource (.bmon b)).1 (monSource (.bmon b)).2
          (((c.takeSample (.bmon b) x).alarmSide (.bmon b)).monWord (.bmon b)) := if_pos hdom
  refine Chip.monSample_trips hsays halarm rfl ?_
  rw [Chip.monTrip_eq, Chip.dwellCounted, if_neg (mt Chip.dwells_alarmSide.1 hd), htold,
    Chip.monWord_moved hmove (tripRegs_statusOnly _ _)]
  exact hmove.raise _ _ _ false

/-- The record of a bank monitor's move names no field of the rails. -/
theorem railFields_apart : ∀ f ∈ railFields, f.reg ≠ .HTH_BMON_STAT ∧ f ≠ HTH_SLOT_ESTAT.PRES_RAW := by
  decide

/-- Such a bank is lost after the move as it would have been before it. -/
theorem Change.Recorded.bankLost {c' : Chip} {d : Change} (hd : d.Recorded (.bmon b)) (h : d.Of c c') (hseq : c'.seq = c.seq)
    (hpmb : c'.pmb = c.pmb) (hup : c.domUp b = true) (hout : c.SlotsOut b) (hretry : c.RetryLeft (4 + b)) (hrun : c.seqState = sqRUNNING)
    (hphase : c.pmb.bel.phase = .none) :
    ((railFailed c (4 + b) DRG_SEQ_EVT.RAIL_LOST).plus (bankDown c b)).Of c' (c'.monReact (.bmon b) true) := by
  have hget : ∀ f : Fld, f.reg ≠ .HTH_BMON_STAT → f ≠ HTH_SLOT_ESTAT.PRES_RAW → ∀ n, c'.get f n = c.get f n := fun f hf hp n => hd.get h hf hp n
  have hrails : ∀ f ∈ railFields, c'.get f 0 = c.get f 0 := fun f hf => hget f (railFields_apart f hf).1 (railFields_apart f hf).2 0
  have hup' : c'.domUp b = true := (hd.domUp h b).trans hup
  have hrun' : c'.seqState = sqRUNNING := (hget _ (by simp) (by simp) 0).trans hrun
  have hout' : c'.SlotsOut b := fun n hn => by
    unfold Chip.on
    rw [hd.slotState h, hd.slot h, hget _ (by simp) (by simp)]
    exact hout n hn
  have hlost := Chip.bankLost_of hup' hout' (hretry.of_same hrails (by rw [hseq]) (by rw [hseq])) hrun' (by rw [hpmb]; exact hphase)
  have hreact : c'.monReact (.bmon b) true = c'.bankLost b false false := by
    have hdown : c'.inDown = false := by
      unfold Chip.inDown
      rw [hrun']
      decide
    unfold Chip.monReact Chip.bankAlarm
    dsimp only
    rw [if_pos hup', hdown, if_neg (by decide)]
  have hbank : bankDown c' b = bankDown c b := by
    simp only [bankDown, hd.slot h, Chip.withBit_congr (hget DRG_DOM_STAT.UP (by simp) (by simp) 0)]
  rw [hreact, ← railFailed_of_same hrails hseq, ← hbank]
  exact hlost

theorem Effect.bmonFault_lost {s : State} (hs : s.Still) (hsays : s.chip.Says (.bmon b) x (some true))
    (halarm : s.chip.monAlarm (.bmon b) = false) (hd : ¬s.chip.Dwells (.bmon b)) (hup : s.chip.domUp b = true) (hout : s.chip.SlotsOut b)
    (hretry : s.chip.RetryLeft (4 + b)) (hrun : s.chip.seqState = sqRUNNING) (hphase : s.chip.pmb.bel.phase = .none) :
    Effect (.bmonFault b [x]) s
      ((tripped s.chip (.bmon b) x).plus ((railFailed s.chip (4 + b) DRG_SEQ_EVT.RAIL_LOST).plus (bankDown s.chip b))) := by
  obtain ⟨c', hsample, htripped⟩ := Chip.monSample_bmon hsays halarm hup hd
  refine Effect.of_samplesOf (m := .bmon b) rfl (Effect.monitorGood hs ?_)
  rw [Chip.monFeed_of_some hsample]
  exact htripped.plus ((tripped_recorded _ _ _).bankLost htripped htripped.seq htripped.pmb hup hout hretry hrun hphase) rfl

end Fault

/-- Settles O26: the report of an undecided monitor changes nothing that the others depend on; a bank in isolation then fails its rail,
and a bank that is lost goes off before its rail fails. -/
theorem bankPowerMonitors : Obligations.BankPowerMonitors := by
  unfold Obligations.BankPowerMonitors
  refine ⟨fun k s hs => ⟨fun n m hk hm hup hd hu hl => ?_, fun b hk hpow hup hrun hretry hd hu hl => ?_,
    fun r hk hd hu hl => undecidedTold_rail s.chip r ▸ Effect.monSettleExpiry_rail hs hk hd hu hl⟩,
    fun b x s hs hsays halarm hdwell hup hout hretry hrun hphase =>
      Effect.bmonFault_lost hs hsays halarm hdwell hup hout hretry hrun hphase⟩
  · rw [← undecidedTold_slot hm]
    exact Effect.monSettleExpiry_slot hs hk hm hup hd hu hl
  · exact Effect.monSettleExpiry_bank hs hk hpow hup hrun hretry hd hu hl
end Sys2Proof.Machine
end

section
/-! Rings (R207–R240): where their commands reach, what serves a ring, and the changes that those commands are made of. -/

namespace Sys2Proof.Machine

/-! ## Where the commands of Flue reach -/

/-- A write of a path that is served acts in Flue while PD16 is up. -/
theorem Chip.coreWrite_taken {c : Chip} {p : Path} {blk : Nat} (h : c.served p blk true false = true) (hup : c.domUp 16 = true)
    (f : Chip → Chip) : c.coreWrite p blk f = f c :=
  Chip.hostWrite_taken h hup f

theorem Chip.inCore_up {c : Chip} (h : c.domUp 16 = true) (f : Chip → Chip) : c.inCore f = f c :=
  if_pos h

/-! ## A ring that is served -/

/-- The fields that say whether a ring is served (R233, R237, R388, R459). -/
def servedFields : List Fld :=
  [FLU_RING_STAT.STATE, FLU_RING_STAT.AWAIT_DB, FLU_RING_STAT.OWNER_NOW, FLU_PORT_STAT.LOST, FLU_HP_STAT.DL_UP, FLU_HP_STAT.DSTATE,
    FLU_HP_STAT.BME, FLU_HP_STAT.MSE, DRG_DOM_STAT.UP, KLN_DBG_STAT.HELD]

theorem Chip.serving_congr {c c' : Chip} (hget : ∀ f ∈ servedFields, ∀ i, c'.get f i = c.get f i) (x : Nat) :
    c'.serving x = c.serving x := by
  simp only [Chip.serving, Chip.domUp, Chip.bit, Chip.on]
  rw [hget DRG_DOM_STAT.UP (by decide), hget FLU_HP_STAT.DL_UP (by decide), hget FLU_HP_STAT.DSTATE (by decide),
    hget FLU_HP_STAT.BME (by decide), hget FLU_HP_STAT.MSE (by decide)]

theorem Chip.ringServed_congr {c c' : Chip} (hget : ∀ f ∈ servedFields, ∀ i, c'.get f i = c.get f i) (hash : c'.ash = c.ash) (r : Nat) :
    c'.ringServed r = c.ringServed r := by
  have howner : c'.owner r = c.owner r := hget FLU_RING_STAT.OWNER_NOW (by decide) r
  have hport : ∀ x, c'.portOpen x = c.portOpen x := fun x => by
    simp [Chip.portOpen, Chip.serving_congr hget, Chip.portFenced, Chip.bscan, Chip.bit, Chip.on, Chip.safe, hash,
      hget KLN_DBG_STAT.HELD (by decide), hget FLU_PORT_STAT.LOST (by decide)]
  have hstate : c'.ringState r = c.ringState r := hget FLU_RING_STAT.STATE (by decide) r
  simp only [Chip.ringServed, Chip.on, hstate, howner, hport, hget FLU_RING_STAT.AWAIT_DB (by decide)]

/-! ## Changes -/

section Changes

variable {d : Change} {c c' : Chip} {r : Nat}

/-- An event of a ring: its bit sets, and Ash hears of it under the port that owns the ring, as any chip says it whose event register
and owner read the same (R379, R396). -/
theorem Change.Of.ringEvt (h : d.Of c c') {c1 : Chip} (hevt : ∀ lo, c'.get ⟨.FLU_RING_EVT, lo⟩ r = c1.get ⟨.FLU_RING_EVT, lo⟩ r)
    (howner : c'.owner r = c1.owner r) {f : Fld} (hf : f.width = 1) (ho : f ≠ FLU_RING_STAT.OWNER_NOW) :
    ({ d with regs := (⟨f, r⟩, 1) :: d.regs, events := d.events ++ [ringEvent c1 f r] } : Change).Of c (c'.ringEvt f r) := by
  have hset := (h.flag hf r true).raise 0x35 (c'.owner r) ((c1.flag f r true).word .FLU_RING_EVT r * 2 ^ 16 + r) false
  have hkept : (c'.flag f r true).owner r = c'.owner r := Chip.get_put_ne _ _ _ _ _ _ fun hk => ho hk.1.symm
  unfold Chip.ringEvt
  dsimp only
  rw [Chip.word_flag_congr hevt, hkept]
  rw [howner] at hset ⊢
  exact hset

/-- A ring that is replaced again reads as it was put last. -/
theorem Change.Of.ring_again (h : d.Of c c') {x y : RingX} {l : List (Nat × RingX)} (hd : d.rings = (r, x) :: (r, y) :: l) :
    ({ d with rings := (r, x) :: l } : Change).Of c c' :=
  { h with
    ring := fun i => by
      rw [h.ring, hd]
      simp only [tabFind]
      split <;> rfl }

end Changes

end Sys2Proof.Machine
end

section
/-! Doorbells (R208, R215–R217): which are taken, the fetch that follows, and the statement of the doorbells. -/

namespace Sys2Proof.Machine

/-! ## The next fetch -/

section Fetch

variable {c : Chip} {r : Nat}

/-- How many entries the next fetch of a ring reads (R217). -/
def Chip.fetchLen (c : Chip) (r : Nat) : Nat :=
  min (min 8 (c.ring r).arrivals.length) (min (16 - (c.unadmitted r).length) (c.sqSize r - c.get FLU_RING_PTR.SQ_HEAD r))

theorem Chip.fetchRing_issued (hstate : c.ringState r = rsRUNNING) (hserved : c.ringServed r = true) (hfetch : (c.ring r).fetching = 0)
    (hlen : 0 < c.fetchLen r) :
    c.fetchRing r = (c.setRing r { c.ring r with fetching := c.fetchLen r }).emit
      (.dmaRead (c.owner r) (c.sqBase r + 64 * c.get FLU_RING_PTR.SQ_HEAD r) (64 * c.fetchLen r)) :=
  if_pos ⟨hstate, hserved, hfetch, hlen⟩

/-- A ring that does not run, or has a fetch outstanding, issues none. -/
theorem Chip.fetchRing_busy (h : c.ringState r ≠ rsRUNNING ∨ (c.ring r).fetching ≠ 0) : c.fetchRing r = c :=
  if_neg fun ⟨hstate, _, hfetch, _⟩ => h.elim (· hstate) (· hfetch)

/-- Nor does one without entries to fetch. -/
theorem Chip.fetchRing_empty (h : (c.ring r).arrivals = []) : c.fetchRing r = c :=
  if_neg fun ⟨_, _, _, hlen⟩ => by simp [h] at hlen

end Fetch

/-! ## Doorbells that are taken -/

section Bell

variable {c : Chip} {p : Path} {r t h : Nat}

/-- Where no completion waits, none is written, and the CQ is not full. -/
theorem Chip.flushRing_of_none (hnone : ∀ e ∈ c.entries, e.ring = r → e.phase ≠ .ended) :
    c.flushRing r = c.flag FLU_RING_STAT.CQ_FULL r false := by
  have hnil : (c.ringEntries r).filter (fun e => decide (e.phase = .ended)) = [] := List.filter_eq_nil_iff.2 fun e he => by
    obtain ⟨hmem, hring⟩ := List.mem_filter.1 he
    simpa using hnone e hmem (by simpa using hring)
  rw [Chip.flushRing, hnil]
  rfl

/-- The chip once a doorbell has changed its ring, before the next fetch. -/
def Chip.rung (c : Chip) (r : Nat) (x : RingX) : Chip := (c.setRing r x).flag FLU_RING_STAT.CQ_FULL r false

theorem Chip.rung_of (c : Chip) (r : Nat) (x : RingX) :
    ({ regs := [(⟨FLU_RING_STAT.CQ_FULL, r⟩, 0)], rings := [(r, x)] } : Change).Of c (c.rung r x) :=
  ((Change.Of.refl c).setRing r x).flag rfl r false

theorem Chip.get_rung {x : RingX} {f : Fld} (hf : f ≠ FLU_RING_STAT.CQ_FULL) (i : Nat) : (c.rung r x).get f i = c.get f i :=
  Chip.get_put_ne _ _ _ _ _ _ fun hk => hf hk.1

@[simp] theorem Chip.ring_rung (c : Chip) (r : Nat) (x : RingX) : (c.rung r x).ring r = x := Chip.ring_setRing_self c r x

theorem Chip.ringServed_rung (x : RingX) : (c.rung r x).ringServed r = c.ringServed r :=
  Chip.ringServed_congr (fun _ hf i => Chip.get_rung (by rintro rfl; exact absurd hf (by decide)) i) rfl r

/-- What an accepted doorbell brings on, on a ring that no move has left waiting for it. -/
theorem Chip.afterBell_rung {x : RingX} (hawait : c.on FLU_RING_STAT.AWAIT_DB r = false)
    (hnone : ∀ e ∈ c.entries, e.ring = r → e.phase ≠ .ended) : (c.setRing r x).afterBell r = (c.rung r x).fetchRing r := by
  have ha : (c.setRing r x).on FLU_RING_STAT.AWAIT_DB r = false := hawait
  rw [Chip.afterBell, ha, Chip.flushRing_of_none (c := c.setRing r x) hnone]
  rfl

/-- The entries that a new tail of the SQ adds (R215). -/
def Chip.newEntries (c : Chip) (r t : Nat) : Nat := (t + c.sqSize r - (c.ring r).sqTail) % c.sqSize r

/-- The ring once it has taken a tail: each new entry has its arrival time (R216). -/
def Chip.tailTaken (c : Chip) (r t : Nat) : RingX :=
  { c.ring r with sqTail := t, arrivals := (c.ring r).arrivals ++ List.replicate (c.newEntries r t) (c.us, c.ringDefer r) }

theorem Chip.sqBell_taken (howner : c.ownerPath p r = true) (ht : t < c.sqSize r)
    (hroom : (c.ring r).arrivals.length + (c.unadmitted r).length + c.newEntries r t ≤ c.sqSize r - 1) :
    c.sqBell p r t = (c.setRing r (c.tailTaken r t)).afterBell r := by
  have hfits : ¬(c.sqSize r ≤ t ∨ c.sqSize r - 1 - (c.ring r).arrivals.length - (c.unadmitted r).length < c.newEntries r t) := by omega
  unfold Chip.newEntries at hfits
  simp only [Chip.sqBell, howner, hfits]
  rfl

theorem Chip.cqBell_taken (howner : c.ownerPath p r = true) (hh : h < c.cqSize r)
    (hroom : (h + c.cqSize r - (c.ring r).cqHead) % c.cqSize r ≤ c.cqWritten r) :
    c.cqBell p r h = (c.setRing r { c.ring r with cqHead := h }).afterBell r := by
  have hfits : ¬(c.cqSize r ≤ h ∨ c.cqWritten r < (h + c.cqSize r - (c.ring r).cqHead) % c.cqSize r) := by omega
  simp only [Chip.cqBell, howner, hfits]
  rfl

/-- A tail that is taken on a ring with room for its fetch. -/
theorem Change.Of.sqBell_fetches (howner : c.ownerPath p r = true) (hawait : c.on FLU_RING_STAT.AWAIT_DB r = false)
    (hnone : ∀ e ∈ c.entries, e.ring = r → e.phase ≠ .ended) (ht : t < c.sqSize r)
    (hroom : (c.ring r).arrivals.length + (c.unadmitted r).length + c.newEntries r t ≤ c.sqSize r - 1)
    (hstate : c.ringState r = rsRUNNING) (hserved : c.ringServed r = true) (hfetch : (c.ring r).fetching = 0) {k : Nat}
    (hk : k = min (min 8 ((c.ring r).arrivals.length + c.newEntries r t))
      (min (16 - (c.unadmitted r).length) (c.sqSize r - c.get FLU_RING_PTR.SQ_HEAD r))) (hpos : 0 < k) :
    ({ regs := [(⟨FLU_RING_STAT.CQ_FULL, r⟩, 0)], rings := [(r, { c.tailTaken r t with fetching := k })],
       out := [.dmaRead (c.owner r) (c.sqBase r + 64 * c.get FLU_RING_PTR.SQ_HEAD r) (64 * k)] } : Change).Of c (c.sqBell p r t) := by
  obtain ⟨c1, hc1⟩ : ∃ c1, c1 = c.rung r (c.tailTaken r t) := ⟨_, rfl⟩
  have hget : ∀ f, f ≠ FLU_RING_STAT.CQ_FULL → ∀ i, c1.get f i = c.get f i := fun f hf i => hc1 ▸ Chip.get_rung hf i
  have hring : c1.ring r = c.tailTaken r t := hc1 ▸ Chip.ring_rung c r _
  have hun : c1.unadmitted r = c.unadmitted r := by rw [hc1]; rfl
  have hsize : c1.sqSize r = c.sqSize r := congrArg (2 ^ ·) (hget FLU_RING_CTL.SQ_SIZE (by decide) r)
  have hhead : c1.get FLU_RING_PTR.SQ_HEAD r = c.get FLU_RING_PTR.SQ_HEAD r := hget _ (by decide) r
  have hlen : c1.fetchLen r = k := by
    rw [hk, Chip.fetchLen, hring, hun, hsize, hhead]
    simp [Chip.tailTaken]
  have hbase : c1.sqBase r = c.sqBase r := by
    simp only [Chip.sqBase, hget FLU_SQ_BASE_HI.ADDR_HI (by decide), hget FLU_SQ_BASE_LO.ADDR_LO (by decide)]
  have howns : c1.owner r = c.owner r := hget FLU_RING_STAT.OWNER_NOW (by decide) r
  have hissued := Chip.fetchRing_issued (c := c1) (r := r) ((hget FLU_RING_STAT.STATE (by decide) r).trans hstate)
    (by rw [hc1, Chip.ringServed_rung]; exact hserved) (by rw [hring]; exact hfetch) (by rw [hlen]; exact hpos)
  rw [Chip.sqBell_taken howner ht hroom, Chip.afterBell_rung hawait hnone, ← hc1, hissued, hlen, hring, hhead, hbase, howns]
  have hof := (c.rung_of r (c.tailTaken r t))
  rw [← hc1] at hof
  exact ((hof.setRing r _).emit _).ring_again rfl

/-- A tail that is taken on a ring that fetches nothing now. -/
theorem Change.Of.sqBell_waits (howner : c.ownerPath p r = true) (hawait : c.on FLU_RING_STAT.AWAIT_DB r = false)
    (hnone : ∀ e ∈ c.entries, e.ring = r → e.phase ≠ .ended) (ht : t < c.sqSize r)
    (hroom : (c.ring r).arrivals.length + (c.unadmitted r).length + c.newEntries r t ≤ c.sqSize r - 1)
    (hbusy : c.ringState r ≠ rsRUNNING ∨ (c.ring r).fetching ≠ 0) :
    ({ regs := [(⟨FLU_RING_STAT.CQ_FULL, r⟩, 0)], rings := [(r, c.tailTaken r t)] } : Change).Of c (c.sqBell p r t) := by
  have hstate : (c.rung r (c.tailTaken r t)).ringState r = c.ringState r := Chip.get_rung (by decide) r
  rw [Chip.sqBell_taken howner ht hroom, Chip.afterBell_rung hawait hnone, Chip.fetchRing_busy]
  · exact c.rung_of r _
  · rw [hstate, Chip.ring_rung]
    exact hbusy

/-- A head that is taken on a ring without entries to fetch. -/
theorem Change.Of.cqBell_taken (howner : c.ownerPath p r = true) (hawait : c.on FLU_RING_STAT.AWAIT_DB r = false)
    (hnone : ∀ e ∈ c.entries, e.ring = r → e.phase ≠ .ended) (hh : h < c.cqSize r)
    (hroom : (h + c.cqSize r - (c.ring r).cqHead) % c.cqSize r ≤ c.cqWritten r) (harr : (c.ring r).arrivals = []) :
    ({ regs := [(⟨FLU_RING_STAT.CQ_FULL, r⟩, 0)], rings := [(r, { c.ring r with cqHead := h })] } : Change).Of c (c.cqBell p r h) := by
  rw [Chip.cqBell_taken howner hh hroom, Chip.afterBell_rung hawait hnone, Chip.fetchRing_empty]
  · exact c.rung_of r _
  · rw [Chip.ring_rung]
    exact harr

end Bell

/-! ## O15: doorbells -/

section Doorbell

variable {s : State} {p : Path} {r : RingId}

theorem Effect.sqDoorbell {t : Nat} {d : Change} (hs : s.Takes p blkFLU (s.chip.domUp 16)) (h : d.Of s.chip (s.chip.sqBell p r t)) :
    Effect (.sqDoorbell p r t) s d := by
  obtain ⟨hstill, hserved, hup⟩ := hs
  refine Effect.of_run (f := fun c => c.coreWrite p blkFLU fun c => c.sqBell p r.val t) rfl hstill ?_
  rw [Chip.coreWrite_taken hserved hup]
  exact h

theorem Effect.cqDoorbell {t : Nat} {d : Change} (hs : s.Takes p blkFLU (s.chip.domUp 16)) (h : d.Of s.chip (s.chip.cqBell p r t)) :
    Effect (.cqDoorbell p r t) s d := by
  obtain ⟨hstill, hserved, hup⟩ := hs
  refine Effect.of_run (f := fun c => c.coreWrite p blkFLU fun c => c.cqBell p r.val t) rfl hstill ?_
  rw [Chip.coreWrite_taken hserved hup]
  exact h

/-- An event of a ring, and nothing else. -/
theorem Chip.ringEvt_of (c : Chip) {f : Fld} (hf : f.width = 1) (ho : f ≠ FLU_RING_STAT.OWNER_NOW) (r : Nat) :
    ({ regs := [(⟨f, r⟩, 1)], events := [ringEvent c f r] } : Change).Of c (c.ringEvt f r) :=
  (Change.Of.refl c).ringEvt (fun _ => rfl) rfl hf ho

end Doorbell

/-- Settles O15: a doorbell is refused with its event, or its ring takes it, and the next fetch follows where it can. -/
theorem doorbells : Obligations.Doorbells := by
  unfold Obligations.Doorbells
  intro p r s hs
  refine ⟨fun t k howner hawait hnone ht hroom hstate hserved hfetch hk hpos =>
      Effect.sqDoorbell hs (.sqBell_fetches howner hawait hnone ht hroom hstate hserved hfetch hk hpos),
    fun t howner hawait hnone ht hroom hbusy => Effect.sqDoorbell hs (.sqBell_waits howner hawait hnone ht hroom hbusy),
    fun h howner hawait hnone hh hroom harr => Effect.cqDoorbell hs (.cqBell_taken howner hawait hnone hh hroom harr),
    fun i v howner hi => ?_, fun i v howner hi => ?_⟩
  · have hof := s.chip.ringEvt_of (f := FLU_RING_EVT.NOT_OWNER) rfl (by decide) r
    obtain rfl | rfl := hi
    · exact Effect.sqDoorbell hs (hof.eq (by simp [Chip.sqBell, howner]))
    · exact Effect.cqDoorbell hs (hof.eq (by simp [Chip.cqBell, howner]))
  · have hof := s.chip.ringEvt_of (f := FLU_RING_EVT.DB_ERR) rfl (by decide) r
    obtain ⟨rfl, hv⟩ | ⟨rfl, hv⟩ := hi
    · exact Effect.sqDoorbell hs (hof.eq (by simp [Chip.sqBell, howner, hv]))
    · exact Effect.cqDoorbell hs (hof.eq (by simp [Chip.cqBell, howner, hv]))

end Sys2Proof.Machine
end

section
/-! Ports that are lost and serve again (R232–R235, R464): what becomes of the rings of a lost port, and the statement of both. -/

namespace Sys2Proof.Machine

/-! ## A ring that asks for no tokens any more -/

/-- An asker that holds no grant has only its requests withdrawn. -/
theorem Chip.withdraw_of_noGrant {c : Chip} {a : Asker} (h : ∀ g ∈ c.dmp.grants, g.asker ≠ a) :
    c.withdraw a = { c with dmp := { c.dmp with reqs := c.dmp.reqs.filter (fun q => decide (q.asker ≠ a)) } } := by
  have hkept : c.dmp.grants.filter (fun g => decide (g.asker ≠ a)) = c.dmp.grants :=
    List.filter_eq_self.2 fun g hg => by simpa using h g hg
  have hback : c.dmp.grants.filter (fun g => decide (g.asker = a)) = [] :=
    List.filter_eq_nil_iff.2 fun g hg => by simpa using h g hg
  simp only [Chip.withdraw, hkept, hback, List.foldl_nil]

section Rings

variable {d : Change} {c c' : Chip} {r : Nat}

/-- The token request of a ring is withdrawn, its deferral stops, and its candidate is held as fetched (R227). -/
theorem Change.Of.unrequest (h : d.Of c c') (hg : c'.NoAdmission r) :
    ({ d with
        regs := (⟨FLU_RING_STAT.DEFERRED, r⟩, 0) :: d.regs,
        rings := (r, { c'.ring r with deferUs := c'.ringDefer r, deferSince := none }) :: d.rings,
        entries := some (c'.entries.map (fun e => if e.ring = r ∧ e.phase = .tokens then { e with phase := .fetched } else e)),
        dmp := some { c'.dmp with reqs := c'.dmp.reqs.filter (fun q => decide (q.asker ≠ .admission r)) } } : Change).Of c
      (c'.unrequest r) := by
  unfold Chip.unrequest
  rw [Chip.withdraw_of_noGrant hg]
  exact (((h.set_dmp _).setRing r _).flag rfl r false).set_entries _

/-- A ring moves to a port (R232, R235); the event carries the word of its event register, under the port it has moved to. -/
theorem Change.Of.moveRing (h : d.Of c c') {x : RingX} (hring : c'.ring r = x)
    (hevt : ∀ lo, c'.get ⟨.FLU_RING_EVT, lo⟩ r = c.get ⟨.FLU_RING_EVT, lo⟩ r) {k : Nat} (hk : k < 2) :
    ({ d with
        regs := [(⟨FLU_RING_EVT.MOVED, r⟩, 1), (⟨FLU_RING_STAT.AWAIT_DB, r⟩, 1), (⟨FLU_RING_STAT.OWNER_NOW, r⟩, k)] ++ d.regs,
        rings := (r, { x with fetching := 0 }) :: d.rings,
        events := d.events ++ [ringEvent (c.put FLU_RING_STAT.OWNER_NOW r k) FLU_RING_EVT.MOVED r] } : Change).Of c
      (c'.moveRing r k) := by
  subst hring
  refine (((h.put_lt (f := FLU_RING_STAT.OWNER_NOW) hk r).flag (f := FLU_RING_STAT.AWAIT_DB) rfl r true).setRing r _).ringEvt
    (fun lo => ?_) ?_ rfl (by decide)
  · simp [Chip.get_put, hevt]
  · simp [Chip.owner, Chip.get_put]

end Rings

/-! ## The rings of a lost port -/

section Loss

variable {c : Chip} {x r : Nat}

/-- The rings of a port that run (R232). -/
def Chip.runningOf (c : Chip) (x : Nat) : List Nat :=
  c.definedRings.filter (fun r =>
    decide (c.owner r = x) && (decide (c.ringState r = rsRUNNING) || decide (c.ringState r = rsPAUSED)))

/-- A port that reads LOST, before its rings are seen to. -/
def Chip.portDown (c : Chip) (x : Nat) : Chip :=
  (c.setPort x { c.port x with lossRun := false }).flag FLU_PORT_STAT.LOST x true

theorem Chip.portDown_of (c : Chip) (x : Nat) :
    ({ regs := [(⟨FLU_PORT_STAT.LOST, x⟩, 1)], ports := [(x, { c.port x with lossRun := false })] } : Change).Of c (c.portDown x) :=
  ((Change.Of.refl c).setPort x _).flag rfl x true

theorem Chip.get_portDown {f : Fld} (hf : f ≠ FLU_PORT_STAT.LOST) (i : Nat) : (c.portDown x).get f i = c.get f i :=
  Chip.get_put_ne _ _ _ _ _ _ fun hk => hf hk.1

theorem Chip.runningOf_portDown (c : Chip) (x y : Nat) : (c.portDown x).runningOf y = c.runningOf y := by
  have howner : ∀ r, (c.portDown x).owner r = c.owner r := fun r => Chip.get_portDown (by decide) r
  have hstate : ∀ r, (c.portDown x).ringState r = c.ringState r := fun r => Chip.get_portDown (by decide) r
  have hdefined : ∀ r, (c.portDown x).on FLU_RING_CFG.DEFINED r = c.on FLU_RING_CFG.DEFINED r := fun r => by
    simp only [Chip.on, Chip.get_portDown (f := FLU_RING_CFG.DEFINED) (by decide)]
  simp only [Chip.runningOf, Chip.definedRings, howner, hstate, hdefined]

/-- What the loss of a port is for one ring: whether the ring has moved is noted beside the chip. -/
def Chip.ringLosesPort (x : Nat) (acc : Chip × Bool) (r : Nat) : Chip × Bool :=
  let c := acc.1.unrequest r
  if c.on FLU_RING_CFG.ALT_OK r && c.linkUp (1 - x) then ((c.setRingState r rsRUNNING).moveRing r (1 - x), true)
  else (((c.setRingState r rsORPHANED).modRing r (fun q => { q with fetching := 0 })).ringEvt FLU_RING_EVT.ORPHAN r, acc.2)

theorem Chip.portLost_eq (c : Chip) (x : Nat) :
    c.portLost x =
      let res := (c.runningOf x).foldl (Chip.ringLosesPort x) (c.portDown x, false)
      if res.2 then res.1.incSat FLU_PORT_STAT.MOVE_CNT x else res.1 := by
  rw [← Chip.runningOf_portDown c x x]
  rfl

/-- The first changes of a loss, for a port with this running ring: the port reads LOST, and the ring asks for no tokens any more. -/
def ringCut (c : Chip) (x r : Nat) : Change :=
  { regs := [(⟨FLU_RING_STAT.DEFERRED, r⟩, 0), (⟨FLU_PORT_STAT.LOST, x⟩, 1)],
    rings := [(r, { c.ring r with deferUs := c.ringDefer r, deferSince := none })],
    ports := [(x, { c.port x with lossRun := false })],
    entries := some (c.entries.map (fun e => if e.ring = r ∧ e.phase = .tokens then { e with phase := .fetched } else e)),
    dmp := some { c.dmp with reqs := c.dmp.reqs.filter (fun q => decide (q.asker ≠ .admission r)) } }

theorem Chip.unrequest_portDown (hg : c.NoAdmission r) : (ringCut c x r).Of c ((c.portDown x).unrequest r) := by
  have hdefer : (c.portDown x).ringDefer r = c.ringDefer r := by
    simp only [Chip.ringDefer, Chip.on, Chip.get_portDown (f := FLU_RING_STAT.DEFERRED) (by decide)]
    rfl
  have h := (c.portDown_of x).unrequest (r := r) hg
  rw [hdefer] at h
  exact h

theorem ringCut_get {c' : Chip} (h : (ringCut c x r).Of c c') {f : Fld} (hd : f ≠ FLU_RING_STAT.DEFERRED) (hl : f ≠ FLU_PORT_STAT.LOST)
    (i : Nat) : c'.get f i = c.get f i := by
  rw [h.reg]
  exact Change.reg_of_ne rfl (by simp [ringCut, hd.symm, hl.symm]) i

theorem ringCut_linkUp {c' : Chip} (h : (ringCut c x r).Of c c') (y : Nat) : c'.linkUp y = c.linkUp y := by
  have hget : ∀ f, f ≠ FLU_RING_STAT.DEFERRED → f ≠ FLU_PORT_STAT.LOST → ∀ i, c'.get f i = c.get f i := fun f => ringCut_get h
  simp only [Chip.linkUp, Chip.serving, Chip.domUp, Chip.bit, Chip.on, hget DRG_DOM_STAT.UP (by decide) (by decide),
    hget FLU_HP_STAT.DL_UP (by decide) (by decide), hget FLU_HP_STAT.DSTATE (by decide) (by decide),
    hget FLU_HP_STAT.BME (by decide) (by decide), hget FLU_HP_STAT.MSE (by decide) (by decide)]

theorem ringCut_altOk {c' : Chip} (h : (ringCut c x r).Of c c') : c'.on FLU_RING_CFG.ALT_OK r = c.on FLU_RING_CFG.ALT_OK r := by
  simp only [Chip.on, ringCut_get h (f := FLU_RING_CFG.ALT_OK) (by decide) (by decide)]

theorem ringCut_ring {c' : Chip} (h : (ringCut c x r).Of c c') :
    c'.ring r = { c.ring r with deferUs := c.ringDefer r, deferSince := none } := by
  rw [h.ring]
  simp [ringCut, tabFind]

/-- The order of the last two registers of a list does not matter. -/
theorem tabFind_swap_last {κ α : Type} [DecidableEq κ] (l : List (κ × α)) {a b : κ × α} (h : a.1 ≠ b.1) (k : κ) :
    tabFind (l ++ [a, b]) k = tabFind (l ++ [b, a]) k := by
  rw [tabFind_append, tabFind_append]
  congr 1
  by_cases ha : a.1 = k
  · subst ha
    simp [tabFind, h.symm]
  · simp [tabFind, ha]

/-- The one running ring of a lost port moves to the other port, which counts (R232). -/
theorem Change.Of.portLost_moves (hrings : c.runningOf x = [r]) (hg : c.NoAdmission r) (halt : c.on FLU_RING_CFG.ALT_OK r = true)
    (hlink : c.linkUp (1 - x) = true) :
    ((unrequested c r).plus
      { regs := [(⟨FLU_PORT_STAT.MOVE_CNT, x⟩, c.satInc FLU_PORT_STAT.MOVE_CNT x), (⟨FLU_RING_EVT.MOVED, r⟩, 1),
          (⟨FLU_RING_STAT.AWAIT_DB, r⟩, 1), (⟨FLU_RING_STAT.OWNER_NOW, r⟩, 1 - x), (⟨FLU_RING_STAT.STATE, r⟩, rsRUNNING),
          (⟨FLU_PORT_STAT.LOST, x⟩, 1)],
        rings := [(r, { c.ring r with deferUs := c.ringDefer r, deferSince := none, fetching := 0 })],
        ports := [(x, { c.port x with lossRun := false })],
        events := [ringEvent (c.put FLU_RING_STAT.OWNER_NOW r (1 - x)) FLU_RING_EVT.MOVED r] }).Of c (c.portLost x) := by
  obtain ⟨c1, hc1⟩ : ∃ c1, c1 = (c.portDown x).unrequest r := ⟨_, rfl⟩
  have hcut : (ringCut c x r).Of c c1 := hc1 ▸ Chip.unrequest_portDown hg
  have heq : c.portLost x = ((c1.setRingState r rsRUNNING).moveRing r (1 - x)).incSat FLU_PORT_STAT.MOVE_CNT x := by
    have hgo : (c1.on FLU_RING_CFG.ALT_OK r && c1.linkUp (1 - x)) = true := by
      rw [ringCut_altOk hcut, ringCut_linkUp hcut, halt, hlink]
      rfl
    simp only [Chip.portLost_eq, hrings, List.foldl_cons, List.foldl_nil, Chip.ringLosesPort, ← hc1, hgo, if_true]
  have hmoved := (hcut.put_lt (f := FLU_RING_STAT.STATE) (v := rsRUNNING) (by decide) r).moveRing (r := r)
    (by rw [Chip.ring_put, ringCut_ring hcut])
    (fun lo => by
      rw [Chip.get_put_ne _ _ _ _ _ _ (by simp), ringCut_get hcut (by simp) (by simp)])
    (k := 1 - x) (by omega)
  have hcount : ((c1.put FLU_RING_STAT.STATE r rsRUNNING).moveRing r (1 - x)).satInc FLU_PORT_STAT.MOVE_CNT x =
      c.satInc FLU_PORT_STAT.MOVE_CNT x := Chip.satInc_congr (by
    rw [hmoved.reg]
    exact Change.reg_of_ne rfl (by simp [ringCut]) x)
  have hall := hmoved.incSat FLU_PORT_STAT.MOVE_CNT x
  rw [hcount] at hall
  rw [heq]
  exact hall.regs_find fun k => tabFind_swap_last [_, _, _, _, _] (by simp) k

/-- It is orphaned where it may not move (R232, R237). -/
theorem Change.Of.portLost_orphans (hrings : c.runningOf x = [r]) (hg : c.NoAdmission r)
    (hstays : c.on FLU_RING_CFG.ALT_OK r = false ∨ c.linkUp (1 - x) = false) :
    ((unrequested c r).plus
      { regs := [(⟨FLU_RING_EVT.ORPHAN, r⟩, 1), (⟨FLU_RING_STAT.STATE, r⟩, rsORPHANED), (⟨FLU_PORT_STAT.LOST, x⟩, 1)],
        rings := [(r, { c.ring r with deferUs := c.ringDefer r, deferSince := none, fetching := 0 })],
        ports := [(x, { c.port x with lossRun := false })],
        events := [ringEvent c FLU_RING_EVT.ORPHAN r] }).Of c (c.portLost x) := by
  obtain ⟨c1, hc1⟩ : ∃ c1, c1 = (c.portDown x).unrequest r := ⟨_, rfl⟩
  have hcut : (ringCut c x r).Of c c1 := hc1 ▸ Chip.unrequest_portDown hg
  have heq : c.portLost x =
      ((c1.put FLU_RING_STAT.STATE r rsORPHANED).setRing r
        { c.ring r with deferUs := c.ringDefer r, deferSince := none, fetching := 0 }).ringEvt FLU_RING_EVT.ORPHAN r := by
    have hgo : (c1.on FLU_RING_CFG.ALT_OK r && c1.linkUp (1 - x)) = false := by
      rw [ringCut_altOk hcut, ringCut_linkUp hcut, Bool.and_eq_false_iff]
      exact hstays
    simp only [Chip.portLost_eq, hrings, List.foldl_cons, List.foldl_nil, Chip.ringLosesPort, ← hc1, hgo, Bool.false_eq_true, if_false,
      Chip.modRing_eq, Chip.setRingState, Chip.ring_put, ringCut_ring hcut]
  have hkept : ∀ f, f ≠ FLU_RING_STAT.STATE → f ≠ FLU_RING_STAT.DEFERRED → f ≠ FLU_PORT_STAT.LOST →
      (c1.put FLU_RING_STAT.STATE r rsORPHANED).get f r = c.get f r := fun f hs hd hl => by
    rw [Chip.get_put_ne _ _ _ _ _ _ fun hk => hs hk.1, ringCut_get hcut hd hl]
  have hall := (((hcut.put_lt (f := FLU_RING_STAT.STATE) (v := rsORPHANED) (by decide) r).setRing r
    { c.ring r with deferUs := c.ringDefer r, deferSince := none, fetching := 0 }).ringEvt (r := r) (c1 := c)
      (fun lo => (hkept _ (by simp) (by simp) (by simp)))
      (hkept _ (by decide) (by decide) (by decide)) (f := FLU_RING_EVT.ORPHAN) rfl (by decide))
  rw [heq]
  exact hall.regs_find fun k => tabFind_swap_last [_, _] (by simp) k

/-- A port without running rings is lost, and no more. -/
theorem Change.Of.portLost_none (hrings : c.runningOf x = []) :
    ({ regs := [(⟨FLU_PORT_STAT.LOST, x⟩, 1)], ports := [(x, { c.port x with lossRun := false })] } : Change).Of c (c.portLost x) :=
  (c.portDown_of x).eq (by rw [Chip.portLost_eq, hrings]; rfl)

end Loss

/-! ## O19: a port is lost, and serves again -/

section Port

variable {s : State} {x : PortId} {d : Change}

/-- LOSS_TMO expires on a link that is still down: what becomes of the rings, and then source 0x41 (R232). -/
theorem Effect.portLoss (hs : s.Still) (hup : s.chip.domUp 16 = true) (hrun : (s.chip.port x).lossRun = true)
    (hdown : s.chip.serving x = false) (hlost : s.chip.on FLU_PORT_STAT.LOST x = false) (h : d.Of s.chip (s.chip.portLost x)) :
    Effect (.portLoss x) s (d.event ⟨0x41, x, 0, false⟩) := by
  refine Effect.of_run (f := fun c => c.inCore fun c => c.lossOut x.val) rfl hs ?_
  rw [Chip.inCore_up hup, Chip.lossOut, hrun, hdown, hlost]
  exact h.raise 0x41 x 0 false

theorem Effect.portServingAgain (hs : s.Still) (hup : s.chip.domUp 16 = true) (hlost : s.chip.on FLU_PORT_STAT.LOST x = true)
    (hserves : s.chip.serving x = true) : Effect (.portServingAgain x) s { events := [⟨0x45, x, 0, false⟩] } := by
  refine Effect.of_run (f := fun c => c.inCore fun c => c.portAgain x.val) rfl hs ?_
  rw [Chip.inCore_up hup, Chip.portAgain, hlost, hserves]
  exact (Change.Of.refl s.chip).raise 0x45 x 0 false

end Port

/-- Settles O19: the rings of the lost port move, are orphaned or are none, and then Ash hears of the port. -/
theorem portLossAndReturn : Obligations.PortLossAndReturn := by
  unfold Obligations.PortLossAndReturn
  intro x s hs hup
  exact ⟨fun r hrun hdown hlost hrings hg halt hlink =>
      Effect.portLoss hs hup hrun hdown hlost (.portLost_moves hrings hg halt hlink),
    fun r hrun hdown hlost hrings hg hstays => Effect.portLoss hs hup hrun hdown hlost (.portLost_orphans hrings hg hstays),
    fun hrun hdown hlost hrings => Effect.portLoss hs hup hrun hdown hlost (.portLost_none hrings),
    fun hlost hserves => Effect.portServingAgain hs hup hlost hserves⟩

end Sys2Proof.Machine
end

section
/-! Statements about rings and the damper that the model does not meet, each with the state that shows it. -/

namespace Sys2Proof.Machine

/-! ## O18: the reset of a ring with an entry that a revocation has ended -/

/-- The registers of the block below: PD16 is on in Production, and ring 0 runs. -/
def runningRing : Chip :=
  ((Chip.init.put DRG_DOM_STAT.UP 0 (2 ^ 16)).put KLN_LC_WORD.VALUE 0 0xFFFF).put FLU_RING_STAT.STATE 0 rsRUNNING

theorem runningRing_idle : runningRing.Idle :=
  ((Chip.Idle.init.domainsOn (by decide +kernel)).put (by decide) _ _).put (by decide) _ _

/-- Ring 0 has no entry in the device and one to fetch, which arrived before a revocation of the ceremony overlay (R236). -/
def revokedArrival : State :=
  { State.reset with
    chip := { runningRing with rings := [(0, { RingX.init with arrivals := [(0, 0)], policy := 1 })] } }

theorem revokedArrival_idle : revokedArrival.chip.Idle := { runningRing_idle with }

/-- The withdrawal of a ring's token request leaves an idle block idle that has none. -/
theorem Chip.Idle.of_unrequested {c c' : Chip} {d e : Change} {r : Nat} (hi : c.Idle) (hreqs : c.dmp.reqs = [])
    (hd : d = (unrequested c r).plus e) (he : ({ d with entries := none, dmp := none } : Change).Calm)
    (h0 : e.entries = none) (h1 : e.dmp = none) (h : d.Of c c') : c'.Idle :=
  hi.of_calm he
    { h with
      entries := by
        rw [h.entries, hd]
        simp [Change.plus, unrequested, h0, hi.entries]
      dmp := by
        rw [h.dmp, hd]
        simp only [Change.plus, unrequested, h1, hreqs, Option.none_or, Option.getD_some, List.filter_nil, Option.getD_none]
        rw [← hreqs] }

/-- Refutes O18: the reset of a running ring also forgets how many of its arrivals a revocation has ended (R236, R238), for these are
discarded with the rest; the statement leaves that count as it was. -/
theorem not_ringCommands : ¬ Obligations.RingCommands := by
  intro h
  obtain ⟨-, -, -, -, -, hreset, -⟩ := h.1 .portA 0 revokedArrival (by decide +kernel) (by decide +kernel)
  have he := hreset (by decide +kernel) (by decide +kernel) (by decide +kernel)
  obtain ⟨c', ho, hc⟩ := he.chip_of_leadsToRest rfl
    (fun c' ho => (revokedArrival_idle.of_unrequested rfl rfl
      ⟨by decide +kernel, rfl, rfl, rfl, rfl, rfl, rfl, rfl, rfl, rfl, rfl, rfl⟩ rfl rfl ho).resting)
    (t := revokedArrival.run fun c => c.ringCmd .portA 0 fun c => c.resetRing 0) rfl
  have hcount : ((revokedArrival.run fun c => c.ringCmd .portA 0 fun c => c.resetRing 0).chip.ring 0).policy = 0 := by decide +kernel
  have hkept : (c'.ring 0).policy = 1 := by rw [ho.ring]; decide +kernel
  rw [hc] at hcount
  exact absurd (hcount.symm.trans hkept) (by decide)

/-! ## O36: the rest of a dwell wider than its field -/

/-- A dwell of the bellows runs, and its rest in ms reads 65,537, which 16 bits cannot hold. -/
def wideDwell : State :=
  { State.reset with
    chip := { Chip.init with
      regs := [(⟨DRG_BEL_STAT.REMAIN, 0⟩, 2 ^ 16 + 1)]
      pmb := { PmbX.init with bel := { PmbX.init.bel with phase := .dwell } } } }

theorem wideDwell_idle : wideDwell.chip.Idle := { Chip.Idle.init.listed (by decide) 0 (2 ^ 16 + 1) with }

/-- Refutes O36: the rest of a dwell is written to its field of 16 bits (R358), so 65,537, which no write leaves there but which the
statement admits, becomes 0 after a millisecond and not the 65,536 that the statement has. -/
theorem not_damperClock : ¬ Obligations.DamperClock := by
  intro h
  obtain ⟨-, -, hms, -⟩ := h wideDwell rfl
  have he := hms (List.replicate 8 25) _ _ _ _ _ _ _ _ _ rfl rfl rfl rfl rfl rfl rfl rfl rfl
  obtain ⟨c', ho, hc⟩ := he.chip_of_leadsToRest rfl
    (fun _ ho => wideDwell_idle.resting.of_restful ho
      ⟨by decide +kernel, by decide, by decide, by decide +kernel, rfl, rfl, rfl, rfl, rfl, rfl, rfl, rfl⟩)
    (t := wideDwell.run fun c => c.millisecond (List.replicate 8 25)) rfl
  have hrest : (wideDwell.run fun c => c.millisecond (List.replicate 8 25)).chip.get DRG_BEL_STAT.REMAIN 0 = 0 := by decide +kernel
  have hreg : c'.get DRG_BEL_STAT.REMAIN 0 = 2 ^ 16 := by rw [ho.reg]; decide +kernel
  rw [hc] at hrest
  exact absurd (hrest.symm.trans hreg) (by decide)

end Sys2Proof.Machine
end

section
/-! A block with unsent legs that no queue holds, and the deadline of an entry whose retry is one of them. -/

namespace Sys2Proof.Machine

/-! ## A block with unsent legs at slots of its own -/

/-- But for its entries the block is at rest, and these have no leg under way to a peer and ask for no tokens: nothing goes on by itself. -/
structure Chip.LegsLocal (c : Chip) : Prop where
  resting : ({ c with entries := [] } : Chip).Resting
  entries : ∀ e ∈ c.entries, e.phase ≠ .tokens ∧ ∀ second, (e.leg second).st = .queued → (e.leg second).slot / 64 = c.grp.dev

section LegsLocal

variable {c : Chip} (hl : c.LegsLocal)
include hl

theorem Chip.LegsLocal.fluxWork : c.watchLive.evictRemote.rampAll.recheckTokens = c := by
  have hlive : c.liveMask = c.stack.liveSeen := hl.resting.live
  have hgrants : c.dmp.grants = [] := hl.resting.grants
  have h1 : c.watchLive = c := by simp [Chip.watchLive, hlive]
  have h2 : c.evictRemote = c := foldl_eq_self _ fun e he => foldl_eq_self _ fun second _ =>
    if_neg fun ⟨hst, hfar, _⟩ => hfar ((hl.entries e he).2 second hst)
  have h3 : c.rampAll = c := by simp [Chip.rampAll, hgrants]
  have h4 : c.entries.filter (fun e => decide (e.phase = .tokens)) = [] :=
    List.filter_eq_nil_iff.2 fun e he => by simpa using (hl.entries e he).1
  rw [h1, h2, h3]
  simp [Chip.recheckTokens, h4]

theorem Chip.LegsLocal.slotWork (n : Nat) :
    (((((if (c.slot n).queue = [] then c else c.evict n).openLane n).dropWait n).repath n).trySend n).kick n = c := by
  have hqueue : (c.slot n).queue = [] := hl.resting.queue n
  have hwait : (c.slot n).wait = none := hl.resting.wait n
  have hstate : c.slotState n ≠ stNEGOTIATE ∧ c.slotState n ≠ stREADY := hl.resting.state n
  have hgrants : c.dmp.grants = [] := hl.resting.grants
  have h1 : c.openLane n = c := by simp [Chip.openLane, hstate.1]
  have h2 : c.dropWait n = c := by simp [Chip.dropWait, hwait]
  have h3 : c.repath n = c := by simp [Chip.repath, hwait]
  have h4 : c.trySend n = c := by simp [Chip.trySend, hgrants]
  have h5 : c.kick n = c := by simp [Chip.kick, Chip.standBack, hwait, Chip.kickN, Chip.slotIdle, hstate.2]
  rw [if_pos hqueue, h1, h2, h3, h4, h5]

theorem Chip.LegsLocal.kilnWork : c.lcIntent.xferStep.challengeStep.watchQuorum.kzWorn.nextRemoval = c := by
  have hlc : c.kln.lc = none := hl.resting.lc
  have hxfer : c.kln.xfer = none := hl.resting.xfer
  have hovls : c.kln.ovls = [] := hl.resting.ovls
  have hremovals : c.kln.removals = [] := hl.resting.removals
  have hmailbox : c.get STK_MBX_STAT.BUSY 0 = 0 := hl.resting.mailbox
  have h1 : c.lcIntent = c := by simp [Chip.lcIntent, hlc]
  have h2 : c.xferStep = c := by simp [Chip.xferStep, hxfer]
  have h3 : c.challengeStep = c := by simp [Chip.challengeStep, Chip.on, hmailbox]
  have h4 : c.watchQuorum = c := by simp [Chip.watchQuorum, hovls]
  have h5 : c.kzWorn = c := foldl_eq_self _ fun k _ => if_neg (by
    have hfresh : (c.kzOf k).txCtr < 2 ^ 32 ∧ (c.kzOf k).rxCtr < 2 ^ 32 := hl.resting.fresh k
    omega)
  rw [h1, h2, h3, h4, h5]
  simp [Chip.nextRemoval, hremovals]

/-- A round on such a block changes nothing. -/
theorem Chip.LegsLocal.settle1 (env : Env) (rand : Nat → Bool) : c.settle1 env rand = c := by
  have hcin : ∀ n, (c.sessOf n).cin = none := hl.resting.cin
  have hlc : c.kln.lc = none := hl.resting.lc
  have htokens : ∀ k, c.ctxState k ≠ esTOKENS := hl.resting.tokens
  have hfinished : c.ember.finished = [] := hl.resting.finished
  have hstoker : c.ember.stokerQ = [] := hl.resting.stokerQ
  have h1 := foldl_eq_self (c := c) (g := fun (c : Chip) n => (c.cinTake n env).cinStep n) (c.sess.map Prod.fst) fun n _ => by
    simp [Chip.cinTake, Chip.cinStep, hcin n]
  have h2 : c.identityJob env = c := by simp [Chip.identityJob, hlc]
  have h3 := foldl_eq_self (c := c) (g := fun (c : Chip) k => c.jobQueue k (rand k)) (c.ctxs.map Prod.fst) fun k _ => by
    simp [Chip.jobQueue, htokens k]
  have h4 := foldl_eq_self (g := fun (c : Chip) n =>
      (((((if (c.slot n).queue = [] then c else c.evict n).openLane n).dropWait n).repath n).trySend n).kick n)
      (c.slots.map Prod.fst) fun n _ => hl.slotWork n
  unfold Chip.settle1
  simp only [hfinished, hstoker, if_true, h1, h2, h3, hl.fluxWork, h4]
  exact hl.kilnWork

end LegsLocal

theorem State.settle_legsLocal {s : State} (hs : s.Still) (hl : s.chip.LegsLocal) : s.settle.coldDue = s := by
  have h : s.settle1 = s := by
    unfold State.settle1
    rw [State.act_of_still (by rw [hl.settle1]; exact hs), hl.settle1]
  have hcold : s.chip.get DRG_SEQ_STAT.COLD_PEND 0 = 0 := hl.resting.coldPend
  have hc : s.coldDue = s := by
    unfold State.coldDue
    rw [if_neg]
    simp [Chip.on, hcold]
  rw [State.settle, h, h, h, h, hc]

/-- What a command leaves of a block that its changes bring to such a state: the chip with these changes and nothing else. -/
theorem Effect.chip_of_legsLocal {i : Instr} {s t : State} {d : Change} (he : Effect i s d) (hm : d.mems = [])
    (hl : ∀ c', d.Of s.chip c' → c'.LegsLocal) (ht : exec i s = .next t) :
    ∃ c', d.Of s.chip c' ∧ t.chip = { c' with memq := [] } := by
  obtain ⟨c', ho, hx⟩ := he
  have hl' : ({ c' with memq := [] } : Chip).LegsLocal := ⟨(hl c' ho).resting.memq [], (hl c' ho).entries⟩
  rw [hm, List.foldl_nil, State.settle_legsLocal rfl hl', ht] at hx
  exact ⟨c', ho, congrArg State.chip (Host.Outcome.next.inj hx)⟩

/-- Changes of entries alone leave an idle block in such a state, where its entries then have no leg under way to a peer and ask for no
tokens. -/
theorem Chip.Idle.legsLocal_of_entries {c c' : Chip} {es : List Entry} (hi : ({ c with entries := [] } : Chip).Idle)
    (h : ({ entries := some es } : Change).Of c c')
    (he : ∀ e ∈ es, e.phase ≠ .tokens ∧ ∀ second, (e.leg second).st = .queued → (e.leg second).slot / 64 = c.grp.dev) :
    c'.LegsLocal := by
  have hof : ({} : Change).Of { c with entries := [] } { c' with entries := [] } := { h with entries := rfl }
  refine ⟨(hi.of_calm ⟨by simp, rfl, rfl, rfl, rfl, rfl, rfl, rfl, rfl, rfl, rfl, rfl⟩ hof).resting, ?_⟩
  rw [h.entries, h.grp]
  exact he

/-! ## O17: a retry that has not started -/

/-- A READ whose first leg has ended at its card and whose retry at slot 9 has not started (R258), with a deadline of 1 µs. -/
def retriedEntry : Entry :=
  { uid := 7, ring := 0, index := 0, raw := [1, 0, 0, 0, 1] ++ List.replicate 59 0, arrived := 0, phase := .active, deferUs := 0,
    order := 1, epoch := 0, prefLeg := false, cqReserved := true, leg0 := ⟨.ended, 5, stsTIMEOUTCARD, false, false⟩,
    leg1 := ⟨.queued, 9, 0, true, false⟩, retried := true, dlMissed := false, staleMarked := false, apdu := [], rsp := [], sw := 0,
    cardUs := 0, status := 0, silent := false, counted := false, dmaBad := false, place := none }

/-- PD16 is on, and the block holds this entry. -/
def retryUnsent : State :=
  { State.reset with chip := { Chip.init.put DRG_DOM_STAT.UP 0 (2 ^ 16) with entries := [retriedEntry] } }

theorem retryUnsent_idle : ({ retryUnsent.chip with entries := [] } : Chip).Idle :=
  have hi : (Chip.init.put DRG_DOM_STAT.UP 0 (2 ^ 16)).Idle := Chip.Idle.init.domainsOn (by decide +kernel)
  { hi with }

/-- Refutes O17: a retry that has not started when the deadline of its entry expires does not start, and the entry ends with the result
of its first attempt (R231); the statement has every sent entry keep its legs. -/
theorem not_entriesThatEndUnsent : ¬ Obligations.EntriesThatEndUnsent := by
  intro h
  obtain ⟨hsent, -⟩ := h 0 retryUnsent rfl (by decide +kernel)
  have he := hsent 0 retriedEntry (by decide +kernel) rfl
  obtain ⟨c', ho, hc⟩ := he.chip_of_legsLocal rfl
    (fun _ ho => retryUnsent_idle.legsLocal_of_entries ho (by decide +kernel))
    (t := retryUnsent.run fun c => c.inCore fun c => c.deadlineHit 0 0) rfl
  have hended : (retryUnsent.run fun c => c.inCore fun c => c.deadlineHit 0 0).chip.entries.map Entry.phase = [.ended] := by
    decide +kernel
  have hkept : c'.entries.map Entry.phase = [.active] := by rw [ho.entries]; decide +kernel
  rw [hc] at hended
  exact absurd (hended.symm.trans hkept) (by decide)

end Sys2Proof.Machine
end

section
/-! The Stack table (R245–R264): its events and results, the route words that move between its banks, and the statement of its
commands. -/

namespace Sys2Proof.Machine

/-! ## Where commands reach -/

section Reach

variable {i : Instr} {s : State} {d : Change} {f : Chip → Chip}

/-- What happens in Flue while PD16 is up. -/
theorem Effect.of_inCore (he : exec i s = .next (s.run fun c => c.inCore f)) (hs : s.Still) (hup : s.chip.domUp 16 = true)
    (h : d.Of s.chip (f s.chip)) : Effect i s d :=
  Effect.of_run he hs (h.eq (Chip.inCore_up hup f))

/-- A write to a register of Flue that is taken. -/
theorem Effect.of_coreWrite {p : Path} (he : exec i s = .next (s.run fun c => c.coreWrite p blkFLU f))
    (hs : s.Takes p blkFLU (s.chip.domUp 16)) (h : d.Of s.chip (f s.chip)) : Effect i s d := by
  obtain ⟨hstill, hserved, hup⟩ := hs
  exact Effect.of_run he hstill (h.eq (Chip.coreWrite_taken hserved hup f))

end Reach

/-! ## Frames that are accepted -/

section Frames

variable {c : Chip} {d : Nat}

theorem Chip.kzAccept_of (c : Chip) (k : Nat) (cls : KzClass) : (frameAccepted c k cls).Of c (c.kzAccept k cls) :=
  ((Change.Of.refl c).setKz k _).emit _

/-- The frame of a device heard before in the period is accepted, and has its effect (R399, R477). -/
theorem Chip.frameIn_heard (h : c.Hears d) (cls : KzClass) (f : Chip → Chip) :
    c.frameIn d cls f = f (c.kzAccept (c.kzFor d) cls) := by
  obtain ⟨hdev, hsize, hinit, hdeclared, hseen⟩ := h
  have hbeat : (c.kzAccept (c.kzFor d) cls).heartBeat d = c.kzAccept (c.kzFor d) cls := if_pos (.inr (.inr hseen))
  simp [Chip.frameIn, hdev, Nat.not_lt.2 hsize, hinit, hdeclared, hbeat]

end Frames

/-! ## Events and results of the table -/

section Changes

variable {d : Change} {c c' : Chip}

/-- An event of the Stack table: its bit sets, and Ash hears of the register as it then reads (R379, R396). -/
theorem Change.Of.stackEvt (h : d.Of c c') (hr : d.resets = []) (hd : ∀ e ∈ d.regs, e.1.fld.reg ≠ .FLU_STACK_EVT) {f : Fld}
    (hf : f.width = 1) :
    ({ d with regs := (⟨f, 0⟩, 1) :: d.regs, events := d.events ++ [stackEvent c f] } : Change).Of c (c'.stackEvt f) := by
  have hevt := (h.flag hf 0 true).raise 0x36 0 ((c.flag f 0 true).word .FLU_STACK_EVT 0) false
  unfold Chip.stackEvt
  dsimp only
  rw [Chip.word_flag_congr fun lo => h.get_of_reg hr hd lo 0]
  exact hevt

/-- A command of the table reports its result (R259). -/
theorem Chip.stackRes_of (c : Chip) {op result h : Nat} (hop : op < 16) (hresult : result < 16) (hh : h < 4096) :
    ({ regs := [(⟨FLU_STACK_RES.HANDLE, 0⟩, h), (⟨FLU_STACK_RES.RESULT, 0⟩, result), (⟨FLU_STACK_RES.OP, 0⟩, op)] } : Change).Of c
      (c.stackRes op result h) :=
  (((Change.Of.refl c).put_lt (f := FLU_STACK_RES.OP) hop 0).put_lt (f := FLU_STACK_RES.RESULT) hresult 0).put_lt
    (f := FLU_STACK_RES.HANDLE) hh 0

/-- No rebuild runs: one starts (R261). -/
theorem Change.Of.rebuildTrigger_starts (h : d.Of c c') (hrb : c'.get FLU_STACK_STAT.RB_STATE 0 = 0) :
    ({ d with regs := (⟨FLU_STACK_STAT.RB_STATE, 0⟩, 1) :: d.regs } : Change).Of c c'.rebuildTrigger :=
  (h.put_lt (f := FLU_STACK_STAT.RB_STATE) (v := 1) (by decide) 0).eq (if_pos hrb)

/-- One runs: one more is to follow (R261). -/
theorem Change.Of.rebuildTrigger_again (h : d.Of c c') (hrb : c'.get FLU_STACK_STAT.RB_STATE 0 ≠ 0) :
    ({ d with stack := some { c'.stack with again := true } } : Change).Of c c'.rebuildTrigger :=
  (h.set_stack _).eq (if_neg hrb)

end Changes

/-! ## CLEAR_STALE (R259) -/

section ClearStale

variable {c : Chip} {h gen : Nat} {second : Bool}

theorem Change.Of.clearStale_clears (hh : h < 4096) (hvalid : c.on FLU_STACK_ACT.VALID h = true)
    (hmirror : c.on FLU_STACK_ACT.MIRROR h = true) (hstale : c.on (staleFld second) h = true)
    (hlive : c.live (c.get (legSlotFld second) h) = true) (hwrites : c.get FLU_STACK_MARK.WR_INFL h = 0)
    (hgen : c.get FLU_STACK_MARK.GEN h = gen) (hrb : c.get FLU_STACK_STAT.RB_STATE 0 = 0) :
    ({ regs := [(⟨FLU_STACK_STAT.RB_STATE, 0⟩, 1), (⟨FLU_STACK_EVT.STALE_CLR, 0⟩, 1), (⟨staleFld second, h⟩, 0),
         (⟨FLU_STACK_RES.HANDLE, 0⟩, h), (⟨FLU_STACK_RES.RESULT, 0⟩, 0), (⟨FLU_STACK_RES.OP, 0⟩, 1)],
       events := [stackEvent c FLU_STACK_EVT.STALE_CLR] } : Change).Of c (c.clearStale h second gen) := by
  have hfld : (staleFld second).width = 1 ∧ (staleFld second).reg = .FLU_STACK_MARK := by cases second <;> decide
  obtain ⟨hwidth, hreg⟩ := hfld
  have hcleared := (((c.stackRes_of (op := 1) (result := 0) (by decide) (by decide) hh).flag hwidth h false).stackEvt rfl
    (by simp [hreg]) (f := FLU_STACK_EVT.STALE_CLR) rfl)
  refine (hcleared.rebuildTrigger_starts ?_).eq ?_
  · rw [hcleared.get_of_reg rfl (by simp [hreg]), hrb]
  · simp [Chip.clearStale, hvalid, hmirror, hstale, hlive, hwrites, hgen]

/-- A leg that is not stale (R259). -/
theorem Change.Of.clearStale_not_stale (hh : h < 4096) (hvalid : c.on FLU_STACK_ACT.VALID h = true)
    (hmirror : c.on FLU_STACK_ACT.MIRROR h = true) (hstale : c.on (staleFld second) h = false) :
    ({ regs := [(⟨FLU_STACK_RES.HANDLE, 0⟩, h), (⟨FLU_STACK_RES.RESULT, 0⟩, 1), (⟨FLU_STACK_RES.OP, 0⟩, 1)] } : Change).Of c
      (c.clearStale h second gen) :=
  (c.stackRes_of (op := 1) (result := 1) (by decide) (by decide) hh).eq (by simp [Chip.clearStale, hvalid, hmirror, hstale])

end ClearStale

/-! ## Route words -/

section Routes

variable {c : Chip} {h : Nat}

/-- The stores that write values to fields, in order. -/
def Chip.puts (c : Chip) (l : List (Key × Nat)) : Chip := l.foldl (fun c e => c.put e.1.fld e.1.idx e.2) c

theorem Chip.get_puts_of_lo {l : List (Key × Nat)} {lo : Nat} (hl : ∀ e ∈ l, e.1.fld.lo ≠ lo) (r : RegName) :
    (c.puts l).get ⟨r, lo⟩ h = c.get ⟨r, lo⟩ h := by
  induction l generalizing c with
  | nil => rfl
  | cons e l ih =>
    refine (ih fun e' he' => hl e' (List.mem_cons_of_mem _ he')).trans (Chip.get_put_ne _ _ _ _ _ _ ?_)
    rintro ⟨hf, -⟩
    exact hl e List.mem_cons_self (congrArg Fld.lo hf.symm)

/-- Stores at one place of a route word after another, whose values depend on that place of it alone, write what stood there at
first. -/
theorem Chip.foldl_puts {w : Chip → Nat → List (Key × Nat)} (hlo : ∀ c lo, ∀ e ∈ w c lo, e.1.fld.lo = lo)
    (hw : ∀ c1 lo, (∀ r, c1.get ⟨r, lo⟩ h = c.get ⟨r, lo⟩ h) → w c1 lo = w c lo) {l : List Nat} (hl : l.Nodup) :
    l.foldl (fun c lo => c.puts (w c lo)) c = c.puts (l.flatMap (w c)) := by
  suffices hfrom : ∀ c1 : Chip, (∀ lo ∈ l, ∀ r, c1.get ⟨r, lo⟩ h = c.get ⟨r, lo⟩ h) →
      l.foldl (fun c lo => c.puts (w c lo)) c1 = c1.puts (l.flatMap (w c)) from hfrom c fun _ _ _ => rfl
  induction l with
  | nil => exact fun _ _ => rfl
  | cons lo l ih =>
    intro c1 hc1
    obtain ⟨hnot, hl⟩ := List.nodup_cons.1 hl
    have hnext : ∀ lo' ∈ l, ∀ r, (c1.puts (w c lo)).get ⟨r, lo'⟩ h = c.get ⟨r, lo'⟩ h := fun lo' hmem r =>
      (Chip.get_puts_of_lo (fun e he heq => hnot (by rw [← hlo _ _ e he, heq]; exact hmem)) r).trans
        (hc1 lo' (List.mem_cons_of_mem _ hmem) r)
    rw [List.foldl_cons, hw c1 lo (hc1 lo List.mem_cons_self), ih hl _ hnext, List.flatMap_cons]
    exact (List.foldl_append ..).symm

/-- What the swap of a route's banks writes at one place of its words. -/
def swapWrites (h : Nat) (c : Chip) (lo : Nat) : List (Key × Nat) :=
  [(⟨⟨.FLU_STACK_ACT, lo⟩, h⟩, c.get ⟨.FLU_STACK_SHD, lo⟩ h), (⟨⟨.FLU_STACK_SHD, lo⟩, h⟩, c.get ⟨.FLU_STACK_ACT, lo⟩ h)]

/-- What the copy of a route's word from one bank to another writes at one place of it. -/
def copyWrites (a b : RegName) (h : Nat) (c : Chip) (lo : Nat) : List (Key × Nat) := [(⟨⟨b, lo⟩, h⟩, c.get ⟨a, lo⟩ h)]

/-- The banks of a route exchange their words (R263). -/
theorem Chip.swapRoute_of (c : Chip) (h : Nat) :
    ({ regs := routeFlds.flatMap fun lo =>
         [(⟨⟨.FLU_STACK_ACT, lo⟩, h⟩, c.get ⟨.FLU_STACK_SHD, lo⟩ h % 2 ^ Fld.width ⟨.FLU_STACK_ACT, lo⟩),
          (⟨⟨.FLU_STACK_SHD, lo⟩, h⟩, c.get ⟨.FLU_STACK_ACT, lo⟩ h % 2 ^ Fld.width ⟨.FLU_STACK_SHD, lo⟩)] } : Change).Of c
      (c.swapRoute h) := by
  have heq : c.swapRoute h = c.puts (routeFlds.flatMap (swapWrites h c)) :=
    Chip.foldl_puts (w := swapWrites h) (h := h) (by simp [swapWrites]) (fun _ _ hget => by simp only [swapWrites, hget]) (by decide)
  exact (Change.Of.foldl_put _ (by simp [routeFlds, swapWrites])).eq heq

/-- The word of a route in one bank is copied to the other (R263). -/
theorem Chip.copyRoute_of (c : Chip) (a b : RegName) (h : Nat) :
    ({ regs := routeFlds.map fun lo => (⟨⟨b, lo⟩, h⟩, c.get ⟨a, lo⟩ h % 2 ^ Fld.width ⟨b, lo⟩) } : Change).Of c
      (c.copyRoute a b h) := by
  have heq : c.copyRoute a b h = c.puts (routeFlds.flatMap (copyWrites a b h c)) :=
    Chip.foldl_puts (w := copyWrites a b h) (h := h) (by simp [copyWrites]) (fun _ _ hget => by simp only [copyWrites, hget])
      (by decide)
  exact (Change.Of.foldl_put _ (by simp [routeFlds, copyWrites])).eq heq

/-- A handle without a route is not MOVING. -/
theorem Chip.get_moving_of_not_route (hh : h ∉ c.routes) : c.get FLU_STACK_ACT.MOVING h = 0 := by
  have hnone : tabFind c.regs ⟨FLU_STACK_ACT.MOVING, h⟩ = none := tabFind_eq_none fun e he hk => hh (by
    rw [Chip.routes, List.mem_eraseDups, List.mem_map]
    exact ⟨e, List.mem_filter.2 ⟨he, by simp [hk]⟩, by rw [hk]⟩)
  rw [Chip.get, tabGet, hnone]
  rfl

end Routes

/-! ## REBUILD_COMMIT, EPOCH_SWAP and COPYBACK_END (R261–R263) -/

section Banks

variable {c : Chip} {h : Nat}

/-- PREF of a two-leg route by which of its legs are usable; where none is it stays (R261). -/
theorem Chip.planPref_of (hvalid : c.on FLU_STACK_SHD.VALID h = true) (hmirror : c.on FLU_STACK_SHD.MIRROR h = true) {u0 u1 : Bool}
    (h0 : u0 = (c.live (c.get FLU_STACK_SHD.LEG0_SLOT h) && !c.on FLU_STACK_MARK.STALE0 h))
    (h1 : u1 = (c.live (c.get FLU_STACK_SHD.LEG1_SLOT h) && !c.on FLU_STACK_MARK.STALE1 h)) :
    ({ regs := if u0 ∨ u1 then
         [(⟨FLU_STACK_SHD.PREF, h⟩, if u0 ∧ u1 then (c.on FLU_STACK_SHD.SEED_PREF h).toNat else u1.toNat)] else [] } : Change).Of c
      (c.planPref h) := by
  have hplan : c.planPref h = if u0 && !u1 then c.flag FLU_STACK_SHD.PREF h false
      else if u1 && !u0 then c.flag FLU_STACK_SHD.PREF h true
      else if u0 && u1 then c.flag FLU_STACK_SHD.PREF h (c.on FLU_STACK_SHD.SEED_PREF h) else c := by
    rw [Chip.planPref, hvalid, hmirror, h0, h1]
    rfl
  have hflag := (Change.Of.refl c).flag (f := FLU_STACK_SHD.PREF) rfl h
  rw [hplan]
  cases u0 <;> cases u1
  · exact .refl c
  · exact hflag true
  · exact hflag false
  · exact hflag _

theorem Chip.rebuildDone_of (hroutes : c.routes = [h]) (hrb : c.get FLU_STACK_STAT.RB_STATE 0 = 1) {d : Change}
    (hplan : d.Of c (c.planPref h)) :
    ({ d with regs := (⟨FLU_STACK_STAT.RB_STATE, 0⟩, 2) :: d.regs } : Change).Of c c.rebuildDone :=
  (hplan.put_lt (f := FLU_STACK_STAT.RB_STATE) (v := 2) (by decide) 0).eq (by rw [Chip.rebuildDone, if_pos hrb, hroutes]; rfl)

/-- The words of the one route are exchanged, and the swap is reported. -/
def Chip.swapped (c : Chip) (h : Nat) : Chip :=
  (((c.swapRoute h).incWrap FLU_STACK_EPOCH.EPOCH 0).stackEvt FLU_STACK_EVT.SWAP).put FLU_STACK_STAT.RB_STATE 0 3

theorem Chip.swapped_of (c : Chip) (h : Nat) :
    ({ regs := [(⟨FLU_STACK_STAT.RB_STATE, 0⟩, 3), (⟨FLU_STACK_EVT.SWAP, 0⟩, 1),
           (⟨FLU_STACK_EPOCH.EPOCH, 0⟩, (c.get FLU_STACK_EPOCH.EPOCH 0 + 1) % 2 ^ 32)]
         ++ routeFlds.flatMap (fun lo =>
           [(⟨⟨.FLU_STACK_ACT, lo⟩, h⟩, c.get ⟨.FLU_STACK_SHD, lo⟩ h % 2 ^ Fld.width ⟨.FLU_STACK_ACT, lo⟩),
            (⟨⟨.FLU_STACK_SHD, lo⟩, h⟩, c.get ⟨.FLU_STACK_ACT, lo⟩ h % 2 ^ Fld.width ⟨.FLU_STACK_SHD, lo⟩)]),
       events := [stackEvent c FLU_STACK_EVT.SWAP] } : Change).Of c (c.swapped h) := by
  have hroute := c.swapRoute_of h
  have hepoch : (c.swapRoute h).get FLU_STACK_EPOCH.EPOCH 0 = c.get FLU_STACK_EPOCH.EPOCH 0 :=
    hroute.get_of_reg rfl (by simp [routeFlds]) _ _
  have hcounted := hroute.put FLU_STACK_EPOCH.EPOCH 0 ((c.swapRoute h).get FLU_STACK_EPOCH.EPOCH 0 + 1)
  rw [hepoch] at hcounted
  have hof := (hcounted.stackEvt rfl (by simp [Change.put, routeFlds]) (f := FLU_STACK_EVT.SWAP) rfl).put_lt
    (f := FLU_STACK_STAT.RB_STATE) (v := 3) (by decide) 0
  refine hof.eq ?_
  rw [Chip.swapped, Chip.incWrap, hepoch]

/-- The swap of a table whose one route moves in neither bank leaves no route MOVING. -/
theorem Chip.swapped_moving (hroutes : c.routes = [h]) (hshd : c.on FLU_STACK_SHD.MOVING h = false) (x : Nat) :
    (c.swapped h).on FLU_STACK_ACT.MOVING x = false := by
  have hshd : c.get FLU_STACK_SHD.MOVING h = 0 := by simpa [Chip.on] using hshd
  have hget : (c.swapped h).get FLU_STACK_ACT.MOVING x = 0 := by
    rw [(c.swapped_of h).reg]
    by_cases hx : x = h
    · subst hx
      simp [Change.reg, routeFlds, tabFind, hshd]
    · have hnot : x ∉ c.routes := by simpa [hroutes] using hx
      simp [Change.reg, routeFlds, tabFind, Ne.symm hx, Chip.get_moving_of_not_route hnot]
  simp [Chip.on, hget]

/-- Such a swap marks no leg, moves none and stalls no ring (R262–R264). -/
theorem Chip.swapBanks_eq (hroutes : c.routes = [h]) (hshd : c.on FLU_STACK_SHD.MOVING h = false)
    (hheld : ∀ e ∈ c.entries, e.held = false) : c.swapBanks = { c.swapped h with stack := { c.stack with swapUs := c.us } } := by
  have hof := c.swapped_of h
  have hstack : (c.swapped h).stack = c.stack := hof.stack
  have hus : (c.swapped h).us = c.us := hof.us
  have hentries : (c.swapped h).entries = c.entries := hof.entries
  have hmoving : (c.swapped h).routes.filter (fun x => (c.swapped h).on FLU_STACK_ACT.MOVING x) = [] :=
    List.filter_eq_nil_iff.2 fun x _ => by simp [Chip.swapped_moving hroutes hshd x]
  have hwaits : ∀ p : Entry → Bool, c.entries.filter (fun e => e.held && p e) = [] := fun p =>
    List.filter_eq_nil_iff.2 fun e he => by simp [hheld e he]
  unfold Chip.swapBanks
  rw [hroutes]
  simp only [List.foldl_cons, List.foldl_nil]
  rw [← Chip.swapped]
  simp only [hmoving, List.foldl_nil, List.append_nil, hstack, hus, hentries, hwaits]

theorem Chip.copyBack_of (hroutes : c.routes = [h]) (hrb : c.get FLU_STACK_STAT.RB_STATE 0 = 3) :
    ({ regs := (⟨FLU_STACK_STAT.RB_STATE, 0⟩, c.stack.again.toNat) :: routeFlds.map (fun lo =>
         (⟨⟨.FLU_STACK_SHD, lo⟩, h⟩, c.get ⟨.FLU_STACK_ACT, lo⟩ h % 2 ^ Fld.width ⟨.FLU_STACK_SHD, lo⟩)),
       stack := some { c.stack with again := false } } : Change).Of c c.copyBack := by
  have hcopy := c.copyRoute_of .FLU_STACK_ACT .FLU_STACK_SHD h
  have hstack : (c.copyRoute .FLU_STACK_ACT .FLU_STACK_SHD h).stack = c.stack := hcopy.stack
  refine ((hcopy.set_stack { c.stack with again := false }).put_lt (f := FLU_STACK_STAT.RB_STATE)
    (Nat.lt_trans c.stack.again.toNat_lt (by decide)) 0).eq ?_
  rw [Chip.copyBack, if_pos hrb, hroutes]
  simp only [List.foldl_cons, List.foldl_nil, hstack]
  cases c.stack.again <;> rfl

end Banks

/-! ## MOVE_END (R264) -/

section MoveEnd

variable {c : Chip} {h elapsed : Nat}

/-- MOVING clears in both banks (R264). -/
theorem Chip.movingCleared_of (c : Chip) (h : Nat) :
    ({ regs := [(⟨FLU_STACK_SHD.MOVING, h⟩, 0), (⟨FLU_STACK_ACT.MOVING, h⟩, 0)] } : Change).Of c
      ((c.flag FLU_STACK_ACT.MOVING h false).flag FLU_STACK_SHD.MOVING h false) :=
  ((Change.Of.refl c).flag (f := FLU_STACK_ACT.MOVING) rfl h false).flag (f := FLU_STACK_SHD.MOVING) rfl h false

theorem Chip.moveDone_of_no_stall (hmoving : c.stack.moving = [h]) (hrings : ∀ e ∈ c.rings, e.2.stalled = false) :
    ({ regs := [(⟨FLU_STACK_SHD.MOVING, h⟩, 0), (⟨FLU_STACK_ACT.MOVING, h⟩, 0)],
       stack := some { c.stack with moving := [] } } : Change).Of c (c.moveDone elapsed) := by
  have hnone : c.rings.filter (fun e => e.2.stalled) = [] := List.filter_eq_nil_iff.2 fun e he => by simp [hrings e he]
  exact ((c.movingCleared_of h).set_stack _).eq (by simp [Chip.moveDone, hmoving, hnone])

/-- A stalled ring goes on, and the longest stall counts. -/
theorem Chip.moveDone_of_stall {r : Nat} (hmoving : c.stack.moving = [h])
    (hrings : (c.rings.filter (fun e => e.2.stalled)).map Prod.fst = [r]) :
    ({ regs := [(⟨FLU_STACK_SMAX.STALL_MAX, 0⟩,
           max (c.get FLU_STACK_SMAX.STALL_MAX 0) (min 50 elapsed) % 2 ^ FLU_STACK_SMAX.STALL_MAX.width),
         (⟨FLU_STACK_SHD.MOVING, h⟩, 0), (⟨FLU_STACK_ACT.MOVING, h⟩, 0)],
       rings := [(r, { c.ring r with stalled := false })],
       stack := some { c.stack with moving := [] } } : Change).Of c (c.moveDone elapsed) := by
  have hcleared := c.movingCleared_of h
  have hmax : ((c.flag FLU_STACK_ACT.MOVING h false).flag FLU_STACK_SHD.MOVING h false).get FLU_STACK_SMAX.STALL_MAX 0 =
      c.get FLU_STACK_SMAX.STALL_MAX 0 := hcleared.get_of_reg rfl (by simp) _ _
  refine (((hcleared.put FLU_STACK_SMAX.STALL_MAX 0 (max (c.get FLU_STACK_SMAX.STALL_MAX 0) (min 50 elapsed))).set_stack
    { c.stack with moving := [] }).setRing r { c.ring r with stalled := false }).eq ?_
  rw [← hmax]
  simp only [Chip.moveDone, hmoving, List.cons_ne_nil, if_false, List.foldl_cons, List.foldl_nil, Chip.flag_eq, Chip.put_rings, hrings]
  rfl

end MoveEnd

/-! ## LIVE_NOTICE_RX (R250, R473) -/

/-- The bits of a keyed peer are taken (R250). -/
theorem Chip.liveNotice_of {c : Chip} {d : Nat} (hears : c.Hears d) (horphan : c.orphan = false)
    (hkeyed : c.on DRG_KZ_STAT.KEYED (c.kzFor d) = true) (hpeer : c.peerOk d = true) (hup : c.domUp 16 = true) (mask : Nat) :
    ((frameAccepted c (c.kzFor d) .fault).plus
      { regs := [(⟨FLU_LIVE.LIVE, 2 * d + 1⟩, mask / 2 ^ 32 % 2 ^ 32), (⟨FLU_LIVE.LIVE, 2 * d⟩, mask % 2 ^ 32)] }).Of c
      (c.frameIn d .fault fun c => c.inCore fun c => c.liveNotice d mask) := by
  have ⟨hdev, hsize, _⟩ := hears
  have htaken := ((Change.Of.refl (c.kzAccept (c.kzFor d) .fault)).put FLU_LIVE.LIVE (2 * d) mask).put FLU_LIVE.LIVE (2 * d + 1)
    (mask / 2 ^ 32)
  refine ((c.kzAccept_of (c.kzFor d) .fault).plus htaken rfl).eq ?_
  have hkept : ¬(d = c.grp.dev ∨ c.grp.size < d ∨ c.orphan ∨ !c.on DRG_KZ_STAT.KEYED (c.kzFor d) ∨ !c.peerOk d) := by
    simp [hdev, hsize, horphan, hkeyed, hpeer]
  rw [Chip.frameIn_heard hears]
  exact (Chip.inCore_up (c := c.kzAccept (c.kzFor d) .fault) hup _).trans (if_neg hkept)

/-! ## The statement -/

/-- Settles O20: each command is taken where it reaches, and its meaning makes the changes named. -/
theorem stackTable : Obligations.StackTable := by
  unfold Obligations.StackTable
  refine ⟨fun p s hs => ⟨?_, ?_, ?_, ?_⟩, fun h s hs hup hroutes => ⟨?_, ?_, ?_⟩, fun s hs hup => ⟨?_, ?_, ?_⟩⟩
  · intro handle gen second hvalid hmirror hstale hlive hwrites hgen hrb
    exact Effect.of_coreWrite rfl hs
      (.clearStale_clears (Nat.mod_lt _ (by decide)) hvalid hmirror hstale hlive hwrites hgen hrb)
  · intro handle gen second hvalid hmirror hstale
    exact Effect.of_coreWrite rfl hs (.clearStale_not_stale (Nat.mod_lt _ (by decide)) hvalid hmirror hstale)
  · intro hrb
    have hres := s.chip.stackRes_of (op := 2) (result := 0) (h := 0) (by decide) (by decide) (by decide)
    exact Effect.of_coreWrite rfl hs (hres.rebuildTrigger_starts ((hres.get_of_reg rfl (by simp) _ _).trans hrb))
  · intro hrb
    have hres := s.chip.stackRes_of (op := 2) (result := 0) (h := 0) (by decide) (by decide) (by decide)
    exact Effect.of_coreWrite rfl hs
      (hres.rebuildTrigger_again fun hz => hrb ((hres.get_of_reg rfl (by simp) _ _).symm.trans hz))
  · intro u0 u1 hrb hvalid hmirror h0 h1
    exact Effect.of_inCore rfl hs hup (Chip.rebuildDone_of hroutes hrb (Chip.planPref_of hvalid hmirror h0 h1))
  · intro hrb _ hshd hheld
    exact Effect.of_inCore rfl hs hup
      (((s.chip.swapped_of h).set_stack _).eq ((if_pos hrb).trans (Chip.swapBanks_eq hroutes hshd hheld)))
  · exact fun hrb => Effect.of_inCore rfl hs hup (Chip.copyBack_of hroutes hrb)
  · exact fun h elapsed hmoving hrings => Effect.of_inCore rfl hs hup (Chip.moveDone_of_no_stall hmoving hrings)
  · exact fun h elapsed r hmoving hrings => Effect.of_inCore rfl hs hup (Chip.moveDone_of_stall hmoving hrings)
  · intro d mask hears horphan hkeyed hpeer
    exact Effect.of_run rfl hs (Chip.liveNotice_of hears horphan hkeyed hpeer hup mask)

end Sys2Proof.Machine
end

section
/-! Statements about the group that the model does not meet, each with the state that shows it. -/

namespace Sys2Proof.Machine

/-! ## O31 and O32: the common start of a device in a group -/

/-- A device of a group that waits for its start, with a power-up pending; its VCORE monitor latches until the next period and is in
alarm. -/
def latchedInGroup (g : GrpX) : State :=
  { State.reset with chip := { latchedRail.chip.put DRG_SEQ_STAT.STATE 0 sqWAITSTART with grp := g } }

theorem latchedInGroup_idle (g : GrpX) : (latchedInGroup g).chip.Idle :=
  { latchedRail_idle.put (f := DRG_SEQ_STAT.STATE) (by decide) 0 sqWAITSTART with }

/-- Changes that are calm but for the base image, which is applied no more, leave an idle block idle. -/
theorem Chip.Idle.of_imageOff {c c' : Chip} {d : Change} (hi : c.Idle) (h : d.Of c c') (hk : d.kln = some { c.kln with baseOn := false })
    (hd : ({ d with kln := none } : Change).Calm) : c'.Idle := by
  have hkln : c'.kln = { c.kln with baseOn := false } := by rw [h.kln, hk]; rfl
  have hi' : ({ c' with kln := c.kln } : Chip).Idle := hi.of_calm hd { h with kln := rfl }
  exact
    { hi' with
      lc := by rw [hkln]; exact hi.lc
      xfer := by rw [hkln]; exact hi.xfer
      ovls := by rw [hkln]; exact hi.ovls
      removals := by rw [hkln]; exact hi.removals }

/-- A command that begins the common start of such a device clears LATCHED, which no change does that leaves it alone. -/
theorem latchedInGroup_not_effect {i : Instr} {g : GrpX} {d : Change} {f : Chip → Chip}
    (ht : exec i (latchedInGroup g) = .next ((latchedInGroup g).run f))
    (hk : d.kln = some { (latchedInGroup g).chip.kln with baseOn := false }) (hd : ({ d with kln := none } : Change).Calm)
    (hf : ((latchedInGroup g).run f).chip.get DRG_RMON_STAT.LATCHED 0 = 0)
    (hreg : d.reg (latchedInGroup g).chip DRG_RMON_STAT.LATCHED 0 = 1) : ¬ Effect i (latchedInGroup g) d := by
  intro he
  obtain ⟨c', ho, hc⟩ := he.chip_of_leadsToRest hd.mems
    (fun _ ho => ((latchedInGroup_idle g).of_imageOff ho hk hd).resting) ht
  have hkept : c'.get DRG_RMON_STAT.LATCHED 0 = 1 := (ho.reg _ _).trans hreg
  rw [hc] at hf
  exact absurd (hf.symm.trans hkept) (by decide)

/-- The supervisor of a group of two, whose START of stage 1 names it and waits for its strobe. -/
def strobeDueGroup : GrpX := { GrpX.init with dev := 0, size := 1, startStage := 1, startMask := 1, strobeDue := true }

/-- Refutes O31: the common start begins a period of every rail monitor (R203, R331), and with that clears LATCHED of one that latches
until the next period whether it is in alarm or not; the statement keeps LATCHED of one in alarm. -/
theorem not_groupFramesOut : ¬ Obligations.GroupFramesOut := by
  intro h
  obtain ⟨-, -, hdrive⟩ := h
  have he := (hdrive (latchedInGroup strobeDueGroup) rfl).2 (by decide +kernel) rfl rfl rfl (by decide +kernel) (by decide +kernel)
    (by decide +kernel) (by decide +kernel) rfl
  exact latchedInGroup_not_effect (f := Chip.syncDrive) rfl rfl
    ⟨by decide +kernel, rfl, rfl, rfl, rfl, rfl, rfl, rfl, rfl, rfl, rfl, rfl⟩ (by decide +kernel) (by decide +kernel) he

/-- Device 1 of a group of two, which a START of stage 1 has named. -/
def namedGroup : GrpX := { GrpX.init with dev := 1, size := 1, rxStage := 1, rxMask := 2 }

/-- Refutes O32: the edge after a START that names the device is its common start, which begins a period of every rail monitor (R203,
R331) and clears LATCHED of one in alarm too; the statement keeps it. -/
theorem not_groupFramesIn : ¬ Obligations.GroupFramesIn := by
  intro h
  obtain ⟨-, hedge⟩ := h
  have he := (hedge (latchedInGroup namedGroup) rfl).1 100 (by decide +kernel) (by decide +kernel) (by decide) (by decide)
    (by decide +kernel) rfl rfl (by decide +kernel) (by decide +kernel) (by decide +kernel)
  exact latchedInGroup_not_effect (f := fun c => c.syncEdge 100) rfl rfl
    ⟨by decide +kernel, rfl, rfl, rfl, rfl, rfl, rfl, rfl, rfl, rfl, rfl, rfl⟩ (by decide +kernel) (by decide +kernel) he

/-! ## O33: a job of the keying that waits for budget -/

/-- The block below but for Ash: a device of a group of two, where a job of Cord for the keying of link 0 waits at the damper. -/
def keyingInGroup : Chip :=
  { Chip.init with
    grp := { GrpX.init with dev := 0, size := 1 }
    dmp := { DamperX.init with reqs := [⟨.cordJob 64, 0, 0, false⟩] } }

theorem keyingInGroup_idle : keyingInGroup.Idle := { Chip.Idle.init with }

/-- The peer that link 0 leads to is present there. -/
def keyingPeer : State := { State.reset with chip := { keyingInGroup with ash := { AshX.init with present := [1] } } }

/-- The loss of the one peer leaves the block idle: no peer is present any more, and no counter of the link is used up. -/
theorem idle_of_peerGone {c' : Chip} (h : (peerGone keyingPeer.chip 1).Of keyingPeer.chip c') : c'.Idle := by
  have hcalm : ({ peerGone keyingPeer.chip 1 with kz := [], ash := none, events := [] } : Change).Calm :=
    ⟨by decide +kernel, rfl, rfl, rfl, rfl, rfl, rfl, rfl, rfl, rfl, rfl, rfl⟩
  have hi : ({ c' with ash := keyingInGroup.ash, kz := keyingInGroup.kz } : Chip).Idle :=
    keyingInGroup_idle.of_calm hcalm { h with ash := rfl, kzOf := fun _ => rfl }
  refine { hi with present := by rw [h.ash]; rfl, fresh := fun k => ?_ }
  rw [h.kzOf]
  exact tabFind_getD_of_forall (P := fun _ (x : KzX) => x.txCtr < 2 ^ 32 ∧ x.rxCtr < 2 ^ 32) (by decide +kernel)
    (keyingInGroup_idle.fresh k)

/-- Refutes O33: the loss of a peer ends the keying of its link (R476), and with that withdraws the budget request of its job at the
damper, which the statement leaves there. -/
theorem not_heartbeats : ¬ Obligations.Heartbeats := by
  intro h
  obtain ⟨-, hmiss⟩ := h
  have he := (hmiss 1 keyingPeer rfl).1 ⟨rfl, rfl, .inr (by decide +kernel)⟩
  obtain ⟨c', ho, hc⟩ := he.chip_of_leadsToRest rfl (fun _ ho => (idle_of_peerGone ho).resting)
    (t := keyingPeer.run fun c => c.peerGone 1) rfl
  have hgone : (keyingPeer.run fun c => c.peerGone 1).chip.dmp.reqs = [] := by decide +kernel
  have hkept : c'.dmp = keyingPeer.chip.dmp := ho.dmp
  rw [hc] at hgone
  exact absurd ((congrArg DamperX.reqs hkept).symm.trans hgone) (by decide +kernel)

end Sys2Proof.Machine
end

section
/-! REKEY (R285–R287): a session comes of age, its REKEY begins, and it may be tried again. -/

namespace Sys2Proof.Machine

section Rekey
variable {c : Chip} {n : Nat}

/-- A session that reaches its age is due for rekey (R285). -/
theorem Chip.ageDue_of (h : c.sessHeld n = true) :
    ({ regs := [(⟨CRD_SESS_STAT.REKEY_DUE, n⟩, 1), (⟨CRD_SESS_AGE.AGE_MIN, n⟩,
        max (c.get CRD_SESS_AGE.AGE_MIN n) c.ageLimit % 2 ^ CRD_SESS_AGE.AGE_MIN.width)] } : Change).Of c (c.ageDue n) :=
  (((Change.Of.refl c).put CRD_SESS_AGE.AGE_MIN n _).flag (f := CRD_SESS_STAT.REKEY_DUE) rfl n true).eq (if_pos h)

/-- The chip once Ember's work on the ephemeral pair of a REKEY waits (R274, R286). -/
def Chip.rekeyAsked (c : Chip) (n : Nat) : Chip :=
  { c.setSess n { c.sessOf n with cin := some (CinX.start .rekey) } with
    ember := { c.ember with stokerQ := c.ember.stokerQ ++ [(.cinderGen n, 0x21, [])] } }

theorem Chip.rekeyAsked_of (c : Chip) (n : Nat) :
    ({ sess := [(n, { c.sessOf n with cin := some (CinX.start .rekey) })],
       ember := some { c.ember with stokerQ := c.ember.stokerQ ++ [(.cinderGen n, 0x21, [])] } } : Change).Of c (c.rekeyAsked n) :=
  ((Change.Of.refl c).setSess n { c.sessOf n with cin := some (CinX.start .rekey) }).set_ember _

theorem Chip.cinStart_rekey (hfull : c.StokerFull) : c.cinStart n .rekey = c.rekeyAsked n :=
  Chip.stokerStart_full (c := c.rekeyAsked n) (hfull.congr (fun _ _ _ => rfl) fun _ => rfl)

/-- A session that is replaced twice in a row. -/
theorem Change.Of.setSess_again {d : Change} {c c' : Chip} {x : SessX} (h : d.Of c c') (hd : d.sess = [(n, x)]) (y : SessX) :
    ({ d with sess := [(n, y)] } : Change).Of c (c'.setSess n y) :=
  (h.setSess n y).sess_find fun k => by
    simp only [Change.setSess, hd, tabFind]
    split <;> rfl

/-- A REKEY begins (R285, R286): its exchange waits to send BEGIN. -/
theorem Chip.rekeyGo_of (hidle : c.slotIdle n = true) (hready : c.rekeyReady n = true) (hfull : c.StokerFull) :
    ({ regs := [(⟨CRD_SESS_STAT.SESS, n⟩, ssREKEYING)],
       sess := [(n, { c.sessOf n with cin := some { CinX.start .rekey with phase := .beginWait } })],
       ember := some { c.ember with stokerQ := c.ember.stokerQ ++ [(.cinderGen n, 0x21, [])] } } : Change).Of c (c.rekeyGo n) := by
  have hgo : c.rekeyGo n = (c.rekeyAsked n).cinBegin n ssREKEYING := by
    rw [Chip.rekeyGo, hidle, hready, Chip.cinStart_rekey hfull]
    rfl
  have hsess : ((c.rekeyAsked n).put CRD_SESS_STAT.SESS n ssREKEYING).sessOf n
      = { c.sessOf n with cin := some (CinX.start .rekey) } :=
    c.sessOf_setSess_self n _
  rw [hgo, Chip.cinBegin, Chip.modSess_eq, hsess]
  exact ((c.rekeyAsked_of n).put_lt (f := CRD_SESS_STAT.SESS) (v := ssREKEYING) (by decide) n).setSess_again rfl _

/-- The retry time of a REKEY elapses (R287). -/
theorem Chip.retryDue_of (h : (c.sessOf n).rekeyRetry = true) :
    ({ sess := [(n, { c.sessOf n with rekeyRetry := false })] } : Change).Of c (c.retryDue n) :=
  ((Change.Of.refl c).setSess n { c.sessOf n with rekeyRetry := false }).eq (if_pos h)

end Rekey

/-- Settles O21: a session comes of age, begins its REKEY on an idle slot, and may try again after the retry time. -/
theorem sessionRekeying : Obligations.SessionRekeying := by
  unfold Obligations.SessionRekeying
  refine fun n s hs hup => ⟨fun hheld => Effect.of_inCore rfl hs hup (Chip.ageDue_of hheld),
    fun hstate hwait hcur hcin hfree hdue hdrbg hretry hactive hfull => Effect.of_inCore rfl hs hup (Chip.rekeyGo_of ?_ ?_ hfull),
    fun hretry => Effect.of_inCore rfl hs hup (Chip.retryDue_of hretry)⟩
  · simp only [Chip.slotIdle, hstate, hwait, hcur, hcin, hfree]
    rfl
  · simp only [Chip.rekeyReady, hdue, hdrbg, hretry, hactive]
    rfl

end Sys2Proof.Machine
end

section
/-! The entropy source and the DRBG (R291–R293), and TAMPER_N (R291, R324, R452, R455). -/

namespace Sys2Proof.Machine

/-! ## Cord's device-wide events -/

section Source

variable {d : Change} {c c' : Chip}

/-- A device-wide event of Cord: its bit sets, and Ash hears of the register as it then reads (R379, R396). -/
theorem Change.Of.crdEvt (h : d.Of c c') (hr : d.resets = []) (hd : ∀ e ∈ d.regs, e.1.fld.reg ≠ .CRD_EVT) {f : Fld}
    (hf : f.width = 1) :
    ({ d with
        regs := (⟨f, 0⟩, 1) :: d.regs,
        events := d.events ++ [⟨if f = CRD_EVT.ES_FAIL then 0x58 else 0x59, 0, (c.flag f 0 true).word .CRD_EVT 0, false⟩] } :
      Change).Of c (c'.crdEvt f) := by
  unfold Chip.crdEvt
  dsimp only
  rw [Chip.word_flag_congr fun lo => h.get_of_reg hr hd lo 0]
  exact (h.flag hf 0 true).raise _ 0 _ false

/-! ## The entropy source and the DRBG -/

/-- A failed health test (R293). -/
theorem Change.Of.esFail (h : d.Of c c') (hr : d.resets = []) (hd : d.regs = []) (he : d.events = []) :
    ({ d with
        regs := [(⟨CRD_EVT.ES_FAIL, 0⟩, 1), (⟨CRD_STAT.DRBG_READY, 0⟩, 0), (⟨CRD_STAT.ES_OK, 0⟩, 0)],
        events := [⟨0x58, 0, (c.flag CRD_EVT.ES_FAIL 0 true).word .CRD_EVT 0, false⟩] } : Change).Of c c'.esFail := by
  have hoff := (h.flag (f := CRD_STAT.ES_OK) rfl 0 false).flag (f := CRD_STAT.DRBG_READY) rfl 0 false
  exact (hoff.crdEvt hr (by simp [hd]) rfl).change_eq (by simp [hd, he])

/-- The DRBG is seeded with free bytes (R292). -/
theorem Change.Of.reseed (h : d.Of c c') (hr : d.resets = []) (hd : d.regs = []) (hf : d.free = none) :
    ({ d with
        regs := [(⟨CRD_DRBG_CNT.RESEED_CNT, 0⟩, (c.get CRD_DRBG_CNT.RESEED_CNT 0 + 1) % 2 ^ 32)],
        cord := some { c'.cord with drbg := Config.freeBytes c.free 48, drbgReqs := 0 }, free := some (c.free + 1) } :
      Change).Of c c'.reseed := by
  have hfree : c'.free = c.free := by rw [h.free, hf]; rfl
  have hcnt : c'.get CRD_DRBG_CNT.RESEED_CNT 0 = c.get CRD_DRBG_CNT.RESEED_CNT 0 := h.get_of_reg hr (by simp [hd]) _ 0
  have hall := ((h.set_free (c'.free + 1)).set_cord { c'.cord with drbg := Config.freeBytes c'.free 48, drbgReqs := 0 }).put
    CRD_DRBG_CNT.RESEED_CNT 0 (c'.get CRD_DRBG_CNT.RESEED_CNT 0 + 1)
  rw [hfree, hcnt] at hall
  exact (hall.eq (by rw [← hfree, ← hcnt]; rfl)).change_eq (by rw [Change.put, hd]; rfl)

/-- The DRBG is fully seeded and generates (R292). -/
theorem Change.Of.seeded (h : d.Of c c') (hr : d.resets = []) (hd : d.regs = []) (hf : d.free = none) :
    ({ d with
        regs := [(⟨CRD_STAT.ES_OK, 0⟩, 1), (⟨CRD_STAT.DRBG_READY, 0⟩, 1),
          (⟨CRD_DRBG_CNT.RESEED_CNT, 0⟩, (c.get CRD_DRBG_CNT.RESEED_CNT 0 + 1) % 2 ^ 32)],
        cord := some { c'.cord with drbg := Config.freeBytes c.free 48, drbgReqs := 0 }, free := some (c.free + 1) } :
      Change).Of c (c'.esPass false) :=
  ((h.reseed hr hd hf).flag (f := CRD_STAT.DRBG_READY) rfl 0 true).flag (f := CRD_STAT.ES_OK) rfl 0 true

/-- A test passes after a failure (R293). -/
theorem Chip.esPass_recovered (c : Chip) :
    ({ regs := [(⟨CRD_EVT.ES_RECOVERED, 0⟩, 1), (⟨CRD_STAT.ES_OK, 0⟩, 1), (⟨CRD_STAT.DRBG_READY, 0⟩, 1),
         (⟨CRD_DRBG_CNT.RESEED_CNT, 0⟩, (c.get CRD_DRBG_CNT.RESEED_CNT 0 + 1) % 2 ^ 32)],
       cord := some { c.cord with drbg := Config.freeBytes c.free 48, drbgReqs := 0 }, free := some (c.free + 1),
       events := [⟨0x59, 0, (c.flag CRD_EVT.ES_RECOVERED 0 true).word .CRD_EVT 0, false⟩] } : Change).Of c (c.esPass true) :=
  ((Change.Of.refl c).seeded rfl rfl rfl).crdEvt rfl (by simp) (f := CRD_EVT.ES_RECOVERED) rfl

theorem Chip.esAgain_pass (hok : c.on CRD_STAT.ES_OK 0 = false) (ht : c.cord.esTest = false) : c.esAgain true = c.esPass true :=
  if_neg (by simp [hok, ht])

/-- The chip once its start-up test is over. -/
def Chip.testOver (c : Chip) : Chip := { c with cord := { c.cord with esTest := false } }

theorem Chip.testOver_of (c : Chip) : ({ cord := some { c.cord with esTest := false } } : Change).Of c c.testOver :=
  (Change.Of.refl c).set_cord _

theorem Chip.esStart_eq (ht : c.cord.esTest = true) (pass : Bool) :
    c.esStart pass = if pass then c.testOver.esPass false else c.testOver.esFail :=
  if_neg (by simp [ht])

/-- The DRBG takes new free bytes (R292). -/
theorem Chip.drbgAgain_of (hok : c.on CRD_STAT.ES_OK 0 = true) :
    ({ regs := [(⟨CRD_STAT.DRBG_READY, 0⟩, 1),
         (⟨CRD_DRBG_CNT.RESEED_CNT, 0⟩, (c.get CRD_DRBG_CNT.RESEED_CNT 0 + 1) % 2 ^ 32)],
       cord := some { c.cord with drbg := Config.freeBytes c.free 48, drbgReqs := 0 }, free := some (c.free + 1) } :
      Change).Of c c.drbgAgain :=
  (((Change.Of.refl c).reseed rfl rfl rfl).flag (f := CRD_STAT.DRBG_READY) rfl 0 true).eq (if_pos hok)

end Source

/-! ## Operand memory zeroised -/

section Operands

variable {c : Chip}

/-- A context whose window reads zeros and that is not sealed (R324). -/
def wipedCtx (x : CtxX) : CtxX := { x with isSealed := false, win := { x.win with words := x.win.words.map (fun _ => 0) } }

/-- The contexts below a bound, wiped. -/
theorem Chip.ctxsWiped_of (c : Chip) (n : Nat) :
    ({ ctxs := (List.range n).map fun k => (k, wipedCtx (c.ctx k)) } : Change).Of c
      (c.forN n fun c k => c.setCtx k (wipedCtx (c.ctx k))) := by
  induction n with
  | zero => exact Change.Of.refl c
  | succ n ih =>
    rw [Chip.forN_succ]
    generalize c.forN n (fun c k => c.setCtx k (wipedCtx (c.ctx k))) = cn at *
    have hctx : cn.ctx n = c.ctx n := by rw [ih.ctx, tabFind_range, if_neg (Nat.lt_irrefl n)]; rfl
    have hset := ih.setCtx n (wipedCtx (cn.ctx n))
    refine { hset with ctx := fun k => (hset.ctx k).trans ?_ }
    rw [hctx, tabFind_range fun k => wipedCtx (c.ctx k)]
    simp only [Change.setCtx, tabFind, tabFind_range fun k => wipedCtx (c.ctx k)]
    by_cases hk : n = k
    · simp [hk]
    · have hlt : k < n + 1 ↔ k < n := by omega
      simp [hk, hlt]

/-- The chip with every context wiped, and operand memory to be. -/
def Chip.operandsGone (c : Chip) : Chip := (c.forN 8 fun c k => c.setCtx k (wipedCtx (c.ctx k))).mem (.wipeOp 0 0x10000)

theorem Chip.operandsGone_of (c : Chip) :
    ({ ctxs := (List.range 8).map fun k => (k, wipedCtx (c.ctx k)), mems := [.wipeOp 0 0x10000] } : Change).Of c c.operandsGone :=
  (c.ctxsWiped_of 8).mem (.wipeOp 0 0x10000)

theorem Chip.emberZeroise_eq (h : ∀ k ∈ List.range 8, c.ctxJob k = false) :
    c.emberZeroise = (c.operandsGone.flag EMB_EVT.WIPE_ALL 0 true).raise 0x59 0
      ((c.operandsGone.flag EMB_EVT.WIPE_ALL 0 true).word .EMB_EVT 0) := by
  have hjobs : c.forN 8 (fun c k =>
      if c.ctxJob k then (((c.countAbort).jobFail k stsABORTED 0).jobReport k stsABORTED []) else c) = c :=
    foldl_eq_self _ fun k hk => by rw [h k hk]; rfl
  unfold Chip.emberZeroise
  rw [hjobs]
  rfl

/-- Operand memory is zeroised while no context holds a job (R324). -/
theorem Chip.operandsWiped_of (h : ∀ k ∈ List.range 8, c.ctxJob k = false) : (operandsWiped c).Of c c.emberZeroise := by
  have hgone := c.operandsGone_of
  rw [Chip.emberZeroise_eq h, Chip.word_flag_congr fun lo => hgone.get_of_reg rfl (by simp) lo 0]
  exact (hgone.flag (f := EMB_EVT.WIPE_ALL) rfl 0 true).raise 0x59 0 _ false

/-- The wipe of operand memory reads contexts and the events of Ember alone. -/
theorem operandsWiped_congr {c' : Chip} (hctx : ∀ k, c'.ctx k = c.ctx k) (hevt : ∀ lo, c'.get ⟨.EMB_EVT, lo⟩ 0 = c.get ⟨.EMB_EVT, lo⟩ 0) :
    operandsWiped c' = operandsWiped c := by
  unfold operandsWiped
  rw [Chip.word_flag_congr hevt]
  simp only [hctx]

/-- A wipe of operand memory leaves the registers of other blocks. -/
theorem operandsWiped_reg {c' : Chip} {f : Fld} (hf : f.reg ≠ .EMB_EVT) (i : Nat) : (operandsWiped c).reg c' f i = c'.get f i :=
  Change.reg_of_ne rfl (fun e he hk => hf (by rw [← hk, List.mem_singleton.1 he])) i

end Operands

/-! ## TAMPER_N -/

section Tamper

variable {c c' : Chip}

/-- Grants other than BSCAN end (R452). -/
theorem Chip.clearGrants_of (h : c.bscan = false) :
    ({ regs := [(⟨KLN_DBG_STAT.BOOTS, 0⟩, 0), (⟨KLN_DBG_STAT.HELD, 0⟩, 0)],
       mems := if c.domUp 19 = true then [.nvsVote 2 0] else [] } : Change).Of c c.clearGrants := by
  have hput := ((Change.Of.refl c).put_lt (f := KLN_DBG_STAT.HELD) (v := 0) (by decide) 0).put_lt (f := KLN_DBG_STAT.BOOTS)
    (v := 0) (by decide) 0
  have hset : c.setGrants 0 0 = (c.put KLN_DBG_STAT.HELD 0 0).put KLN_DBG_STAT.BOOTS 0 0 := by
    have hheld : ((c.put KLN_DBG_STAT.HELD 0 0).put KLN_DBG_STAT.BOOTS 0 0).bscan = false := by
      unfold Chip.bscan Chip.bit
      rw [Chip.get_put_ne _ _ _ _ _ _ (by decide), Chip.get_put_self]
      rfl
    unfold Chip.setGrants
    dsimp only
    rw [hheld, h]
    rfl
  have hup : (c.setGrants 0 0).domUp 19 = c.domUp 19 := by
    unfold Chip.domUp Chip.bit
    rw [hset, Chip.get_put_ne _ _ _ _ _ _ (by decide), Chip.get_put_ne _ _ _ _ _ _ (by decide)]
  unfold Chip.clearGrants
  dsimp only
  rw [hup, hset]
  split
  · exact hput.mem _
  · exact hput

/-- Operand memory is zeroised after the key store (R291, R324). -/
theorem Chip.operandsWiped_of_storeWiped {cause : Nat} (h : (storeWiped c cause).Of c c') (hjobs : ∀ k ∈ List.range 8, c.ctxJob k = false) :
    (operandsWiped c).Of c' c'.emberZeroise := by
  have hget : ∀ f : Fld, f.reg ∉ wipedRegs → ∀ i, c'.get f i = c.get f i := fun f hf i => (h.reg f i).trans (storeWiped_reg hf i)
  have hops := Chip.operandsWiped_of (c := c') fun k hk => by
    rw [← hjobs k hk]
    unfold Chip.ctxJob Chip.ctxState
    rw [hget EMB_CSTAT.STATE (by decide)]
  rwa [operandsWiped_congr h.ctx fun lo => hget ⟨.EMB_EVT, lo⟩ (by simp [wipedRegs, keyRegs]) 0] at hops

/-- The chip with TAMPER_N asserted. -/
def Chip.tampered (c : Chip) : Chip := { c with ash := { c.ash with tamper := true } }

theorem Chip.tampered_of (c : Chip) : ({ ash := some { c.ash with tamper := true } } : Change).Of c c.tampered :=
  (Change.Of.refl c).set_ash _ rfl

/-- A change of Ash's part before a change that leaves it alone. -/
theorem Change.plus_ash {d : Change} {x : AshX} (h : d.ash = none) : ({ ash := some x } : Change).plus d = { d with ash := some x } := by
  cases d
  subst h
  simp [Change.plus]

/-- TAMPER_N zeroises the key store and operand memory, ends the grants, and is reported (R291, R324, R452, R455). -/
theorem Chip.tamperOn_eq (ht : c.ash.tamper = false) (hup16 : c.domUp 16 = true) (hup17 : (c.tampered.zeroStore 1).domUp 17 = true) :
    c.tamperOn = (c.tampered.zeroStore 1).emberZeroise.clearGrants.lcAbandon.raise 0x03 0 := by
  have hstore : (if c.tampered.domUp 16 then c.tampered.zeroStore 1 else c.tampered) = c.tampered.zeroStore 1 := if_pos hup16
  have hops : (if (c.tampered.zeroStore 1).domUp 17 then (c.tampered.zeroStore 1).emberZeroise else c.tampered.zeroStore 1)
      = (c.tampered.zeroStore 1).emberZeroise := if_pos hup17
  rw [← hops, ← hstore]
  exact if_neg (by simp [ht])

/-- TAMPER_N on a device whose units are at rest (R291, R324, R452). -/
theorem Chip.tamperOn_of (hup16 : c.domUp 16 = true) (hup17 : c.domUp 17 = true) (ht : c.ash.tamper = false) (hno : c.NoCinder)
    (hjobs : ∀ k ∈ List.range 8, c.ctxJob k = false) (hlc : c.kln.lc = none) (hbscan : c.bscan = false) :
    (((storeWiped c 1).plus (operandsWiped c)).plus
      { regs := [(⟨KLN_DBG_STAT.BOOTS, 0⟩, 0), (⟨KLN_DBG_STAT.HELD, 0⟩, 0)],
        ash := some { c.ash with tamper := true }, events := [⟨0x03, 0, 0, false⟩],
        mems := if c.domUp 19 = true then [.nvsVote 2 0] else [] }).Of c c.tamperOn := by
  obtain ⟨hstore, -⟩ := Chip.storeWiped_of (c := c.tampered) (cause := 1) (hno.congr rfl (fun _ => rfl) rfl) (by decide) (by decide)
  obtain ⟨c1, h1⟩ : ∃ c1, c.tampered.zeroStore 1 = c1 := ⟨_, rfl⟩
  rw [h1] at hstore
  have hops : (operandsWiped c).Of c1 c1.emberZeroise := Chip.operandsWiped_of_storeWiped (c := c.tampered) hstore hjobs
  have hall := (c.tampered_of.plus hstore rfl).plus hops rfl
  obtain ⟨c2, h2⟩ : ∃ c2, c1.emberZeroise = c2 := ⟨_, rfl⟩
  rw [h2] at hops hall
  have hget : ∀ f : Fld, f.reg ∉ .EMB_EVT :: wipedRegs → ∀ i, c2.get f i = c.get f i := fun f hf i => by
    rw [hops.reg, operandsWiped_reg (List.ne_of_not_mem_cons hf), hstore.reg, storeWiped_reg (List.not_mem_of_not_mem_cons hf)]
    rfl
  have hbscan2 : c2.bscan = false := by
    rw [← hbscan]
    simp only [Chip.bscan, Chip.bit, hget KLN_DBG_STAT.HELD (by decide)]
  have hgrants := Chip.clearGrants_of hbscan2
  have hup19 : c2.domUp 19 = c.domUp 19 := by simp only [Chip.domUp, Chip.bit, hget DRG_DOM_STAT.UP (by decide)]
  rw [hup19] at hgrants
  have hlc2 : c2.clearGrants.lcAbandon = c2.clearGrants := by
    have hkln : c2.clearGrants.kln = c.kln := hgrants.kln.trans hall.kln
    unfold Chip.lcAbandon
    rw [hkln, hlc]
  have hup1 : (c.tampered.zeroStore 1).domUp 17 = true := by
    rw [h1, ← hup17]
    unfold Chip.domUp Chip.bit
    rw [hstore.reg, storeWiped_reg (by decide)]
    rfl
  rw [Chip.tamperOn_eq ht hup16 hup1, h1, h2, hlc2]
  refine ((hall.plus hgrants rfl).raise 0x03 0 0 false).change_eq ?_
  rw [Change.plus_ash rfl]
  rfl

end Tamper

/-- Settles O22: health tests and reseeds, and TAMPER_N, which zeroises the key store and operand memory one after the other. -/
theorem entropySource : Obligations.EntropySource := by
  unfold Obligations.EntropySource
  refine fun s hs hup => ⟨Effect.of_inCore rfl hs hup ((Change.Of.refl s.chip).esFail rfl rfl rfl),
    fun hok ht => Effect.of_inCore rfl hs hup (s.chip.esPass_recovered.eq (Chip.esAgain_pass hok ht)),
    fun ht => Effect.of_inCore rfl hs hup ((s.chip.testOver_of.seeded rfl rfl rfl).eq (Chip.esStart_eq ht true)),
    fun ht => Effect.of_inCore rfl hs hup ((s.chip.testOver_of.esFail rfl rfl rfl).eq (Chip.esStart_eq ht false)),
    fun hok => Effect.of_inCore rfl hs hup (Chip.drbgAgain_of hok),
    fun hup17 ht hno hjobs hlc hbscan => Effect.of_run rfl hs (Chip.tamperOn_of hup hup17 ht hno hjobs hlc hbscan)⟩

end Sys2Proof.Machine
end

section
/-! Statements about the keying of links and about Ash that the model does not meet, each with the state that shows it. -/

namespace Sys2Proof.Machine

/-! ## O35: a job of the keying that waits for budget -/

/-- Changes that are calm but for one link, whose counters are not used up, leave an idle block idle. -/
theorem Chip.Idle.of_link {c c' : Chip} {d : Change} {k : Nat} {x : KzX} (hi : c.Idle) (h : d.Of c c') (hkz : d.kz = [(k, x)])
    (hd : ({ d with kz := [] } : Change).Calm) (hx : x.txCtr < 2 ^ 32 ∧ x.rxCtr < 2 ^ 32) : c'.Idle := by
  have hi' : ({ c' with kz := c.kz } : Chip).Idle := hi.of_calm hd { h with kzOf := fun _ => rfl }
  refine { hi' with fresh := fun i => ?_ }
  rw [h.kzOf, hkz]
  exact tabFind_getD_of_forall (P := fun _ (y : KzX) => y.txCtr < 2 ^ 32 ∧ y.rxCtr < 2 ^ 32) (by simpa using hx) (hi.fresh i)

/-- Link 0 once both values of its keying have been agreed with the peer, whose KEY1 was one byte. -/
def agreedLink : KzX := { KzX.init with k1sent := [1], k1peer := [1], certOk := true, zee := [1], zss := [1] }

/-- PD16 and the link are up, and the job of Cord that is to derive the keys of the link waits at the damper. -/
def keyingAgreed : State :=
  { State.reset with
    chip := { (Chip.init.put DRG_KZ_STAT.INIT_OK 0 1).put DRG_DOM_STAT.UP 0 (2 ^ 16) with
      kz := [(0, agreedLink)]
      dmp := { DamperX.init with reqs := [⟨.cordJob 64, 0, 0, false⟩] } } }

theorem keyingAgreed_idle : keyingAgreed.chip.Idle :=
  have hi : ((Chip.init.put DRG_KZ_STAT.INIT_OK 0 1).put DRG_DOM_STAT.UP 0 (2 ^ 16)).Idle :=
    (Chip.Idle.init.put (by decide) 0 1).domainsOn (by decide +kernel)
  { hi with
    fresh := fun i => tabFind_getD_of_forall (P := fun _ (y : KzX) => y.txCtr < 2 ^ 32 ∧ y.rxCtr < 2 ^ 32)
      (by simp [keyingAgreed, agreedLink, KzX.init]) ⟨Nat.two_pow_pos 32, Nat.two_pow_pos 32⟩ }

/-- A KEY1 of the right length whose certificate is out of form. -/
def blankKey1 : List Byte := List.replicate 346 0

/-- Refutes O35: another KEY1, its certificate out of form, ends the keying of the link (R476), and with that withdraws the budget
request of the job that was to derive the keys, which the statement leaves at the damper. -/
theorem not_kuzaganKeyingAndForwards : ¬ Obligations.KuzaganKeyingAndForwards := by
  intro h
  obtain ⟨-, -, hother, -⟩ := h.1 0 0 keyingAgreed rfl rfl
  have he := hother blankKey1 (by decide +kernel) (by decide +kernel) (by decide +kernel) (by decide +kernel) (by decide +kernel)
    (.inl (by decide +kernel))
  obtain ⟨c', ho, hc⟩ := he.chip_of_leadsToRest rfl
    (fun _ ho => (keyingAgreed_idle.of_link ho rfl
      ⟨by simp [unkeyedRegs, idleFields], rfl, rfl, rfl, rfl, rfl, rfl, rfl, rfl, rfl, rfl, rfl⟩
      ⟨Nat.two_pow_pos 32, Nat.two_pow_pos 32⟩).resting)
    (t := keyingAgreed.run fun c => c.controlIn 0 blankKey1.length 346 fun c => c.key1In keyingAgreed.env 0 blankKey1) rfl
  have hgone : (keyingAgreed.run fun c =>
      c.controlIn 0 blankKey1.length 346 fun c => c.key1In keyingAgreed.env 0 blankKey1).chip.dmp.reqs = [] := by
    decide +kernel
  have hkept : c'.dmp = keyingAgreed.chip.dmp := ho.dmp
  rw [hc] at hgone
  exact absurd ((congrArg DamperX.reqs hkept).symm.trans hgone) (by decide +kernel)

/-! ## O40: a forced event in the safe state -/

/-- Changes that are calm but for Ash's part, with no peer present after them, leave an idle block idle. -/
theorem Chip.Idle.of_ash {c c' : Chip} {d : Change} (hi : c.Idle) (h : d.Of c c')
    (hd : ({ d with ash := none, taken := 0, events := [] } : Change).Calm) (hp : c'.ash.present = []) : c'.Idle :=
  have hi' : ({ c' with ash := c.ash } : Chip).Idle := hi.of_calm hd { h with ash := by simp }
  { hi' with present := hp }

/-- A device in the safe state, at which the event of a forced peer loss (R398) waits. -/
def forcedInSafe : State :=
  { State.reset with
    chip := { Chip.init with ash := { AshX.init with safe := true, inbox := [⟨0x49, 1, 0, true⟩], drilled := [.peer 1] } } }

theorem forcedInSafe_idle : forcedInSafe.chip.Idle := { Chip.Idle.init with }

/-- Refutes O40: once the event of a forced loss has been judged, its unit is no longer marked as one whose fence is to be held (R398),
in the safe state too; the statement leaves the mark. -/
theorem not_ashJudgesEvents : ¬ Obligations.AshJudgesEvents := by
  intro h
  obtain ⟨-, hsafe, -⟩ := h
  have he := (hsafe ⟨0x49, 1, 0, true⟩ 2 7 forcedInSafe rfl rfl (by decide +kernel)).1 rfl
  obtain ⟨c', ho, hc⟩ := he.chip_of_leadsToRest rfl
    (fun _ ho => (forcedInSafe_idle.of_ash ho
      ⟨by decide +kernel, rfl, rfl, rfl, rfl, rfl, rfl, rfl, rfl, rfl, rfl, rfl⟩ (by rw [ho.ash]; decide +kernel)).resting)
    (t := forcedInSafe.run Chip.ashNext) rfl
  have hgone : (forcedInSafe.run Chip.ashNext).chip.ash.drilled = [] := by decide +kernel
  have hkept : c'.ash.drilled = [.peer 1] := by rw [ho.ash]; decide +kernel
  rw [hc] at hgone
  exact absurd (hkept.symm.trans hgone) (by decide)

end Sys2Proof.Machine
end

section
/-! A block in the middle of a life-cycle transition, and a target that the registers cannot show. -/

namespace Sys2Proof.Machine

/-! ## A block whose transition waits -/

/-- But for a life-cycle transition the block is at rest, and that transition waits for its done mark: nothing goes on by itself. -/
structure Chip.AtDoneMark (c : Chip) (j : LcJob) : Prop where
  resting : ({ c with kln := { c.kln with lc := none } } : Chip).Resting
  lc : c.kln.lc = some j
  phase : j.phase = .doneMark

section AtDoneMark

variable {c : Chip} {j : LcJob} (hd : c.AtDoneMark j)
include hd

theorem Chip.AtDoneMark.fluxWork : c.watchLive.evictRemote.rampAll.recheckTokens = c := by
  have hlive : c.liveMask = c.stack.liveSeen := hd.resting.live
  have hgrants : c.dmp.grants = [] := hd.resting.grants
  have hentries : ∀ e ∈ c.entries, e.phase ≠ .tokens ∧ ∀ second, (e.leg second).st ≠ .queued := hd.resting.entries
  have h1 : c.watchLive = c := by simp [Chip.watchLive, hlive]
  have h2 : c.evictRemote = c := foldl_eq_self _ fun e he => by simp [(hentries e he).2]
  have h3 : c.rampAll = c := by simp [Chip.rampAll, hgrants]
  have h4 : c.entries.filter (fun e => decide (e.phase = .tokens)) = [] :=
    List.filter_eq_nil_iff.2 fun e he => by simpa using (hentries e he).1
  rw [h1, h2, h3]
  simp [Chip.recheckTokens, h4]

theorem Chip.AtDoneMark.slotWork (n : Nat) :
    (((((if (c.slot n).queue = [] then c else c.evict n).openLane n).dropWait n).repath n).trySend n).kick n = c := by
  have hqueue : (c.slot n).queue = [] := hd.resting.queue n
  have hwait : (c.slot n).wait = none := hd.resting.wait n
  have hstate : c.slotState n ≠ stNEGOTIATE ∧ c.slotState n ≠ stREADY := hd.resting.state n
  have hgrants : c.dmp.grants = [] := hd.resting.grants
  have h1 : c.openLane n = c := by simp [Chip.openLane, hstate.1]
  have h2 : c.dropWait n = c := by simp [Chip.dropWait, hwait]
  have h3 : c.repath n = c := by simp [Chip.repath, hwait]
  have h4 : c.trySend n = c := by simp [Chip.trySend, hgrants]
  have h5 : c.kick n = c := by simp [Chip.kick, Chip.standBack, hwait, Chip.kickN, Chip.slotIdle, hstate.2]
  rw [if_pos hqueue, h1, h2, h3, h4, h5]

theorem Chip.AtDoneMark.kilnWork : c.lcIntent.xferStep.challengeStep.watchQuorum.kzWorn.nextRemoval = c := by
  have hxfer : c.kln.xfer = none := hd.resting.xfer
  have hovls : c.kln.ovls = [] := hd.resting.ovls
  have hremovals : c.kln.removals = [] := hd.resting.removals
  have hmailbox : c.get STK_MBX_STAT.BUSY 0 = 0 := hd.resting.mailbox
  have hfresh : ∀ k, (c.kzOf k).txCtr < 2 ^ 32 ∧ (c.kzOf k).rxCtr < 2 ^ 32 := hd.resting.fresh
  have h1 : c.lcIntent = c := by simp [Chip.lcIntent, hd.lc, hd.phase]
  have h2 : c.xferStep = c := by simp [Chip.xferStep, hxfer]
  have h3 : c.challengeStep = c := by simp [Chip.challengeStep, Chip.on, hmailbox]
  have h4 : c.watchQuorum = c := by simp [Chip.watchQuorum, hovls]
  have h5 : c.kzWorn = c := foldl_eq_self _ fun k _ => if_neg (by have := hfresh k; omega)
  rw [h1, h2, h3, h4, h5]
  simp [Chip.nextRemoval, hremovals]

/-- A round on such a block changes nothing. -/
theorem Chip.AtDoneMark.settle1 (env : Env) (rand : Nat → Bool) : c.settle1 env rand = c := by
  have hcin : ∀ n, (c.sessOf n).cin = none := hd.resting.cin
  have htokens : ∀ k, c.ctxState k ≠ esTOKENS := hd.resting.tokens
  have hfinished : c.ember.finished = [] := hd.resting.finished
  have hstoker : c.ember.stokerQ = [] := hd.resting.stokerQ
  have h1 := foldl_eq_self (c := c) (g := fun (c : Chip) n => (c.cinTake n env).cinStep n) (c.sess.map Prod.fst) fun n _ => by
    simp [Chip.cinTake, Chip.cinStep, hcin n]
  have h2 : c.identityJob env = c := by simp [Chip.identityJob, hd.lc, hd.phase]
  have h3 := foldl_eq_self (c := c) (g := fun (c : Chip) k => c.jobQueue k (rand k)) (c.ctxs.map Prod.fst) fun k _ => by
    simp [Chip.jobQueue, htokens k]
  have h4 := foldl_eq_self (g := fun (c : Chip) n =>
      (((((if (c.slot n).queue = [] then c else c.evict n).openLane n).dropWait n).repath n).trySend n).kick n)
      (c.slots.map Prod.fst) fun n _ => hd.slotWork n
  unfold Chip.settle1
  simp only [hfinished, hstoker, if_true, h1, h2, h3, hd.fluxWork, h4]
  exact hd.kilnWork

end AtDoneMark

theorem State.settle_atDoneMark {s : State} {j : LcJob} (hs : s.Still) (hd : s.chip.AtDoneMark j) : s.settle.coldDue = s := by
  have h : s.settle1 = s := by
    unfold State.settle1
    rw [State.act_of_still (by rw [hd.settle1]; exact hs), hd.settle1]
  have hcold : s.chip.get DRG_SEQ_STAT.COLD_PEND 0 = 0 := hd.resting.coldPend
  have hc : s.coldDue = s := by
    unfold State.coldDue
    rw [if_neg]
    simp [Chip.on, hcold]
  rw [State.settle, h, h, h, h, hc]

/-- What a command leaves of a block that its changes bring to such a state: the chip with these changes and nothing else. -/
theorem Effect.chip_of_atDoneMark {i : Instr} {s t : State} {d : Change} {j : LcJob} (he : Effect i s d) (hm : d.mems = [])
    (hd : ∀ c', d.Of s.chip c' → c'.AtDoneMark j) (ht : exec i s = .next t) :
    ∃ c', d.Of s.chip c' ∧ t.chip = { c' with memq := [] } := by
  obtain ⟨c', ho, hx⟩ := he
  have hd' : ({ c' with memq := [] } : Chip).AtDoneMark j := { hd c' ho with resting := (hd c' ho).resting.memq [] }
  rw [hm, List.foldl_nil, State.settle_atDoneMark rfl hd', ht] at hx
  exact ⟨c', ho, congrArg State.chip (Host.Outcome.next.inj hx)⟩

/-- Changes that are calm but for the transition of Kiln, which then waits for its done mark, lead an idle block there. -/
theorem Chip.Idle.atDoneMark {c c' : Chip} {d : Change} {j : LcJob} {k : KlnX} (hi : ({ c with kln := { c.kln with lc := none } } : Chip).Idle)
    (h : d.Of c c') (hk : d.kln = some k) (hd : ({ d with kln := none } : Change).Calm) (hj : k = { c.kln with lc := some j })
    (hp : j.phase = .doneMark) : c'.AtDoneMark j where
  resting := by
    have hkln : c'.kln = { c.kln with lc := some j } := by rw [h.kln, hk, hj]; rfl
    rw [hkln]
    exact (hi.of_calm (c' := { c' with kln := { c.kln with lc := none } }) hd { h with kln := rfl }).resting
  lc := by rw [h.kln, hk, hj]; rfl
  phase := hp

/-! ## O46: a target wider than its field -/

/-- A transition to a state 16, which the four bits of TARGET cannot hold, about to carry out step 5. -/
def wideTarget : LcJob := ⟨16, .step 5, true, false, false⟩

/-- PD19 is on, and this transition is in progress. -/
def wideTransition : State :=
  { State.reset with chip := { Chip.init.put DRG_DOM_STAT.UP 0 (2 ^ 19) with kln := { KlnX.init with lc := some wideTarget } } }

theorem wideTransition_idle : ({ wideTransition.chip with kln := { wideTransition.chip.kln with lc := none } } : Chip).Idle :=
  have hi : (Chip.init.put DRG_DOM_STAT.UP 0 (2 ^ 19)).Idle := Chip.Idle.init.domainsOn (by decide +kernel)
  hi

/-- Refutes O46: KLN_LC_STAT takes the four low bits of the target of a transition, so 16, which no request leaves there but which the
statement admits, reads 0 after step 5 and not the 16 that the statement has. -/
theorem not_lifeCycleTransition : ¬ Obligations.LifeCycleTransition := by
  intro h
  obtain ⟨-, -, -, hsteps⟩ := h
  obtain ⟨-, -, -, hstep, -⟩ := hsteps wideTarget wideTransition rfl rfl (by decide +kernel)
  obtain ⟨c', ho, hc⟩ := (hstep rfl).chip_of_atDoneMark (by decide +kernel)
    (fun _ ho => wideTransition_idle.atDoneMark ho rfl
      ⟨by simp [lcGoes, lcRegs, idleFields], rfl, rfl, rfl, rfl, rfl, rfl, rfl, rfl, rfl, rfl, by decide +kernel⟩ rfl rfl)
    (t := wideTransition.run fun c => c.lcStepEnd wideTransition.otp) rfl
  have htarget : (wideTransition.run fun c => c.lcStepEnd wideTransition.otp).chip.get KLN_LC_STAT.TARGET 0 = 0 := by decide +kernel
  have hreg : c'.get KLN_LC_STAT.TARGET 0 = 16 := by rw [ho.reg]; decide +kernel
  rw [hc] at htarget
  exact absurd (htarget.symm.trans hreg) (by decide)

end Sys2Proof.Machine
end

section
/-! Statements about the end of an Ember job that the model does not meet, with the block that shows it. -/

namespace Sys2Proof.Machine

/-! ## Changes that move the jobs of an idle block, and wipe its memories -/

/-- Changes that are calm but for memory work and for states of contexts, none of which waits for tokens, leave an idle block idle. -/
theorem Chip.Idle.of_ctxStates {c c' : Chip} {d : Change} (hi : c.Idle) (h : d.Of c c') (hres : d.resets = [])
    (hregs : ∀ e ∈ d.regs, e.1.fld ∈ idleFields → e.1.fld = EMB_CSTAT.STATE ∧ e.2 ≠ esTOKENS)
    (hd : ({ d with regs := [], mems := [] } : Change).Calm) : c'.Idle := by
  have hi' : ({ c' with regs := c.regs, memq := c.memq } : Chip).Idle :=
    hi.of_calm hd { h with reg := fun f i => by simp [Change.reg, hres, tabFind, Chip.get], memq := by simp }
  have hreg : ∀ f i, c'.get f i = (tabFind d.regs ⟨f, i⟩).getD (c.get f i) := fun f i => by
    rw [h.reg, Change.reg, hres, if_neg List.not_mem_nil]
  have hget : ∀ f ∈ idleFields, f ≠ EMB_CSTAT.STATE → ∀ i, c'.get f i = c.get f i := fun f hf hs i => by
    rw [hreg, tabFind_eq_none fun e he hk => ?_]
    · rfl
    · exact hs ((congrArg Key.fld hk).symm.trans (hregs e he (by rw [hk]; exact hf)).1)
  exact
    { hi' with
      tokens := fun k => by
        unfold Chip.ctxState
        rw [hreg]
        exact tabFind_getD_of_forall (P := fun k v => k.fld = EMB_CSTAT.STATE → v ≠ esTOKENS)
          (fun e he hf => (hregs e he (by rw [hf]; decide)).2) (fun _ => hi.tokens k) rfl
      state := fun n => by unfold Chip.slotState; rw [hget _ (by decide) (by decide)]; exact hi.state n
      banksOff := fun b hb => by unfold Chip.domUp Chip.bit; rw [hget _ (by decide) (by decide)]; exact hi.banksOff b hb
      mailbox := by rw [hget _ (by decide) (by decide)]; exact hi.mailbox
      coldPend := by rw [hget _ (by decide) (by decide)]; exact hi.coldPend }

/-- What a command leaves of a block that its changes bring to rest, whatever it does to the memories: of the chip, these changes and
nothing else. -/
theorem Effect.chip_of_leadsToRest_mems {i : Instr} {s t : State} {d : Change} (he : Effect i s d)
    (hr : ∀ c', d.Of s.chip c' → c'.Resting) (ht : exec i s = .next t) :
    ∃ c', d.Of s.chip c' ∧ t.chip = { c' with memq := [] } := by
  obtain ⟨c', ho, hx⟩ := he
  have hchip := State.foldl_applyMem_chip d.mems { s with chip := { c' with memq := [] } }
  have hr' : (d.mems.foldl State.applyMem { s with chip := { c' with memq := [] } }).chip.Resting := by
    rw [hchip]
    exact (hr c' ho).memq []
  rw [State.settle_resting (by rw [State.Still, hchip]) hr', State.coldDue_resting hr', ht] at hx
  exact ⟨c', ho, (congrArg State.chip (Host.Outcome.next.inj hx)).trans hchip⟩

/-! ## An aged job -/

/-- PD17 is on, and context 0 belongs to host software and shows that its job is AGED. -/
def agedChip : Chip :=
  ((Chip.init.put DRG_DOM_STAT.UP 0 (2 ^ 17)).put EMB_CFG.CTX_HOST 0 1).put EMB_CSTAT.AGED 0 1

theorem agedChip_idle : agedChip.Idle :=
  ((Chip.Idle.init.domainsOn (by decide +kernel)).put (by decide) 0 1).put (by decide) 0 1

/-- The job of context 0 has run, was suspended and became AGED; its context is in this state. -/
def agedJob (st : Nat) : State :=
  { State.reset with
    chip := { agedChip.put EMB_CSTAT.STATE 0 st with
      ctxs := [(0, { CtxX.init with aged := some 0, hasTokens := true, started := true })] } }

theorem agedJob_idle {st : Nat} (hlt : st < 2 ^ EMB_CSTAT.STATE.width) (hst : st ≠ esTOKENS) : (agedJob st).chip.Idle :=
  have hi : (agedChip.put EMB_CSTAT.STATE 0 st).Idle :=
    agedChip_idle.of_ctxStates ((Change.Of.refl agedChip).put_lt hlt 0) rfl (by simp [hst])
      ⟨by simp, rfl, rfl, rfl, rfl, rfl, rfl, rfl, rfl, rfl, rfl, rfl⟩
  { hi with }

/-- A command that clears AGED of such a job has no effect that leaves it alone. -/
theorem agedJob_not_effect {i : Instr} {st : Nat} {d : Change} {f : Chip → Chip} (hi : (agedJob st).chip.Idle)
    (ht : exec i (agedJob st) = .next ((agedJob st).run f)) (hres : d.resets = [])
    (hregs : ∀ e ∈ d.regs, e.1.fld ∈ idleFields → e.1.fld = EMB_CSTAT.STATE ∧ e.2 ≠ esTOKENS)
    (hd : ({ d with regs := [], mems := [] } : Change).Calm)
    (hcleared : ((agedJob st).run f).chip.get EMB_CSTAT.AGED 0 = 0)
    (hkept : d.reg (agedJob st).chip EMB_CSTAT.AGED 0 = 1) : ¬ Effect i (agedJob st) d := by
  intro he
  obtain ⟨c', ho, hc⟩ := he.chip_of_leadsToRest_mems
    (fun _ ho => (hi.of_ctxStates ho hres hregs hd).resting) ht
  have hreg : c'.get EMB_CSTAT.AGED 0 = 1 := (ho.reg _ _).trans hkept
  rw [hc] at hcleared
  exact absurd (hcleared.symm.trans hreg) (by decide)

/-- Refutes O24: a job that reaches DONE clears AGED of its context. One that became AGED while suspended (R313) and was then aborted shows
AGED while its regions are wiped (R322), and no more once the wipe has ended; the statement leaves the bit set. -/
theorem not_emberArray : ¬ Obligations.EmberArray := by
  intro h
  obtain ⟨-, hctx⟩ := h
  obtain ⟨hwipe, -⟩ := hctx 0 0 (agedJob esWIPING) rfl (by decide +kernel) rfl
  have he := hwipe (by decide +kernel) ⟨by decide +kernel, rfl, by decide +kernel, by decide +kernel⟩ (by decide +kernel)
  exact agedJob_not_effect (f := fun c => c.inEmber fun c => c.wipeEnd 0) (agedJob_idle (by decide) (by decide)) rfl rfl (by decide +kernel)
    ⟨by simp, rfl, rfl, rfl, rfl, rfl, rfl, rfl, rfl, rfl, rfl, rfl⟩ (by decide +kernel) (by decide +kernel) he

/-- Refutes O25: a failure that fences a context clears AGED with the job it ends. An uncorrectable memory error in the context of a job that
became AGED while suspended (R313, R323) shows it; the statement leaves the bit set. -/
theorem not_emberFailures : ¬ Obligations.EmberFailures := by
  intro h
  obtain ⟨-, hctx⟩ := h
  obtain ⟨heccUe, -⟩ := hctx 0 0 (agedJob esSUSPENDED) rfl (by decide +kernel) rfl
  have he := heccUe _ ⟨by decide +kernel, rfl, by decide +kernel, by decide +kernel⟩ (by decide +kernel) rfl
  exact agedJob_not_effect (f := fun c => c.inEmber fun c => c.memoryBad 0) (agedJob_idle (by decide) (by decide)) rfl rfl (by decide +kernel)
    ⟨by simp, rfl, rfl, rfl, rfl, rfl, rfl, rfl, rfl, rfl, rfl, rfl⟩ (by decide +kernel) (by decide +kernel) he

end Sys2Proof.Machine
end

section
/-! The off start of a bank that is on does not do what the statement says of it. -/

namespace Sys2Proof.Machine

/-! ## O29: the power of a bank that goes off -/

/-- The sequencer is in QUIESCE. -/
def quiescedRegs : Chip := Chip.init.put DRG_SEQ_STAT.STATE 0 sqQUIESCE

theorem quiescedRegs_idle : quiescedRegs.Idle := Chip.Idle.init.put (by decide) _ _

/-- A shutdown that has reached its off start: bank 1 alone is on, its slots are OFF, and its rail gives it power (R87, R328). -/
def quiescedBank : State :=
  { State.reset with
    chip := { quiescedRegs.put DRG_DOM_STAT.UP 0 (2 ^ 1) with seq := { SeqX.init with powered := [1] } } }

/-- What the statement says of the off start there. -/
def quiescedBankOff : Change :=
  (bankDown quiescedBank.chip 1).plus
    { regs := seqRegs sqRAILSOFF, seq := some { quiescedBank.chip.seq with coreOff := false } }

/-- The fields that say whether a block is idle, but for the domains, are no part of that change. -/
theorem quiescedBankOff_get {c' : Chip} (h : quiescedBankOff.Of quiescedBank.chip c') {f : Fld} (hf : f ∈ idleFields)
    (hup : f ≠ DRG_DOM_STAT.UP) (i : Nat) : c'.get f i = quiescedRegs.get f i := by
  have hkept : c'.get f i = quiescedBank.chip.get f i := (h.reg f i).trans (Change.reg_of_ne rfl (by
    have hregs : ∀ e ∈ quiescedBankOff.regs, e.1.fld ∈ idleFields → e.1.fld = DRG_DOM_STAT.UP := by decide +kernel
    rintro e he rfl
    exact hup (hregs e he hf)) i)
  rw [hkept]
  show (quiescedRegs.put DRG_DOM_STAT.UP 0 (2 ^ 1)).get f i = _
  exact Chip.get_put_ne _ _ _ _ _ _ (by simp [hup])

/-- With its one bank off the block is idle. -/
theorem quiescedBankOff_idle {c' : Chip} (h : quiescedBankOff.Of quiescedBank.chip c') : c'.Idle := by
  have hcalm : ({ quiescedBankOff with regs := [], slots := [] } : Change).Calm :=
    ⟨by simp, rfl, rfl, rfl, rfl, rfl, rfl, rfl, rfl, rfl, rfl, rfl⟩
  have hrest : ({ quiescedBankOff with regs := [], slots := [] } : Change).Of quiescedRegs
      { c' with regs := quiescedRegs.regs, slots := quiescedRegs.slots } :=
    { h with reg := fun _ _ => rfl, slot := fun _ => rfl }
  have hslot : ∀ n, (c'.slot n).queue = [] ∧ (c'.slot n).wait = none := fun n => by
    rw [h.slot]
    exact tabFind_getD_of_forall (P := fun _ (x : SlotX) => x.queue = [] ∧ x.wait = none) (by decide +kernel) ⟨rfl, rfl⟩
  exact
    { quiescedRegs_idle.of_calm hcalm hrest with
      tokens := fun k => by
        unfold Chip.ctxState; rw [quiescedBankOff_get h (by decide) (by decide)]; exact quiescedRegs_idle.tokens k
      queue := fun n => (hslot n).1
      wait := fun n => (hslot n).2
      state := fun n => by
        unfold Chip.slotState; rw [quiescedBankOff_get h (by decide) (by decide)]; exact quiescedRegs_idle.state n
      banksOff := by unfold Chip.domUp Chip.bit; rw [h.reg]; decide +kernel
      mailbox := by rw [quiescedBankOff_get h (by decide) (by decide)]; exact quiescedRegs_idle.mailbox
      coldPend := by rw [quiescedBankOff_get h (by decide) (by decide)]; exact quiescedRegs_idle.coldPend }

/-- Refutes O29: the off start isolates the plan domains (R338), and a bank that it isolates is no longer one that has power (R43, R87);
the statement leaves the bank among those that have it. -/
theorem not_powerDown : ¬ Obligations.PowerDown := by
  intro h
  obtain ⟨-, -, hoff, -⟩ := h.1 quiescedBank rfl
  have he : Effect .offStart quiescedBank quiescedBankOff :=
    hoff 1 (by decide +kernel) (by decide +kernel) (by decide +kernel) (by decide +kernel)
  obtain ⟨c', ho, hc⟩ := he.chip_of_leadsToRest rfl (fun _ ho => (quiescedBankOff_idle ho).resting)
    (t := quiescedBank.run Chip.offStart) rfl
  have hgone : (quiescedBank.run Chip.offStart).chip.seq.powered = [] := by decide +kernel
  have hkept : c'.seq.powered = [1] := congrArg SeqX.powered ho.seq
  rw [hc] at hgone
  exact absurd (hgone.symm.trans hkept) (by decide)

end Sys2Proof.Machine
end

section
/-! The commands of DRG_SEQ_CMD (R337, R339, R343, R345, R346): a shutdown that finds nothing to stop, a rail that is powered up again, and
the statement of both. -/

namespace Sys2Proof.Machine

/-! ## Rings in DISABLED that are reset -/

section Rings

variable {d : Change} {c c' : Chip}

/-- Registers with one index return to their reset values, one after another. -/
theorem Change.Of.resetRegs (h : d.Of c c') (hd : d.regs = []) (gs : List RegName) (i : Nat) :
    ({ d with resets := (gs.map fun g => (g, i)).reverse ++ d.resets } : Change).Of c (gs.foldl (fun c g => c.resetReg g i) c') := by
  induction gs generalizing d c' with
  | nil => exact h
  | cons g gs ih =>
    have hg := h.resetReg g i
    rw [Change.resetReg, hd, List.filter_nil, ← hd] at hg
    simpa using ih hg hd

/-- The registers of a ring that its reset clears (R238). -/
def ringRegNames : List RegName :=
  [.FLU_RING_CTL, .FLU_SQ_BASE_LO, .FLU_SQ_BASE_HI, .FLU_CQ_BASE_LO, .FLU_CQ_BASE_HI, .FLU_RING_PTR, .FLU_RING_STAT, .FLU_RING_EVT,
   .FLU_RING_CNT, .FLU_RING_DCNT]

/-- The reset of a ring in DISABLED clears its registers and gives it back to the owner of the image (R207, R238). -/
theorem Chip.ringRegs_of (c : Chip) (r : Nat) : (ringsReset c [r]).Of c (c.ringRegs r) := by
  have hregs := (Change.Of.refl c).resetRegs rfl ringRegNames r
  have howner : (ringRegNames.foldl (fun c g => c.resetReg g r) c).get FLU_RING_CFG.OWNER r = c.get FLU_RING_CFG.OWNER r := by
    rw [hregs.reg, Change.reg, if_neg (by simp [ringRegNames])]
    rfl
  have hput := (hregs.put FLU_RING_STAT.OWNER_NOW r (c.get FLU_RING_CFG.OWNER r)).setRing r RingX.init
  rw [← howner] at hput
  exact hput.change_eq (by rw [howner]; rfl)

theorem mem_ringsReset_resets {l : List Nat} {e : RegName × Nat} (h : e ∈ (ringsReset c l).resets) :
    e.1 ∈ ringRegNames ∧ e.2 ∈ l := by
  obtain ⟨r, hr, he⟩ := List.mem_flatMap.1 h
  obtain ⟨g, hg, rfl⟩ := List.mem_map.1 (List.mem_reverse.1 (show e ∈ (ringRegNames.map fun g => (g, r)).reverse from he))
  exact ⟨hg, hr⟩

theorem mem_ringsReset_regs {l : List Nat} {e : Key × Nat} (h : e ∈ (ringsReset c l).regs) :
    e.1.fld = FLU_RING_STAT.OWNER_NOW ∧ e.1.idx ∈ l := by
  obtain ⟨r, hr, rfl⟩ := List.mem_map.1 h
  exact ⟨rfl, hr⟩

/-- A field of another register is as it was. -/
theorem Chip.get_ringsReset {l : List Nat} (h : (ringsReset c l).Of c c') {f : Fld} {i : Nat} (hf : f.reg ∉ ringRegNames ∨ i ∉ l) :
    c'.get f i = c.get f i := by
  rw [h.reg, Change.reg, if_neg, tabFind_eq_none]
  · rfl
  · intro e he hk
    obtain ⟨hfld, hidx⟩ := mem_ringsReset_regs he
    rw [hk] at hfld hidx
    exact hf.elim (· (by rw [show f = _ from hfld]; decide)) (· hidx)
  · intro hm
    obtain ⟨hreg, hidx⟩ := mem_ringsReset_resets hm
    exact hf.elim (· hreg) (· hidx)

/-- What the reset of rings changes rests on the owners of the image alone. -/
theorem ringsReset_congr (h : ∀ r, c'.get FLU_RING_CFG.OWNER r = c.get FLU_RING_CFG.OWNER r) (l : List Nat) :
    ringsReset c' l = ringsReset c l := by
  unfold ringsReset
  simp only [h]

/-- Two resets of rings, one after the other, are one. -/
theorem Change.Of.ringsReset_cons {r : Nat} {l : List Nat} (hr : r ∉ l) (h : ((ringsReset c [r]).plus (ringsReset c l)).Of c c') :
    (ringsReset c (r :: l)).Of c c' := by
  have hkept : (ringsReset c [r]).regs.filter (fun e => !((ringsReset c l).resets.contains (e.1.fld.reg, e.1.idx)))
      = (ringsReset c [r]).regs := List.filter_eq_self.2 fun e he => by
    have hidx := List.mem_singleton.1 (mem_ringsReset_regs he).2
    simpa using fun hm => hr (hidx ▸ (mem_ringsReset_resets hm).2)
  have hregs : ∀ k, tabFind ((ringsReset c l).regs ++ (ringsReset c [r]).regs) k = tabFind (ringsReset c (r :: l)).regs k :=
    tabFind_append_comm fun e he e' he' hee => hr (by
      rw [← List.mem_singleton.1 (mem_ringsReset_regs he').2, ← hee]
      exact (mem_ringsReset_regs he).2)
  have hrings : ∀ i, tabFind ((ringsReset c l).rings ++ (ringsReset c [r]).rings) i = tabFind (ringsReset c (r :: l)).rings i :=
    tabFind_append_comm fun e he e' he' hee => hr (by
      obtain ⟨q, hq, rfl⟩ := List.mem_map.1 he
      obtain ⟨q', hq', rfl⟩ := List.mem_map.1 he'
      exact List.mem_singleton.1 hq' ▸ (show q = q' from hee) ▸ hq)
  have hresets : ∀ e, e ∈ (ringsReset c l).resets ++ (ringsReset c [r]).resets ↔ e ∈ (ringsReset c (r :: l)).resets := fun e => by
    rw [show (ringsReset c (r :: l)).resets = (ringsReset c [r]).resets ++ (ringsReset c l).resets from rfl, List.mem_append,
      List.mem_append, or_comm]
  exact
    { h with
      reg := fun f i => by
        rw [h.reg, Change.reg, Change.reg, ← hregs]
        simp only [Change.plus, hkept, hresets]
      ring := fun i => by
        rw [h.ring, ← hrings]
        rfl }

/-- Rings in DISABLED are reset one after another. -/
theorem Chip.foldl_resetRing {l : List Nat} (hl : l.Nodup) (hoff : ∀ r ∈ l, c.ringState r = rsDISABLED) :
    (ringsReset c l).Of c (l.foldl Chip.resetRing c) := by
  induction l generalizing c with
  | nil => exact Change.Of.refl c
  | cons r l ih =>
    obtain ⟨hr, hl⟩ := List.nodup_cons.1 hl
    have hone := c.ringRegs_of r
    have hrest : ∀ q ∈ l, (c.ringRegs r).ringState q = rsDISABLED := fun q hq =>
      (Chip.get_ringsReset hone (.inr fun he => hr (List.mem_singleton.1 he ▸ hq))).trans (hoff q (by simp [hq]))
    have hall := ih hl hrest
    rw [ringsReset_congr fun q => Chip.get_ringsReset hone (.inl (by decide))] at hall
    rw [List.foldl_cons, Chip.resetRing, if_pos (hoff r (by simp))]
    exact (hone.plus hall rfl).ringsReset_cons hr

end Rings

/-! ## A shutdown that finds nothing to stop -/

section Shutdown

variable {l : List (Key × Nat)} {d : Change} {c c' : Chip}

theorem Change.Of.setSeqState (h : d.Of c c') {st : Nat} (hst : st < 2 ^ DRG_SEQ_STAT.STATE.width) :
    ({ d with regs := seqRegs st ++ d.regs } : Change).Of c (c'.setSeqState st) :=
  (h.put_lt hst 0).put_lt (f := DRG_SEQ_STAT.STATE_MS) (Nat.two_pow_pos _) 0

/-- Fields of DRG_SEQ_STAT have been written, and nothing else. -/
structure StatusWritten (l : List (Key × Nat)) (c c' : Chip) : Prop where
  of : ({ regs := l } : Change).Of c c'
  status : ∀ e ∈ l, e.1.fld.reg = .DRG_SEQ_STAT

theorem StatusWritten.setSeqState (h : StatusWritten l c c') {st : Nat} (hst : st < 2 ^ DRG_SEQ_STAT.STATE.width) :
    StatusWritten (seqRegs st ++ l) c (c'.setSeqState st) where
  of := h.of.setSeqState hst
  status e he := (List.mem_append.1 he).elim (fun he => by
    simp only [seqRegs, List.mem_cons, List.not_mem_nil, or_false] at he
    obtain rfl | rfl := he <;> rfl) (h.status e)

theorem StatusWritten.get (h : StatusWritten l c c') {f : Fld} (hf : f.reg ≠ .DRG_SEQ_STAT) (i : Nat) : c'.get f i = c.get f i :=
  (h.of.reg f i).trans (Change.reg_of_ne rfl (fun e he hk => hf (by rw [← hk]; exact h.status e he)) i)

theorem StatusWritten.definedRings (h : StatusWritten l c c') : c'.definedRings = c.definedRings := by
  unfold Chip.definedRings Chip.on
  simp only [h.get (f := FLU_RING_CFG.DEFINED) (by simp)]

theorem StatusWritten.atRest (h : StatusWritten l c c') (hr : c.AtRest) : c'.AtRest := by
  obtain ⟨hsize, hphase, hslots, hrings⟩ := hr
  refine ⟨by rw [h.of.grp]; exact hsize, by rw [h.of.pmb]; exact hphase, fun n hn => ?_, fun r hr => ?_⟩
  · unfold Chip.slotState
    rw [h.get (by simp)]
    exact hslots n hn
  · rw [h.definedRings] at hr
    unfold Chip.ringState
    rw [h.get (by simp)]
    exact hrings r hr

/-- A device at rest in QUIESCE has its rings reset, and no rail waits for a retry any more: all that a shutdown does (R338). -/
theorem Chip.shutdown_eq (h : (c.setSeqState sqQUIESCE).AtRest) (trigger : Nat) {c2 : Chip}
    (h2 : (c.setSeqState sqQUIESCE).definedRings.foldl Chip.resetRing (c.setSeqState sqQUIESCE) = c2) :
    c.shutdown trigger = { c2 with seq := { c2.seq with retryWait := [], retrying := [] } } := by
  obtain ⟨hsize, hphase, hslots, -⟩ := h
  have hframe : (c.setSeqState sqQUIESCE).seqFrame 0x04 [trigger] = c.setSeqState sqQUIESCE := if_pos hsize
  have hbellows : (c.setSeqState sqQUIESCE).bellowsAbort 0xB = c.setSeqState sqQUIESCE := if_pos hphase
  have hstop : (c.setSeqState sqQUIESCE).forN 64 (fun c n => c.startDeact n .commanded cauWARMDEV) = c.setSeqState sqQUIESCE :=
    foldl_eq_self _ fun n hn => Chip.startDeact_inactive _ _ (hslots n hn)
  unfold Chip.shutdown
  dsimp only
  rw [hframe, hbellows, hstop, h2]

/-- The fields that say what follows a shutdown (R337, R339). -/
def pendFields : List Fld := [DRG_SEQ_STAT.UP_PEND, DRG_SEQ_STAT.COLD_PEND]

/-- A shutdown of a device at rest, once what follows it has been recorded. -/
theorem StatusWritten.shutdown (h : StatusWritten l c c') (hl : ∀ e ∈ l, e.1.fld ∈ pendFields) (hr : c.AtRest) (trigger : Nat) :
    ((quiesced c).plus { regs := l }).Of c (c'.shutdown trigger) := by
  have hquiet := h.setSeqState (st := sqQUIESCE) (by decide)
  obtain ⟨-, -, -, hoff⟩ := hquiet.atRest hr
  have hnodup : (c'.setSeqState sqQUIESCE).definedRings.Nodup := List.nodup_range.filter _
  have hrings := Chip.foldl_resetRing hnodup hoff
  generalize hc2 : (c'.setSeqState sqQUIESCE).definedRings.foldl Chip.resetRing (c'.setSeqState sqQUIESCE) = c2 at hrings
  rw [Chip.shutdown_eq (hquiet.atRest hr) trigger hc2]
  rw [hquiet.definedRings, ringsReset_congr fun r => hquiet.get (by simp) r] at hrings
  have hall := hquiet.of.plus hrings rfl
  have hseq : c2.seq = c.seq := hall.seq
  rw [hseq]
  have hkept : (seqRegs sqQUIESCE ++ l).filter (fun e => !((ringsReset c c.definedRings).resets.contains (e.1.fld.reg, e.1.idx)))
      = seqRegs sqQUIESCE ++ l := List.filter_eq_self.2 fun e he => by
    simpa [hquiet.status e he] using fun hm => absurd (mem_ringsReset_resets hm).1 (by simp [ringRegNames])
  refine ((hall.set_seq _).regs_find (l := ((quiesced c).plus { regs := l }).regs) fun k => ?_).change_eq ?_
  · have hstate : ∀ e ∈ seqRegs sqQUIESCE, ∀ e' ∈ l, e.1 ≠ e'.1 := fun e he e' he' hee => by
      have hp := hl e' he'
      rw [← hee] at hp
      simp only [seqRegs, List.mem_cons, List.not_mem_nil, or_false] at he
      obtain rfl | rfl := he <;> exact absurd hp (by decide)
    have hapart : ∀ e ∈ (ringsReset c c.definedRings).regs, ∀ e' ∈ seqRegs sqQUIESCE ++ l, e.1 ≠ e'.1 := fun e he e' he' hee => by
      have hreg := hquiet.status e' he'
      rw [← hee, (mem_ringsReset_regs he).1] at hreg
      cases hreg
    calc tabFind ((ringsReset c c.definedRings).regs ++ (seqRegs sqQUIESCE ++ l).filter _) k
        = tabFind ((ringsReset c c.definedRings).regs ++ (seqRegs sqQUIESCE ++ l)) k := by rw [hkept]
      _ = tabFind ((seqRegs sqQUIESCE ++ l) ++ (ringsReset c c.definedRings).regs) k := tabFind_append_comm hapart k
      _ = tabFind ((l ++ seqRegs sqQUIESCE) ++ (ringsReset c c.definedRings).regs) k := by
        rw [tabFind_append, tabFind_append_comm hstate, ← tabFind_append]
      _ = tabFind ((quiesced c).plus { regs := l }).regs k := by
        rw [Change.regs_plus rfl, quiesced, Change.regs_plus rfl, List.append_assoc]
  · simp [Change.plus, quiesced, ringsReset]

end Shutdown

/-! ## The bus of the regulators, and a rail that is powered up -/

section Rail

variable {c c' : Chip} {i : Nat}

/-- The first transaction goes on the bus where CK_LINK is locked (R34, R347). -/
theorem Chip.pmbGo_of (c : Chip) :
    ({ out := if c.seq.linkLock = true then c.pmb.txs.head?.toList.map c.pmbOut else [] } : Change).Of c c.pmbGo := by
  unfold Chip.pmbGo
  cases c.pmb.txs with
  | nil => simpa using Change.Of.refl c
  | cons t ts =>
    cases hlock : c.seq.linkLock with
    | false => simpa using Change.Of.refl c
    | true => simpa [Change.emit] using (Change.Of.refl c).emit (c.pmbOut t)

/-- Accesses wait behind those that wait already (R347). -/
theorem Chip.pmbAsk_of (c : Chip) (ts : List PmbTx) : (pmbWaits c (ts.flatMap c.pmbPaged)).Of c (c.pmbAsk ts) := by
  have hwait := (Change.Of.refl c).set_pmb { c.pmb with txs := c.pmb.txs ++ ts.flatMap c.pmbPaged }
  unfold Chip.pmbAsk
  dsimp only
  split
  · next hidle =>
    refine (hwait.plus (Chip.pmbGo_of _) rfl).change_eq ?_
    have hout : ∀ p : PmbX, ({ c with pmb := p } : Chip).pmbOut = c.pmbOut := fun _ => rfl
    simp [Change.plus, pmbWaits, hidle, hout]
  · next hbusy => exact hwait.change_eq (by simp [pmbWaits, hbusy])

/-- Whether PAGE goes before an access rests on the map of the regulators alone (R347). -/
theorem Chip.pmbPaged_congr (h : ∀ f j, c'.get f j = c.get f j) : c'.pmbPaged = c.pmbPaged := by
  funext t
  simp only [Chip.pmbPaged, h]

theorem Chip.pmbPaged_ne_nil (c : Chip) (t : PmbTx) : c.pmbPaged t ≠ [] := by
  unfold Chip.pmbPaged
  dsimp only
  split <;> simp

/-- Two accesses, one after the other, wait as the two together. -/
theorem Change.Of.pmbWaits_append {ts us : List PmbTx} {c1 : Chip} (h : (pmbWaits c ts).Of c c1) (h' : (pmbWaits c1 us).Of c1 c')
    (ht : ts ≠ []) : (pmbWaits c (ts ++ us)).Of c c' := by
  obtain ⟨t, ts, rfl⟩ := List.exists_cons_of_ne_nil ht
  have hpmb : c1.pmb = { c.pmb with txs := c.pmb.txs ++ t :: ts } := h.pmb
  refine (h.plus h' rfl).change_eq ?_
  simp [Change.plus, pmbWaits, hpmb]

/-- A regulator supplies the rail (R347). -/
def Chip.supplies (c : Chip) (i j : Nat) : Bool := c.on DRG_PMB_MAP.VALID j && decide (c.get DRG_PMB_MAP.RAIL j = i)

/-- OPERATION 0x80 to each regulator of a list that supplies the rail (R335). -/
theorem Chip.foldl_pmbOperation (c : Chip) (i : Nat) (l : List Nat) :
    (pmbWaits c ((l.filter (c.supplies i)).flatMap (fun j => c.pmbPaged (pmbPut j 0x01 [0x80])))).Of c
      (l.foldl (fun c j => if c.supplies i j then c.pmbOperation j 0x80 else c) c) := by
  induction l generalizing c with
  | nil => exact ((Change.Of.refl c).set_pmb c.pmb).change_eq (by simp [pmbWaits])
  | cons j l ih =>
    rw [List.foldl_cons]
    split
    · next hs =>
      have hone : (pmbWaits c (c.pmbPaged (pmbPut j 0x01 [0x80]))).Of c (c.pmbOperation j 0x80) :=
        (c.pmbAsk_of [pmbPut j 0x01 [0x80]]).change_eq (by simp)
      have hget : ∀ f n, (c.pmbOperation j 0x80).get f n = c.get f n := hone.reg
      have hsame : (c.pmbOperation j 0x80).supplies i = c.supplies i := by
        funext n
        simp only [Chip.supplies, Chip.on, hget]
      have hrest := ih (c.pmbOperation j 0x80)
      rw [hsame, Chip.pmbPaged_congr hget] at hrest
      rw [List.filter_cons_of_pos hs, List.flatMap_cons]
      exact hone.pmbWaits_append hrest (c.pmbPaged_ne_nil _)
    · next hs =>
      rw [List.filter_cons_of_neg hs]
      exact ih c

/-- What goes out before a rail's enable rises (R335). -/
theorem Chip.railTxs_of (c : Chip) (i : Nat) :
    (pmbWaits c (railTxs c i)).Of c
      (if c.seq.imaged then (List.range 24).foldl (fun c j => if c.supplies i j then c.pmbOperation j 0x80 else c) c else c) := by
  unfold railTxs
  split
  · exact c.foldl_pmbOperation i _
  · exact c.foldl_pmbOperation i []

/-- A rail's enable rises, after OPERATION 0x80 to each of its regulators (R331, R335). -/
theorem Chip.enHigh_of (c : Chip) (i : Nat) : (railOn c i).Of c (c.enHigh i) := by
  have hsent := c.railTxs_of i
  have hen := (hsent.putBit DRG_RAIL_EN.RAIL 0 i true).emit (.rail i true)
  rw [Chip.withBit_congr (c := c) (hsent.reg _ _)] at hen
  exact hen

end Rail

/-! ## RETRY -/

section Retry

variable {c : Chip} {i : Nat}

/-- RETRY of a failed rail powers it up at once, and it waits no longer for its retry (R343, R346). -/
theorem Chip.retryCmd_of (hi : i < 24) (hpg : c.railPg i = false) (hplan : c.inPlan i = true) (h1 : 1 ≤ c.seqState) (h4 : c.seqState ≤ 4)
    (hen : c.railEn i = false) (hfail : c.bit DRG_RAIL_FAIL.RAIL 0 i = true) :
    ({ railOn c i with
       seq := some { c.seq with
         retryWait := c.seq.retryWait.filter (fun r => decide (r ≠ i)), retrying := c.seq.retrying ++ [i] } } : Change).Of c
      (c.retryCmd i) := by
  have hwait := (Change.Of.refl c).set_seq
    { c.seq with retryWait := c.seq.retryWait.filter (fun r => decide (r ≠ i)), retrying := c.seq.retrying ++ [i] }
  have hcmd : c.retryCmd i = ({ c with seq := { c.seq with
      retryWait := c.seq.retryWait.filter (fun r => decide (r ≠ i)), retrying := c.seq.retrying ++ [i] } } : Chip).enHigh i := by
    unfold Chip.retryCmd
    rw [if_neg (by simp [hpg, hplan, sqOFF, sqQUIESCE]; omega), if_neg (by simp [hen, hfail])]
    unfold Chip.retryGo
    rw [if_pos ⟨by simp, by simpa [Chip.railEn, Chip.bit, Chip.get] using hen, h1, h4⟩]
    simp [List.filter_append]
  rw [hcmd]
  exact (hwait.plus (Chip.enHigh_of _ i) rfl).change_eq rfl

/-- A refusal of a command (R346, R379). -/
theorem Chip.seqRefused_of (c : Chip) :
    ({ regs := [(⟨DRG_SEQ_EVT.CMD_REFUSED, 0⟩, 1)], events := [⟨0x1C, blkDRG, 0, false⟩] } : Change).Of c
      (c.seqEvt DRG_SEQ_EVT.CMD_REFUSED) :=
  ((Change.Of.refl c).flag (f := DRG_SEQ_EVT.CMD_REFUSED) rfl 0 true).raise 0x1C blkDRG 0 false

end Retry

/-! ## O27: the commands of the sequencer -/

section Commands

variable {s : State} {p : Path}

/-- A write to Draught's command register acts there. -/
theorem Effect.of_drgWrite {i : Instr} {f : Chip → Chip} {d : Change} (ht : s.Takes p blkDRG true)
    (he : exec i s = .next (s.run fun c => c.drgWrite p f)) (h : d.Of s.chip (f s.chip)) : Effect i s d := by
  obtain ⟨hstill, hserved, hup⟩ := ht
  exact Effect.of_run he hstill (h.eq (Chip.hostWrite_taken hserved hup f))

/-- What is to follow a shutdown is recorded. -/
theorem StatusWritten.pend (c : Chip) {f : Fld} (hf : f ∈ pendFields) (b : Bool) :
    StatusWritten [(⟨f, 0⟩, b.toNat)] c (c.flag f 0 b) := by
  simp only [pendFields, List.mem_cons, List.not_mem_nil, or_false] at hf
  obtain rfl | rfl := hf <;> exact ⟨(Change.Of.refl c).flag rfl 0 b, by simp⟩

/-- The state of the sequencer is not part of that. -/
theorem Chip.seqState_pend (c : Chip) {f : Fld} (hf : f ∈ pendFields) (b : Bool) : (c.flag f 0 b).seqState = c.seqState :=
  Chip.get_put_ne _ _ _ _ _ _ (fun h => absurd (h.1 ▸ hf) (by decide))

theorem Chip.canDown_pend (c : Chip) {f : Fld} (hf : f ∈ pendFields) (b : Bool) : (c.flag f 0 b).canDown = c.canDown := by
  unfold Chip.canDown
  rw [c.seqState_pend hf]

theorem Effect.down_stops (ht : s.Takes p blkDRG true) (hdown : s.chip.canDown = true) (hrest : s.chip.AtRest) :
    Effect (.down p) s ((quiesced s.chip).plus { regs := [(⟨DRG_SEQ_STAT.UP_PEND, 0⟩, 0)] }) := by
  have hpend : DRG_SEQ_STAT.UP_PEND ∈ pendFields := by decide
  have hne : s.chip.seqState ≠ sqWAITSTART := fun h => by simp [Chip.canDown, h, sqWAITSTART, sqREDUCED] at hdown
  refine Effect.of_drgWrite ht rfl (((StatusWritten.pend s.chip hpend false).shutdown (by simp [pendFields]) hrest 2).eq ?_)
  unfold Chip.downCmd
  dsimp only
  rw [if_neg (by rwa [Chip.seqState_pend _ hpend]), if_pos (by rwa [Chip.canDown_pend _ hpend])]

theorem Effect.down_waiting (ht : s.Takes p blkDRG true) (hwait : s.chip.seqState = sqWAITSTART) :
    Effect (.down p) s { regs := seqRegs sqOFF ++ [(⟨DRG_SEQ_STAT.UP_PEND, 0⟩, 0)] } := by
  have hpend : DRG_SEQ_STAT.UP_PEND ∈ pendFields := by decide
  refine Effect.of_drgWrite ht rfl (((StatusWritten.pend s.chip hpend false).setSeqState (st := sqOFF) (by decide)).of.eq ?_)
  unfold Chip.downCmd
  dsimp only
  rw [if_pos (by rwa [Chip.seqState_pend _ hpend])]

theorem Effect.cold_stops (ht : s.Takes .spi blkDRG true) (hdown : s.chip.canDown = true) (hrest : s.chip.AtRest) :
    Effect (.cold .spi) s ((quiesced s.chip).plus { regs := [(⟨DRG_SEQ_STAT.COLD_PEND, 0⟩, 1)] }) := by
  have hpend : DRG_SEQ_STAT.COLD_PEND ∈ pendFields := by decide
  refine Effect.of_drgWrite (f := fun c => c.coldCmd .spi) ht rfl
    (((StatusWritten.pend s.chip hpend true).shutdown (by simp [pendFields]) hrest 3).eq ?_)
  unfold Chip.coldCmd
  dsimp only
  rw [if_neg (by simp), if_pos (by rwa [Chip.canDown_pend _ hpend])]

theorem Effect.up_off (ht : s.Takes p blkDRG true) (hoff : s.chip.seqState = sqOFF) (hsize : s.chip.grp.size = 0) :
    Effect (.up p) s { regs := [(⟨DRG_SEQ_STAT.UP_PEND, 0⟩, 1)] } := by
  have hpend : DRG_SEQ_STAT.UP_PEND ∈ pendFields := by decide
  refine Effect.of_drgWrite ht rfl ((StatusWritten.pend s.chip hpend true).of.eq ?_)
  have halone : (s.chip.flag DRG_SEQ_STAT.UP_PEND 0 true).alone = true := by
    simp [Chip.alone, Chip.flag, hsize]
  unfold Chip.upCmd
  dsimp only
  rw [if_neg (by rw [hoff]; decide), if_neg (by rw [Chip.seqState_pend _ hpend, hoff]; decide), Chip.seqWake, halone,
    if_neg (by rintro ⟨-, -, -, hgroup⟩; exact absurd hgroup (by decide))]

theorem Effect.up_running (ht : s.Takes p blkDRG true) (hrun : s.chip.seqState = sqRUNNING) : Effect (.up p) s {} :=
  Effect.of_drgWrite ht rfl ((Change.Of.refl _).eq (if_pos hrun))

/-- COLD from a host port, and RETRY of a rail that is good or does not exist, are refused (R343, R345, R346). -/
theorem Effect.seqRefused {i : Instr} {k : Fin 32} (ht : s.Takes p blkDRG true)
    (h : (i = .cold p ∧ p ≠ .spi) ∨ (i = .retry p k ∧ (24 ≤ k.val ∨ s.chip.railPg k = true))) :
    Effect i s { regs := [(⟨DRG_SEQ_EVT.CMD_REFUSED, 0⟩, 1)], events := [⟨0x1C, blkDRG, 0, false⟩] } := by
  obtain ⟨rfl, hp⟩ | ⟨rfl, hk⟩ := h
  · exact Effect.of_drgWrite (f := fun c => c.coldCmd p) ht rfl (s.chip.seqRefused_of.eq (if_pos hp))
  · exact Effect.of_drgWrite (f := fun c => c.retryCmd k) ht rfl (s.chip.seqRefused_of.eq (if_pos (hk.imp_right .inl)))

end Commands

/-- Settles O27: a shutdown of a device at rest resets its rings and enters QUIESCE, a retry is the rise of the rail's enable, and the other
commands write DRG_SEQ_STAT or are refused. -/
theorem sequencerCommands : Obligations.SequencerCommands := by
  unfold Obligations.SequencerCommands
  intro p s ht
  refine ⟨Effect.down_stops ht, Effect.down_waiting ht, ?_, Effect.up_off ht, Effect.up_running ht, ?_, fun i k => Effect.seqRefused ht⟩
  · rintro rfl
    exact Effect.cold_stops ht
  · intro i hi hpg hplan h1 h4 hen hfail
    exact Effect.of_drgWrite (f := fun c => c.retryCmd i) ht rfl (Chip.retryCmd_of hi hpg hplan h1 h4 hen hfail)

end Sys2Proof.Machine
end

section
/-! What every step keeps of the non-volatile stores: a burned bit of the OTP (R431), and the ring of the persistent journal (R394). -/

namespace Sys2Proof.Machine

/-! ## Burned bits -/

section Otp

variable {s t : State}

/-- Of all that the chip asks of the memories only a burn changes the OTP, and a burn clears no bit. -/
theorem State.OtpGrows.applyMem (h : s.OtpGrows t) (m : MemOp) : s.OtpGrows (t.applyMem m) := by
  cases m
  case burn w v => exact fun w' k hk => otpBurn_keeps t.otp w v w' k (h w' k hk)
  all_goals exact h

theorem State.OtpGrows.act (h : s.OtpGrows t) (f : Chip → Chip) : s.OtpGrows (t.act f) :=
  State.act_keeps s.OtpGrows (fun _ _ h => h) (fun _ m h => h.applyMem m) t f h

theorem State.OtpGrows.coldReset (h : s.OtpGrows t) : s.OtpGrows t.coldReset :=
  State.flush_keeps s.OtpGrows (fun _ _ h => h) (fun _ m h => h.applyMem m) _ h

end Otp

/-- Settles O56: actions and cold resets change the OTP by burns alone, and every step is a chain of those. -/
theorem burnedOtpStaysBurned : Obligations.BurnedOtpStaysBurned := fun s _ h =>
  step_keeps (P := s.OtpGrows) (fun _ f ht => ht.act f) (fun _ ht => ht.coldReset) (fun _ _ ht => ht) (fun _ _ hk => hk) h

/-! ## The persistent journal -/

section Journal

/-- The journal of two contents of the NVS is the same, and so is the place of its next record. -/
structure Nvs.SameJournal (v w : Nvs) : Prop where
  journal : w.journal = v.journal
  next : w.journalNext = v.journalNext

theorem Nvs.putVote_sameJournal (v : Nvs) (i x : Nat) : v.SameJournal (v.putVote i x) := ⟨rfl, rfl⟩

theorem Nvs.putWear_sameJournal (v : Nvs) (r : WearRec) : v.SameJournal (v.putWear r) := by
  unfold Nvs.putWear
  split
  case h_4 => split <;> exact ⟨rfl, rfl⟩
  all_goals exact ⟨rfl, rfl⟩

theorem Nvs.repairVotes_sameJournal (v : Nvs) : v.SameJournal v.repairVotes := by
  refine List.foldlRecOn (motive := v.SameJournal) _ _ ⟨rfl, rfl⟩ fun w hw i _ => ?_
  split
  · split
    · exact ⟨hw.journal, hw.next⟩
    · exact hw
  · exact hw

theorem mem_of_mem_tabPut {κ α : Type} [DecidableEq κ] [DecidableEq α] {rank : κ → Nat} {dflt : α} {t : List (κ × α)} {k : κ} {v : α}
    {e : κ × α} (h : e ∈ tabPut rank dflt t k v) : e = (k, v) ∨ e ∈ t := by
  unfold tabPut at h
  split at h
  · exact .inr (List.mem_of_mem_filter h)
  · exact ((mem_tabInsert rank k v _ e).1 h).imp_right List.mem_of_mem_filter

variable {s : State}

theorem State.JournalOk.of_same (h : s.JournalOk) {v : Nvs} (hv : s.nvs.SameJournal v) : ({ s with nvs := v } : State).JournalOk := by
  obtain ⟨hnext, hall⟩ := h
  exact ⟨hv.next ▸ hnext, hv.journal ▸ hall⟩

/-- A record goes to the next place of the ring, and the place after it stays in the ring. -/
theorem State.JournalOk.putJournal (h : s.JournalOk) (r : JrnRec) : ({ s with nvs := s.nvs.putJournal r } : State).JournalOk := by
  obtain ⟨hnext, hall⟩ := h
  refine ⟨Nat.mod_lt _ (by decide), fun e he => ?_⟩
  obtain rfl | he := mem_of_mem_tabPut he
  · exact hnext
  · exact hall e he

/-- An erased journal is empty and starts at its first place. -/
theorem State.JournalOk.erased (s : State) (w0 w1 : Option (Nat × WearRec)) :
    ({ s with nvs := { Nvs.init with wear0 := w0, wear1 := w1 } } : State).JournalOk :=
  ⟨Nat.succ_pos 4095, fun _ he => absurd he List.not_mem_nil⟩

theorem State.JournalOk.applyMem (h : s.JournalOk) (m : MemOp) : (s.applyMem m).JournalOk := by
  cases m
  case nvsJournal r => exact h.putJournal r
  case nvsVote i v => exact h.of_same (s.nvs.putVote_sameJournal i v)
  case nvsWear r => exact h.of_same (s.nvs.putWear_sameJournal r)
  case nvsErase keep => cases keep <;> exact .erased s _ _
  all_goals exact h

theorem State.JournalOk.coldReset (h : s.JournalOk) : s.coldReset.JournalOk :=
  State.flush_keeps State.JournalOk (fun _ _ h => h) (fun _ m h => h.applyMem m) _ (h.of_same s.nvs.repairVotes_sameJournal)

end Journal

/-- Settles O57: a record is the one change of the journal but for its erasure, and the repair of votes at a cold reset leaves it alone. -/
theorem journalStaysARing : Obligations.JournalStaysARing := fun _ _ hs h =>
  step_keeps (P := State.JournalOk)
    (fun s f hs => State.act_keeps State.JournalOk (fun _ _ h => h) (fun _ m h => h.applyMem m) s f hs)
    (fun _ hs => hs.coldReset) (fun _ _ h => h) hs h

/-! ## The queue -/

/-- Settles O53: a step is a match on the queue. -/
theorem stepTakesTheFrontCommand : Obligations.StepTakesTheFrontCommand :=
  ⟨fun _ _ _ => rfl, fun s hs => by unfold step; rw [hs]⟩

end Sys2Proof.Machine
end

section
/-! Statements about the mailbox, the host ports and the SPI that the model does not meet, each with the state that shows it. -/

namespace Sys2Proof.Machine

/-! ## O45: the request to the DRBG that a reseed follows -/

/-- The registers of the block below: PD16 is on, the DRBG generates, and the life-cycle state is Test. -/
def reseedDueRegs : Chip :=
  ((Chip.init.put DRG_DOM_STAT.UP 0 (2 ^ 16)).put CRD_STAT.DRBG_READY 0 1).put KLN_LC_WORD.VALUE 0 0xFF

theorem reseedDueRegs_idle : reseedDueRegs.Idle :=
  ((Chip.Idle.init.domainsOn (by decide +kernel)).put (by decide) _ _).put (by decide) _ _

/-- A block whose DRBG has had 2^16 − 1 requests since its last reseed. -/
def reseedDue : State :=
  { State.reset with chip := { reseedDueRegs with cord := { CordX.init with drbgReqs := 65535 } } }

/-- What the statement says of CHALLENGE there. -/
def reseedDueChallenged : Change :=
  { regs := (⟨KLN_DBG_STAT.CHAL_LIVE, 0⟩, 1) :: (mbxAnswer reseedDue.chip 1 stsOK [] true).regs,
    kln := some { reseedDue.chip.kln with
      mbx := ⟨bytesWords (Config.freeBytes reseedDue.chip.free 32), stsOK, true, true, false⟩,
      nonce := some (Config.freeBytes reseedDue.chip.free 32) },
    cord := some { reseedDue.chip.cord with drbgReqs := reseedDue.chip.cord.drbgReqs + 1 }, free := some (reseedDue.chip.free + 1) }

/-- The answer leaves BUSY at 0, as it was, and of Kiln it changes the window and the nonce alone: the block stays idle. -/
theorem reseedDueChallenged_idle {c' : Chip} (h : reseedDueChallenged.Of reseedDue.chip c') : c'.Idle := by
  have hi : reseedDue.chip.Idle := { reseedDueRegs_idle with }
  have hcalm : ({ reseedDueChallenged with
      regs := [(⟨KLN_DBG_STAT.CHAL_LIVE, 0⟩, 1), (⟨STK_MBX_STAT.OP, 0⟩, 1)], kln := none } : Change).Calm :=
    ⟨by decide, rfl, rfl, rfl, rfl, rfl, rfl, rfl, rfl, rfl, rfl, rfl⟩
  have hbusy : ∀ f i, reseedDueChallenged.reg reseedDue.chip f i =
      ({ reseedDueChallenged with
        regs := [(⟨KLN_DBG_STAT.CHAL_LIVE, 0⟩, 1), (⟨STK_MBX_STAT.OP, 0⟩, 1)], kln := none } : Change).reg reseedDue.chip f i :=
    fun f i => by
      by_cases hk : (⟨STK_MBX_STAT.BUSY, 0⟩ : Key) = ⟨f, i⟩
      · obtain ⟨rfl, rfl⟩ := (Key.mk_eq _ f 0 i).1 hk
        decide +kernel
      · simp [Change.reg, reseedDueChallenged, mbxAnswer, tabFind, hk]
  have hi' : ({ c' with kln := reseedDue.chip.kln } : Chip).Idle :=
    hi.of_calm hcalm { h with reg := fun f i => (h.reg f i).trans (hbusy f i), kln := rfl }
  have hkln := h.kln
  exact
    { hi' with
      lc := by rw [hkln]; rfl
      xfer := by rw [hkln]; rfl
      ovls := by rw [hkln]; rfl
      removals := by rw [hkln]; rfl }

/-- Refutes O45: the request that makes 2^16 since the last reseed is followed by one (R292), after which the DRBG has had none; the
statement has no hypothesis on how many there were, and counts one more. -/
theorem not_mailboxRequests : ¬ Obligations.MailboxRequests := by
  intro h
  obtain ⟨-, -, -, hchallenge, -⟩ := h.1 .spi reseedDue ⟨rfl, by decide +kernel, by decide +kernel⟩
  have he : Effect (.challenge .spi) reseedDue reseedDueChallenged :=
    hchallenge (by decide +kernel) (by decide +kernel) (by decide +kernel)
  obtain ⟨c', ho, hc⟩ := he.chip_of_leadsToRest rfl (fun _ ho => (reseedDueChallenged_idle ho).resting)
    (t := reseedDue.run fun c => c.mbxGo .spi 1 true Chip.challenge) rfl
  have hreseeded : (reseedDue.run fun c => c.mbxGo .spi 1 true Chip.challenge).chip.cord.drbgReqs = 0 := by decide +kernel
  have hcounted : c'.cord.drbgReqs = 65536 := congrArg CordX.drbgReqs ho.cord
  rw [hc] at hreseeded
  exact absurd (hreseeded.symm.trans hcounted) (by decide)

/-! ## O47: a ring in ERROR whose port serves again -/

/-- The registers of the block below: PD18 is on, the link of port A is up but not serving, and ring 0, which it owns, is in ERROR. -/
def errorRingRegs : Chip :=
  (((Chip.init.put DRG_DOM_STAT.UP 0 (2 ^ 18)).put FLU_HP_STAT.DL_UP 0 1).put FLU_RING_CFG.DEFINED 0 1).put FLU_RING_STAT.STATE 0 rsERROR

theorem errorRingRegs_idle : errorRingRegs.Idle :=
  (((Chip.Idle.init.domainsOn (by decide +kernel)).put (by decide) _ _).put (by decide) _ _).put (by decide) _ _

/-- An entry of ring 0 that has ended, with a place reserved for its completion. -/
def endedEntry : Entry := { Entry.held0 0 0 0 [] 0 with phase := .ended, cqReserved := true }

/-- Its completion waits for the port. -/
def errorRing : State := { State.reset with chip := { errorRingRegs with entries := [endedEntry] } }

theorem errorRing_resting : errorRing.chip.Resting :=
  { errorRingRegs_idle.resting with entries := by decide }

/-- Refutes O47: a port that serves again has the completions written that wait in its rings, those in ERROR too (R233, R237); the statement
excludes rings that are RUNNING or PAUSED alone, and leaves the entries as they were. -/
theorem not_hostPortLinks : ¬ Obligations.HostPortLinks := by
  intro h
  obtain ⟨-, -, -, -, -, -, -, -, hserves, -⟩ := h 0 errorRing rfl
  have he := hserves (by decide +kernel) (by decide +kernel) (by decide +kernel) (by decide +kernel) (by decide +kernel) (by decide +kernel)
    (by decide +kernel)
  obtain ⟨c', ho, hc⟩ := he.chip_of_leadsToRest rfl (fun _ ho => errorRing_resting.of_restful ho
      ⟨by decide +kernel, by decide, by decide, rfl, rfl, rfl, rfl, rfl, rfl, rfl, rfl, rfl⟩)
    (t := errorRing.run fun c => c.configChange 0 false true true) rfl
  have hwritten : (errorRing.run fun c => c.configChange 0 false true true).chip.entries = [] := by decide +kernel
  have hkept : c'.entries = [endedEntry] := ho.entries
  rw [hc] at hwritten
  exact absurd (hwritten.symm.trans hkept) (by decide)

/-! ## O51: a mailbox whose BUSY is wider than its field -/

/-- PD16 is on, and BUSY of STK_MBX_STAT holds 2, which its one bit cannot hold. -/
def wideBusy : State :=
  { State.reset with
    chip := { Chip.init with regs := (⟨STK_MBX_STAT.BUSY, 0⟩, 2) :: (Chip.init.put DRG_DOM_STAT.UP 0 (2 ^ 16)).regs } }

/-- The status byte shows the mailbox busy there, and nothing else. -/
theorem wideBusy_reply : wideBusy.spiAsk.chip.out = [.spiReply [0x20]] := by decide +kernel

/-- Refutes O51: the status byte shows a mailbox as busy where BUSY is not 0, so where the register holds 2, which no write leaves there but
which the statement admits, bit 5 of the byte is 1 and BUSY is not 1. -/
theorem not_spiStatusAndCrc : ¬ Obligations.SpiStatusAndCrc := by
  intro h
  obtain ⟨b, he, -, -, -, -, -, hbusy, -⟩ := h.1 wideBusy rfl rfl
  have hnext : wideBusy.spiAsk = _ := Host.Outcome.next.inj he
  have hreply : wideBusy.spiAsk.chip.out = [.spiReply [b]] := congrArg (fun t => t.chip.out) hnext
  obtain rfl : (0x20 : Byte) = b := by simpa using wideBusy_reply.symm.trans hreply
  obtain ⟨-, hone⟩ := hbusy.1 (by decide)
  exact absurd hone (by decide +kernel)

end Sys2Proof.Machine
end

section
/-! The ageing monitor and its planner (R371, R372, R377): what a measurement shows at its end, when it warns, and what a re-plan sets. -/

namespace Sys2Proof.Machine

/-! ## Changes said another way -/

section Same

variable {d : Change} {c c' : Chip}

/-- An entry may stand behind entries of other keys. -/
theorem tabFind_move {κ α : Type} [DecidableEq κ] {a : κ × α} {l : List (κ × α)} (h : ∀ e ∈ l, e.1 ≠ a.1) (m : List (κ × α)) (k : κ) :
    tabFind (a :: (l ++ m)) k = tabFind (l ++ a :: m) k := by
  rw [tabFind, tabFind_append, tabFind_append, tabFind]
  by_cases ha : a.1 = k
  · rw [tabFind_eq_none fun e he hk => h e he (hk.trans ha.symm)]
    simp [ha]
  · simp [ha]

/-- A field may be named with the value that it has. -/
theorem Change.Of.named (h : d.Of c c') (f : Fld) (i : Nat) : ({ d with regs := (⟨f, i⟩, c'.get f i) :: d.regs } : Change).Of c c' :=
  { h with
    reg := fun g j => by
      unfold Change.reg
      rw [tabFind]
      by_cases hk : (⟨f, i⟩ : Key) = ⟨g, j⟩
      · obtain ⟨rfl, rfl⟩ := (Key.mk_eq f g i j).1 hk
        simp
      · rw [if_neg hk]
        exact h.reg g j }

end Same

/-! ## A measurement starts -/

section Start

variable {d : Change} {c c' : Chip}

theorem Change.Of.measStart (h : d.Of c c') :
    ({ d with
        regs := (⟨DRG_AGE_STAT.MEAS_REQ, 0⟩, 0) :: (⟨DRG_AGE_STAT.MEAS_BUSY, 0⟩, 1) :: d.regs,
        wear := some { c'.wear with measRun := true } } : Change).Of c c'.measStart :=
  ((h.flag rfl 0 true).flag rfl 0 false).set_wear _

theorem Chip.domUp_measReq (c : Chip) (b : Bool) (k : Nat) : (c.flag DRG_AGE_STAT.MEAS_REQ 0 b).domUp k = c.domUp k := by
  unfold Chip.domUp Chip.bit
  rw [Chip.flag_eq, Chip.get_put_ne _ _ _ _ _ _ (by simp)]

/-- MEAS_REQ of a block where nothing hinders the measurement is met at once. -/
theorem Change.Of.measWrite_starts (hrun : c.wear.measRun = false) (hup : c.domUp 16 = true) :
    ({ regs := [(⟨DRG_AGE_STAT.MEAS_REQ, 0⟩, 0), (⟨DRG_AGE_STAT.MEAS_BUSY, 0⟩, 1)],
       wear := some { c.wear with measRun := true } } : Change).Of c c.measWrite := by
  have hset := ((Change.Of.refl c).flag (f := DRG_AGE_STAT.MEAS_REQ) rfl 0 true).measStart.regs_find
    (l := [(⟨DRG_AGE_STAT.MEAS_REQ, 0⟩, 0), (⟨DRG_AGE_STAT.MEAS_BUSY, 0⟩, 1)])
    (tabFind_shadowed (κ := Key) (α := Nat) (l := [(⟨DRG_AGE_STAT.MEAS_REQ, 0⟩, 0), (⟨DRG_AGE_STAT.MEAS_BUSY, 0⟩, 1)])
      (m := [(⟨DRG_AGE_STAT.MEAS_REQ, 0⟩, 1)]) (by simp [tabFind]) [])
  refine hset.eq ?_
  unfold Chip.measWrite Chip.measAsk
  rw [if_neg (by rw [Chip.domUp_measReq, hup]; simpa using hrun)]

/-- Where a measurement runs, or PD16 is off, the request stands. -/
theorem Change.Of.measWrite_waits (h : c.wear.measRun = true ∨ c.domUp 16 = false) :
    ({ regs := [(⟨DRG_AGE_STAT.MEAS_REQ, 0⟩, 1)] } : Change).Of c c.measWrite := by
  refine ((Change.Of.refl c).flag (f := DRG_AGE_STAT.MEAS_REQ) rfl 0 true).eq ?_
  unfold Chip.measWrite Chip.measAsk
  rw [if_pos (by rw [Chip.domUp_measReq]; simpa using h)]

end Start

/-! ## What a measurement shows -/

/-- The registers that the end of a measurement and a re-plan write (R372, R377). -/
def plannerRegs : List RegName := [.DRG_AGE_STAT, .DRG_PLAN_STAT, .DRG_WEAR_STAT, .FLU_LANE_TMO, .HTH_BANK_LEGLIM]

/-- A change of these registers and of the wear part. -/
structure Change.Planned (d : Change) : Prop where
  resets : d.resets = []
  regs : ∀ e ∈ d.regs, e.1.fld.reg ∈ plannerRegs
  base : d.base = none

section Shown

variable {d : Change} {c c' : Chip}

theorem Change.Planned.get (hd : d.Planned) (h : d.Of c c') {f : Fld} (hf : f.reg ∉ plannerRegs) (i : Nat) : c'.get f i = c.get f i :=
  (h.reg f i).trans (Change.reg_of_ne hd.resets (fun e he hk => hf (by rw [← hk]; exact hd.regs e he)) i)

theorem Change.Planned.domUp (hd : d.Planned) (h : d.Of c c') (k : Nat) : c'.domUp k = c.domUp k := by
  unfold Chip.domUp Chip.bit
  rw [hd.get h (by decide)]

/-- The on-resistances of a bank lie in registers of the slots, and their baselines in the OTP. -/
theorem Change.Planned.legRatios (hd : d.Planned) (h : d.Of c c') (b : Nat) : c'.legRatios b = c.legRatios b := by
  have hbase : ∀ k, c'.baseline k = c.baseline k := fun k => by
    unfold Chip.baseline
    rw [h.base, hd.base]
    rfl
  have hsub : ∀ n k, c'.bit HTH_LEG_STAT.RICK_SUB n k = c.bit HTH_LEG_STAT.RICK_SUB n k := fun n k => by
    unfold Chip.bit; rw [hd.get h (by decide)]
  have hret : ∀ n k, c'.bit HTH_LEG_STAT.LEG_RET n k = c.bit HTH_LEG_STAT.LEG_RET n k := fun n k => by
    unfold Chip.bit; rw [hd.get h (by decide)]
  have hron : ∀ (low : Bool) i, c'.get (if low then HTH_LEG_RON.LO_RON else HTH_LEG_RON.HI_RON) i
      = c.get (if low then HTH_LEG_RON.LO_RON else HTH_LEG_RON.HI_RON) i := fun low i => by
    cases low <;> exact hd.get h (by decide) i
  simp only [Chip.legRatios, hbase, hsub, hret, hron]

/-- The drifts and the worst monitor show, and no measurement runs any more. -/
def driftsShown (c : Chip) (a b worst : Nat) : Change :=
  { regs := [(⟨DRG_AGE_STAT.MEAS_BUSY, 0⟩, 0), (⟨DRG_AGE_STAT.WORST_DM, 0⟩, worst), (⟨DRG_AGE_STAT.DRIFT17, 0⟩, b),
      (⟨DRG_AGE_STAT.DRIFT16, 0⟩, a)],
    wear := some { c.wear with measRun := false, writePend := true } }

theorem driftsShown_planned (c : Chip) (a b worst : Nat) : (driftsShown c a b worst).Planned :=
  ⟨rfl, by simp [driftsShown, plannerRegs], rfl⟩

def Chip.showDrifts (c : Chip) (a b worst : Nat) : Chip :=
  { (((c.put DRG_AGE_STAT.DRIFT16 0 a).put DRG_AGE_STAT.DRIFT17 0 b).put DRG_AGE_STAT.WORST_DM 0 worst).flag DRG_AGE_STAT.MEAS_BUSY 0 false with
    wear := { c.wear with measRun := false, writePend := true } }

variable {a b worst : Nat}

theorem Chip.showDrifts_of (c : Chip) (ha : a ≤ 255) (hb : b ≤ 255) (hw : worst < 24) :
    (driftsShown c a b worst).Of c (c.showDrifts a b worst) :=
  (((((Change.Of.refl c).put_lt (f := DRG_AGE_STAT.DRIFT16) (Nat.lt_succ_of_le ha) 0).put_lt (f := DRG_AGE_STAT.DRIFT17)
    (Nat.lt_succ_of_le hb) 0).put_lt (f := DRG_AGE_STAT.WORST_DM) (hw.trans (by decide)) 0).flag rfl 0 false).set_wear _

/-! ## WEAR_WARN -/

/-- A drift exceeds DRIFT_MAX. -/
def Chip.worn (c : Chip) : Bool :=
  decide (c.get DRG_AGE_CFG.DRIFT_MAX 0 < c.get DRG_AGE_STAT.DRIFT16 0) ||
    decide (c.get DRG_AGE_CFG.DRIFT_MAX 0 < c.get DRG_AGE_STAT.DRIFT17 0)

theorem Change.Of.wearWarn_quiet (h : d.Of c c') (hq : c'.worn = false ∨ c'.wear.warned = true) :
    ({ d with regs := (⟨DRG_WEAR_STAT.WEAR_WARN, 0⟩, c'.worn.toNat) :: d.regs } : Change).Of c c'.wearWarn := by
  refine (h.flag (f := DRG_WEAR_STAT.WEAR_WARN) rfl 0 c'.worn).eq ?_
  unfold Chip.wearWarn
  dsimp only
  rw [if_neg]
  · rfl
  · obtain hq | hq := hq
    · rw [show (_ || _) = false from hq]
      simp
    · simp [hq]

/-- The first time in a power-up Ash hears of it (R372). -/
theorem Change.Of.wearWarn_first (h : d.Of c c') (hworn : c'.worn = true) (hnew : c'.wear.warned = false) :
    ({ d with
        regs := (⟨DRG_WEAR_STAT.WEAR_WARN, 0⟩, c'.worn.toNat) :: d.regs, wear := some { c'.wear with warned := true },
        events := d.events ++ [⟨0x0C,
          if c'.get DRG_AGE_CFG.DRIFT_MAX 0 < c'.get DRG_AGE_STAT.DRIFT16 0 then 16 else 17, 0, false⟩] } : Change).Of c c'.wearWarn := by
  refine (((h.flag (f := DRG_WEAR_STAT.WEAR_WARN) rfl 0 c'.worn).set_wear { c'.wear with warned := true }).raise 0x0C
    (if c'.get DRG_AGE_CFG.DRIFT_MAX 0 < c'.get DRG_AGE_STAT.DRIFT16 0 then 16 else 17) 0 false).eq ?_
  unfold Chip.wearWarn
  dsimp only
  rw [if_pos]
  · simp only [decide_eq_true_eq]
    rfl
  · rw [show (_ || _) = true from hworn]
    simp [hnew]

end Shown

/-! ## The leg factors of a bank -/

section Factors

variable {d : Change} {c c' : Chip} {k : Nat}

/-- The leg factors that a re-plan gives a bank: from the median ratio of its on-resistances, or those it has (R372, log entry 27). -/
def Chip.factors (c : Chip) (b : Nat) : Nat × Nat :=
  match fracMedian (c.legRatios b) with
  | some (p, q) => (clampNat 20 32 ((32 * p + 16 * q + q) / (2 * q)), clampNat 4 12 ((16 * p + q) / (2 * q)))
  | none => (c.get HTH_BANK_LEGLIM.HI_FACTOR b, c.get HTH_BANK_LEGLIM.LO_FACTOR b)

theorem clampNat_le {lo hi : Nat} (h : lo ≤ hi) (v : Nat) : clampNat lo hi v ≤ hi := max_le h (min_le_left hi v)

theorem Change.Of.planBank (h : d.Of c c') (hup : c'.domUp k = true) :
    ({ d with
        regs := (⟨HTH_BANK_LEGLIM.LO_FACTOR, k⟩, (c'.factors k).2) :: (⟨HTH_BANK_LEGLIM.HI_FACTOR, k⟩, (c'.factors k).1) :: d.regs } :
      Change).Of c (c'.planBank k) := by
  unfold Chip.planBank Chip.factors
  rw [if_neg (by simp [hup])]
  cases fracMedian (c'.legRatios k) with
  | none => exact (h.named HTH_BANK_LEGLIM.HI_FACTOR k).named HTH_BANK_LEGLIM.LO_FACTOR k
  | some m =>
    exact (h.put_lt (f := HTH_BANK_LEGLIM.HI_FACTOR) ((clampNat_le (by decide) _).trans_lt (by decide)) k).put_lt
      (f := HTH_BANK_LEGLIM.LO_FACTOR) ((clampNat_le (by decide) _).trans_lt (by decide)) k

theorem Chip.planBank_none (h : c.domUp k = false ∨ c.legRatios k = []) : c.planBank k = c := by
  unfold Chip.planBank
  split
  · rfl
  · next hup =>
    obtain h | h := h
    · simp [h] at hup
    · rw [h]
      rfl

/-- Among banks of which one alone is up, that one gets its factors. -/
theorem Chip.foldl_planBank {l : List Nat} (hl : l.Nodup) (hk : k ∈ l) (h : ∀ i ∈ l, i = k ∨ c.domUp i = false) :
    l.foldl Chip.planBank c = c.planBank k := by
  induction l with
  | nil => cases hk
  | cons i l ih =>
    obtain ⟨hi, hl⟩ := List.nodup_cons.1 hl
    have hrest : ∀ j ∈ l, j = k ∨ c.domUp j = false := fun j hj => h j (List.mem_cons_of_mem i hj)
    rw [List.foldl_cons]
    by_cases hik : i = k
    · subst hik
      have hdown : ∀ j ∈ l, (c.planBank i).planBank j = c.planBank i := fun j hj => Chip.planBank_none (.inl (by
        have hj' := (hrest j hj).resolve_left fun he => hi (he ▸ hj)
        by_cases hup : c.domUp i = true
        · have hof := (Change.Of.refl c).planBank hup
          exact (Change.Planned.domUp ⟨rfl, by simp [plannerRegs], rfl⟩ hof j).trans hj'
        · rwa [Chip.planBank_none (.inl (by simpa using hup))]))
      exact foldl_eq_self l hdown
    · rw [Chip.planBank_none (.inl ((h i List.mem_cons_self).resolve_left hik))]
      exact ih hl ((List.mem_cons.1 hk).resolve_left (Ne.symm hik)) hrest

end Factors

/-! ## A re-plan -/

/-- Half a unit of TGT rounds as a free value (log entry 27): what it adds, and the chip that has drawn it. -/
def Chip.planHalf (c : Chip) (a b : Nat) : Nat := if max a b % 2 = 1 then c.freeVal % 2 else 0
def Chip.planRounded (c : Chip) (a b : Nat) : Chip := if max a b % 2 = 1 then c.draw else c

/-- TGT and the timeout of the lanes are set, with PD16 up. -/
def Chip.planTimes (c : Chip) (a b half : Nat) : Chip :=
  (c.put DRG_PLAN_STAT.TGT 0 (min 255 (c.get DRG_AVS_CFG.TGT_BASE 0 + (max a b / 2 + half)))).put FLU_LANE_TMO.TMO 0
    (min 255 ((c.get DRG_AGE_CFG.TMO_BASE 0 * 5 * (1000 + a) + 3999) / 4000))

/-- The re-plan is counted, and the drifts that it was made for are kept. -/
def Chip.planEnd (c : Chip) (a b : Nat) : Chip :=
  { c.incWrap DRG_PLAN_STAT.REPLANS 0 with wear := { c.wear with lastPlan16 := a, lastPlan17 := b } }

/-- A re-plan in its parts: the rounding, the target and the timeout, the leg factors, and the end. -/
theorem Chip.replan_eq (c : Chip) {a b : Nat} (ha : c.get DRG_AGE_STAT.DRIFT16 0 = a) (hb : c.get DRG_AGE_STAT.DRIFT17 0 = b)
    (hup : c.domUp 16 = true) :
    c.replan = ((List.range 16).foldl Chip.planBank ((c.planRounded a b).planTimes a b (c.planHalf a b))).planEnd a b := by
  have hput : ∀ (c : Chip) v, c.domUp 16 = true → (c.put DRG_PLAN_STAT.TGT 0 v).domUp 16 = true := fun c v h => by
    unfold Chip.domUp Chip.bit at *
    rwa [Chip.get_put_ne _ _ _ _ _ _ (by simp)]
  have hget : ∀ (c : Chip) v, (c.put DRG_PLAN_STAT.TGT 0 v).get DRG_AGE_CFG.TMO_BASE 0 = c.get DRG_AGE_CFG.TMO_BASE 0 := fun c v =>
    Chip.get_put_ne _ _ _ _ _ _ (by simp)
  unfold Chip.replan Chip.planRounded Chip.planHalf
  dsimp only
  rw [ha, hb]
  split
  · rw [if_pos (hput c.draw _ hup), hget c.draw, Nat.add_assoc (c.draw.get _ _)]
    rfl
  · rw [if_pos (hput c _ hup), hget c, Nat.add_assoc (c.get _ _)]
    rfl

/-- The drifts show, and half a unit of TGT is rounded. -/
def driftsRounded (c : Chip) (a b worst : Nat) : Change :=
  { driftsShown c a b worst with free := if max a b % 2 = 1 then some (c.free + 1) else none }

/-- The drifts show, and TGT and the timeout of the lanes are set for them (R372). -/
def timesPlanned (c : Chip) (a b worst : Nat) : Change :=
  { driftsRounded c a b worst with
    regs := (⟨FLU_LANE_TMO.TMO, 0⟩, min 255 ((c.get DRG_AGE_CFG.TMO_BASE 0 * 5 * (1000 + a) + 3999) / 4000)) ::
      (⟨DRG_PLAN_STAT.TGT, 0⟩, min 255 (c.get DRG_AVS_CFG.TGT_BASE 0 + (max a b / 2 + c.planHalf a b))) :: (driftsRounded c a b worst).regs }

/-- And the re-plan ends, with these leg factors. -/
def replanned (c : Chip) (a b worst : Nat) (legs : List (Key × Nat)) : Change :=
  { timesPlanned c a b worst with
    regs := legs ++ (⟨DRG_PLAN_STAT.REPLANS, 0⟩, (c.get DRG_PLAN_STAT.REPLANS 0 + 1) % 256) :: (timesPlanned c a b worst).regs,
    wear := some { c.wear with measRun := false, writePend := true, lastPlan16 := a, lastPlan17 := b } }

theorem driftsRounded_planned (c : Chip) (a b worst : Nat) : (driftsRounded c a b worst).Planned :=
  ⟨rfl, (driftsShown_planned c a b worst).regs, rfl⟩

theorem timesPlanned_planned (c : Chip) (a b worst : Nat) : (timesPlanned c a b worst).Planned :=
  ⟨rfl, by simp [timesPlanned, driftsRounded, driftsShown, plannerRegs], rfl⟩

section Replan

variable {c : Chip} {a b worst : Nat} (ha : a ≤ 255) (hb : b ≤ 255) (hw : worst < 24)
include ha hb hw

theorem Chip.planTimes_of :
    (timesPlanned c a b worst).Of c (((c.showDrifts a b worst).planRounded a b).planTimes a b (c.planHalf a b)) := by
  have hround : (driftsRounded c a b worst).Of c ((c.showDrifts a b worst).planRounded a b) := by
    unfold Chip.planRounded driftsRounded
    split
    · exact (c.showDrifts_of ha hb hw).set_free (c.free + 1)
    · exact c.showDrifts_of ha hb hw
  have hkept := fun {f : Fld} (hf : f.reg ∉ plannerRegs) => (driftsRounded_planned c a b worst).get hround hf 0
  have htimes := (hround.put_lt (f := DRG_PLAN_STAT.TGT)
    (v := min 255 (c.get DRG_AVS_CFG.TGT_BASE 0 + (max a b / 2 + c.planHalf a b))) (Nat.lt_succ_of_le (min_le_left _ _)) 0).put_lt
    (f := FLU_LANE_TMO.TMO) (v := min 255 ((c.get DRG_AGE_CFG.TMO_BASE 0 * 5 * (1000 + a) + 3999) / 4000))
    (Nat.lt_succ_of_le (min_le_left _ _)) 0
  exact htimes.eq (by unfold Chip.planTimes; rw [hkept (by decide), hkept (by decide)])

/-- The drifts that show are those of the measurement. -/
theorem Chip.get_showDrifts :
    (c.showDrifts a b worst).get DRG_AGE_STAT.DRIFT16 0 = a ∧ (c.showDrifts a b worst).get DRG_AGE_STAT.DRIFT17 0 = b := by
  have h := c.showDrifts_of ha hb hw
  rw [h.reg, h.reg]
  constructor <;> simp [Change.reg, driftsShown, tabFind]

/-- A re-plan whose leg factors are these. -/
theorem Chip.replan_of (hup : c.domUp 16 = true) {legs : List (Key × Nat)}
    (hlegs : ({ timesPlanned c a b worst with regs := legs ++ (timesPlanned c a b worst).regs } : Change).Of c
      ((List.range 16).foldl Chip.planBank (((c.showDrifts a b worst).planRounded a b).planTimes a b (c.planHalf a b))))
    (hn : ∀ r ∈ legs, r.1.fld ≠ DRG_PLAN_STAT.REPLANS) :
    (replanned c a b worst legs).Of c (c.showDrifts a b worst).replan := by
  obtain ⟨hga, hgb⟩ := Chip.get_showDrifts (c := c) ha hb hw
  have hshown := c.showDrifts_of ha hb hw
  rw [Chip.replan_eq _ hga hgb (((driftsShown_planned c a b worst).domUp hshown 16).trans hup),
    show (c.showDrifts a b worst).planHalf a b = c.planHalf a b from rfl]
  generalize ((List.range 16).foldl Chip.planBank _) = c2 at hlegs ⊢
  have htimes : ∀ r ∈ (timesPlanned c a b worst).regs, r.1.fld ≠ DRG_PLAN_STAT.REPLANS := by
    simp [timesPlanned, driftsRounded, driftsShown]
  have hcount : c2.get DRG_PLAN_STAT.REPLANS 0 = c.get DRG_PLAN_STAT.REPLANS 0 := (hlegs.reg _ _).trans (Change.reg_of_ne rfl (fun r hr =>
    (List.mem_append.1 hr).elim (hn r) (htimes r)) 0)
  have hend := (hlegs.put DRG_PLAN_STAT.REPLANS 0 (c.get DRG_PLAN_STAT.REPLANS 0 + 1)).set_wear
    { c2.wear with lastPlan16 := a, lastPlan17 := b }
  rw [hlegs.wear] at hend
  exact (hend.regs_find (tabFind_move (fun e he hk => hn e he (congrArg Key.fld hk)) _)).eq
    (by unfold Chip.planEnd Chip.incWrap; rw [hcount, hlegs.wear])

/-- A re-plan where no bank that is up has been measured. -/
theorem Chip.replan_of_none (hup : c.domUp 16 = true) (h : ∀ k ∈ List.range 16, c.domUp k = false ∨ c.legRatios k = []) :
    (replanned c a b worst []).Of c (c.showDrifts a b worst).replan := by
  have htimes := Chip.planTimes_of (c := c) ha hb hw
  have hd := timesPlanned_planned c a b worst
  refine Chip.replan_of ha hb hw hup (htimes.eq (foldl_eq_self _ fun k hk => Chip.planBank_none ?_)) (by simp)
  rw [hd.domUp htimes, hd.legRatios htimes]
  exact h k hk

/-- A re-plan where one bank is up. -/
theorem Chip.replan_of_bank (hup : c.domUp 16 = true) {k : Nat} (hk : k < 16) (hon : c.domUp k = true)
    (h : ∀ i ∈ List.range 16, i = k ∨ c.domUp i = false) :
    (replanned c a b worst [(⟨HTH_BANK_LEGLIM.HI_FACTOR, k⟩, (c.factors k).1), (⟨HTH_BANK_LEGLIM.LO_FACTOR, k⟩, (c.factors k).2)]).Of c
      (c.showDrifts a b worst).replan := by
  have htimes := Chip.planTimes_of (c := c) ha hb hw
  have hd := timesPlanned_planned c a b worst
  have hkept : ∀ f : Fld, f.reg = .HTH_BANK_LEGLIM → (((c.showDrifts a b worst).planRounded a b).planTimes a b (c.planHalf a b)).get f k = c.get f k :=
    fun f hf => (htimes.reg f k).trans (Change.reg_of_ne rfl (by
      rintro e he rfl
      revert hf
      revert e
      simp [timesPlanned, driftsRounded, driftsShown]) k)
  have hbank := htimes.planBank ((hd.domUp htimes k).trans hon)
  unfold Chip.factors at hbank
  rw [hd.legRatios htimes, hkept _ rfl, hkept _ rfl] at hbank
  refine Chip.replan_of ha hb hw hup ((hbank.regs_find fun j => ?_).eq (Chip.foldl_planBank List.nodup_range (List.mem_range.2 hk)
    fun i hi => (h i hi).imp_right (hd.domUp htimes i).trans)) (by simp)
  exact tabFind_move (l := [_]) (by simp) _ j

end Replan

/-! ## The end of a measurement -/

/-- A drift is 0.5 % or more away from that of the last plan (R372). -/
def Chip.driftFar (c : Chip) (a b : Nat) : Bool :=
  (decide (a + 5 ≤ c.wear.lastPlan16) || decide (c.wear.lastPlan16 + 5 ≤ a)) ||
    (decide (b + 5 ≤ c.wear.lastPlan17) || decide (c.wear.lastPlan17 + 5 ≤ b))

/-- What the drifts that show lead to, before WEAR_WARN follows them. -/
def Chip.driftsPlanned (c : Chip) (a b worst : Nat) : Chip :=
  if c.driftFar a b then (c.showDrifts a b worst).replan else c.showDrifts a b worst

theorem Chip.driftsPlanned_near {c : Chip} {a b worst : Nat} (h : c.driftFar a b = false) :
    c.driftsPlanned a b worst = c.showDrifts a b worst := if_neg (by simp [h])

theorem Chip.driftsPlanned_far {c : Chip} {a b worst : Nat} (h : c.driftFar a b = true) :
    c.driftsPlanned a b worst = (c.showDrifts a b worst).replan := if_pos h

theorem Chip.measDone_eq {c : Chip} (hrun : c.wear.measRun = true) (d16 d17 : Int) (worst : Nat) {c2 : Chip}
    (h2 : c2 = (c.driftsPlanned (min 255 d16.toNat) (min 255 d17.toNat) worst).wearWarn) :
    c.measDone d16 d17 worst = if c2.on DRG_AGE_STAT.MEAS_REQ 0 && c2.domUp 16 then c2.measStart else c2 := by
  subst h2
  unfold Chip.measDone
  rw [if_neg (by simp [hrun])]
  rfl

/-- WEAR_WARN is what the drifts of a measurement and DRIFT_MAX say. -/
theorem Change.Planned.worn {d : Change} {c c' : Chip} {a b : Nat} (hd : d.Planned) (h : d.Of c c')
    (ha : c'.get DRG_AGE_STAT.DRIFT16 0 = a) (hb : c'.get DRG_AGE_STAT.DRIFT17 0 = b) :
    c'.worn = decide (c.get DRG_AGE_CFG.DRIFT_MAX 0 < a ∨ c.get DRG_AGE_CFG.DRIFT_MAX 0 < b) := by
  unfold Chip.worn
  rw [hd.get h (by decide), ha, hb, Bool.decide_or]

/-- A measurement ends with a re-plan that gives banks these leg factors. -/
def measReplanned (c : Chip) (a b worst : Nat) (w : Bool) (legs : List (Key × Nat)) : Change :=
  { replanned c a b worst legs with
    regs := legs ++ [(⟨DRG_PLAN_STAT.REPLANS, 0⟩, (c.get DRG_PLAN_STAT.REPLANS 0 + 1) % 256),
        (⟨FLU_LANE_TMO.TMO, 0⟩, min 255 ((c.get DRG_AGE_CFG.TMO_BASE 0 * 5 * (1000 + a) + 3999) / 4000)),
        (⟨DRG_PLAN_STAT.TGT, 0⟩, min 255 (c.get DRG_AVS_CFG.TGT_BASE 0 + (max a b / 2 + c.planHalf a b)))] ++
      (⟨DRG_WEAR_STAT.WEAR_WARN, 0⟩, w.toNat) :: (driftsShown c a b worst).regs }

/-- The registers of a list are leg factors of banks. -/
def LegFactors (legs : List (Key × Nat)) : Prop := ∀ e ∈ legs, e.1.fld.reg = .HTH_BANK_LEGLIM

theorem LegFactors.ne {legs : List (Key × Nat)} (h : LegFactors legs) {f : Fld} (hf : f.reg ≠ .HTH_BANK_LEGLIM) :
    ∀ e ∈ legs, e.1.fld ≠ f := fun e he hk => hf (hk ▸ h e he)

theorem replanned_planned (c : Chip) (a b worst : Nat) {legs : List (Key × Nat)} (hlegs : LegFactors legs) :
    (replanned c a b worst legs).Planned where
  resets := rfl
  base := rfl
  regs e he := by
    obtain he | he := List.mem_append.1 he
    · simp [hlegs e he, plannerRegs]
    · obtain rfl | he := List.mem_cons.1 he
      · simp [plannerRegs]
      · exact (timesPlanned_planned c a b worst).regs e he

/-- A re-plan leaves the drifts as they show. -/
theorem get_replanned {c c' : Chip} {a b worst : Nat} {legs : List (Key × Nat)} (hlegs : LegFactors legs)
    (h : (replanned c a b worst legs).Of c c') :
    c'.get DRG_AGE_STAT.DRIFT16 0 = a ∧ c'.get DRG_AGE_STAT.DRIFT17 0 = b := by
  have hnone : ∀ f : Fld, f.reg ≠ .HTH_BANK_LEGLIM → tabFind legs ⟨f, 0⟩ = none := fun f hf =>
    tabFind_eq_none fun e he hk => hlegs.ne hf e he (congrArg Key.fld hk)
  rw [h.reg, h.reg]
  constructor <;>
    simp [Change.reg, replanned, timesPlanned, driftsRounded, driftsShown, tabFind, tabFind_append, hnone]

section End

variable {s : State} {d : Change} {d16 d17 : Int} {worst : Fin 24} {a b : Nat} {w : Bool} (hs : s.Still)
  (hrun : s.chip.wear.measRun = true) (hreq : s.chip.on DRG_AGE_STAT.MEAS_REQ 0 = false) (ha : a = min 255 d16.toNat)
  (hb : b = min 255 d17.toNat)
  (hw : w = decide (s.chip.get DRG_AGE_CFG.DRIFT_MAX 0 < a ∨ s.chip.get DRG_AGE_CFG.DRIFT_MAX 0 < b))
include hs hrun hreq ha hb

/-- A measurement that runs ends, and no other has been asked for. -/
theorem Effect.ageMeasEnd (h : d.Of s.chip (s.chip.driftsPlanned a b worst).wearWarn) (hr : d.resets = [])
    (hn : ∀ e ∈ d.regs, e.1.fld ≠ DRG_AGE_STAT.MEAS_REQ) : Effect (.ageMeasEnd d16 d17 worst) s d := by
  subst ha hb
  refine Effect.of_run (f := fun c => c.measDone d16 d17 worst.val) rfl hs (h.eq ?_)
  have hkept : ((s.chip.driftsPlanned (min 255 d16.toNat) (min 255 d17.toNat) worst).wearWarn).on DRG_AGE_STAT.MEAS_REQ 0 = false := by
    rw [← hreq]
    unfold Chip.on
    rw [h.reg, Change.reg_of_ne hr hn]
  rw [Chip.measDone_eq hrun d16 d17 worst rfl, if_neg (by simp [hkept])]

include hw

/-- The drifts are near those of the last plan, and there is nothing to report. -/
theorem Effect.ageMeasEnd_quiet (hnear : s.chip.driftFar a b = false) (hq : w = false ∨ s.chip.wear.warned = true) :
    Effect (.ageMeasEnd d16 d17 worst) s
      { driftsShown s.chip a b worst with
        regs := (⟨DRG_WEAR_STAT.WEAR_WARN, 0⟩, w.toNat) :: (driftsShown s.chip a b worst).regs } := by
  have ha' : a ≤ 255 := ha ▸ min_le_left _ _
  have hb' : b ≤ 255 := hb ▸ min_le_left _ _
  have hshown := s.chip.showDrifts_of ha' hb' worst.isLt
  obtain ⟨hga, hgb⟩ := Chip.get_showDrifts (c := s.chip) ha' hb' worst.isLt
  have hworn := ((driftsShown_planned s.chip a b worst).worn hshown hga hgb).trans hw.symm
  refine Effect.ageMeasEnd hs hrun hreq ha hb ?_ rfl (by simp [driftsShown])
  rw [Chip.driftsPlanned_near hnear, ← hworn]
  exact hshown.wearWarn_quiet (by rwa [hworn])

/-- They are near, and one exceeds DRIFT_MAX for the first time in this power-up. -/
theorem Effect.ageMeasEnd_warns (hnear : s.chip.driftFar a b = false) (hworn : w = true) (hnew : s.chip.wear.warned = false) :
    Effect (.ageMeasEnd d16 d17 worst) s
      { driftsShown s.chip a b worst with
        regs := (⟨DRG_WEAR_STAT.WEAR_WARN, 0⟩, w.toNat) :: (driftsShown s.chip a b worst).regs,
        wear := some { s.chip.wear with measRun := false, writePend := true, warned := true },
        events := [⟨0x0C, if s.chip.get DRG_AGE_CFG.DRIFT_MAX 0 < a then 16 else 17, 0, false⟩] } := by
  have ha' : a ≤ 255 := ha ▸ min_le_left _ _
  have hb' : b ≤ 255 := hb ▸ min_le_left _ _
  have hd := driftsShown_planned s.chip a b worst
  have hshown := s.chip.showDrifts_of ha' hb' worst.isLt
  obtain ⟨hga, hgb⟩ := Chip.get_showDrifts (c := s.chip) ha' hb' worst.isLt
  have hw' := (hd.worn hshown hga hgb).trans hw.symm
  have hfirst := hshown.wearWarn_first (hw'.trans hworn) hnew
  rw [hw', hd.get hshown (by decide), hga] at hfirst
  refine Effect.ageMeasEnd hs hrun hreq ha hb ?_ rfl (by simp [driftsShown])
  rw [Chip.driftsPlanned_near hnear]
  exact hfirst

/-- A drift is far from that of the last plan, and neither exceeds DRIFT_MAX. -/
theorem Effect.ageMeasEnd_replans (hfar : s.chip.driftFar a b = true) (hq : w = false) {legs : List (Key × Nat)}
    (hlegs : LegFactors legs)
    (h : (replanned s.chip a b worst legs).Of s.chip (s.chip.showDrifts a b worst).replan) :
    Effect (.ageMeasEnd d16 d17 worst) s (measReplanned s.chip a b worst w legs) := by
  have hd := replanned_planned s.chip a b worst hlegs
  obtain ⟨hga, hgb⟩ := get_replanned hlegs h
  have hworn := (hd.worn h hga hgb).trans hw.symm
  have hquiet := h.wearWarn_quiet (.inl (hworn.trans hq))
  rw [hworn] at hquiet
  have hreq' : ∀ e ∈ (measReplanned s.chip a b worst w legs).regs, e.1.fld ≠ DRG_AGE_STAT.MEAS_REQ := by
    simpa [measReplanned, driftsShown, or_imp, forall_and] using fun key v he => hlegs.ne (f := DRG_AGE_STAT.MEAS_REQ) (by decide) (key, v) he
  refine Effect.ageMeasEnd hs hrun hreq ha hb ?_ rfl hreq'
  rw [Chip.driftsPlanned_far hfar]
  refine hquiet.regs_find fun k => ?_
  have hne : ∀ e ∈ legs, e.1 ≠ (⟨DRG_WEAR_STAT.WEAR_WARN, 0⟩ : Key) := fun e he hk =>
    hlegs.ne (f := DRG_WEAR_STAT.WEAR_WARN) (by decide) e he (congrArg Key.fld hk)
  refine Eq.trans ?_ (tabFind_move ?_ (driftsShown s.chip a b worst).regs k)
  · simp [replanned, timesPlanned, driftsRounded]
  · simpa [or_imp, forall_and] using fun key v he => hne (key, v) he

end End

theorem Chip.driftFar_iff (c : Chip) (a b : Nat) :
    c.driftFar a b = true ↔ c.wear.lastPlan16 + 5 ≤ a ∨ a + 5 ≤ c.wear.lastPlan16 ∨ c.wear.lastPlan17 + 5 ≤ b ∨ b + 5 ≤ c.wear.lastPlan17 := by
  simp only [Chip.driftFar, Bool.or_eq_true, decide_eq_true_eq]
  omega

theorem Chip.driftFar_eq_false (c : Chip) (a b : Nat) :
    c.driftFar a b = false ↔ a < c.wear.lastPlan16 + 5 ∧ c.wear.lastPlan16 < a + 5 ∧ b < c.wear.lastPlan17 + 5 ∧ c.wear.lastPlan17 < b + 5 := by
  rw [← Bool.not_eq_true, Chip.driftFar_iff]
  omega

/-! ## O38: ageing and the planner -/

section Commands

variable {s : State} {p : Path} (hs : s.Still)
include hs

theorem Effect.agePeriodExpiry_starts (hrun : s.chip.wear.measRun = false) (hup : s.chip.domUp 16 = true) :
    Effect (.agePeriodExpiry) s
      { regs := [(⟨DRG_AGE_STAT.MEAS_REQ, 0⟩, 0), (⟨DRG_AGE_STAT.MEAS_BUSY, 0⟩, 1)],
        wear := some { s.chip.wear with measRun := true } } :=
  Effect.of_run rfl hs ((Change.Of.refl s.chip).measStart.eq (if_neg (by rw [hup]; simpa using hrun)))

theorem Effect.agePeriodExpiry_runs (hrun : s.chip.wear.measRun = true) : Effect (.agePeriodExpiry) s {} :=
  Effect.of_run rfl hs ((Change.Of.refl s.chip).eq (if_pos (by simp [hrun])))

theorem Effect.ageMeasReq {d : Change} (hserved : s.chip.served p blkDRG true false = true) (h : d.Of s.chip s.chip.measWrite) :
    Effect (.ageMeasReq p) s d :=
  Effect.of_drgWrite ⟨hs, hserved, rfl⟩ rfl h

end Commands

/-- The change that a measurement with a re-plan makes, where the greater drift is a whole number of units of TGT. -/
theorem measReplanned_even {c : Chip} {a b : Nat} (heven : max a b % 2 = 0) (worst : Nat) (w : Bool) (legs : List (Key × Nat)) :
    measReplanned c a b worst w legs =
      { regs := legs ++ [(⟨DRG_PLAN_STAT.REPLANS, 0⟩, (c.get DRG_PLAN_STAT.REPLANS 0 + 1) % 256),
            (⟨FLU_LANE_TMO.TMO, 0⟩, min 255 ((c.get DRG_AGE_CFG.TMO_BASE 0 * 5 * (1000 + a) + 3999) / 4000)),
            (⟨DRG_PLAN_STAT.TGT, 0⟩, min 255 (c.get DRG_AVS_CFG.TGT_BASE 0 + max a b / 2))] ++
          (⟨DRG_WEAR_STAT.WEAR_WARN, 0⟩, w.toNat) :: (driftsShown c a b worst).regs,
        wear := some { c.wear with measRun := false, writePend := true, lastPlan16 := a, lastPlan17 := b } } := by
  simp [measReplanned, replanned, timesPlanned, driftsRounded, driftsShown, Chip.planHalf, heven]

/-- And where half a unit is rounded. -/
theorem measReplanned_odd {c : Chip} {a b : Nat} (hodd : max a b % 2 = 1) (worst : Nat) (w : Bool) (legs : List (Key × Nat)) :
    measReplanned c a b worst w legs =
      { regs := legs ++ [(⟨DRG_PLAN_STAT.REPLANS, 0⟩, (c.get DRG_PLAN_STAT.REPLANS 0 + 1) % 256),
            (⟨FLU_LANE_TMO.TMO, 0⟩, min 255 ((c.get DRG_AGE_CFG.TMO_BASE 0 * 5 * (1000 + a) + 3999) / 4000)),
            (⟨DRG_PLAN_STAT.TGT, 0⟩, min 255 (c.get DRG_AVS_CFG.TGT_BASE 0 + (max a b / 2 + Config.freeNat c.free % 2)))] ++
          (⟨DRG_WEAR_STAT.WEAR_WARN, 0⟩, w.toNat) :: (driftsShown c a b worst).regs,
        wear := some { c.wear with measRun := false, writePend := true, lastPlan16 := a, lastPlan17 := b },
        free := some (c.free + 1) } := by
  simp [measReplanned, replanned, timesPlanned, driftsRounded, driftsShown, Chip.planHalf, Chip.freeVal, hodd]

/-- Settles O38: a measurement shows its drifts, re-plans where one is far from that of the last plan, and warns where one exceeds
DRIFT_MAX. -/
theorem ageingAndPlanner : Obligations.AgeingAndPlanner := by
  unfold Obligations.AgeingAndPlanner
  intro s hs
  refine ⟨Effect.agePeriodExpiry_starts hs, Effect.agePeriodExpiry_runs hs,
    fun p hserved hrun hup => Effect.ageMeasReq hs hserved (.measWrite_starts hrun hup),
    fun p hserved h => Effect.ageMeasReq hs hserved (.measWrite_waits h),
    fun d16 d17 worst a b w hrun hreq ha hb hw hnear hq =>
      Effect.ageMeasEnd_quiet hs hrun hreq ha hb hw ((s.chip.driftFar_eq_false a b).2 hnear) hq,
    fun d16 d17 worst a b w hrun hreq ha hb hw hnear hworn hnew =>
      Effect.ageMeasEnd_warns hs hrun hreq ha hb hw ((s.chip.driftFar_eq_false a b).2 hnear) hworn hnew,
    fun d16 d17 worst a b w hrun hreq ha hb hw hfar hq hup heven hnone => ?_,
    fun d16 d17 worst a b w hrun hreq ha hb hw hfar hq hup hodd hnone => ?_,
    fun d16 d17 worst a b k hi lo w hrun hreq ha hb hw hfar hq hup heven hon hlegs hothers => ?_⟩
  all_goals
    have ha' : a ≤ 255 := ha ▸ min_le_left _ _
    have hb' : b ≤ 255 := hb ▸ min_le_left _ _
    have hfar' := (s.chip.driftFar_iff a b).2 hfar
  · have he := Effect.ageMeasEnd_replans hs hrun hreq ha hb hw hfar' hq (legs := []) (by simp [LegFactors])
      (Chip.replan_of_none ha' hb' worst.isLt hup hnone)
    rwa [measReplanned_even heven] at he
  · have he := Effect.ageMeasEnd_replans hs hrun hreq ha hb hw hfar' hq (legs := []) (by simp [LegFactors])
      (Chip.replan_of_none ha' hb' worst.isLt hup hnone)
    rwa [measReplanned_odd hodd] at he
  · have he := Effect.ageMeasEnd_replans hs hrun hreq ha hb hw hfar' hq (by simp [LegFactors])
      (Chip.replan_of_bank ha' hb' worst.isLt hup k.isLt hon hothers)
    have hfactors : (hi, lo) = s.chip.factors k := by
      rw [hlegs, Chip.factors]
      cases fracMedian (s.chip.legRatios k) with
      | none => rfl
      | some m =>
        obtain ⟨p, q⟩ := m
        simp only [Nat.mul_add, ← Nat.mul_assoc, Nat.reduceMul]
    rw [← hfactors, measReplanned_even heven] at he
    exact he

end Sys2Proof.Machine
end
